-- ==== Sys2Proof/Word.lean ====
section
/-! DEFINITION. The word types of the Q4 (R6) and the shape of its sparse stores. -/

namespace Sys2Proof

/-- A byte (R6). -/
abbrev Byte := BitVec 8
/-- An instruction word, an FP32 pattern or a vector element (R6). -/
abbrev Half32 := BitVec 32
/-- A doubleword: an x register, an address, a CSR (R6, R135). -/
abbrev Word := BitVec 64
/-- A 5-bit register field (R135, R138). -/
abbrev R5 := BitVec 5
/-- A 3-bit register, slot or scope field (R135, R138). -/
abbrev R3 := BitVec 3

/-- A sparse store: keys strictly rising. -/
abbrev Dict (α : Type) := List (Nat × α)
/-- A sparse store of words of `w` bits: an unlisted key reads as zero, and no entry is zero. -/
abbrev Sparse (w : Nat) := Dict (BitVec w)
/-- A byte memory: (address, byte) pairs in canonical form, an unlisted address reads as zero. -/
abbrev Memory := Sparse 8

/-- A logical position of the pod: ((module × 4 + die) × 16 + row) × 16 + column (R16, R17, R25). -/
abbrev CoreId := Nat
/-- A die of the pod: module × 4 + die. -/
abbrev DieId := Nat
/-- A quad of the pod: die × 64 + (row / 2) × 8 + column / 2 (R17). -/
abbrev QuadId := Nat

end Sys2Proof
end

