-- ==== Sys2Proof/Config.lean ====
section
/-! DEFINITION. What an implementation fixes and the values the spec leaves open: constants with no body, so that nothing can
be proved of their values. Each is named in the assumption log. -/

namespace Sys2Proof.Config

/-- Cycles that pass in a step beyond the first: latencies are not architectural (R14, R40). -/
opaque elapsed : Nat → Nat
/-- A free value of a write, read or choice that the spec leaves open, by the number of the draw. -/
opaque freeNat : Nat → Nat
/-- A free yes or no, by the number of the draw. -/
opaque freeBool : Nat → Bool
/-- Where the hardware has spilled a page of a job's scratchpad view at a quad: a physical address of its own reserved HBM, or nothing
(R20, R107). By ASID, quad and page of the view. -/
opaque spillPage : Nat → Nat → Nat → Option Nat
/-- What a read of a firmware-state CSR returns at firmware level (R136: used only by firmware). -/
opaque firmwareCsr : Nat → Word
/-- Where the die steward's firmware takes its traps (R322). -/
opaque firmwareHandler : Word
/-- The boot ROM's verdicts on a flash image (R363): key digest, signature, security version. -/
opaque keyDigestOk : Memory → Bool
opaque signatureOk : Memory → Bool
opaque imageSvn : Memory → Nat
/-- The fused minimum security version (R363). -/
opaque minSvn : Nat
/-- Whether the hub die's self-test passes at a reset (R363, code 0x13). -/
opaque selfTestOk : Nat → Bool
/-- The length of a flash image in bytes (R363, R365). -/
opaque imageSize : Memory → Nat
/-- SM3 of the boot ROM (R365). -/
opaque romDigest : Nat
/-- How the bring-up configuration is written down for its digest (R365): CXL decoder ranges, `hbperiod` by position, HOSTORD, positions that are
permanently fenced. -/
opaque configBytes : List (Nat × Nat) → List Nat → Bool → List Nat → List Nat
/-- The module serial number (R365). -/
opaque serial : Nat → Nat
/-- The identity key's signature over a report (R364, R365). -/
opaque signature : Nat → Nat
/-- The bytes of the module's certificate chain (R364). -/
opaque idChain : Nat → List Nat
/-- Firmware's CXL decoder ranges after bring-up (R120). -/
opaque hdmRanges : Nat → List (Nat × Nat)
/-- The store that holds the CXL memory which a module reaches at a 4 KiB page of its physical addresses: modules may share devices (R108, R120). -/
opaque cxlStore : Nat → Nat → Nat
/-- Positions whose physical core fails the self-test of a reset (R368). -/
opaque failedPositions : Nat → List Nat

end Sys2Proof.Config
end

