-- ==== Sys2Proof/Syntax.lean ====
section
/-! DEFINITION. The instructions and steps of the Q4: one constructor per row of spec/opcode_table.json.
The first part is the instructions (R128, R139 to R145), with one argument per field of their encoding; the second part is
the machine's own steps, which have no encoding: their arguments name the agent and the object they act on. -/

namespace Sys2Proof

/-- The register windows of a module: CTLWIN (R71) and MGMTWIN (R360). -/
inductive Window where
  | ctl
  | mgmt
  deriving DecidableEq, Repr

/-- One row of the table. `rm` is the base rounding-mode field, `ty` an element type (R141), `pg` a governing predicate
(R192), `op` a reduction operation and `sc` a scope (R139, R286). In the steps, `m` is a module, `c` a logical position
(`CoreId`), `k` a context, `n` the place of a message among those in flight, `q` a queue. -/
inductive Instr where
  | lui (rd : R5) (imm : BitVec 20)
  | auipc (rd : R5) (imm : BitVec 20)
  | addi (rd rs1 : R5) (imm : BitVec 12)
  | slti (rd rs1 : R5) (imm : BitVec 12)
  | sltiu (rd rs1 : R5) (imm : BitVec 12)
  | xori (rd rs1 : R5) (imm : BitVec 12)
  | ori (rd rs1 : R5) (imm : BitVec 12)
  | andi (rd rs1 : R5) (imm : BitVec 12)
  | slli (rd rs1 : R5) (sh : BitVec 6)
  | srli (rd rs1 : R5) (sh : BitVec 6)
  | srai (rd rs1 : R5) (sh : BitVec 6)
  | add (rd rs1 rs2 : R5)
  | sub (rd rs1 rs2 : R5)
  | sll (rd rs1 rs2 : R5)
  | slt (rd rs1 rs2 : R5)
  | sltu (rd rs1 rs2 : R5)
  | xor (rd rs1 rs2 : R5)
  | srl (rd rs1 rs2 : R5)
  | sra (rd rs1 rs2 : R5)
  | or (rd rs1 rs2 : R5)
  | and (rd rs1 rs2 : R5)
  | addiw (rd rs1 : R5) (imm : BitVec 12)
  | slliw (rd rs1 : R5) (sh : R5)
  | srliw (rd rs1 : R5) (sh : R5)
  | sraiw (rd rs1 : R5) (sh : R5)
  | addw (rd rs1 rs2 : R5)
  | subw (rd rs1 rs2 : R5)
  | sllw (rd rs1 rs2 : R5)
  | srlw (rd rs1 rs2 : R5)
  | sraw (rd rs1 rs2 : R5)
  | mul (rd rs1 rs2 : R5)
  | mulh (rd rs1 rs2 : R5)
  | mulhsu (rd rs1 rs2 : R5)
  | mulhu (rd rs1 rs2 : R5)
  | div (rd rs1 rs2 : R5)
  | divu (rd rs1 rs2 : R5)
  | rem (rd rs1 rs2 : R5)
  | remu (rd rs1 rs2 : R5)
  | mulw (rd rs1 rs2 : R5)
  | divw (rd rs1 rs2 : R5)
  | divuw (rd rs1 rs2 : R5)
  | remw (rd rs1 rs2 : R5)
  | remuw (rd rs1 rs2 : R5)
  /-- `imm` is offset[20:1]. -/
  | jal (rd : R5) (imm : BitVec 20)
  | jalr (rd rs1 : R5) (imm : BitVec 12)
  /-- `imm` is offset[12:1], in every branch. -/
  | beq (rs1 rs2 : R5) (imm : BitVec 12)
  | bne (rs1 rs2 : R5) (imm : BitVec 12)
  | blt (rs1 rs2 : R5) (imm : BitVec 12)
  | bge (rs1 rs2 : R5) (imm : BitVec 12)
  | bltu (rs1 rs2 : R5) (imm : BitVec 12)
  | bgeu (rs1 rs2 : R5) (imm : BitVec 12)
  | lb (rd rs1 : R5) (imm : BitVec 12)
  | lh (rd rs1 : R5) (imm : BitVec 12)
  | lw (rd rs1 : R5) (imm : BitVec 12)
  | ld (rd rs1 : R5) (imm : BitVec 12)
  | lbu (rd rs1 : R5) (imm : BitVec 12)
  | lhu (rd rs1 : R5) (imm : BitVec 12)
  | lwu (rd rs1 : R5) (imm : BitVec 12)
  | sb (rs2 rs1 : R5) (imm : BitVec 12)
  | sh (rs2 rs1 : R5) (imm : BitVec 12)
  | sw (rs2 rs1 : R5) (imm : BitVec 12)
  | sd (rs2 rs1 : R5) (imm : BitVec 12)
  | flw (fd rs1 : R5) (imm : BitVec 12)
  | fsw (fs2 rs1 : R5) (imm : BitVec 12)
  | fmaddS (fd fs1 fs2 fs3 : R5) (rm : R3)
  | fmsubS (fd fs1 fs2 fs3 : R5) (rm : R3)
  | fnmsubS (fd fs1 fs2 fs3 : R5) (rm : R3)
  | fnmaddS (fd fs1 fs2 fs3 : R5) (rm : R3)
  | faddS (fd fs1 fs2 : R5) (rm : R3)
  | fsubS (fd fs1 fs2 : R5) (rm : R3)
  | fmulS (fd fs1 fs2 : R5) (rm : R3)
  | fdivS (fd fs1 fs2 : R5) (rm : R3)
  | fsqrtS (fd fs1 : R5) (rm : R3)
  | fsgnjS (fd fs1 fs2 : R5)
  | fsgnjnS (fd fs1 fs2 : R5)
  | fsgnjxS (fd fs1 fs2 : R5)
  | fminS (fd fs1 fs2 : R5)
  | fmaxS (fd fs1 fs2 : R5)
  | feqS (rd fs1 fs2 : R5)
  | fltS (rd fs1 fs2 : R5)
  | fleS (rd fs1 fs2 : R5)
  | fclassS (rd fs1 : R5)
  | fcvtWS (rd fs1 : R5) (rm : R3)
  | fcvtWuS (rd fs1 : R5) (rm : R3)
  | fcvtLS (rd fs1 : R5) (rm : R3)
  | fcvtLuS (rd fs1 : R5) (rm : R3)
  | fcvtSW (fd rs1 : R5) (rm : R3)
  | fcvtSWu (fd rs1 : R5) (rm : R3)
  | fcvtSL (fd rs1 : R5) (rm : R3)
  | fcvtSLu (fd rs1 : R5) (rm : R3)
  | fmvXW (rd fs1 : R5)
  | fmvWX (fd rs1 : R5)
  | fence (pred succ : BitVec 4)
  | fenceTso
  | fenceI
  | ecall
  | ebreak
  | wfi
  | csrrw (rd rs1 : R5) (csr : BitVec 12)
  | csrrs (rd rs1 : R5) (csr : BitVec 12)
  | csrrc (rd rs1 : R5) (csr : BitVec 12)
  | csrrwi (rd uimm : R5) (csr : BitVec 12)
  | csrrsi (rd uimm : R5) (csr : BitVec 12)
  | csrrci (rd uimm : R5) (csr : BitVec 12)
  /-- A fetched word that is no instruction (R137, R138). -/
  | reservedEncoding (w : Half32)
  | spawn (rd rs1 rs2 : R5)
  | hexit
  | cpush (rs1 : R5)
  | cjoin (rs1 : R5)
  | yield
  | follow
  | solo
  | ssclose (op : BitVec 2) (rd rs1 : R5)
  | ssabort
  | barv (sc : R3) (op : BitVec 2) (rs1 : R5)
  | barw (sc : R3) (rd : R5)
  | baraw (sc : R3) (op : BitVec 2) (rd rs1 : R5)
  | gang (rs1 rs2 : R5)
  | vclaim (rd rs1 : R5)
  | vyield
  | lcset (lc : BitVec 2) (rs1 : R5)
  | lcget (rd : R5) (lc : BitVec 2)
  | trapret
  | trig (rs1 : R5)
  | sbwait (slot : R3)
  | rsteW (rs2 rs1 : R5) (slot : Option R3)
  | rsteD (rs2 rs1 : R5) (slot : Option R3)
  | rredAddW (rs2 rs1 : R5)
  | rredAddD (rs2 rs1 : R5)
  | rredMin (rs2 rs1 : R5)
  | rredMax (rs2 rs1 : R5)
  | rredOr (rs2 rs1 : R5)
  | rredFadd (fs2 rs1 : R5)
  | rfaa (rd rs2 rs1 : R5)
  | rcas (rd rs2 rs3 rs1 : R5)
  | rswp (rd rs2 rs1 : R5)
  | rfaao (rd rs2 rs3 rs1 : R5)
  /-- `ord` is 0 both, 1 acquire, 2 release (R286). -/
  | fenceS (sc : R3) (ord : BitVec 2)
  | ffence (sc : R3) (rs2 rs1 : R5)
  | npost (mb : BitVec 4) (rs1 : R5)
  | nget (rd : R5) (mb : BitVec 4) (pk : R3)
  | enq (q : R3) (rs1 : R5)
  | enqp (q : R3) (rs1 rs2 : R5)
  | deq (rd : R5) (q : R3)
  | hmarm (rs2 rs1 : R5)
  | hmadd (rs2 rs1 : R5)
  | hmwait (rs2 rs1 : R5)
  | rget (rd rs1 : R5)
  | rput (rs2 rs1 : R5)
  | waitf (rs2 rs1 : R5)
  | ctready (rs1 rs2 : R5)
  | vadd (ty : BitVec 2) (vd vs1 vs2 : R5) (pg : R3)
  | vsub (ty : BitVec 2) (vd vs1 vs2 : R5) (pg : R3)
  | vmul (ty : BitVec 2) (vd vs1 vs2 : R5) (pg : R3)
  | vmax (ty : BitVec 2) (vd vs1 vs2 : R5) (pg : R3)
  | vmin (ty : BitVec 2) (vd vs1 vs2 : R5) (pg : R3)
  | vabs (ty : BitVec 2) (vd vs1 : R5) (pg : R3)
  | vneg (ty : BitVec 2) (vd vs1 : R5) (pg : R3)
  | vrelu (ty : BitVec 2) (vd vs1 : R5) (pg : R3)
  | vfmaF32 (vd vs1 vs2 vs3 : R5)
  | vfmaBf16 (vd vs1 vs2 vs3 : R5)
  | vfmsF32 (vd vs1 vs2 vs3 : R5)
  | vfmsBf16 (vd vs1 vs2 vs3 : R5)
  | vsclF32 (vd vs1 fn : R5)
  | vsclBf16 (vd vs1 fn : R5)
  | baddrq (vd vs1 vs2 fn : R5)
  | vand (ty : BitVec 2) (vd vs1 vs2 : R5) (pg : R3)
  | vor (ty : BitVec 2) (vd vs1 vs2 : R5) (pg : R3)
  | vxor (ty : BitVec 2) (vd vs1 vs2 : R5) (pg : R3)
  | vshl (ty : BitVec 2) (vd vs1 vs2 : R5) (pg : R3)
  | vshr (ty : BitVec 2) (vd vs1 vs2 : R5) (pg : R3)
  | vsra (ty : BitVec 2) (vd vs1 vs2 : R5) (pg : R3)
  | vrsq (ty : BitVec 2) (vd vs1 : R5) (pg : R3)
  | vsel (ty : BitVec 2) (vd vs1 vs2 : R5) (pg : R3)
  | vcmpEq (ty : BitVec 2) (pd : R3) (vs1 vs2 : R5) (pg : R3)
  | vcmpLt (ty : BitVec 2) (pd : R3) (vs1 vs2 : R5) (pg : R3)
  | vcmpLe (ty : BitVec 2) (pd : R3) (vs1 vs2 : R5) (pg : R3)
  | vcvt (src dst : R3) (vd vs1 : R5) (pg : R3)
  | vld (vd rs1 : R5) (pg : R3)
  | vst (vs rs1 : R5) (pg : R3)
  | vlds (vd rs1 rs2 : R5) (pg : R3)
  | vsts (vs rs1 rs2 : R5) (pg : R3)
  | vldx (vd rs1 vs2 : R5) (pg : R3)
  | vstx (vs rs1 vs2 : R5) (pg : R3)
  | vpld (pd : R3) (rs1 : R5)
  | vpst (ps : R3) (rs1 : R5)
  | vredSum (ty : BitVec 2) (vd vs1 : R5) (pg : R3)
  | vredMax (ty : BitVec 2) (vd vs1 : R5) (pg : R3)
  | vredMin (ty : BitVec 2) (vd vs1 : R5) (pg : R3)
  | vbcast (vd rs1 : R5) (pg : R3)
  | vmvx (rd vs1 rs2 : R5)
  | pand (pd ps1 ps2 : R3)
  | por (pd ps1 ps2 : R3)
  | pxor (pd ps1 ps2 : R3)
  | pnot (pd ps1 : R3)
  | pmov (pd ps1 : R3)
  | pset (pd : R3) (rs1 : R5)
  | pcnt (rd : R5) (ps1 : R3)
  | mxiBf16Bf16 (rs1 rs2 n : R5)
  | mxiBf16Qt16 (rs1 rs2 n : R5)
  | mxiQt16Qt16 (rs1 rs2 n : R5)
  | mxiQt8Qt8 (rs1 rs2 n : R5)
  | mxiI8I8 (rs1 rs2 n : R5)
  | mxiI8Tern (rs1 rs2 n : R5)
  | lut3 (rd rs1 rs2 : R5) (table : BitVec 8)
  | fshl (rd rs1 rs2 rs3 : R5)
  | fshr (rd rs1 rs2 rs3 : R5)
  | popc (rd rs1 : R5)
  | clz (rd rs1 : R5)
  | ctz (rd rs1 : R5)
  | fcvtQt8S (rd fs1 : R5)
  | fcvtSQt8 (fd rs1 : R5)
  | fcvtQt16S (rd fs1 : R5)
  | fcvtSQt16 (fd rs1 : R5)
  | fcvtQt32S (rd fs1 : R5)
  | fcvtSQt32 (fd rs1 : R5)
  -- the parts of a CSR instruction that have a row of their own (R329, R356)
  | svactFault (cause : BitVec 8)
  | svactAbort (cause : BitVec 8)
  | svactClear (page : BitVec 36)
  | trread (rd : R5)
  -- writes of the host to a register window (R71 to R75)
  | qtail (m q : Nat) (v : Word)
  | qcfgWrite (m q : Nat) (v : Word)
  | jmen (m : Nat) (v : Word)
  | hostord (m : Nat) (v : Word)
  | registerWrite (m : Nat) (win : Window) (off size : Nat) (v : Word)
  | accerr (m : Nat) (win : Window) (off size : Nat) (write : Bool)
  -- the dispatcher: commands and completions (R75 to R87)
  | commandFetch (m : Nat)
  | completionWrite (m q : Nat)
  | launch (m jsn : Nat)
  | cancel (m jsn : Nat)
  | pauseAtBoundary (m jsn : Nat)
  | resume (m jsn : Nat)
  | offer (m jsn : Nat)
  | withdraw (m jsn : Nat)
  | take (m jsn : Nat)
  | release (m jsn : Nat)
  | readJournal (m jsn : Nat)
  | sync (m jsn : Nat)
  | placeJob (m jsn : Nat)
  | stagingComplete (m jsn : Nat)
  | runpflComplete (m jsn : Nat)
  /-- Rectangle `rect` of job `asid` moves to die `die` (a `DieId`) with origin (`row`, `col`). -/
  | migrateRectangle (asid rect die row col : Nat)
  -- translation, leases, memory controllers (R108 to R126)
  | pageWalk (c : CoreId) (va : Word) (write : Bool)
  | pagerPromotion (c : CoreId) (va : Word)
  | revocation (m slot : Nat)
  | revocationAck (n : Nat)
  | leaseAckTimeout (m slot : Nat)
  | dcdExtentRelease (m base len : Nat)
  | rowSparingComplete (m row : Nat)
  | rowClose (m bank : Nat)
  | bankForcedClose (m bank : Nat)
  /-- An unrecovered failure hits message `n`; `applied` says whether its write had performed. -/
  | linkFailure (n : Nat) (applied : Bool)
  -- tasks, lanes, gangs, barriers
  | poolPop (c : CoreId)
  | taskSteal (c : CoreId)
  | recordAging (c : CoreId)
  | vclaimGrant (quad : QuadId)
  | vectorCompletion (c : CoreId) (seq : Nat)
  | gangRelease (c : CoreId)
  | barrierRelease (c : CoreId) (k : Nat)
  -- engine commands; `upset` says that a soft error disturbed the checked sums (R228)
  | mma (c : CoreId) (upset : Bool)
  | mmag (c : CoreId) (upset : Bool)
  | accld (c : CoreId)
  | accst (c : CoreId)
  | accz (c : CoreId)
  | accxr (c : CoreId)
  | qfence (c : CoreId) (q : Nat)
  | signal (c : CoreId) (q : Nat)
  | cpbox (c : CoreId)
  | cppfl (c : CoreId)
  | cpstrm (c : CoreId)
  | cpclose (c : CoreId)
  | cpfill (c : CoreId)
  | cpring (c : CoreId)
  | gtrows (c : CoreId)
  | nxput (c : CoreId)
  | nxred (c : CoreId)
  | firing (c : CoreId)
  | commandCompletion (c : CoreId) (q : Nat)
  | statusEntry (c : CoreId) (q : Nat)
  -- arrivals of messages
  | eagerWriteArrival (n : Nat)
  | eagerAckArrival (n : Nat)
  | remoteRequestArrival (n : Nat)
  | responseArrival (n : Nat)
  | returned (n : Nat)
  | atomicArrival (n : Nat)
  | orderGroupArrival (n : Nat)
  | mailboxPostArrival (n : Nat)
  | ngetTimeout (c : CoreId) (k : Nat)
  | lateTrapArrival (n : Nat)
  | handlerEntry (c : CoreId) (k : Nat)
  | hostWrite (m off size : Nat) (v : Word)
  | hostRead (m off size : Nat)
  -- supersteps (R279 to R287, R331 to R342, R357, R358)
  | barrierMessage (n : Nat)
  | furtherAbortMessage (n : Nat)
  | urgentAbort (n : Nat)
  | doomNotice (n : Nat)
  | outcomeArrival (n : Nat)
  | commitApply (c : CoreId)
  | rollback (c : CoreId)
  | superstepStart (asid : Nat)
  | retirement (asid : Nat)
  | watchdog (asid : Nat)
  | qdead (c : CoreId)
  | preemptionRequest (m jsn : Nat)
  | preemptionDeadline (asid : Nat)
  | park (asid : Nat)
  -- heartbeats and fencing (R343 to R350)
  | heartbeatSend (c : CoreId)
  | heartbeatArrival (n : Nat) (crcOk : Bool)
  | missCheck (c : CoreId)
  | accusation (n : Nat)
  | accusationExpiry (c : CoreId)
  | selfTest (c : CoreId) (pass : Bool)
  | acceptance (n : Nat)
  | controlStateError (c : CoreId)
  | parity (c : CoreId) (k : Nat)
  -- collectives (R311 to R317)
  | mangleArrival (n : Nat)
  | manglePartialArrival (n : Nat)
  | mangleResultArrival (n : Nat)
  | blockQueueHandout (m asid tile : Nat)
  | mangleFailure (m : Nat)
  -- management, reset, power (R360 to R371)
  | codewrite (m : Nat)
  | poisonset (m : Nat)
  | poisonclear (m : Nat)
  | fwwrite (m : Nat)
  | fwcommit (m : Nat)
  | eventread (m : Nat)
  | counterClear (m : Nat)
  | counterFreeze (m : Nat) (freeze : Bool)
  | attestation (m : Nat)
  | warmReset (m : Nat)
  | coldReset (m : Nat)
  | d3hotEntry (m : Nat)
  | powerWindow (m watts : Nat)
  | thermalShutdown (m : Nat)
  | powerLoss (m : Nat)
  | stagingReadComplete (asid i : Nat)
  | thermalThrottle (m temp : Nat)
  /-- `uncorrectable` or else one more corrected error in the row of `pa`. -/
  | scrubbing (m pa : Nat) (uncorrectable : Bool)
  /-- A bad flit on the link of `c` from its neighbour in direction `dir` (0 N, 1 E, 2 S, 3 W). -/
  | flitCrcFailure (c : CoreId) (dir : Nat)
  | chead (m q : Nat) (v : Word)
  | badop (m : Nat) (op : BitVec 8)
  | jmerr (m : Nat)
  | leaseWindowAccess (n : Nat)
  deriving DecidableEq, Repr

end Sys2Proof
end

