-- ==== Sys2Proof/Decode.lean ====
section
/-! DEFINITION. From an instruction word to an instruction (R127, R128, R137 to R145) and back. -/

namespace Sys2Proof

/-- Why a word is no instruction (R3, R137, R138): every one of these traps ILLEGAL. -/
inductive Reject where
  /-- Bits [1:0] are not 0b11, or the word starts a longer encoding (R137). -/
  | length
  /-- A major opcode that the map marks ILLEGAL. -/
  | major
  /-- A funct3, funct7, funct2, op or sub-operation that the maps do not list. -/
  | selector
  /-- A nonzero reserved field. -/
  | reserved
  /-- A register, slot or queue number beyond its file or direction (R135, R140). -/
  | register
  /-- A scope, order, type, rounding-mode or format-pair code that is not listed. -/
  | code
  deriving DecidableEq, Repr

def fOp (w : Half32) : BitVec 7 := w.extractLsb' 0 7
def fRd (w : Half32) : R5 := w.extractLsb' 7 5
def fF3 (w : Half32) : R3 := w.extractLsb' 12 3
def fRs1 (w : Half32) : R5 := w.extractLsb' 15 5
def fRs2 (w : Half32) : R5 := w.extractLsb' 20 5
def fF7 (w : Half32) : BitVec 7 := w.extractLsb' 25 7

/-- The word with the six fields of layout XR (R138), which every format refines. -/
def pack (op : BitVec 7) (rd : R5) (f3 : R3) (rs1 rs2 : R5) (f7 : BitVec 7) : Half32 :=
  BitVec.ofNat 32 (op.toNat + 0x80 * rd.toNat + 0x1000 * f3.toNat + 0x8000 * rs1.toNat + 0x100000 * rs2.toNat
    + 0x2000000 * f7.toNat)

-- the immediates of the base formats, from and to the fields of `pack`
def immI (rs2 : R5) (f7 : BitVec 7) : BitVec 12 := f7 ++ rs2
def immLo (imm : BitVec 12) : R5 := imm.extractLsb' 0 5
def immHi (imm : BitVec 12) : BitVec 7 := imm.extractLsb' 5 7
/-- offset[12:1] of a branch: [31] is offset[12], [30:25] offset[10:5], [11:8] offset[4:1], [7] offset[11]. -/
def immB (rd : R5) (f7 : BitVec 7) : BitVec 12 :=
  f7.extractLsb' 6 1 ++ rd.extractLsb' 0 1 ++ f7.extractLsb' 0 6 ++ rd.extractLsb' 1 4
def immBRd (imm : BitVec 12) : R5 := imm.extractLsb' 0 4 ++ imm.extractLsb' 10 1
def immBF7 (imm : BitVec 12) : BitVec 7 := imm.extractLsb' 11 1 ++ imm.extractLsb' 4 6
def immU (f3 : R3) (rs1 rs2 : R5) (f7 : BitVec 7) : BitVec 20 := f7 ++ rs2 ++ rs1 ++ f3
def uF3 (imm : BitVec 20) : R3 := imm.extractLsb' 0 3
def uRs1 (imm : BitVec 20) : R5 := imm.extractLsb' 3 5
def uRs2 (imm : BitVec 20) : R5 := imm.extractLsb' 8 5
def uF7 (imm : BitVec 20) : BitVec 7 := imm.extractLsb' 13 7
/-- offset[20:1] of JAL from bits [31:12], which hold offset[20], offset[10:1], offset[11], offset[19:12]. -/
def immJ (u : BitVec 20) : BitVec 20 :=
  u.extractLsb' 19 1 ++ u.extractLsb' 0 8 ++ u.extractLsb' 8 1 ++ u.extractLsb' 9 10
def immJInv (imm : BitVec 20) : BitVec 20 :=
  imm.extractLsb' 19 1 ++ imm.extractLsb' 0 10 ++ imm.extractLsb' 10 1 ++ imm.extractLsb' 11 8

-- sub-fields of funct7 in layouts XF and XM (R138, R141, R142)
def f7Rs3 (f7 : BitVec 7) : R5 := f7.extractLsb' 2 5
def f7F2 (f7 : BitVec 7) : BitVec 2 := f7.extractLsb' 0 2
def f7Pg (f7 : BitVec 7) : R3 := f7.extractLsb' 4 3
def f7Sub (f7 : BitVec 7) : BitVec 2 := f7.extractLsb' 2 2
def f7Op (f7 : BitVec 7) : BitVec 4 := f7.extractLsb' 0 4
def mkF7 (rs3 : R5) (f2 : BitVec 2) : BitVec 7 := rs3 ++ f2
def mkF7P (pg : R3) (sub f2 : BitVec 2) : BitVec 7 := pg ++ sub ++ f2
def mkF7M (pg : R3) (op : BitVec 4) : BitVec 7 := pg ++ op
-- sub-fields of a 5-bit field
def lo3 (r : R5) : R3 := r.extractLsb' 0 3
def hi2 (r : R5) : BitVec 2 := r.extractLsb' 3 2
def mk5 (hi : BitVec 2) (lo : R3) : R5 := hi ++ lo
def lo4 (r : R5) : BitVec 4 := r.extractLsb' 0 4
def bit4 (r : R5) : BitVec 1 := r.extractLsb' 4 1
def mk14 (hi : BitVec 1) (lo : BitVec 4) : R5 := hi ++ lo
def lo2 (r : R5) : BitVec 2 := r.extractLsb' 0 2
def hi3 (r : R5) : R3 := r.extractLsb' 2 3
def mk32 (hi : R3) (lo : BitVec 2) : R5 := hi ++ lo

/-- The value when the condition holds, else a rejection. -/
def need (b : Bool) (r : Reject) (i : Instr) : Except Reject Instr := if b then .ok i else .error r

/-- A listed rounding mode: 0 to 4, or 7 for dynamic (RISC-V F 2.2). -/
def rmOk (rm : R3) : Bool := rm != 5 && rm != 6
/-- A scope that may be encoded (R139, R286). -/
def scOk (sc : R3) : Bool := sc != 0 && sc != 7

def decLoad (rd : R5) (f3 : R3) (rs1 : R5) (imm : BitVec 12) : Except Reject Instr :=
  match f3.toNat with
  | 0 => .ok (.lb rd rs1 imm)
  | 1 => .ok (.lh rd rs1 imm)
  | 2 => .ok (.lw rd rs1 imm)
  | 3 => .ok (.ld rd rs1 imm)
  | 4 => .ok (.lbu rd rs1 imm)
  | 5 => .ok (.lhu rd rs1 imm)
  | 6 => .ok (.lwu rd rs1 imm)
  | _ => .error .selector

def decStore (rs2 : R5) (f3 : R3) (rs1 : R5) (imm : BitVec 12) : Except Reject Instr :=
  match f3.toNat with
  | 0 => .ok (.sb rs2 rs1 imm)
  | 1 => .ok (.sh rs2 rs1 imm)
  | 2 => .ok (.sw rs2 rs1 imm)
  | 3 => .ok (.sd rs2 rs1 imm)
  | _ => .error .selector

/-- FENCE, FENCE.TSO and FENCE.I with the fields R128 fixes: [31:28] fm, [27:24] pred, [23:20] succ. -/
def decMisc (rd : R5) (f3 : R3) (rs1 : R5) (imm : BitVec 12) : Except Reject Instr :=
  match f3.toNat with
  | 0 =>
    if rd != 0 || rs1 != 0 then .error .reserved
    else
      let fm := imm.extractLsb' 8 4
      let pred := imm.extractLsb' 4 4
      let succ := imm.extractLsb' 0 4
      if fm = 0 then .ok (.fence pred succ)
      else need (fm == 8 && pred == 3 && succ == 3) .reserved .fenceTso
  | 1 => need (rd == 0 && rs1 == 0 && imm == 0) .reserved .fenceI
  | _ => .error .selector

def fenceImm (pred succ : BitVec 4) : BitVec 12 := (0 : BitVec 4) ++ pred ++ succ

/-- A 6-bit shift amount from [25:20]; [31:26] selects the shift. -/
def shAmt (rs2 : R5) (f7 : BitVec 7) : BitVec 6 := f7.extractLsb' 0 1 ++ rs2
def shHi (f7 : BitVec 7) : BitVec 6 := f7.extractLsb' 1 6
def shRs2 (sh : BitVec 6) : R5 := sh.extractLsb' 0 5
def shF7 (hi : BitVec 6) (sh : BitVec 6) : BitVec 7 := hi ++ sh.extractLsb' 5 1

def decOpImm (rd : R5) (f3 : R3) (rs1 rs2 : R5) (f7 : BitVec 7) : Except Reject Instr :=
  match f3.toNat with
  | 0 => .ok (.addi rd rs1 (immI rs2 f7))
  | 1 => need (shHi f7 == 0) .selector (.slli rd rs1 (shAmt rs2 f7))
  | 2 => .ok (.slti rd rs1 (immI rs2 f7))
  | 3 => .ok (.sltiu rd rs1 (immI rs2 f7))
  | 4 => .ok (.xori rd rs1 (immI rs2 f7))
  | 5 =>
    if shHi f7 = 0 then .ok (.srli rd rs1 (shAmt rs2 f7))
    else need (shHi f7 == 16) .selector (.srai rd rs1 (shAmt rs2 f7))
  | 6 => .ok (.ori rd rs1 (immI rs2 f7))
  | _ => .ok (.andi rd rs1 (immI rs2 f7))

def decOpImm32 (rd : R5) (f3 : R3) (rs1 rs2 : R5) (f7 : BitVec 7) : Except Reject Instr :=
  match f3.toNat with
  | 0 => .ok (.addiw rd rs1 (immI rs2 f7))
  | 1 => need (f7 == 0) .selector (.slliw rd rs1 rs2)
  | 5 => if f7 = 0 then .ok (.srliw rd rs1 rs2) else need (f7 == 0x20) .selector (.sraiw rd rs1 rs2)
  | _ => .error .selector

def decOp (rd : R5) (f3 : R3) (rs1 rs2 : R5) (f7 : BitVec 7) : Except Reject Instr :=
  match f7.toNat, f3.toNat with
  | 0x00, 0 => .ok (.add rd rs1 rs2)
  | 0x20, 0 => .ok (.sub rd rs1 rs2)
  | 0x00, 1 => .ok (.sll rd rs1 rs2)
  | 0x00, 2 => .ok (.slt rd rs1 rs2)
  | 0x00, 3 => .ok (.sltu rd rs1 rs2)
  | 0x00, 4 => .ok (.xor rd rs1 rs2)
  | 0x00, 5 => .ok (.srl rd rs1 rs2)
  | 0x20, 5 => .ok (.sra rd rs1 rs2)
  | 0x00, 6 => .ok (.or rd rs1 rs2)
  | 0x00, 7 => .ok (.and rd rs1 rs2)
  | 0x01, 0 => .ok (.mul rd rs1 rs2)
  | 0x01, 1 => .ok (.mulh rd rs1 rs2)
  | 0x01, 2 => .ok (.mulhsu rd rs1 rs2)
  | 0x01, 3 => .ok (.mulhu rd rs1 rs2)
  | 0x01, 4 => .ok (.div rd rs1 rs2)
  | 0x01, 5 => .ok (.divu rd rs1 rs2)
  | 0x01, 6 => .ok (.rem rd rs1 rs2)
  | 0x01, 7 => .ok (.remu rd rs1 rs2)
  | _, _ => .error .selector

def decOp32 (rd : R5) (f3 : R3) (rs1 rs2 : R5) (f7 : BitVec 7) : Except Reject Instr :=
  match f7.toNat, f3.toNat with
  | 0x00, 0 => .ok (.addw rd rs1 rs2)
  | 0x20, 0 => .ok (.subw rd rs1 rs2)
  | 0x00, 1 => .ok (.sllw rd rs1 rs2)
  | 0x00, 5 => .ok (.srlw rd rs1 rs2)
  | 0x20, 5 => .ok (.sraw rd rs1 rs2)
  | 0x01, 0 => .ok (.mulw rd rs1 rs2)
  | 0x01, 4 => .ok (.divw rd rs1 rs2)
  | 0x01, 5 => .ok (.divuw rd rs1 rs2)
  | 0x01, 6 => .ok (.remw rd rs1 rs2)
  | 0x01, 7 => .ok (.remuw rd rs1 rs2)
  | _, _ => .error .selector

/-- The four fused forms: [31:27] rs3, [26:25] fmt, which is 00 for single precision. -/
def decFused (mk : R5 → R5 → R5 → R5 → R3 → Instr) (rd : R5) (f3 : R3) (rs1 rs2 : R5) (f7 : BitVec 7) : Except Reject Instr :=
  if f7F2 f7 = 0 then need (rmOk f3) .code (mk rd rs1 rs2 (f7Rs3 f7) f3) else .error .selector

def decOpFp (rd : R5) (f3 : R3) (rs1 rs2 : R5) (f7 : BitVec 7) : Except Reject Instr :=
  match f7.toNat with
  | 0x00 => need (rmOk f3) .code (.faddS rd rs1 rs2 f3)
  | 0x04 => need (rmOk f3) .code (.fsubS rd rs1 rs2 f3)
  | 0x08 => need (rmOk f3) .code (.fmulS rd rs1 rs2 f3)
  | 0x0C => need (rmOk f3) .code (.fdivS rd rs1 rs2 f3)
  | 0x2C => if rs2 = 0 then need (rmOk f3) .code (.fsqrtS rd rs1 f3) else .error .selector
  | 0x10 =>
    match f3.toNat with
    | 0 => .ok (.fsgnjS rd rs1 rs2)
    | 1 => .ok (.fsgnjnS rd rs1 rs2)
    | 2 => .ok (.fsgnjxS rd rs1 rs2)
    | _ => .error .selector
  | 0x14 =>
    match f3.toNat with
    | 0 => .ok (.fminS rd rs1 rs2)
    | 1 => .ok (.fmaxS rd rs1 rs2)
    | _ => .error .selector
  | 0x50 =>
    match f3.toNat with
    | 0 => .ok (.fleS rd rs1 rs2)
    | 1 => .ok (.fltS rd rs1 rs2)
    | 2 => .ok (.feqS rd rs1 rs2)
    | _ => .error .selector
  | 0x60 =>
    match rs2.toNat with
    | 0 => need (rmOk f3) .code (.fcvtWS rd rs1 f3)
    | 1 => need (rmOk f3) .code (.fcvtWuS rd rs1 f3)
    | 2 => need (rmOk f3) .code (.fcvtLS rd rs1 f3)
    | 3 => need (rmOk f3) .code (.fcvtLuS rd rs1 f3)
    | _ => .error .selector
  | 0x68 =>
    match rs2.toNat with
    | 0 => need (rmOk f3) .code (.fcvtSW rd rs1 f3)
    | 1 => need (rmOk f3) .code (.fcvtSWu rd rs1 f3)
    | 2 => need (rmOk f3) .code (.fcvtSL rd rs1 f3)
    | 3 => need (rmOk f3) .code (.fcvtSLu rd rs1 f3)
    | _ => .error .selector
  | 0x70 =>
    match rs2.toNat, f3.toNat with
    | 0, 0 => .ok (.fmvXW rd rs1)
    | 0, 1 => .ok (.fclassS rd rs1)
    | _, _ => .error .selector
  | 0x78 =>
    match rs2.toNat, f3.toNat with
    | 0, 0 => .ok (.fmvWX rd rs1)
    | _, _ => .error .selector
  | _ => .error .selector

def decBranch (f3 : R3) (rs1 rs2 : R5) (imm : BitVec 12) : Except Reject Instr :=
  match f3.toNat with
  | 0 => .ok (.beq rs1 rs2 imm)
  | 1 => .ok (.bne rs1 rs2 imm)
  | 4 => .ok (.blt rs1 rs2 imm)
  | 5 => .ok (.bge rs1 rs2 imm)
  | 6 => .ok (.bltu rs1 rs2 imm)
  | 7 => .ok (.bgeu rs1 rs2 imm)
  | _ => .error .selector

def decSystem (rd : R5) (f3 : R3) (rs1 : R5) (imm : BitVec 12) : Except Reject Instr :=
  match f3.toNat with
  | 0 =>
    if rd != 0 || rs1 != 0 then .error .selector
    else
      match imm.toNat with
      | 0x000 => .ok .ecall
      | 0x001 => .ok .ebreak
      | 0x105 => .ok .wfi
      | _ => .error .selector
  | 1 => .ok (.csrrw rd rs1 imm)
  | 2 => .ok (.csrrs rd rs1 imm)
  | 3 => .ok (.csrrc rd rs1 imm)
  | 5 => .ok (.csrrwi rd rs1 imm)
  | 6 => .ok (.csrrsi rd rs1 imm)
  | 7 => .ok (.csrrci rd rs1 imm)
  | _ => .error .selector

/-- custom-0 (R139). -/
def decCustom0 (rd : R5) (f3 : R3) (rs1 rs2 : R5) (f7 : BitVec 7) : Except Reject Instr :=
  match f3.toNat, f7.toNat with
  | 0, 0 => .ok (.spawn rd rs1 rs2)
  | 0, 1 => need (rd == 0 && rs1 == 0 && rs2 == 0) .reserved .hexit
  | 0, 2 => need (rd == 0 && rs2 == 0) .reserved (.cpush rs1)
  | 0, 3 => need (rd == 0 && rs2 == 0) .reserved (.cjoin rs1)
  | 0, 4 => need (rd == 0 && rs1 == 0 && rs2 == 0) .reserved .yield
  | 0, 5 => need (rd == 0 && rs1 == 0 && rs2 == 0) .reserved .follow
  | 0, 6 => need (rd == 0 && rs1 == 0 && rs2 == 0) .reserved .solo
  | 1, 0 => need (lo3 rs2 == 0) .reserved (.ssclose (hi2 rs2) rd rs1)
  | 1, 1 => need (rd == 0 && rs1 == 0 && rs2 == 0) .reserved .ssabort
  | 1, 2 => if rd = 0 then need (scOk (lo3 rs2)) .code (.barv (lo3 rs2) (hi2 rs2) rs1) else .error .reserved
  | 1, 3 => if rs1 = 0 ∧ hi2 rs2 = 0 then need (scOk (lo3 rs2)) .code (.barw (lo3 rs2) rd) else .error .reserved
  | 1, 4 => need (scOk (lo3 rs2)) .code (.baraw (lo3 rs2) (hi2 rs2) rd rs1)
  | 1, 5 => need (rd == 0) .reserved (.gang rs1 rs2)
  | 2, 0 => need (rs2 == 0) .reserved (.vclaim rd rs1)
  | 2, 1 => need (rd == 0 && rs1 == 0 && rs2 == 0) .reserved .vyield
  | 2, 2 => if rs2 = 0 then need (hi3 rd == 0) .register (.lcset (lo2 rd) rs1) else .error .reserved
  | 2, 3 => if rs2 = 0 then need (hi3 rs1 == 0) .register (.lcget rd (lo2 rs1)) else .error .reserved
  | 3, 0 => need (rd == 0 && rs1 == 0 && rs2 == 0) .reserved .trapret
  | 3, 1 => need (rd == 0 && rs2 == 0) .reserved (.trig rs1)
  | 3, 2 => if rd = 0 ∧ rs2 = 0 then need (hi2 rs1 == 0) .register (.sbwait (lo3 rs1)) else .error .reserved
  | _, _ => .error .selector

/-- The slot of an `RSTE` from its rd field: [11] zero, [10] set when a slot is named (R140). -/
def rsteSlot (rd : R5) : Option (Option R3) :=
  match (hi2 rd).toNat with
  | 0 => if lo3 rd = 0 then some none else none
  | 1 => some (some (lo3 rd))
  | _ => none
def rsteField : Option R3 → R5
  | none => 0
  | some n => mk5 1 n

/-- custom-1 (R140). -/
def decCustom1 (rd : R5) (f3 : R3) (rs1 rs2 : R5) (f7 : BitVec 7) : Except Reject Instr :=
  match f3.toNat with
  | 0 =>
    match f7.toNat with
    | 0 => match rsteSlot rd with
      | some slot => .ok (.rsteW rs2 rs1 slot)
      | none => .error .reserved
    | 1 => match rsteSlot rd with
      | some slot => .ok (.rsteD rs2 rs1 slot)
      | none => .error .reserved
    | _ => .error .selector
  | 1 =>
    match f7.toNat with
    | 0 => need (rd == 0) .reserved (.rredAddW rs2 rs1)
    | 1 => need (rd == 0) .reserved (.rredAddD rs2 rs1)
    | 2 => need (rd == 0) .reserved (.rredMin rs2 rs1)
    | 3 => need (rd == 0) .reserved (.rredMax rs2 rs1)
    | 4 => need (rd == 0) .reserved (.rredOr rs2 rs1)
    | 5 => need (rd == 0) .reserved (.rredFadd rs2 rs1)
    | _ => .error .selector
  | 2 =>
    match (f7F2 f7).toNat with
    | 0 => need (f7Rs3 f7 == 0) .reserved (.rfaa rd rs2 rs1)
    | 1 => .ok (.rcas rd rs2 (f7Rs3 f7) rs1)
    | 2 => need (f7Rs3 f7 == 0) .reserved (.rswp rd rs2 rs1)
    | _ => .ok (.rfaao rd rs2 (f7Rs3 f7) rs1)
  | 3 =>
    match f7.toNat with
    | 0 => if rd = 0 ∧ rs1 = 0 then need (hi2 rs2 != 3 && scOk (lo3 rs2)) .code (.fenceS (lo3 rs2) (hi2 rs2)) else .error .reserved
    | 1 => if hi2 rd = 0 then need (scOk (lo3 rd)) .code (.ffence (lo3 rd) rs2 rs1) else .error .reserved
    | _ => .error .selector
  | 4 =>
    match f7.toNat with
    | 0 => if rs2 = 0 then need (bit4 rd == 0) .register (.npost (lo4 rd) rs1) else .error .reserved
    | 1 =>
      if hi2 rs2 = 0 then need (bit4 rs1 == 0 && lo3 rs2 != 0) .register (.nget rd (lo4 rs1) (lo3 rs2)) else .error .reserved
    | _ => .error .selector
  | 5 =>
    match f7.toNat with
    | 0 => if rs2 = 0 then need (hi3 rd == 0) .register (.enq (lo3 rd) rs1) else .error .reserved
    | 1 => need (hi3 rd == 0) .register (.enqp (lo3 rd) rs1 rs2)
    | 2 => if rs2 = 0 then need (rs1 == 4 || rs1 == 5 || rs1 == 6) .register (.deq rd (lo3 rs1)) else .error .reserved
    | _ => .error .selector
  | 6 =>
    match f7.toNat with
    | 0 => need (rd == 0) .reserved (.hmarm rs2 rs1)
    | 1 => need (rd == 0) .reserved (.hmadd rs2 rs1)
    | 2 => need (rd == 0) .reserved (.hmwait rs2 rs1)
    | 3 => need (rs2 == 0) .reserved (.rget rd rs1)
    | 4 => need (rd == 0) .reserved (.rput rs2 rs1)
    | 5 => need (rd == 0) .reserved (.waitf rs2 rs1)
    | _ => .error .selector
  | _ =>
    match f7.toNat with
    | 0 => need (rd == 0) .reserved (.ctready rs1 rs2)
    | _ => .error .selector

/-- Types of shifts: `.i32` and `.i8`; of `vrsq`: `.f32` and `.bf16` (R141). -/
def tyInt (ty : BitVec 2) : Bool := ty == 2 || ty == 3
def tyFp (ty : BitVec 2) : Bool := ty == 0 || ty == 1

/-- custom-2 classes 000 to 110 (R141, R143). -/
def decVector (rd : R5) (f3 : R3) (rs1 rs2 : R5) (f7 : BitVec 7) : Except Reject Instr :=
  let pg := f7Pg f7
  let ty := f7F2 f7
  match f3.toNat with
  | 0 =>
    match (f7Sub f7).toNat with
    | 0 => .ok (.vadd ty rd rs1 rs2 pg)
    | 1 => .ok (.vsub ty rd rs1 rs2 pg)
    | 2 => .ok (.vmul ty rd rs1 rs2 pg)
    | _ => .ok (.vmax ty rd rs1 rs2 pg)
  | 1 =>
    match (f7Sub f7).toNat with
    | 0 => .ok (.vmin ty rd rs1 rs2 pg)
    | 1 => need (rs2 == 0) .reserved (.vabs ty rd rs1 pg)
    | 2 => need (rs2 == 0) .reserved (.vneg ty rd rs1 pg)
    | _ => need (rs2 == 0) .reserved (.vrelu ty rd rs1 pg)
  | 2 =>
    match ty.toNat with
    | 0 => .ok (.vfmaF32 rd rs1 rs2 (f7Rs3 f7))
    | 1 => .ok (.vfmaBf16 rd rs1 rs2 (f7Rs3 f7))
    | 2 => .ok (.vfmsF32 rd rs1 rs2 (f7Rs3 f7))
    | _ => .ok (.vfmsBf16 rd rs1 rs2 (f7Rs3 f7))
  | 3 =>
    match ty.toNat with
    | 0 => need (rs2 == 0) .reserved (.vsclF32 rd rs1 (f7Rs3 f7))
    | 1 => need (rs2 == 0) .reserved (.vsclBf16 rd rs1 (f7Rs3 f7))
    | 2 => .ok (.baddrq rd rs1 rs2 (f7Rs3 f7))
    | _ => .error .selector
  | 4 =>
    match (f7Sub f7).toNat with
    | 0 => .ok (.vand ty rd rs1 rs2 pg)
    | 1 => .ok (.vor ty rd rs1 rs2 pg)
    | 2 => .ok (.vxor ty rd rs1 rs2 pg)
    | _ => need (tyInt ty) .code (.vshl ty rd rs1 rs2 pg)
  | 5 =>
    match (f7Sub f7).toNat with
    | 0 => need (tyInt ty) .code (.vshr ty rd rs1 rs2 pg)
    | 1 => need (tyInt ty) .code (.vsra ty rd rs1 rs2 pg)
    | 2 => if rs2 = 0 then need (tyFp ty) .code (.vrsq ty rd rs1 pg) else .error .reserved
    | _ => .ok (.vsel ty rd rs1 rs2 pg)
  | _ =>
    match (f7Sub f7).toNat with
    | 0 => need (hi2 rd == 0) .register (.vcmpEq ty (lo3 rd) rs1 rs2 pg)
    | 1 => need (hi2 rd == 0) .register (.vcmpLt ty (lo3 rd) rs1 rs2 pg)
    | 2 => need (hi2 rd == 0) .register (.vcmpLe ty (lo3 rd) rs1 rs2 pg)
    -- [26:24] source, [23:21] destination, [20] zero
    | _ => need (rs2.extractLsb' 0 1 == 0) .reserved
      (.vcvt (ty ++ rs2.extractLsb' 4 1) (rs2.extractLsb' 1 3) rd rs1 pg)

def cvtF2 (src : R3) : BitVec 2 := src.extractLsb' 1 2
def cvtRs2 (src dst : R3) : R5 := src.extractLsb' 0 1 ++ dst ++ (0 : BitVec 1)

/-- custom-2 class 111, layout XM (R142). -/
def decMemory (rd : R5) (rs1 rs2 : R5) (f7 : BitVec 7) : Except Reject Instr :=
  let pg := f7Pg f7
  match (f7Op f7).toNat with
  | 0x0 => need (rs2 == 0) .reserved (.vld rd rs1 pg)
  | 0x1 => need (rs2 == 0) .reserved (.vst rd rs1 pg)
  | 0x2 => .ok (.vlds rd rs1 rs2 pg)
  | 0x3 => .ok (.vsts rd rs1 rs2 pg)
  | 0x4 => .ok (.vldx rd rs1 rs2 pg)
  | 0x5 => .ok (.vstx rd rs1 rs2 pg)
  | 0x6 => if pg = 0 ∧ rs2 = 0 then need (hi2 rd == 0) .register (.vpld (lo3 rd) rs1) else .error .reserved
  | 0x7 => if pg = 0 ∧ rs2 = 0 then need (hi2 rd == 0) .register (.vpst (lo3 rd) rs1) else .error .reserved
  | 0x8 =>
    if rs2.extractLsb' 2 1 = 0 then
      match (hi2 rs2).toNat with
      | 0 => .ok (.vredSum (lo2 rs2) rd rs1 pg)
      | 1 => .ok (.vredMax (lo2 rs2) rd rs1 pg)
      | 2 => .ok (.vredMin (lo2 rs2) rd rs1 pg)
      | _ => .error .selector
    else .error .reserved
  | 0x9 => need (rs2 == 0) .reserved (.vbcast rd rs1 pg)
  | 0xA => need (pg == 0) .reserved (.vmvx rd rs1 rs2)
  | 0xB =>
    match rs2.toNat with
    | 0 => need (hi2 rd == 0 && hi2 rs1 == 0) .register (.pand (lo3 rd) (lo3 rs1) pg)
    | 1 => need (hi2 rd == 0 && hi2 rs1 == 0) .register (.por (lo3 rd) (lo3 rs1) pg)
    | 2 => need (hi2 rd == 0 && hi2 rs1 == 0) .register (.pxor (lo3 rd) (lo3 rs1) pg)
    | 3 => if pg = 0 then need (hi2 rd == 0 && hi2 rs1 == 0) .register (.pnot (lo3 rd) (lo3 rs1)) else .error .reserved
    | 4 => if pg = 0 then need (hi2 rd == 0 && hi2 rs1 == 0) .register (.pmov (lo3 rd) (lo3 rs1)) else .error .reserved
    | 5 => if pg = 0 then need (hi2 rd == 0) .register (.pset (lo3 rd) rs1) else .error .reserved
    | 6 => if pg = 0 then need (hi2 rs1 == 0) .register (.pcnt rd (lo3 rs1)) else .error .reserved
    | _ => .error .selector
  | _ => .error .selector

def redRs2 (kind ty : BitVec 2) : R5 := kind ++ (0 : BitVec 1) ++ ty

/-- custom-3 (R144, R145). -/
def decCustom3 (rd : R5) (f3 : R3) (rs1 rs2 : R5) (f7 : BitVec 7) : Except Reject Instr :=
  match f3.toNat with
  | 0 =>
    if f7F2 f7 = 0 then
      match rd.toNat with
      | 1 => .ok (.mxiBf16Bf16 rs1 rs2 (f7Rs3 f7))
      | 2 => .ok (.mxiBf16Qt16 rs1 rs2 (f7Rs3 f7))
      | 3 => .ok (.mxiQt16Qt16 rs1 rs2 (f7Rs3 f7))
      | 4 => .ok (.mxiQt8Qt8 rs1 rs2 (f7Rs3 f7))
      | 5 => .ok (.mxiI8I8 rs1 rs2 (f7Rs3 f7))
      | 6 => .ok (.mxiI8Tern rs1 rs2 (f7Rs3 f7))
      | _ => .error .code
    else .error .selector
  | 2 => .ok (.lut3 rd rs1 rs2 ((0 : BitVec 1) ++ f7))
  | 3 => .ok (.lut3 rd rs1 rs2 ((1 : BitVec 1) ++ f7))
  | 4 =>
    match (f7F2 f7).toNat with
    | 0 => .ok (.fshl rd rs1 rs2 (f7Rs3 f7))
    | 1 => .ok (.fshr rd rs1 rs2 (f7Rs3 f7))
    | _ => .error .selector
  | 5 =>
    match f7.toNat with
    | 0 => need (rs2 == 0) .reserved (.popc rd rs1)
    | 1 => need (rs2 == 0) .reserved (.clz rd rs1)
    | 2 => need (rs2 == 0) .reserved (.ctz rd rs1)
    | _ => .error .selector
  | 6 =>
    match f7.toNat with
    | 0 => need (rs2 == 0) .reserved (.fcvtQt8S rd rs1)
    | 1 => need (rs2 == 0) .reserved (.fcvtSQt8 rd rs1)
    | 2 => need (rs2 == 0) .reserved (.fcvtQt16S rd rs1)
    | 3 => need (rs2 == 0) .reserved (.fcvtSQt16 rd rs1)
    | 4 => need (rs2 == 0) .reserved (.fcvtQt32S rd rs1)
    | 5 => need (rs2 == 0) .reserved (.fcvtSQt32 rd rs1)
    | _ => .error .selector
  | _ => .error .selector

def lutF3 (t : BitVec 8) : R3 := (1 : BitVec 2) ++ t.extractLsb' 7 1
def lutF7 (t : BitVec 8) : BitVec 7 := t.extractLsb' 0 7

/-- The opcode map (R137) over the six fields of a word. -/
def decodeFields (op : BitVec 7) (rd : R5) (f3 : R3) (rs1 rs2 : R5) (f7 : BitVec 7) : Except Reject Instr :=
  match op.toNat with
  | 0x03 => decLoad rd f3 rs1 (immI rs2 f7)
  | 0x07 => need (f3 == 2) .selector (.flw rd rs1 (immI rs2 f7))
  | 0x0B => decCustom0 rd f3 rs1 rs2 f7
  | 0x0F => decMisc rd f3 rs1 (immI rs2 f7)
  | 0x13 => decOpImm rd f3 rs1 rs2 f7
  | 0x17 => .ok (.auipc rd (immU f3 rs1 rs2 f7))
  | 0x1B => decOpImm32 rd f3 rs1 rs2 f7
  | 0x23 => decStore rs2 f3 rs1 (immI rd f7)
  | 0x27 => need (f3 == 2) .selector (.fsw rs2 rs1 (immI rd f7))
  | 0x2B => decCustom1 rd f3 rs1 rs2 f7
  | 0x33 => decOp rd f3 rs1 rs2 f7
  | 0x37 => .ok (.lui rd (immU f3 rs1 rs2 f7))
  | 0x3B => decOp32 rd f3 rs1 rs2 f7
  | 0x43 => decFused .fmaddS rd f3 rs1 rs2 f7
  | 0x47 => decFused .fmsubS rd f3 rs1 rs2 f7
  | 0x4B => decFused .fnmsubS rd f3 rs1 rs2 f7
  | 0x4F => decFused .fnmaddS rd f3 rs1 rs2 f7
  | 0x53 => decOpFp rd f3 rs1 rs2 f7
  | 0x5B => if f3 = 7 then decMemory rd rs1 rs2 f7 else decVector rd f3 rs1 rs2 f7
  | 0x63 => decBranch f3 rs1 rs2 (immB rd f7)
  | 0x67 => need (f3 == 0) .selector (.jalr rd rs1 (immI rs2 f7))
  | 0x6F => .ok (.jal rd (immJ (immU f3 rs1 rs2 f7)))
  | 0x73 => decSystem rd f3 rs1 (immI rs2 f7)
  | 0x7B => decCustom3 rd f3 rs1 rs2 f7
  | n => .error (if n % 4 = 3 ∧ n % 32 ≠ 31 then .major else .length)

/-- A word as an instruction, or the reason why it is none. -/
def classify (w : Half32) : Except Reject Instr :=
  decodeFields (fOp w) (fRd w) (fF3 w) (fRs1 w) (fRs2 w) (fF7 w)

/-- Decoding of a fetched word: one that is no instruction is the row RESERVED_ENCODING, which traps ILLEGAL (R3, R137). -/
def decode (w : Half32) : Instr :=
  match classify w with
  | .ok i => i
  | .error _ => .reservedEncoding w

/-- Decoding of bytes as they stand in memory: one little-endian word of four bytes, and the bytes after it. -/
def decodeBytes : List Byte → Option (Instr × List Byte)
  | b0 :: b1 :: b2 :: b3 :: rest =>
    some (decode (BitVec.ofNat 32 (b0.toNat + 256 * b1.toNat + 65536 * b2.toNat + 16777216 * b3.toNat)), rest)
  | _ => none

/-- The word of an instruction (R128, R139 to R145); zero for a step of the machine, which has none. -/
def encode : Instr → Half32
  | .lui rd i => pack 0x37 rd (uF3 i) (uRs1 i) (uRs2 i) (uF7 i)
  | .auipc rd i => pack 0x17 rd (uF3 i) (uRs1 i) (uRs2 i) (uF7 i)
  | .addi rd rs1 i => pack 0x13 rd 0 rs1 (immLo i) (immHi i)
  | .slti rd rs1 i => pack 0x13 rd 2 rs1 (immLo i) (immHi i)
  | .sltiu rd rs1 i => pack 0x13 rd 3 rs1 (immLo i) (immHi i)
  | .xori rd rs1 i => pack 0x13 rd 4 rs1 (immLo i) (immHi i)
  | .ori rd rs1 i => pack 0x13 rd 6 rs1 (immLo i) (immHi i)
  | .andi rd rs1 i => pack 0x13 rd 7 rs1 (immLo i) (immHi i)
  | .slli rd rs1 sh => pack 0x13 rd 1 rs1 (shRs2 sh) (shF7 0 sh)
  | .srli rd rs1 sh => pack 0x13 rd 5 rs1 (shRs2 sh) (shF7 0 sh)
  | .srai rd rs1 sh => pack 0x13 rd 5 rs1 (shRs2 sh) (shF7 16 sh)
  | .add rd rs1 rs2 => pack 0x33 rd 0 rs1 rs2 0
  | .sub rd rs1 rs2 => pack 0x33 rd 0 rs1 rs2 0x20
  | .sll rd rs1 rs2 => pack 0x33 rd 1 rs1 rs2 0
  | .slt rd rs1 rs2 => pack 0x33 rd 2 rs1 rs2 0
  | .sltu rd rs1 rs2 => pack 0x33 rd 3 rs1 rs2 0
  | .xor rd rs1 rs2 => pack 0x33 rd 4 rs1 rs2 0
  | .srl rd rs1 rs2 => pack 0x33 rd 5 rs1 rs2 0
  | .sra rd rs1 rs2 => pack 0x33 rd 5 rs1 rs2 0x20
  | .or rd rs1 rs2 => pack 0x33 rd 6 rs1 rs2 0
  | .and rd rs1 rs2 => pack 0x33 rd 7 rs1 rs2 0
  | .addiw rd rs1 i => pack 0x1B rd 0 rs1 (immLo i) (immHi i)
  | .slliw rd rs1 sh => pack 0x1B rd 1 rs1 sh 0
  | .srliw rd rs1 sh => pack 0x1B rd 5 rs1 sh 0
  | .sraiw rd rs1 sh => pack 0x1B rd 5 rs1 sh 0x20
  | .addw rd rs1 rs2 => pack 0x3B rd 0 rs1 rs2 0
  | .subw rd rs1 rs2 => pack 0x3B rd 0 rs1 rs2 0x20
  | .sllw rd rs1 rs2 => pack 0x3B rd 1 rs1 rs2 0
  | .srlw rd rs1 rs2 => pack 0x3B rd 5 rs1 rs2 0
  | .sraw rd rs1 rs2 => pack 0x3B rd 5 rs1 rs2 0x20
  | .mul rd rs1 rs2 => pack 0x33 rd 0 rs1 rs2 1
  | .mulh rd rs1 rs2 => pack 0x33 rd 1 rs1 rs2 1
  | .mulhsu rd rs1 rs2 => pack 0x33 rd 2 rs1 rs2 1
  | .mulhu rd rs1 rs2 => pack 0x33 rd 3 rs1 rs2 1
  | .div rd rs1 rs2 => pack 0x33 rd 4 rs1 rs2 1
  | .divu rd rs1 rs2 => pack 0x33 rd 5 rs1 rs2 1
  | .rem rd rs1 rs2 => pack 0x33 rd 6 rs1 rs2 1
  | .remu rd rs1 rs2 => pack 0x33 rd 7 rs1 rs2 1
  | .mulw rd rs1 rs2 => pack 0x3B rd 0 rs1 rs2 1
  | .divw rd rs1 rs2 => pack 0x3B rd 4 rs1 rs2 1
  | .divuw rd rs1 rs2 => pack 0x3B rd 5 rs1 rs2 1
  | .remw rd rs1 rs2 => pack 0x3B rd 6 rs1 rs2 1
  | .remuw rd rs1 rs2 => pack 0x3B rd 7 rs1 rs2 1
  | .jal rd i => pack 0x6F rd (uF3 (immJInv i)) (uRs1 (immJInv i)) (uRs2 (immJInv i)) (uF7 (immJInv i))
  | .jalr rd rs1 i => pack 0x67 rd 0 rs1 (immLo i) (immHi i)
  | .beq rs1 rs2 i => pack 0x63 (immBRd i) 0 rs1 rs2 (immBF7 i)
  | .bne rs1 rs2 i => pack 0x63 (immBRd i) 1 rs1 rs2 (immBF7 i)
  | .blt rs1 rs2 i => pack 0x63 (immBRd i) 4 rs1 rs2 (immBF7 i)
  | .bge rs1 rs2 i => pack 0x63 (immBRd i) 5 rs1 rs2 (immBF7 i)
  | .bltu rs1 rs2 i => pack 0x63 (immBRd i) 6 rs1 rs2 (immBF7 i)
  | .bgeu rs1 rs2 i => pack 0x63 (immBRd i) 7 rs1 rs2 (immBF7 i)
  | .lb rd rs1 i => pack 0x03 rd 0 rs1 (immLo i) (immHi i)
  | .lh rd rs1 i => pack 0x03 rd 1 rs1 (immLo i) (immHi i)
  | .lw rd rs1 i => pack 0x03 rd 2 rs1 (immLo i) (immHi i)
  | .ld rd rs1 i => pack 0x03 rd 3 rs1 (immLo i) (immHi i)
  | .lbu rd rs1 i => pack 0x03 rd 4 rs1 (immLo i) (immHi i)
  | .lhu rd rs1 i => pack 0x03 rd 5 rs1 (immLo i) (immHi i)
  | .lwu rd rs1 i => pack 0x03 rd 6 rs1 (immLo i) (immHi i)
  | .sb rs2 rs1 i => pack 0x23 (immLo i) 0 rs1 rs2 (immHi i)
  | .sh rs2 rs1 i => pack 0x23 (immLo i) 1 rs1 rs2 (immHi i)
  | .sw rs2 rs1 i => pack 0x23 (immLo i) 2 rs1 rs2 (immHi i)
  | .sd rs2 rs1 i => pack 0x23 (immLo i) 3 rs1 rs2 (immHi i)
  | .flw fd rs1 i => pack 0x07 fd 2 rs1 (immLo i) (immHi i)
  | .fsw fs2 rs1 i => pack 0x27 (immLo i) 2 rs1 fs2 (immHi i)
  | .fmaddS fd f1 f2 f3 rm => pack 0x43 fd rm f1 f2 (mkF7 f3 0)
  | .fmsubS fd f1 f2 f3 rm => pack 0x47 fd rm f1 f2 (mkF7 f3 0)
  | .fnmsubS fd f1 f2 f3 rm => pack 0x4B fd rm f1 f2 (mkF7 f3 0)
  | .fnmaddS fd f1 f2 f3 rm => pack 0x4F fd rm f1 f2 (mkF7 f3 0)
  | .faddS fd f1 f2 rm => pack 0x53 fd rm f1 f2 0x00
  | .fsubS fd f1 f2 rm => pack 0x53 fd rm f1 f2 0x04
  | .fmulS fd f1 f2 rm => pack 0x53 fd rm f1 f2 0x08
  | .fdivS fd f1 f2 rm => pack 0x53 fd rm f1 f2 0x0C
  | .fsqrtS fd f1 rm => pack 0x53 fd rm f1 0 0x2C
  | .fsgnjS fd f1 f2 => pack 0x53 fd 0 f1 f2 0x10
  | .fsgnjnS fd f1 f2 => pack 0x53 fd 1 f1 f2 0x10
  | .fsgnjxS fd f1 f2 => pack 0x53 fd 2 f1 f2 0x10
  | .fminS fd f1 f2 => pack 0x53 fd 0 f1 f2 0x14
  | .fmaxS fd f1 f2 => pack 0x53 fd 1 f1 f2 0x14
  | .feqS rd f1 f2 => pack 0x53 rd 2 f1 f2 0x50
  | .fltS rd f1 f2 => pack 0x53 rd 1 f1 f2 0x50
  | .fleS rd f1 f2 => pack 0x53 rd 0 f1 f2 0x50
  | .fclassS rd f1 => pack 0x53 rd 1 f1 0 0x70
  | .fcvtWS rd f1 rm => pack 0x53 rd rm f1 0 0x60
  | .fcvtWuS rd f1 rm => pack 0x53 rd rm f1 1 0x60
  | .fcvtLS rd f1 rm => pack 0x53 rd rm f1 2 0x60
  | .fcvtLuS rd f1 rm => pack 0x53 rd rm f1 3 0x60
  | .fcvtSW fd r1 rm => pack 0x53 fd rm r1 0 0x68
  | .fcvtSWu fd r1 rm => pack 0x53 fd rm r1 1 0x68
  | .fcvtSL fd r1 rm => pack 0x53 fd rm r1 2 0x68
  | .fcvtSLu fd r1 rm => pack 0x53 fd rm r1 3 0x68
  | .fmvXW rd f1 => pack 0x53 rd 0 f1 0 0x70
  | .fmvWX fd r1 => pack 0x53 fd 0 r1 0 0x78
  | .fence p q => pack 0x0F 0 0 0 (immLo (fenceImm p q)) (immHi (fenceImm p q))
  | .fenceTso => pack 0x0F 0 0 0 (immLo 0x833) (immHi 0x833)
  | .fenceI => pack 0x0F 0 1 0 0 0
  | .ecall => pack 0x73 0 0 0 0 0
  | .ebreak => pack 0x73 0 0 0 1 0
  | .wfi => pack 0x73 0 0 0 5 8
  | .csrrw rd rs1 c => pack 0x73 rd 1 rs1 (immLo c) (immHi c)
  | .csrrs rd rs1 c => pack 0x73 rd 2 rs1 (immLo c) (immHi c)
  | .csrrc rd rs1 c => pack 0x73 rd 3 rs1 (immLo c) (immHi c)
  | .csrrwi rd u c => pack 0x73 rd 5 u (immLo c) (immHi c)
  | .csrrsi rd u c => pack 0x73 rd 6 u (immLo c) (immHi c)
  | .csrrci rd u c => pack 0x73 rd 7 u (immLo c) (immHi c)
  | .reservedEncoding w => w
  | .spawn rd rs1 rs2 => pack 0x0B rd 0 rs1 rs2 0
  | .hexit => pack 0x0B 0 0 0 0 1
  | .cpush rs1 => pack 0x0B 0 0 rs1 0 2
  | .cjoin rs1 => pack 0x0B 0 0 rs1 0 3
  | .yield => pack 0x0B 0 0 0 0 4
  | .follow => pack 0x0B 0 0 0 0 5
  | .solo => pack 0x0B 0 0 0 0 6
  | .ssclose op rd rs1 => pack 0x0B rd 1 rs1 (mk5 op 0) 0
  | .ssabort => pack 0x0B 0 1 0 0 1
  | .barv sc op rs1 => pack 0x0B 0 1 rs1 (mk5 op sc) 2
  | .barw sc rd => pack 0x0B rd 1 0 (mk5 0 sc) 3
  | .baraw sc op rd rs1 => pack 0x0B rd 1 rs1 (mk5 op sc) 4
  | .gang rs1 rs2 => pack 0x0B 0 1 rs1 rs2 5
  | .vclaim rd rs1 => pack 0x0B rd 2 rs1 0 0
  | .vyield => pack 0x0B 0 2 0 0 1
  | .lcset lc rs1 => pack 0x0B (mk32 0 lc) 2 rs1 0 2
  | .lcget rd lc => pack 0x0B rd 2 (mk32 0 lc) 0 3
  | .trapret => pack 0x0B 0 3 0 0 0
  | .trig rs1 => pack 0x0B 0 3 rs1 0 1
  | .sbwait n => pack 0x0B 0 3 (mk5 0 n) 0 2
  | .rsteW rs2 rs1 slot => pack 0x2B (rsteField slot) 0 rs1 rs2 0
  | .rsteD rs2 rs1 slot => pack 0x2B (rsteField slot) 0 rs1 rs2 1
  | .rredAddW rs2 rs1 => pack 0x2B 0 1 rs1 rs2 0
  | .rredAddD rs2 rs1 => pack 0x2B 0 1 rs1 rs2 1
  | .rredMin rs2 rs1 => pack 0x2B 0 1 rs1 rs2 2
  | .rredMax rs2 rs1 => pack 0x2B 0 1 rs1 rs2 3
  | .rredOr rs2 rs1 => pack 0x2B 0 1 rs1 rs2 4
  | .rredFadd fs2 rs1 => pack 0x2B 0 1 rs1 fs2 5
  | .rfaa rd rs2 rs1 => pack 0x2B rd 2 rs1 rs2 (mkF7 0 0)
  | .rcas rd rs2 rs3 rs1 => pack 0x2B rd 2 rs1 rs2 (mkF7 rs3 1)
  | .rswp rd rs2 rs1 => pack 0x2B rd 2 rs1 rs2 (mkF7 0 2)
  | .rfaao rd rs2 rs3 rs1 => pack 0x2B rd 2 rs1 rs2 (mkF7 rs3 3)
  | .fenceS sc ord => pack 0x2B 0 3 0 (mk5 ord sc) 0
  | .ffence sc rs2 rs1 => pack 0x2B (mk5 0 sc) 3 rs1 rs2 1
  | .npost mb rs1 => pack 0x2B (mk14 0 mb) 4 rs1 0 0
  | .nget rd mb pk => pack 0x2B rd 4 (mk14 0 mb) (mk5 0 pk) 1
  | .enq q rs1 => pack 0x2B (mk5 0 q) 5 rs1 0 0
  | .enqp q rs1 rs2 => pack 0x2B (mk5 0 q) 5 rs1 rs2 1
  | .deq rd q => pack 0x2B rd 5 (mk5 0 q) 0 2
  | .hmarm rs2 rs1 => pack 0x2B 0 6 rs1 rs2 0
  | .hmadd rs2 rs1 => pack 0x2B 0 6 rs1 rs2 1
  | .hmwait rs2 rs1 => pack 0x2B 0 6 rs1 rs2 2
  | .rget rd rs1 => pack 0x2B rd 6 rs1 0 3
  | .rput rs2 rs1 => pack 0x2B 0 6 rs1 rs2 4
  | .waitf rs2 rs1 => pack 0x2B 0 6 rs1 rs2 5
  | .ctready rs1 rs2 => pack 0x2B 0 7 rs1 rs2 0
  | .vadd ty vd v1 v2 pg => pack 0x5B vd 0 v1 v2 (mkF7P pg 0 ty)
  | .vsub ty vd v1 v2 pg => pack 0x5B vd 0 v1 v2 (mkF7P pg 1 ty)
  | .vmul ty vd v1 v2 pg => pack 0x5B vd 0 v1 v2 (mkF7P pg 2 ty)
  | .vmax ty vd v1 v2 pg => pack 0x5B vd 0 v1 v2 (mkF7P pg 3 ty)
  | .vmin ty vd v1 v2 pg => pack 0x5B vd 1 v1 v2 (mkF7P pg 0 ty)
  | .vabs ty vd v1 pg => pack 0x5B vd 1 v1 0 (mkF7P pg 1 ty)
  | .vneg ty vd v1 pg => pack 0x5B vd 1 v1 0 (mkF7P pg 2 ty)
  | .vrelu ty vd v1 pg => pack 0x5B vd 1 v1 0 (mkF7P pg 3 ty)
  | .vfmaF32 vd v1 v2 v3 => pack 0x5B vd 2 v1 v2 (mkF7 v3 0)
  | .vfmaBf16 vd v1 v2 v3 => pack 0x5B vd 2 v1 v2 (mkF7 v3 1)
  | .vfmsF32 vd v1 v2 v3 => pack 0x5B vd 2 v1 v2 (mkF7 v3 2)
  | .vfmsBf16 vd v1 v2 v3 => pack 0x5B vd 2 v1 v2 (mkF7 v3 3)
  | .vsclF32 vd v1 fn => pack 0x5B vd 3 v1 0 (mkF7 fn 0)
  | .vsclBf16 vd v1 fn => pack 0x5B vd 3 v1 0 (mkF7 fn 1)
  | .baddrq vd v1 v2 fn => pack 0x5B vd 3 v1 v2 (mkF7 fn 2)
  | .vand ty vd v1 v2 pg => pack 0x5B vd 4 v1 v2 (mkF7P pg 0 ty)
  | .vor ty vd v1 v2 pg => pack 0x5B vd 4 v1 v2 (mkF7P pg 1 ty)
  | .vxor ty vd v1 v2 pg => pack 0x5B vd 4 v1 v2 (mkF7P pg 2 ty)
  | .vshl ty vd v1 v2 pg => pack 0x5B vd 4 v1 v2 (mkF7P pg 3 ty)
  | .vshr ty vd v1 v2 pg => pack 0x5B vd 5 v1 v2 (mkF7P pg 0 ty)
  | .vsra ty vd v1 v2 pg => pack 0x5B vd 5 v1 v2 (mkF7P pg 1 ty)
  | .vrsq ty vd v1 pg => pack 0x5B vd 5 v1 0 (mkF7P pg 2 ty)
  | .vsel ty vd v1 v2 pg => pack 0x5B vd 5 v1 v2 (mkF7P pg 3 ty)
  | .vcmpEq ty pd v1 v2 pg => pack 0x5B (mk5 0 pd) 6 v1 v2 (mkF7P pg 0 ty)
  | .vcmpLt ty pd v1 v2 pg => pack 0x5B (mk5 0 pd) 6 v1 v2 (mkF7P pg 1 ty)
  | .vcmpLe ty pd v1 v2 pg => pack 0x5B (mk5 0 pd) 6 v1 v2 (mkF7P pg 2 ty)
  | .vcvt src dst vd v1 pg => pack 0x5B vd 6 v1 (cvtRs2 src dst) (mkF7P pg 3 (cvtF2 src))
  | .vld vd rs1 pg => pack 0x5B vd 7 rs1 0 (mkF7M pg 0)
  | .vst vs rs1 pg => pack 0x5B vs 7 rs1 0 (mkF7M pg 1)
  | .vlds vd rs1 rs2 pg => pack 0x5B vd 7 rs1 rs2 (mkF7M pg 2)
  | .vsts vs rs1 rs2 pg => pack 0x5B vs 7 rs1 rs2 (mkF7M pg 3)
  | .vldx vd rs1 v2 pg => pack 0x5B vd 7 rs1 v2 (mkF7M pg 4)
  | .vstx vs rs1 v2 pg => pack 0x5B vs 7 rs1 v2 (mkF7M pg 5)
  | .vpld pd rs1 => pack 0x5B (mk5 0 pd) 7 rs1 0 (mkF7M 0 6)
  | .vpst ps rs1 => pack 0x5B (mk5 0 ps) 7 rs1 0 (mkF7M 0 7)
  | .vredSum ty vd v1 pg => pack 0x5B vd 7 v1 (redRs2 0 ty) (mkF7M pg 8)
  | .vredMax ty vd v1 pg => pack 0x5B vd 7 v1 (redRs2 1 ty) (mkF7M pg 8)
  | .vredMin ty vd v1 pg => pack 0x5B vd 7 v1 (redRs2 2 ty) (mkF7M pg 8)
  | .vbcast vd rs1 pg => pack 0x5B vd 7 rs1 0 (mkF7M pg 9)
  | .vmvx rd v1 rs2 => pack 0x5B rd 7 v1 rs2 (mkF7M 0 0xA)
  | .pand pd p1 p2 => pack 0x5B (mk5 0 pd) 7 (mk5 0 p1) 0 (mkF7M p2 0xB)
  | .por pd p1 p2 => pack 0x5B (mk5 0 pd) 7 (mk5 0 p1) 1 (mkF7M p2 0xB)
  | .pxor pd p1 p2 => pack 0x5B (mk5 0 pd) 7 (mk5 0 p1) 2 (mkF7M p2 0xB)
  | .pnot pd p1 => pack 0x5B (mk5 0 pd) 7 (mk5 0 p1) 3 (mkF7M 0 0xB)
  | .pmov pd p1 => pack 0x5B (mk5 0 pd) 7 (mk5 0 p1) 4 (mkF7M 0 0xB)
  | .pset pd rs1 => pack 0x5B (mk5 0 pd) 7 rs1 5 (mkF7M 0 0xB)
  | .pcnt rd p1 => pack 0x5B rd 7 (mk5 0 p1) 6 (mkF7M 0 0xB)
  | .mxiBf16Bf16 rs1 rs2 n => pack 0x7B 1 0 rs1 rs2 (mkF7 n 0)
  | .mxiBf16Qt16 rs1 rs2 n => pack 0x7B 2 0 rs1 rs2 (mkF7 n 0)
  | .mxiQt16Qt16 rs1 rs2 n => pack 0x7B 3 0 rs1 rs2 (mkF7 n 0)
  | .mxiQt8Qt8 rs1 rs2 n => pack 0x7B 4 0 rs1 rs2 (mkF7 n 0)
  | .mxiI8I8 rs1 rs2 n => pack 0x7B 5 0 rs1 rs2 (mkF7 n 0)
  | .mxiI8Tern rs1 rs2 n => pack 0x7B 6 0 rs1 rs2 (mkF7 n 0)
  | .lut3 rd rs1 rs2 t => pack 0x7B rd (lutF3 t) rs1 rs2 (lutF7 t)
  | .fshl rd rs1 rs2 rs3 => pack 0x7B rd 4 rs1 rs2 (mkF7 rs3 0)
  | .fshr rd rs1 rs2 rs3 => pack 0x7B rd 4 rs1 rs2 (mkF7 rs3 1)
  | .popc rd rs1 => pack 0x7B rd 5 rs1 0 0
  | .clz rd rs1 => pack 0x7B rd 5 rs1 0 1
  | .ctz rd rs1 => pack 0x7B rd 5 rs1 0 2
  | .fcvtQt8S rd f1 => pack 0x7B rd 6 f1 0 0
  | .fcvtSQt8 fd r1 => pack 0x7B fd 6 r1 0 1
  | .fcvtQt16S rd f1 => pack 0x7B rd 6 f1 0 2
  | .fcvtSQt16 fd r1 => pack 0x7B fd 6 r1 0 3
  | .fcvtQt32S rd f1 => pack 0x7B rd 6 f1 0 4
  | .fcvtSQt32 fd r1 => pack 0x7B fd 6 r1 0 5
  | _ => 0

/-- Does the instruction have an encoding of its own? The steps of the machine and the parts of a CSR write do not. -/
def hasWord : Instr → Bool
  | .svactFault _ => false
  | .svactAbort _ => false
  | .svactClear _ => false
  | .trread _ => false
  | .qtail _ _ _ => false
  | .qcfgWrite _ _ _ => false
  | .jmen _ _ => false
  | .hostord _ _ => false
  | .registerWrite _ _ _ _ _ => false
  | .accerr _ _ _ _ _ => false
  | .commandFetch _ => false
  | .completionWrite _ _ => false
  | .launch _ _ => false
  | .cancel _ _ => false
  | .pauseAtBoundary _ _ => false
  | .resume _ _ => false
  | .offer _ _ => false
  | .withdraw _ _ => false
  | .take _ _ => false
  | .release _ _ => false
  | .readJournal _ _ => false
  | .sync _ _ => false
  | .placeJob _ _ => false
  | .stagingComplete _ _ => false
  | .runpflComplete _ _ => false
  | .migrateRectangle _ _ _ _ _ => false
  | .pageWalk _ _ _ => false
  | .pagerPromotion _ _ => false
  | .revocation _ _ => false
  | .revocationAck _ => false
  | .leaseAckTimeout _ _ => false
  | .dcdExtentRelease _ _ _ => false
  | .rowSparingComplete _ _ => false
  | .rowClose _ _ => false
  | .bankForcedClose _ _ => false
  | .linkFailure _ _ => false
  | .poolPop _ => false
  | .taskSteal _ => false
  | .recordAging _ => false
  | .vclaimGrant _ => false
  | .vectorCompletion _ _ => false
  | .gangRelease _ => false
  | .barrierRelease _ _ => false
  | .mma _ _ => false
  | .mmag _ _ => false
  | .accld _ => false
  | .accst _ => false
  | .accz _ => false
  | .accxr _ => false
  | .qfence _ _ => false
  | .signal _ _ => false
  | .cpbox _ => false
  | .cppfl _ => false
  | .cpstrm _ => false
  | .cpclose _ => false
  | .cpfill _ => false
  | .cpring _ => false
  | .gtrows _ => false
  | .nxput _ => false
  | .nxred _ => false
  | .firing _ => false
  | .commandCompletion _ _ => false
  | .statusEntry _ _ => false
  | .eagerWriteArrival _ => false
  | .eagerAckArrival _ => false
  | .remoteRequestArrival _ => false
  | .responseArrival _ => false
  | .returned _ => false
  | .atomicArrival _ => false
  | .orderGroupArrival _ => false
  | .mailboxPostArrival _ => false
  | .ngetTimeout _ _ => false
  | .lateTrapArrival _ => false
  | .handlerEntry _ _ => false
  | .hostWrite _ _ _ _ => false
  | .hostRead _ _ _ => false
  | .barrierMessage _ => false
  | .furtherAbortMessage _ => false
  | .urgentAbort _ => false
  | .doomNotice _ => false
  | .outcomeArrival _ => false
  | .commitApply _ => false
  | .rollback _ => false
  | .superstepStart _ => false
  | .retirement _ => false
  | .watchdog _ => false
  | .qdead _ => false
  | .preemptionRequest _ _ => false
  | .preemptionDeadline _ => false
  | .park _ => false
  | .heartbeatSend _ => false
  | .heartbeatArrival _ _ => false
  | .missCheck _ => false
  | .accusation _ => false
  | .accusationExpiry _ => false
  | .selfTest _ _ => false
  | .acceptance _ => false
  | .controlStateError _ => false
  | .parity _ _ => false
  | .mangleArrival _ => false
  | .manglePartialArrival _ => false
  | .mangleResultArrival _ => false
  | .blockQueueHandout _ _ _ => false
  | .mangleFailure _ => false
  | .codewrite _ => false
  | .poisonset _ => false
  | .poisonclear _ => false
  | .fwwrite _ => false
  | .fwcommit _ => false
  | .eventread _ => false
  | .counterClear _ => false
  | .counterFreeze _ _ => false
  | .attestation _ => false
  | .warmReset _ => false
  | .coldReset _ => false
  | .d3hotEntry _ => false
  | .powerWindow _ _ => false
  | .thermalShutdown _ => false
  | .powerLoss _ => false
  | .stagingReadComplete _ _ => false
  | .thermalThrottle _ _ => false
  | .scrubbing _ _ _ => false
  | .flitCrcFailure _ _ => false
  | .chead _ _ _ => false
  | .badop _ _ => false
  | .jmerr _ => false
  | .leaseWindowAccess _ => false
  | _ => true

/-- What the decoder reads from an instruction of `nbits` bits with value `w` (the table's numbering: one word of 32 bits). -/
def decodeTableWord (nbits w : Nat) : Option Instr :=
  if nbits ≤ 32 then
    (decodeBytes [BitVec.ofNat 8 w, BitVec.ofNat 8 (w / 256), BitVec.ofNat 8 (w / 65536), BitVec.ofNat 8 (w / 16777216)]).map (·.1)
  else none

end Sys2Proof
end

