-- ==== Sys2Proof/Machine/Dict.lean ====
section
/-! DEFINITION. Sparse stores with rising keys, and byte memories in canonical form (R6, R10). -/

namespace Sys2Proof.Machine

/-- The entry at `k`, found by the first key not below it. -/
def dget? {α : Type} : Dict α → Nat → Option α
  | [], _ => none
  | (j, a) :: t, k => if k < j then none else if k = j then some a else dget? t k

/-- `d` with `k` mapped to `a`, every other key as before. -/
def dset {α : Type} : Dict α → Nat → α → Dict α
  | [], k, a => [(k, a)]
  | (j, b) :: t, k, a =>
    if k < j then (k, a) :: (j, b) :: t
    else if k = j then (k, a) :: t
    else (j, b) :: dset t k a

/-- The entries of `d` from the first key above `k` on. -/
def ddrop {α : Type} : Dict α → Nat → Dict α
  | [], _ => []
  | (j, b) :: t, k => if j ≤ k then ddrop t k else (j, b) :: t

/-- `d` without `k`. -/
def derase {α : Type} : Dict α → Nat → Dict α
  | [], _ => []
  | (j, b) :: t, k =>
    if k < j then (j, b) :: t
    else if k = j then ddrop t k
    else (j, b) :: derase t k

/-- The entry at `k`, or `z`. -/
def dgetD {α : Type} (d : Dict α) (k : Nat) (z : α) : α := (dget? d k).getD z

/-- The entry at `k` changed, if there is one. -/
def dmod {α : Type} (d : Dict α) (k : Nat) (f : α → α) : Dict α :=
  match dget? d k with
  | some a => dset d k (f a)
  | none => d

/-- Every entry changed. -/
def dmap {α : Type} (d : Dict α) (f : Nat → α → α) : Dict α := d.map fun e => (e.1, f e.1 e.2)

/-- The word at `k` of a sparse store: zero where nothing is listed. -/
def sget {w : Nat} (d : Sparse w) (k : Nat) : BitVec w := dgetD d k 0

/-- Writes a word: a zero removes the entry. -/
def sset {w : Nat} (d : Sparse w) (k : Nat) (v : BitVec w) : Sparse w := if v = 0 then derase d k else dset d k v

/-- Every key is above `lo`, keys rise strictly. -/
def risingFrom {α : Type} : Nat → Dict α → Bool
  | _, [] => true
  | lo, (j, _) :: t => decide (lo ≤ j) && risingFrom (j + 1) t

/-- The canonical form of a byte memory: keys strictly rising and no entry equal to what an unlisted address reads as. -/
def memWf (m : Memory) : Bool := risingFrom 0 m && m.all (fun e => e.2 != 0)

/-- The byte at an address. An unlisted address reads as zero: the contents R69, R358 and R366 give TCM, scratchpad, shares and
tier 0 before anything is written (log entry 2). -/
def readByte (m : Memory) (a : Nat) : Byte := sget m a
def writeByte (m : Memory) (a : Nat) (b : Byte) : Memory := sset m a b

/-- `n` bytes at `a`, little-endian (R6, R10). -/
def readMem (m : Memory) (a : Nat) : Nat → Nat
  | 0 => 0
  | n + 1 => (readByte m a).toNat + 256 * readMem m (a + 1) n

/-- Writes the low `8n` bits of `v` at `a`, little-endian (R6, R10). -/
def writeMem (m : Memory) (a : Nat) : Nat → Nat → Memory
  | 0, _ => m
  | n + 1, v => writeMem (writeByte m a (BitVec.ofNat 8 v)) (a + 1) n (v / 256)

/-- `n` bytes of `src` at `a` moved to `b` of `dst`. -/
def copyMem (src : Memory) (a : Nat) (dst : Memory) (b : Nat) : Nat → Memory
  | 0 => dst
  | n + 1 => copyMem src (a + 1) (writeByte dst b (readByte src a)) (b + 1) n

/-- Clears the listed bytes at `lo` to `lo + len - 1`. -/
def clearMem (m : Memory) (lo len : Nat) : Memory := m.filter fun e => e.1 < lo || lo + len ≤ e.1
/-- The listed bytes at `lo` to `lo + len - 1`, with addresses from 0. -/
def sliceMem (m : Memory) (lo len : Nat) : Memory :=
  (m.filter fun e => lo ≤ e.1 && e.1 < lo + len).map fun e => (e.1 - lo, e.2)
/-- Lays the listed bytes of `src` at `at_` upward. -/
def layMem (src : Memory) (m : Memory) (at_ : Nat) : Memory := src.foldl (fun m e => writeByte m (at_ + e.1) e.2) m

/-- Replaces element `i` of a list. -/
def setAt {α : Type} (l : List α) (i : Nat) (a : α) : List α := l.set i a

/-- Insertion by a key. -/
def insertBy {α : Type} (key : α → Nat) (a : α) : List α → List α
  | [] => [a]
  | b :: t => if key a < key b then a :: b :: t else b :: insertBy key a t
/-- A list in rising order of a key; equal keys keep their order. -/
def sortBy {α : Type} (key : α → Nat) (l : List α) : List α := l.foldl (fun acc a => insertBy key a acc) []

/-- The element with the least key, the first among equals. -/
def leastBy {α : Type} (key : α → Nat) : List α → Option α
  | [] => none
  | a :: t =>
    match leastBy key t with
    | some b => if key b < key a then some b else some a
    | none => some a

end Sys2Proof.Machine
end

