-- ==== Sys2Proof/Machine/State.lean ====
section
/-! DEFINITION. The state of the pod as plain data (INVENTORY.md, State), the reasons a step can stop, and the state right
after reset. A `Dict` reads as its default where nothing is listed; the accessors are in Machine/Dict.lean and Machine/Ops.lean. -/

namespace Sys2Proof.Machine

/-- Why a step stops. No instruction of the table ends here: every trap of R321 is taken as the spec describes. -/
inductive Fault where
  /-- Raised by an instruction's meaning when `State.cur` names no live context, which no state reached by `step` does
  (R157: only a live context issues). Safe: nothing is computed. -/
  | noIssuer
  deriving DecidableEq, Repr

/-- Why a step is refused. -/
inductive Refusal where
  /-- Raised by an arm of `exec` that has no meaning yet. Safe: nothing is computed. -/
  | notModelled (mnemonic : String)
  deriving DecidableEq, Repr

/-- A rolled-back memory: its contents, and the contents to which its version log, or its darn image, takes it back on abort
(R239, R285). Host writes go into both (R303). -/
structure Mem where
  cur : Memory
  base : Memory
  deriving DecidableEq, Repr

/-- The local spaces of R102 that have a home: TCM, quad scratchpad, die shared SRAM. -/
inductive Space where
  | tcm | qsp | dss
  deriving DecidableEq, Repr

/-- A resolved location: the position it is reached through, the space there and the offset (R102 to R104). -/
structure Dest where
  core : CoreId
  space : Space
  off : Nat
  deriving DecidableEq, Repr

/-- The level a context runs at (R135, R136). -/
inductive Level where
  | job | service | firmware
  deriving DecidableEq, Repr

/-- A continuation record in a task queue (R164): `level` is its present priority level (R36), `seq` the order in which it
entered the queue, `lseq` the order in which it entered its level, `since` the clock at that entry. -/
structure TaskRec where
  code : Word
  frame : Word
  join : Word
  prio : Nat
  ceil : Nat
  ordered : Bool
  nosteal : Bool
  level : Nat
  seq : Nat
  lseq : Nat
  since : Nat
  deriving DecidableEq, Repr

/-- The state of a context (R157). A task keeps the queue its record came from, for R35. -/
inductive Life where
  | idle
  | control
  | direct
  | task (owner : CoreId) (seq : Nat) (join : Word)
  deriving DecidableEq, Repr

/-- The contents of a job's homes, and a core's gather latch, at the moment when a command of the core started (R235, R264). -/
structure Homes where
  tcm : Dict Memory
  qsp : Dict Memory
  dss : Dict Memory
  latch : Sparse 32
  deriving DecidableEq, Repr

/-- A command as it stands in a queue (R147 to R151) with what the machine keeps of it while it runs. -/
inductive CmdStage where
  /-- In the queue, started or not. -/
  | queued
  /-- Its work is under way: `CPBOX`, `CPRING` and `NXPUT` advance row by row, a firing waits for its round. -/
  | running
  /-- Step 1 of R234 is done. -/
  | performed
  /-- Step 2 of R234 is done. -/
  | arrived
  deriving DecidableEq, Repr

/-- A tile command word in q0 to q3, or a `CTREADY` firing in q3 (R309: `firing` holds the tile and the entry's 512 bits). -/
structure Cmd where
  uid : Nat
  ctx : Nat
  seq : Nat
  d0 : Word
  d1 : Word
  d2 : Word
  d3 : Word
  /-- The full addresses that descriptors d1 and d2 resolved to at push (R148, R151). -/
  a1 : Word
  a2 : Word
  /-- The accumulator taken at push (R176). -/
  acc : Nat
  firing : Option (Nat × Nat)
  patch : Nat
  /-- For a ganged command: its number in the open gang (R217). -/
  pair : Nat
  /-- For `QFENCE`: the uids that stood before its marks (R232). -/
  before : List Nat
  /-- Every queue named by a mark in force waits for these `QFENCE` uids (R232). -/
  after : List Nat
  stage : CmdStage
  /-- Rows, boxes, entries or slots done so far. -/
  progress : Nat
  /-- For `NXPUT`: atoms not yet acknowledged or returned. -/
  outstanding : Nat
  cause : Nat
  tval : Word
  flags : BitVec 7
  /-- The issuer's EN bits at dispatch (R56). -/
  enabled : BitVec 7
  bytes : Nat
  /-- The helper that pushed it is no longer live: its flags and late traps go to context 0 (R163, R323). -/
  gone : Bool
  /-- The hardware fault that struck the command at work, PARITY or LINK, for it to report; 0 for none (R237, R276). -/
  hit : Nat
  /-- For `CPPFL`: the entries of its list as it read them when it started (R264). -/
  list : List Nat
  /-- What stood at the job's homes when the command started: a store that has performed there since races its reads (R235, R264). -/
  seen : Option Homes
  deriving DecidableEq, Repr

/-- What a waiting context waits for (R37, R38). A wait that has been met completes in `settle` or in the event named. -/
inductive Wait where
  | wfi
  /-- A dispatch whose coprocessor-ring entry is still held (R330): it issues again when the entry is free. -/
  | ring
  /-- A `YIELD` passed over for one turn (R173). -/
  | yielded
  | spawn (rd : R5) (pc arg : Word)
  | hexit
  | cpush (r : TaskRec)
  | cjoin (d : Dest)
  | follow
  | ssclose (op : BitVec 2) (rd : R5) (val : Word)
  /-- After `SSABORT`, or a stop by an abort condition (R288, R331): it issues nothing more in the attempt. -/
  | stopped
  | barv (sc : R3) (op : BitVec 2) (val : Word)
  | barw (sc : R3) (rd : R5)
  | baraw (sc : R3) (op : BitVec 2) (rd : R5) (val : Word) (arrived : Bool)
  /-- `offered` is the place of the offer (R216); `release` the cycle of completion once the barrier completed (R218). -/
  | gang (t w f : Nat) (offered : Bool) (release : Option Nat)
  | vclaim (rd : R5) (n : Nat)
  | vyield
  | sbwait (slot : R3)
  /-- A remote base load (R105): width, signedness and destination are in `LoadKind`. -/
  | load (addr : Word) (rd : R5) (n : Nat) (signed float : Bool)
  | atomic (addr : Word) (rd : R5)
  | rfaao (addr : Word) (rd : R5)
  | fence (sc : R3)
  | fenceI
  | ffence (sc : R3) (d : Dest) (val : Word)
  | npost (uid : Nat)
  | nget (rd : R5) (mb : BitVec 4) (pk : R3) (until_ : Nat)
  /-- A push waiting for queue space (R151, R309), with the loop counter to restore. -/
  | push (q : Nat) (cmd : Cmd) (lc : Option (Nat × Word))
  /-- A push whose checks have passed, waiting for its ring entry (R151, R330): the command has no sequence number yet. -/
  | ringPush (q : Nat) (cmd : Cmd) (lc : Option (Nat × Word))
  | deq (rd : R5) (q : Nat)
  | hmwait (d : Dest) (phase : Bool)
  | rget (rd : R5) (d : Dest)
  | waitf (d : Dest) (val : Word)
  /-- A CLEAR of `svact` whose page tables lie in a reserved bank (R125, R329): it issues again when the bank is free. -/
  | bank (page : Nat)
  deriving DecidableEq, Repr

/-- A late trap on its way to a context (R323): cause, sequence number, the value for `svtval`, the dispatching context. -/
structure LateTrap where
  cause : Nat
  seq : Nat
  tval : Word
  ctx : Nat
  orphan : Bool
  deriving DecidableEq, Repr

/-- A trap that waits to enter the handler (R325). -/
structure PendingEntry where
  cause : Nat
  seq : Option Nat
  late : Bool
  orphan : Bool
  reason : Nat
  ctx : Nat
  epc : Word
  tval : Word
  deriving DecidableEq, Repr

/-- A group-barrier episode's mark held by a context (R290). -/
structure Mark where
  scope : Nat
  episode : Nat
  deriving DecidableEq, Repr

/-- A context (R27, R135). -/
structure Ctx where
  life : Life
  pc : Word
  x : Sparse 64
  f : Sparse 32
  p : Sparse 64
  /-- Element i of v register r at 64r + i (R191). -/
  v : Sparse 32
  grant : Nat
  lc : Sparse 64
  fcsr : BitVec 8
  /-- `qflags` bits [6:0] and [38:32] (R54). -/
  flags : BitVec 7
  enables : BitVec 7
  level : Level
  wait : Option Wait
  /-- The order in which waits were entered. -/
  ticket : Nat
  marks : List Mark
  instret : Nat
  late : List LateTrap
  entry : Option PendingEntry
  /-- The cycle of the last wake event that the context saw, until a `WFI` uses it up (R38, R129). -/
  woken : Option Nat
  /-- Where a firmware handler entry resumes (R177). -/
  fwEpc : Word
  deriving DecidableEq, Repr

/-- A coprocessor-ring entry (R330). -/
structure RingEntry where
  seq : Nat
  ctx : Nat
  valid : Bool
  done : Bool
  pcoff : Nat
  uid : Nat
  /-- Late traps of the operation that have been neither taken nor discarded. -/
  owed : Nat
  deriving DecidableEq, Repr

/-- An eager write or atomic that has not been acknowledged (R248): its slot, the command it belongs to, its home. -/
structure EagerOut where
  uid : Nat
  ctx : Nat
  seq : Nat
  slot : Option R3
  cmd : Option Nat
  dest : Dest
  addr : Word
  deriving DecidableEq, Repr

/-- The operation of a reduce-delta (R302). -/
inductive DeltaOp where
  | addW | addD | min | max | or | fadd
  deriving DecidableEq, Repr

/-- A deferred effect of a superstep (R239, R284, R302). -/
inductive DeferredOp where
  | write (n : Nat) (val : Nat)
  | delta (op : DeltaOp) (val : Word)
  deriving DecidableEq, Repr

structure Deferred where
  dest : Dest
  op : DeferredOp
  deriving DecidableEq, Repr

/-- An engine write to a virtual address, waiting for commit (R285): virtual and physical address, bytes, value, and the command when it
is a `CPFILL` (R123). -/
structure WriteOut where
  va : Nat
  pa : Nat
  n : Nat
  val : Nat
  fill : Option Nat
  deriving DecidableEq, Repr

/-- A vector instruction in the lanes (R193): what completes late. `release` counts the lanes of a helper that became idle and
that return when this, its last instruction, completes (R190). `gone` marks an instruction of a helper that is no longer live (R163). -/
structure LaneOp where
  seq : Nat
  ctx : Nat
  flags : BitVec 7
  enabled : BitVec 7
  fault : Option Word
  /-- The reserved page in which an active element of a load met poison (R353). -/
  poison : Option Nat
  release : Nat
  gone : Bool
  deriving DecidableEq, Repr

/-- A value contributed by `NXRED`: job-relative slot, format code × 2^32 + pattern, and the firing it travels with once that has started. -/
structure NxValue where
  slot : Nat
  value : Nat
  firing : Option Nat
  deriving DecidableEq, Repr

/-- Where a core stands in its superstep (R283). `stopped` marks a core stopped by an abort condition or doom notice. -/
inductive Phase where
  | run | closing | voted | applying | applied | rolling | rolled | held
  deriving DecidableEq, Repr

/-- The entry snapshot of a logical position (R334, R349): x, f, p and carried CSRs at superstep entry. -/
structure Snapshot where
  x : Sparse 64
  f : Sparse 32
  p : Sparse 64
  pc : Word
  fcsr : BitVec 8
  flags : BitVec 7
  enables : BitVec 7
  ssentry : Word
  ssn : Nat
  age : Nat
  pool : Nat
  nbwait : Nat
  stagger : Nat
  tracectl : Word
  deriving DecidableEq, Repr

/-- A core of a placed job at its logical position. -/
structure Core where
  asid : Nat
  index : Nat
  rect : Nat
  ctxs : Dict Ctx
  lastIssued : Nat
  /-- TCM and its darn image. -/
  tcm : Mem
  /-- Element (row, column) of accumulator a at 4096a + 64 row + column (R214). -/
  ac : Sparse 32
  latch : Sparse 32
  mb : Sparse 64
  present : List Nat
  q : Dict (List Cmd)
  status : Dict (List Word)
  tasks : List TaskRec
  taskNext : Nat
  taskLive : List Nat
  ring : Dict RingEntry
  seqNext : Nat
  lanes : List LaneOp
  eager : List EagerOut
  deferred : List Deferred
  writeOuts : List WriteOut
  posts : List Nat
  phase : Phase
  /-- The first abort condition of the attempt (R331). -/
  abort : Option Nat
  /-- The first fault of the attempt with which R310 makes the core vote abort, though its trap may have gone to the handler (R321, R322). -/
  voteFault : Option Nat
  stopped : Bool
  /-- A soft error in its own control state stopped it (R331). -/
  dead : Bool
  /-- SSCLOSE's result, once committed. -/
  result : Word
  outcome : Bool
  age : Nat
  pool : Nat
  nbwait : Nat
  stagger : Nat
  tracectl : Word
  ssentry : Word
  ssn : Nat
  sscause : Word
  snapshot : Snapshot
  ssStart : Nat
  /-- How often FOLLOW at a pc offset has executed in this superstep (R134). -/
  follows : Dict Nat
  gang : Option (Nat × Nat × Nat)
  gangPushed : Nat
  gangs : Nat
  /-- The bank that the core has reserved, and whether the reservation outlives its command (R125, R270). -/
  reserved : Option Nat
  kept : Bool
  /-- Physical address of the page of the last access that met poison, in the attempt and in the counted run (R336). -/
  poisonMet : Option Nat
  poisonRun : Option Nat
  /-- Values contributed by `NXRED` and not yet joined to a round (R309, R312). -/
  nxPending : List NxValue
  lastProgress : Nat
  /-- Pages of poisoned page-fetch entries delivered to this core whose POISON is still due in each attempt (R352). -/
  stagedPoison : List Nat
  /-- REPEAT handler entry due at the start of the replay (R336): the cause. -/
  repeatCause : Option Nat
  deriving DecidableEq, Repr

/-- A cached translation (R112): the page's first virtual and physical address, its size, W, and the address of its leaf. -/
structure TlbEntry where
  asid : Nat
  va : Nat
  size : Nat
  pa : Nat
  write : Bool
  leaf : Nat
  deriving DecidableEq, Repr

/-- What belongs to a position and to no job: firmware and service CSRs, trace, TLB, heartbeats (R136, R327, R343 to R348, R356). -/
structure Pos where
  hbperiod : Word
  cpsel : Nat
  svcause : Word
  svepc : Word
  svtval : Word
  svscratch : Word
  trace : List (Nat × Nat)
  tracePos : Nat
  /-- Entries still to record after a trigger (R356). -/
  tracePost : Option Nat
  /-- Directions (0 N, 1 E, 2 S, 3 W) heard since the last check, consecutive misses, bad flits, headers. -/
  heard : List Nat
  misses : Dict Nat
  crcs : Dict Nat
  headers : Dict Nat
  /-- Standing accusations held here: (suspect, accuser, clock of expiry). -/
  accused : List (CoreId × CoreId × Nat)
  /-- Acceptances held here: (suspect, accepter). -/
  accepted : List (CoreId × CoreId)
  /-- Clean periods counted for a neighbour that appeals. -/
  clean : Dict Nat
  appealing : Bool
  rejections : Nat
  readmit : Bool
  probation : Nat
  lastBeat : Nat
  lastCheck : Nat
  /-- How many tickets had been drawn, less the messages then in flight, at the last check: bounds the messages delivered since (R344). -/
  seen : Nat
  /-- The ticket of the fence that stands: which of two positions was fenced first (R352). -/
  fencedAt : Nat
  /-- The heartbeat number of the first heartbeat of an appeal (R348). -/
  firstBeat : Option Nat
  tlb : List TlbEntry
  deriving DecidableEq, Repr

/-- A patch-table entry (R98). -/
structure Patch where
  fenced : Bool
  perm : Bool
  slot : Nat
  deriving DecidableEq, Repr

/-- A forwarding entry (R101); `commits` counts the job's commits since the migration. -/
structure Forward where
  asid : Nat
  old : CoreId
  new : CoreId
  commits : Nat
  deriving DecidableEq, Repr

/-- The role of a quad's spare-position core (R22). A gateway stands beside one of its die's three seams (R16): those to its two
neighbouring dies, 0 east or west and 1 north or south, and 2 to the hub. A spare that has failed holds no role and cannot be patched in. -/
inductive Role where
  | steward | service | gateway (seam : Nat) | standby | patched | failed
  deriving DecidableEq, Repr
def Role.isGateway : Role → Bool
  | .gateway _ => true
  | _ => false

structure Die where
  patches : Dict Patch
  forwards : List Forward
  roles : Dict Role
  lastPos : Nat
  tlb : List TlbEntry
  deriving DecidableEq, Repr

/-- A claim for lanes in a quad's order (R188): the cycle in which it entered; `spare` marks one of the quad's spare-position core, in a role. -/
structure Claim where
  core : CoreId
  ctx : Nat
  n : Nat
  ticket : Nat
  entered : Nat
  spare : Bool
  deriving DecidableEq, Repr

structure Quad where
  claims : List Claim
  /-- The clock from which the present head may be granted (R188). -/
  headFrom : Nat
  /-- Grants of the spare-position core in a role, by context (R185). -/
  spare : Dict Nat
  deriving DecidableEq, Repr

/-- A rectangle of a partition (R90). -/
structure Rect where
  die : DieId
  row : Nat
  col : Nat
  deriving DecidableEq, Repr

/-- A section of a job image: its place in the image (FILEOFF) and its body, which is read when the section is staged (R68, R87). -/
structure Section where
  type : Nat
  space : Nat
  runpfl : Bool
  addr : Nat
  off : Nat
  size : Nat
  body : Memory
  deriving DecidableEq, Repr

/-- A closing-barrier vote (R279). -/
structure Vote where
  index : Nat
  abort : Bool
  cause : Nat
  op : Nat
  val : Word
  deriving DecidableEq, Repr

/-- The decision of a closing barrier (R281, R335). `origin`: 0 vote, 1 SSABORT, 2 CANCEL, 3 pre-emption. -/
structure Verdict where
  commit : Bool
  cause : Nat
  index : Nat
  origin : Nat
  val : Word
  deriving DecidableEq, Repr

/-- An arrival at a group barrier (R290). -/
structure Arrival where
  index : Nat
  ctx : Nat
  op : Nat
  val : Word
  deriving DecidableEq, Repr

/-- A group-barrier episode (R289): scope, extent, number, arrivals, and the clock of its completion. -/
structure Episode where
  scope : Nat
  extent : Nat
  number : Nat
  arrivals : List Arrival
  done : Option Nat
  mixed : Bool
  value : Word
  deriving DecidableEq, Repr

/-- A request of `RFAAO` (R301). -/
structure OrderReq where
  index : Nat
  core : CoreId
  ctx : Nat
  uid : Nat
  addend : Word
  count : Nat
  deriving DecidableEq, Repr

structure OrderGroup where
  dest : Dest
  count : Nat
  members : List OrderReq
  held : List OrderReq
  deriving DecidableEq, Repr

/-- An offer on the wired barrier of a row (R216): its number among the core's offers for the same columns. -/
structure Offer where
  core : CoreId
  tag : Nat
  width : Nat
  first : Nat
  number : Nat
  deriving DecidableEq, Repr

/-- A page fetch with NEXT = 1 (R269). -/
structure Staged where
  index : Nat
  va : Nat
  len : Nat
  dest : Word
  hamper : Nat
  signal : Bool
  /-- The data once read; the page's PA when it is poisoned. -/
  data : Option Memory
  poison : Option Nat
  /-- The bytes committed before the superstep, fixed when the entry started. -/
  source : Memory
  claimed : Bool
  /-- The `CPPFL` that reads an entry with NEXT = 0 now (R268, R334). -/
  reader : Option Nat
  deriving DecidableEq, Repr

/-- One arrival of a core at a round (R311). -/
structure RoundArrival where
  index : Nat
  core : CoreId
  ctx : Nat
  uid : Nat
  seq : Nat
  entry : Nat
  /-- One list of contributed values for each value index: format code and pattern, own values and `NXRED` values. -/
  values : List (List (Nat × Nat))
  deriving DecidableEq, Repr

/-- The open round of a tile (R311) and the arrivals held for its later rounds. `blocks` counts the blocks that gateway
cores have taken (R316); `partials` lists the modules whose partial records have reached the parent (R314). -/
structure Round where
  tile : Nat
  entry : Nat
  arrivals : List RoundArrival
  held : List RoundArrival
  partials : List Nat
  /-- Modules that have sent their partial records, and modules that have delivered. -/
  sent : List Nat
  blocks : Dict Nat
  delivered : List Nat
  deriving DecidableEq, Repr

/-- Where a placed job stands between LAUNCH and retirement (R87, R283, R341, R358). -/
inductive Stage where
  | waiting | staging | runpfl | running | retiring
  deriving DecidableEq, Repr

/-- The service CSRs that a core keeps over every boundary (R327). -/
structure ServiceRegs where
  sel : Nat
  cause : Word
  epc : Word
  tval : Word
  scratch : Word
  deriving DecidableEq, Repr

/-- What parking saves of a job (R341). -/
structure Parked where
  cores : List (Nat × Core)
  service : List (Nat × ServiceRegs)
  qsp : Dict Mem
  dss : Dict Mem
  deriving DecidableEq, Repr

/-- A pending PAUSE or boundary CANCEL (R85): its JSN and whether it is a CANCEL. -/
structure Request where
  jsn : Nat
  cancel : Bool
  deriving DecidableEq, Repr

/-- The old word at a code offset of a die, and the quads that have discarded their buffers since the change (R133). -/
structure StaleWord where
  die : DieId
  off : Nat
  word : Half32
  seen : List QuadId
  deriving DecidableEq, Repr

/-- A job from its LAUNCH to its end. -/
structure Job where
  home : Nat
  jsn : Nat
  queue : Nat
  prio : Nat
  n : Nat
  rows : Nat
  cols : Nat
  spandie : Bool
  spanmod : Bool
  exact : Bool
  entry : Word
  ssentry : Word
  handler : Word
  wdog : Nat
  qage : Nat
  root : Nat
  limit : Nat
  sections : List Section
  image : Nat
  imgsize : Nat
  /-- What LAUNCH read of the image, which is read once: header, section table and TILETABLE, as offset, length and bytes (R67). -/
  early : List (Nat × Nat × Memory)
  /-- DIGEST of the header (R67). -/
  digest : Nat
  rr : Nat
  cc : Nat
  rects : List Rect
  stage : Stage
  parked : Option Parked
  paused : Bool
  held : Bool
  dss : Dict Mem
  qsp : Dict Mem
  /-- Base of the slot window on each module (R307), and its size. -/
  windows : Dict Nat
  window : Nat
  /-- The superstep's copies of the tile table, by die: the entries as 512-bit numbers (R308). -/
  tiles : Dict (List Nat)
  rounds : List Round
  votes : List Vote
  /-- Further abort messages and proxy votes, in order of arrival (R314, R331, R333). -/
  proxies : List Vote
  verdict : Option Verdict
  doomed : Bool
  episodes : List Episode
  groups : List OrderGroup
  offers : List Offer
  staged : List Staged
  pending : List Request
  /-- FAULT written to svact (R329), or another end due after the rollback. -/
  endCause : Option Nat
  removeAt : Bool
  /-- The waiting LAUNCH that has asked for a boundary yield (R339): its home module and JSN. -/
  yieldTo : Option (Nat × Nat)
  deadline : Option Nat
  runCause : Nat
  runCount : Nat
  totalAborts : Nat
  aborts : Nat
  lastAttempt : Option Verdict
  /-- Rectangles with a position patched at the present boundary (R342). -/
  patchedAt : List Nat
  /-- Modules whose mangle had failed when the attempt began: their rounds run on gateway cores (R317). -/
  gateways : List Nat
  finalCommit : Bool
  wdCount : Nat
  wdFrom : Option Nat
  /-- Old words of CODE ranges changed in the superstep (R133). -/
  stale : List StaleWord
  deriving DecidableEq, Repr

/-- What a message in flight carries. -/
inductive MsgKind where
  /-- An eager write (R249, R274, R299, R313). -/
  | eager (d : Dest) (n : Nat) (val : Nat) (addr : Word)
  | eagerAck
  /-- A base load by a mesh form (R105). -/
  | loadReq (d : Dest) (n : Nat) (addr : Word)
  | response (val : Nat)
  /-- The data of a load or an atomic was poisoned: the page (R106, R123). -/
  | poisoned (pa : Nat)
  /-- A deferred store, delta or engine write travelling to its home for the membership check (R105). -/
  | check (d : Dest) (addr : Word)
  /-- Returned by its destination; `precise` for loads and atomics. -/
  | returned (precise : Bool) (addr : Word)
  /-- op 0 add, 1 compare and swap, 2 swap (R300). -/
  | atomic (d : Dest) (op : Nat) (a b : Word) (addr : Word)
  | order (d : Dest) (addend : Word) (count : Nat) (addr : Word)
  /-- Group refused the count: the requester traps ILLEGAL (R301). -/
  | orderBad
  | post (core : CoreId) (mb : Nat) (val : Word)
  | late (t : LateTrap)
  | vote (v : Vote) (ssn : Nat)
  /-- An arrival at a group barrier: scope, extent and number of its episode, its vote field (op) and value, and the SSN (R18, R289). -/
  | arrival (scope extent number : Nat) (a : Arrival) (ssn : Nat)
  | further (v : Vote)
  | urgent (cause index origin : Nat)
  | doom
  | outcome (v : Verdict)
  | fire (tile entry patch : Nat) (values : List (List (Nat × Nat)))
  | partial_ (tile : Nat) (module : Nat)
  | result (tile : Nat) (module : Nat)
  | heartbeat (dst : CoreId)
  | accuse (dst suspect : CoreId)
  | accept (dst suspect : CoreId)
  | revoke (slot : Nat)
  | revokeAck (slot : Nat)
  /-- An access to a lease window at the lender: write, address in the lender's tier 0, length, value. -/
  | lease (write : Bool) (pa n : Nat) (val : Nat)
  deriving DecidableEq, Repr

/-- A message in flight: its sender (core and context, or a module for hub traffic), job, number and sequence number. -/
structure Msg where
  src : CoreId
  ctx : Nat
  asid : Nat
  uid : Nat
  seq : Nat
  /-- The command it belongs to (R274). -/
  cmd : Option Nat
  kind : MsgKind
  /-- The position that an answer comes from; none for a message on its way out. -/
  home : Option CoreId := none
  deriving DecidableEq, Repr

/-- A journal entry (R81). -/
structure Entry where
  jsn : Nat
  qseq : Nat
  queue : Nat
  kind : Nat
  cause : Nat
  state : Nat
  asid : Nat
  ssn : Nat
  digest : Nat
  deriving DecidableEq, Repr

/-- A completion not yet written (R75, R78). -/
structure Completion where
  status : Nat
  cause : Nat
  jsn : Nat
  qseq : Nat
  deriving DecidableEq, Repr

/-- A host command queue block (R73). `cidx` and `cphase` are the place and pass of the next completion. -/
structure Queue where
  base : Nat
  tail : Nat
  head : Nat
  cbase : Nat
  chead : Nat
  qexp : Nat
  qdline : Nat
  enabled : Bool
  prio : Nat
  size : Nat
  irq : Bool
  abortok : Bool
  vec : Nat
  cidx : Nat
  cphase : Bool
  pending : List Completion
  deriving DecidableEq, Repr

/-- An accepted command that has not been carried out (R80, R85): its 64 bytes as a number, its queue and that queue's PRIO at
acceptance (R89). `busy` marks a LAUNCH that a LAUNCH entry of its ASID, not final, stood before at acceptance (R359, R400). -/
structure Command where
  jsn : Nat
  queue : Nat
  prio : Nat
  bytes : Nat
  busy : Bool
  deriving DecidableEq, Repr

/-- A host request that a service core has not yet performed (R305). -/
structure HostReq where
  write : Bool
  off : Nat
  size : Nat
  val : Word
  deriving DecidableEq, Repr

inductive LeaseState where
  | offered | taken | revoking
  deriving DecidableEq, Repr

/-- A lease-table slot that is not FREE (R117). `lender`: this module lends. `refused`: its borrower timed out (R118).
`waiting` lists the borrowers' windows (module, slot) that have not acknowledged. -/
structure Lease where
  state : LeaseState
  lender : Bool
  peer : Nat
  base : Nat
  len : Nat
  refused : Bool
  waiting : List (Nat × Nat)
  since : Nat
  /-- The command that ends with the sequence. -/
  jsn : Nat
  deriving DecidableEq, Repr

/-- A bank row open after an access, reserved by `CPSTRM` or sparing (R125, R126). -/
structure Bank where
  row : Nat
  lastUse : Nat
  holder : Option CoreId
  since : Nat
  deriving DecidableEq, Repr

structure MsixEntry where
  addr : Nat
  data : Nat
  masked : Bool
  deriving DecidableEq, Repr

/-- Module power state (R369 to R371). -/
inductive Power where
  | d0 | d3hot | off
  deriving DecidableEq, Repr

/-- A module of the pod (R16, R400). -/
structure Module where
  power : Power
  resetClock : Nat
  hbm : Memory
  /-- Pages of local HBM, by number, whose bit of the poison bitmap is set (R122). -/
  poison : List Nat
  /-- PA ranges claimed by the CXL decoders (R120): base and length. -/
  hdm : List (Nat × Nat)
  /-- Extents that their device has asked for and that are not yet released (R121): base and length. -/
  releasing : List (Nat × Nat)
  banks : Dict Bank
  corrected : Dict Nat
  sparing : List Nat
  spares : Dict Nat
  dies : Dict Die
  quads : Dict Quad
  leases : Dict Lease
  -- CTLWIN (R71 to R75)
  ready : Bool
  accerr : Bool
  orderr : Bool
  jmerr : Bool
  jmen : Bool
  hostord : Bool
  jmbase : Nat
  jhead : Nat
  queues : Dict Queue
  slots : Dict Entry
  heldTab : Dict Entry
  commands : List Command
  served : Dict Nat
  /-- Host requests at the service cores of Mode S, oldest first, by die and die quadrant (R305). -/
  requests : Dict (List HostReq)
  /-- MSI-X enable of the PCI Express capability (R368). -/
  msixOn : Bool
  msix : Dict MsixEntry
  pba : List Nat
  mangleFailed : Bool
  /-- The walks under way, and the pager's clock hand for each ASID (R112, R116). -/
  hand : Dict Nat
  -- MGMTWIN (R360 to R370)
  freeze : Bool
  cnt : Sparse 64
  /-- The clock from which counter 0, the cycles, counts on what `cnt` holds of it, while the counters run (R361). -/
  cntFrom : Nat
  svcarg : Sparse 64
  svcbuf : Memory
  svcop : Nat
  svcErr : Nat
  svcDone : Bool
  svcBusy : Bool
  events : List (Word × Word)
  lost : Nat
  flash : Dict Memory
  flashPerm : List CoreId
  /-- The image that the boot ROM loaded (R363). -/
  running : Memory
  bootCode : Nat
  svn : Nat
  pwrlim : Nat
  throttled : Bool
  tjmax : Nat
  watts : Nat
  nonce : Memory
  attErr : Bool
  attDone : Bool
  attBusy : Bool
  report : Memory
  idcert : Memory
  deriving DecidableEq, Repr

/-- What the environment or the model's schedule asks for next: one of the machine's steps, or an issue by a core. -/
inductive Turn where
  | event (i : Instr)
  | issue (c : CoreId)
  deriving DecidableEq, Repr

/-- The pod (R24, R400). `cur` is the core and context whose instruction is issuing and `ir` its word; `agenda` is the schedule
of the environment; `clock` counts cycles; `ticks` and `free` number the free values drawn so far. -/
structure State where
  cur : CoreId × Nat
  ir : BitVec 32
  agenda : List Turn
  clock : Nat
  ticks : Nat
  free : Nat
  tickets : Nat
  modules : Dict Module
  cores : Dict Core
  positions : Dict Pos
  jobs : Dict Job
  net : List Msg
  /-- The message that a position's core injected last, by position (R347). -/
  lastSent : Dict Msg
  host : Memory
  /-- Pages of host memory, by number of their PA, that a read returns poisoned (R123). -/
  hostPoison : List Nat
  /-- Memory of the CXL devices, and the pages of it that they report poisoned, by the store that holds it (R108, R120). -/
  cxl : Dict Memory
  cxlPoison : Dict (List Nat)
  /-- Completions of host-window and register reads: what the host received, newest first (none: Unsupported Request). -/
  replies : List (Option Nat)
  deriving DecidableEq, Repr

/-- A context at module reset (R157): idle, every register zero, p1 to p7 clear, v registers without elements. -/
def Ctx.reset : Ctx :=
  { life := .idle, pc := 0, x := [], f := [], p := [], v := [], grant := 0, lc := [], fcsr := 0, flags := 0, enables := 0
    level := .job, wait := none, ticket := 0, marks := [], instret := 0, late := [], entry := none, woken := none, fwEpc := 0 }

/-- A position at module reset (R327, R343): `hbperiod` as its field map gives. -/
def Pos.reset : Pos :=
  { hbperiod := 0x40330400, cpsel := 0, svcause := 0, svepc := 0, svtval := 0, svscratch := 0, trace := [], tracePos := 0
    tracePost := none, heard := [], misses := [], crcs := [], headers := [], accused := [], accepted := [], clean := []
    appealing := false, rejections := 0, readmit := false, probation := 0, lastBeat := 0, lastCheck := 0, seen := 0, fencedAt := 0, firstBeat := none, tlb := [] }

/-- The role of the spare-position core of quad `q` (0 to 63) of die `d` (0 to 3) after reset, within the counts and places of R22: row and
column are counted from the edges with the seams to the two neighbouring dies, so that they meet at the hub. Eight gateways stand along
each of those edges and eight before the corner. Which quads hold which roles is the steward's choice; this choice is the model's (DESIGN
CHOICE, log entry 6). -/
def roleAtReset (d q : Nat) : Role :=
  let r := if d / 2 = 0 then 7 - q / 8 else q / 8
  let c := if d % 2 = 0 then 7 - q % 8 else q % 8
  if c = 0 then .gateway 0
  else if r = 0 ∨ (r = 1 ∧ c = 7) then .gateway 1
  else if (r = 1 ∧ c ≤ 3) ∨ (r = 2 ∧ c ≤ 3) ∨ (r = 3 ∧ c ≤ 2) then .gateway 2
  else if (r = 3 ∨ r = 4) ∧ (c = 3 ∨ c = 4) then .service
  else if r = 7 ∧ c = 7 then .steward
  else .standby

/-- Die `d` (0 to 3) of a module after reset: every position on its own slot, roles assigned (R22, R98, R368). -/
def Die.reset (d : Nat) : Die :=
  { patches := [], forwards := [], roles := (List.range 64).map fun q => (q, roleAtReset d q), lastPos := 0, tlb := [] }

def Queue.reset : Queue :=
  { base := 0, tail := 0, head := 0, cbase := 0, chead := 0, qexp := 1, qdline := 0, enabled := false, prio := 0, size := 0
    irq := false, abortok := false, vec := 0, cidx := 0, cphase := true, pending := [] }

/-- A module right after reset (R366 to R368, R361 to R370). -/
def Module.reset : Module :=
  { power := .d0, resetClock := 0, hbm := [], poison := [], hdm := [], releasing := [], banks := [], corrected := [], sparing := []
    spares := [], dies := [(0, Die.reset 0), (1, Die.reset 1), (2, Die.reset 2), (3, Die.reset 3)], quads := [], leases := []
    ready := false, accerr := false, orderr := false, jmerr := false, jmen := false, hostord := false, jmbase := 0, jhead := 1
    queues := [], slots := [], heldTab := [], commands := [], served := [], requests := [], msixOn := false, msix := [], pba := [], mangleFailed := false
    hand := [], freeze := false, cnt := [], cntFrom := 0, svcarg := [], svcbuf := [], svcop := 0, svcErr := 0, svcDone := false
    svcBusy := false, events := [], lost := 0, flash := [], flashPerm := [], running := [], bootCode := 0, svn := 0, pwrlim := 0x0AF0
    throttled := false, tjmax := 0, watts := 0, nonce := [], attErr := false, attDone := false, attBusy := false, report := []
    idcert := [] }

/-- The machine right after reset: a pod of one module at power-on, booting, no job placed (R363, R366, R368): the boot ROM
verifies firmware in the `COLD_RESET` step that follows. The number of modules is the model's choice (log entry 5). -/
def State.reset : State :=
  { cur := (0, 0), ir := 0, agenda := [], clock := 0, ticks := 0, free := 0, tickets := 0, modules := [(0, Module.reset)]
    cores := [], positions := [], jobs := [], net := [], lastSent := [], host := [], hostPoison := [], cxl := [], cxlPoison := [], replies := [] }

end Sys2Proof.Machine
end

