-- ==== Sys2Proof/Machine/Ops.lean ====
section
/-! DEFINITION. The named operations over the state: positions, accessors, registers, homes, messages, trace, late results,
abort conditions, taking a trap and the return from one. -/

namespace Sys2Proof.Machine

/-- What a step answers. -/
abbrev Result := Host.Outcome State Fault Refusal

-- trap causes (R321)
def cILLEGAL : Nat := 0x01
def cALIGN : Nat := 0x02
def cFORM : Nat := 0x03
def cBOUNDS : Nat := 0x04
def cGROUP : Nat := 0x05
def cRING : Nat := 0x06
def cHAMPER : Nat := 0x07
def cQDEAD : Nat := 0x08
def cPAGE : Nat := 0x09
def cPOISON : Nat := 0x0A
def cPARITY : Nat := 0x0B
def cCHECKSUM : Nat := 0x0C
def cRETURNED : Nat := 0x0D
def cLINK : Nat := 0x0E
def cWATCHDOG : Nat := 0x0F
def cNUMERIC : Nat := 0x10
def cLEASE : Nat := 0x11
def cECALL : Nat := 0x12
def cEBREAK : Nat := 0x13
def cTRIGGER : Nat := 0x14
def cPRIV : Nat := 0x15

/-- The place of a cause in the order in which an engine command reports one (R276). -/
def causeRank (cause : Nat) : Nat :=
  ([0, cFORM, cALIGN, cBOUNDS, cRING, cPAGE, cLEASE, cRETURNED, cPOISON, cLINK, cPARITY].findIdx? (· = cause)).getD 11

-- positions (R16, R17, R25)
def coreKey (m d r c : Nat) : CoreId := ((m * 4 + d) * 16 + r) * 16 + c
def coreModule (c : CoreId) : Nat := c / 1024
def coreDie (c : CoreId) : DieId := c / 256
def coreRow (c : CoreId) : Nat := c / 16 % 16
def coreCol (c : CoreId) : Nat := c % 16
def coreQuad (c : CoreId) : QuadId := c / 256 * 64 + coreRow c / 2 * 8 + coreCol c / 2
/-- The slot of a position in its quad: north-west, north-east, south-west, south-east (R98). -/
def coreSlot (c : CoreId) : Nat := coreRow c % 2 * 2 + coreCol c % 2
def quadModule (q : QuadId) : Nat := q / 256
def dieModule (d : DieId) : Nat := d / 4

/-- The least option among a list of candidates. -/
def firstSome {α : Type} : List (Option α) → Option α
  | [] => none
  | some a :: _ => some a
  | none :: t => firstSome t

-- accessors: every read and write of the state goes through these
def State.core? (s : State) (c : CoreId) : Option Core := dget? s.cores c
def State.setCore (s : State) (c : CoreId) (k : Core) : State := { s with cores := dset s.cores c k }
def State.modCore (s : State) (c : CoreId) (f : Core → Core) : State := { s with cores := dmod s.cores c f }
def Core.ctx (k : Core) (n : Nat) : Ctx := dgetD k.ctxs n Ctx.reset
def Core.setCtx (k : Core) (n : Nat) (x : Ctx) : Core := { k with ctxs := dset k.ctxs n x }
def Core.modCtx (k : Core) (n : Nat) (f : Ctx → Ctx) : Core := k.setCtx n (f (k.ctx n))
def State.modCtx (s : State) (c : CoreId) (n : Nat) (f : Ctx → Ctx) : State := s.modCore c fun k => k.modCtx n f
def State.setCtx (s : State) (c : CoreId) (n : Nat) (x : Ctx) : State := s.modCore c fun k => k.setCtx n x
def State.job? (s : State) (a : Nat) : Option Job := dget? s.jobs a
def State.setJob (s : State) (a : Nat) (j : Job) : State := { s with jobs := dset s.jobs a j }
def State.modJob (s : State) (a : Nat) (f : Job → Job) : State := { s with jobs := dmod s.jobs a f }
def State.module? (s : State) (m : Nat) : Option Module := dget? s.modules m
def State.modModule (s : State) (m : Nat) (f : Module → Module) : State := { s with modules := dmod s.modules m f }
def State.pos (s : State) (c : CoreId) : Pos := dgetD s.positions c Pos.reset
def State.modPos (s : State) (c : CoreId) (f : Pos → Pos) : State := { s with positions := dset s.positions c (f (s.pos c)) }
def Module.die (m : Module) (d : Nat) : Die := dgetD m.dies d (Die.reset d)
def Module.modDie (m : Module) (d : Nat) (f : Die → Die) : Module := { m with dies := dset m.dies d (f (m.die d)) }
def State.die (s : State) (d : DieId) : Die := ((s.module? (dieModule d)).map fun m => m.die (d % 4)).getD (Die.reset (d % 4))
def State.modDie (s : State) (d : DieId) (f : Die → Die) : State := s.modModule (dieModule d) fun m => m.modDie (d % 4) f
def Quad.reset : Quad := { claims := [], headFrom := 0, spare := [] }
def State.quad (s : State) (q : QuadId) : Quad := ((s.module? (quadModule q)).map fun m => dgetD m.quads q Quad.reset).getD Quad.reset
def State.modQuad (s : State) (q : QuadId) (f : Quad → Quad) : State :=
  s.modModule (quadModule q) fun m => { m with quads := dset m.quads q (f (dgetD m.quads q Quad.reset)) }
/-- The patch-table entry of a position; a position that is not listed is on its own slot (R98). -/
def State.patch (s : State) (c : CoreId) : Patch :=
  dgetD (s.die (coreDie c)).patches (c % 256) { fenced := false, perm := false, slot := coreSlot c }
def State.setPatch (s : State) (c : CoreId) (p : Patch) : State :=
  s.modDie (coreDie c) fun d => { d with patches := dset d.patches (c % 256) p }

/-- A number of its own for a wait, a message or a command. -/
def State.fresh (s : State) : Nat × State := (s.tickets, { s with tickets := s.tickets + 1 })
/-- A free value that the spec leaves open (log entry 3). -/
def State.draw (s : State) : Nat × State := (Config.freeNat s.free, { s with free := s.free + 1 })
def State.drawBool (s : State) : Bool × State := (Config.freeBool s.free, { s with free := s.free + 1 })

-- registers (R9, R135)
def Ctx.getX (k : Ctx) (r : R5) : Word := if r = 0 then 0 else sget k.x r.toNat
def Ctx.setX (k : Ctx) (r : R5) (v : Word) : Ctx := if r = 0 then k else { k with x := sset k.x r.toNat v }
def Ctx.getF (k : Ctx) (r : R5) : Half32 := sget k.f r.toNat
def Ctx.setF (k : Ctx) (r : R5) (v : Half32) : Ctx := { k with f := sset k.f r.toNat v }
def Ctx.getP (k : Ctx) (r : R3) : Word := if r = 0 then BitVec.allOnes 64 else sget k.p r.toNat
def Ctx.setP (k : Ctx) (r : R3) (v : Word) : Ctx := if r = 0 then k else { k with p := sset k.p r.toNat v }
def Ctx.getV (k : Ctx) (r : R5) (i : Nat) : Half32 := sget k.v (64 * r.toNat + i)
def Ctx.setV (k : Ctx) (r : R5) (i : Nat) (v : Half32) : Ctx := { k with v := sset k.v (64 * r.toNat + i) v }
def Ctx.getLc (k : Ctx) (n : Nat) : Word := sget k.lc n
def Ctx.setLc (k : Ctx) (n : Nat) (v : Word) : Ctx := { k with lc := sset k.lc n v }
def Ctx.live (k : Ctx) : Bool := k.life != .idle

/-- Moves past an instruction that completed: the pc and the count of retired instructions (R131). -/
def Ctx.advance (k : Ctx) : Ctx := { k with pc := k.pc + 4, instret := k.instret + 1, wait := none }

/-- A context that waits, with its place in the order of waits (R38). -/
def State.block (s : State) (c : CoreId) (k : Nat) (w : Wait) : State :=
  let (t, s) := s.fresh
  s.modCtx c k fun x => { x with wait := some w, ticket := t }

-- jobs: sections and limits (R68, R96)
def Job.codes (j : Job) : List (Nat × Nat) := (j.sections.filter fun s => s.type = 1).map fun s => (s.addr, s.size)
/-- The bytes at `off` to `off + n - 1` meet a CODE section. -/
def Job.inCode (j : Job) (off n : Nat) : Bool := j.codes.any fun r => off < r.1 + r.2 && r.1 < off + n
/-- All of the bytes lie inside one CODE section. -/
def Job.allCode (j : Job) (off n : Nat) : Bool := j.codes.any fun r => r.1 ≤ off && off + n ≤ r.1 + r.2
/-- The end of the placement map (R96, R97). -/
def Job.mapEnd (j : Job) : Nat := j.limit + 8 * j.rects.length
/-- The exclusive offset limit of a space (R20, R102). -/
def Job.limitOf (j : Job) : Space → Nat
  | .tcm => 0x20000
  | .qsp => 0x340000
  | .dss => j.mapEnd
/-- A store may not touch the placement map nor, below service level, a CODE range (R97, R106, R326). -/
def Job.guarded (j : Job) (sp : Space) (off n : Nat) (level : Level) : Bool :=
  sp == .dss && (decide (j.limit < off + n) || (level == .job && j.inCode off n))
def Job.hasDie (j : Job) (d : DieId) : Bool := j.rects.any fun r => r.die = d
def Job.coreAt (j : Job) (i : Nat) : Option CoreId :=
  (j.rects[i / (j.rr * j.cc)]?).map fun r =>
    let w := i % (j.rr * j.cc)
    r.die * 256 + (r.row + w / j.cc) * 16 + (r.col + w % j.cc)
/-- The positions of a job's cores in ascending logical core index (R95). -/
def Job.places (j : Job) : List CoreId := (List.range j.n).filterMap j.coreAt
/-- The positions of the job's cores in a quad, by ascending logical core index. -/
def Job.inQuad (j : Job) (q : QuadId) : List CoreId := j.places.filter fun c => coreQuad c = q

-- scopes (R31, R289): the extent of a scope that an issuer at `c` names, as a number, and whether a position lies in it
def extentOf (sc : Nat) (c : CoreId) : Nat :=
  match sc with
  | 1 => c
  | 2 => coreQuad c
  | 3 => coreDie c
  | 4 => coreModule c
  | _ => 0
def inExtent (sc : Nat) (c d : CoreId) : Bool := extentOf sc c = extentOf sc d
/-- Does the home of a location lie in the extent of a scope (R298)? The extent holds cores of the job only (R31): the home is the
position of one of them, or the quad or the die of one. -/
def Job.homeInExtent (j : Job) (sc : Nat) (c : CoreId) (d : Dest) : Bool :=
  inExtent sc c d.core && match d.space with
    | .tcm => j.places.contains d.core
    | .qsp => decide (2 ≤ sc) && !(j.inQuad (coreQuad d.core)).isEmpty
    | .dss => decide (3 ≤ sc) && j.hasDie (coreDie d.core)

-- homes (R238 to R240)
def Mem.put (m : Mem) (a n v : Nat) : Mem := { m with cur := writeMem m.cur a n v }
/-- A write that no rollback undoes (R284, R303). -/
def Mem.putBoth (m : Mem) (a n v : Nat) : Mem := { cur := writeMem m.cur a n v, base := writeMem m.base a n v }
def Mem.empty : Mem := { cur := [], base := [] }
def Mem.commit (m : Mem) : Mem := { m with base := m.cur }
def Mem.rollback (m : Mem) : Mem := { m with cur := m.base }

/-- The memory that is the home of a location of job `a`. -/
def State.home (s : State) (a : Nat) (d : Dest) : Mem :=
  match d.space with
  | .tcm => ((s.core? d.core).map Core.tcm).getD Mem.empty
  | .qsp => ((s.job? a).map fun j => dgetD j.qsp (coreQuad d.core) Mem.empty).getD Mem.empty
  | .dss => ((s.job? a).map fun j => dgetD j.dss (coreDie d.core) Mem.empty).getD Mem.empty
def State.modHome (s : State) (a : Nat) (d : Dest) (f : Mem → Mem) : State :=
  match d.space with
  | .tcm => s.modCore d.core fun k => { k with tcm := f k.tcm }
  | .qsp => s.modJob a fun j => { j with qsp := dset j.qsp (coreQuad d.core) (f (dgetD j.qsp (coreQuad d.core) Mem.empty)) }
  | .dss => s.modJob a fun j => { j with dss := dset j.dss (coreDie d.core) (f (dgetD j.dss (coreDie d.core) Mem.empty)) }
/-- `rd_mem` at a home (R10, R240). -/
def State.rd (s : State) (a : Nat) (d : Dest) (n : Nat) : Nat := readMem (s.home a d).cur d.off n
/-- An immediate or eager write at a home, undone by an abort (R239). -/
def State.wr (s : State) (a : Nat) (d : Dest) (n v : Nat) : State := s.modHome a d fun m => m.put d.off n v
def State.wrBoth (s : State) (a : Nat) (d : Dest) (n v : Nat) : State := s.modHome a d fun m => m.putBoth d.off n v

/-- What stands at the homes of job `a` now, with the gather latch of core `c` (R235). -/
def State.homesOf (s : State) (a : Nat) (c : CoreId) : Homes :=
  let mems := fun (d : Dict Mem) => d.map fun e => (e.1, e.2.cur)
  { tcm := (s.cores.filter fun e => e.2.asid == a).map fun e => (e.1, e.2.tcm.cur)
    qsp := ((s.job? a).map fun j => mems j.qsp).getD []
    dss := ((s.job? a).map fun j => mems j.dss).getD []
    latch := ((s.core? c).map Core.latch).getD [] }
/-- The `n` bytes that stood at a location. -/
def Homes.rd (h : Homes) (d : Dest) (n : Nat) : Nat :=
  readMem (match d.space with
    | .tcm => dgetD h.tcm d.core []
    | .qsp => dgetD h.qsp (coreQuad d.core) []
    | .dss => dgetD h.dss (coreDie d.core) []) d.off n
/-- One 32-byte atom of a read by an engine: a store that races the command is seen or missed, which is open (R235, R264; log entry 3). -/
def State.rdAtom (s : State) (h : Homes) (a : Nat) (d : Dest) (n : Nat) : Nat × State :=
  let now := s.rd a d n
  if h.rd d n = now then (now, s) else (if s.drawBool.1 then now else h.rd d n, s.drawBool.2)
/-- `n` bytes read atom by atom, the atoms cut at multiples of 32, up to atom `k`. -/
def State.rdAtoms (s : State) (h : Homes) (a : Nat) (d : Dest) (n : Nat) : Nat → Nat × State
  | 0 => (0, s)
  | k + 1 =>
    let (x, s) := s.rdAtoms h a d n k
    let lo := max d.off (32 * (d.off / 32 + k))
    let (y, s) := s.rdAtom h a { d with off := lo } (min (d.off + n) (32 * (d.off / 32 + k + 1)) - lo)
    (x + y * 2 ^ (8 * (lo - d.off)), s)
/-- `n` bytes of an operand of a command that started with `seen`; where nothing has changed since, what stands there now (R235, R264). -/
def State.rdEngine (s : State) (seen : Option Homes) (a : Nat) (d : Dest) (n : Nat) : Nat × State :=
  match seen with
  | none => (s.rd a d n, s)
  | some h => if h.rd d n = s.rd a d n then (s.rd a d n, s) else s.rdAtoms h a d n ((d.off % 32 + n + 31) / 32)
/-- A list made element by element by a function that may draw free values. -/
def State.each {α β : Type} (s : State) (f : State → α → β × State) : List α → List β × State
  | [] => ([], s)
  | x :: t =>
    let (y, s) := f s x
    let (l, s) := s.each f t
    (y :: l, s)

/-- A message for job `a` finds a core of the job at its target, which is not fenced (R105, R347). -/
def State.belongs (s : State) (a : Nat) (c : CoreId) : Bool :=
  !(s.patch c).fenced && ((s.core? c).map fun k => k.asid == a).getD false
/-- The position a message for `c` performs at: `c`, or where a forwarding entry leads (R101). -/
def State.forwarded (s : State) (a : Nat) (c : CoreId) : CoreId :=
  match ((s.die (coreDie c)).forwards.find? fun f => f.asid == a && f.old == c) with
  | some f => f.new
  | none => c
/-- A location behind a forwarding entry of the job (R101). -/
def State.settled (s : State) (a : Nat) (d : Dest) : Dest := { d with core := s.forwarded a d.core }
/-- The home of a location as job `a` now stands, behind a forwarding entry, lies in the extent of a scope (R101, R298). -/
def State.homeIn (s : State) (a sc : Nat) (c : CoreId) (d : Dest) : Bool :=
  ((s.job? a).map fun j => j.homeInExtent sc c (s.settled a d)).getD false
/-- Where a message to `d` performs, or none when it is returned (R101, R105). -/
def State.target (s : State) (a : Nat) (d : Dest) : Option Dest :=
  let c := s.forwarded a d.core
  if s.belongs a c && (d.space != .dss || ((s.job? a).map fun j => j.hasDie (coreDie c)).getD false) then some { d with core := c }
  else none

-- messages
/-- A message that travels from the core that is its source: a request, a firing, one for the closing barrier, or one for a neighbour. -/
def MsgKind.outgoing : MsgKind → Bool
  | .eager _ _ _ _ | .loadReq _ _ _ | .check _ _ | .atomic _ _ _ _ _ | .order _ _ _ _ | .post _ _ _ => true
  | .fire _ _ _ _ | .vote _ _ | .arrival _ _ _ _ _ | .further _ | .heartbeat _ | .accuse _ _ | .accept _ _ => true
  | .urgent _ _ origin => origin == 1
  | _ => false
/-- The context number of a message that a module's hub sends, or its mangle: no context bears it. -/
def hubCtx : Nat := 11
/-- The core that injects a message: its source, or the home that answers; a module's hub bears the position of its first core and a context number
of its own. -/
def Msg.injector (m : Msg) : Option CoreId :=
  match m.home with
  | some c => some c
  | none => if m.ctx != hubCtx && m.kind.outgoing then some m.src else none
/-- A message sets out (R347). -/
def State.inject (s : State) (m : Msg) : State :=
  { s with net := s.net ++ [m]
           lastSent := match m.injector with
             | some c => dset s.lastSent c m
             | none => s.lastSent }
def State.send (s : State) (src : CoreId) (ctx asid seq : Nat) (cmd : Option Nat) (kind : MsgKind) : Nat × State :=
  let (u, s) := s.fresh
  (u, s.inject { src := src, ctx := ctx, asid := asid, uid := u, seq := seq, cmd := cmd, kind := kind })
/-- A message without an answer. -/
def State.post (s : State) (src : CoreId) (asid : Nat) (kind : MsgKind) : State := (s.send src 0 asid 0 none kind).2
/-- A message of module `m`'s hub. -/
def State.postHub (s : State) (m asid : Nat) (kind : MsgKind) : State := (s.send (m * 1024) hubCtx asid 0 none kind).2
def State.dropMsg (s : State) (n : Nat) : State := { s with net := s.net.eraseIdx n }

-- trace (R355, R356)
def traceBit (t : Word) (b : Nat) : Bool := t.getLsbD b
def frozenBit : Word := 0x800
def Core.cycle (k : Core) (clock : Nat) : Nat := clock - k.ssStart
/-- Adds an entry while tracing is on and not frozen; the ring holds 1,024. -/
def State.record (s : State) (c : CoreId) (k kind : Nat) (write : Bool) (payload : Word) : State :=
  match s.core? c with
  | none => s
  | some core =>
    if traceBit core.tracectl 0 && !traceBit core.tracectl 11 then
      let hi := core.cycle s.clock % 2 ^ 32 * 2 ^ 32 + k * 2 ^ 28 + kind * 2 ^ 24 + (if write then 1 else 0)
      let p := s.pos c
      let s := s.modPos c fun p => { p with trace := ((hi, payload.toNat) :: p.trace).take 1024 }
      match p.tracePost with
      | none => s
      | some n =>
        if n ≤ 1 then (s.modPos c fun p => { p with tracePost := none }).modCore c fun k => { k with tracectl := k.tracectl ||| frozenBit }
        else s.modPos c fun p => { p with tracePost := some (n - 1) }
    else s
/-- A trigger: POST more entries are recorded before FROZEN is set. While EN = 0 it does nothing, by the model's choice (R356; DESIGN CHOICE, log
entry 106). -/
def State.trigger (s : State) (c : CoreId) : State :=
  match s.core? c with
  | none => s
  | some core =>
    if traceBit core.tracectl 0 && !traceBit core.tracectl 11 && (s.pos c).tracePost.isNone then
      let post := core.tracectl.toNat / 2 ^ 16 % 2 ^ 10
      if post = 0 then s.modCore c fun k => { k with tracectl := k.tracectl ||| frozenBit }
      else s.modPos c fun p => { p with tracePost := some post }
    else s
def State.recordBranch (s : State) (c : CoreId) (k : Nat) (target : Word) : State :=
  if ((s.core? c).map fun x => traceBit x.tracectl 1).getD false then s.record c k 1 false target else s
def State.recordPred (s : State) (c : CoreId) (k : Nat) (v : Word) : State :=
  if ((s.core? c).map fun x => traceBit x.tracectl 2).getD false then s.record c k 2 false v else s
def State.recordMem (s : State) (c : CoreId) (k : Nat) (write : Bool) (a : Word) : State :=
  if ((s.core? c).map fun x => traceBit x.tracectl 3).getD false then s.record c k 3 write a else s
/-- A trap entry, and a trigger when FLTTRIG is set. -/
def State.recordTrap (s : State) (c : CoreId) (k seq cause : Nat) : State :=
  let flt := ((s.core? c).map fun x => traceBit x.tracectl 8).getD false
  let s := s.record c k 5 false (BitVec.ofNat 64 (seq % 65536 * 256 + cause))
  if flt then s.trigger c else s

-- counters of the module (R361)
def State.count (s : State) (m i n : Nat) : State :=
  s.modModule m fun d => if d.freeze then d else { d with cnt := sset d.cnt i (sget d.cnt i + BitVec.ofNat 64 n) }

/-- Sets flags of an operation in its issuer's `qflags`, or in context 0's when the helper that issued it is no longer live,
whoever bears its number now (R56, R163). -/
def State.addFlags (s : State) (c : CoreId) (k : Nat) (gone : Bool) (fl : BitVec 7) : State :=
  s.modCore c fun core => core.modCtx (if gone then 0 else k) fun x => { x with flags := x.flags ||| fl }

-- the coprocessor ring (R330)
/-- The entry of the next dispatch is free. -/
def Core.ringFree (k : Core) : Bool := !((dget? k.ring (k.seqNext % 64)).map RingEntry.valid).getD false
/-- Enters the next dispatch: its sequence number counts modulo 65,536. -/
def Core.dispatch (k : Core) (n uid : Nat) : Nat × Core :=
  let seq := k.seqNext % 65536
  let off := (k.ctx n).pc.toNat % 2 ^ 28
  (seq, { k with seqNext := k.seqNext + 1, ring := dset k.ring (seq % 64) { seq := seq, ctx := n, valid := true, done := false, pcoff := off, uid := uid, owed := 0 } })
/-- The entry is freed once its operation has completed and no late trap of it is pending. -/
def RingEntry.settle (e : RingEntry) : RingEntry := { e with valid := e.valid && !(e.done && e.owed == 0) }
/-- The held entry of a dispatch changed. -/
def Core.modRing (k : Core) (seq : Nat) (f : RingEntry → RingEntry) : Core :=
  { k with ring := dmod k.ring (seq % 64) fun e => if e.seq = seq ∧ e.valid then (f e).settle else e }
/-- Late traps of the operation set out. -/
def Core.ringOwe (k : Core) (seq n : Nat) : Core := k.modRing seq fun e => { e with owed := e.owed + n }
/-- The operation has completed. -/
def Core.ringDone (k : Core) (seq : Nat) : Core := k.modRing seq fun e => { e with done := true }
/-- A late trap of the operation has been taken or discarded. -/
def Core.ringTaken (k : Core) (seq : Nat) : Core := k.modRing seq fun e => { e with owed := e.owed - 1 }

/-- The loop counter that a push advanced is restored (R151). -/
def Core.restoreLc (core : Core) (k : Nat) (lc : Option (Nat × Word)) : Core :=
  match lc with
  | some (n, v) => core.modCtx k fun x => x.setLc n v
  | none => core
/-- Undoes a push whose wait is abandoned: the loop counter and, once it has one, the coprocessor-ring entry (R151, R323). -/
def Core.abandonPush (core : Core) (k : Nat) (w : Wait) : Core :=
  match w with
  | .push _ cmd lc =>
    let core := core.restoreLc k lc
    { core with ring := dmod core.ring (cmd.seq % 64) fun e => { e with valid := false } }
  | .ringPush _ _ lc => core.restoreLc k lc
  | _ => core

/-- Removes the claims that a core's waits made (R187). -/
def State.dropClaims (s : State) (c : CoreId) : State :=
  s.modQuad (coreQuad c) fun q => { q with claims := q.claims.filter fun x => x.core != c }

/-- Every wait of the core ends without effect: a push that waits is undone (R151). -/
def Core.endWaits (k : Core) : Core :=
  let k := k.ctxs.foldl (fun k e => match e.2.wait with
    | some w => k.abandonPush e.1 w
    | none => k) k
  { k with ctxs := dmap k.ctxs fun _ x => { x with wait := none } }
/-- Every wait of the core ends without effect and no context issues again in the attempt (R282, R331, R332). -/
def State.stopCore (s : State) (c : CoreId) : State := (s.modCore c fun k => { k.endWaits with stopped := true }).dropClaims c

/-- The job's progress in its superstep has not been decided and the core has not voted. -/
def Core.open_ (k : Core) : Bool := (k.phase == .run || k.phase == .closing) && !k.dead

/-- An abort condition recorded by a core (R331): the first stops it and votes; a later one goes as a further abort message;
one that comes after the outcome is discarded. -/
def State.abortCondition (s : State) (c : CoreId) (cause : Nat) : State :=
  match s.core? c with
  | none => s
  | some k =>
    if k.dead then s
    else if k.open_ && !k.stopped then
      let s := (s.modCore c fun k => { k with abort := some (k.abort.getD cause), phase := .voted }).stopCore c
      s.post c k.asid (.vote { index := k.index, abort := true, cause := cause, op := 0, val := 0 } k.ssn)
    else if k.phase == .voted || k.open_ then
      let s := s.modCore c fun k => { k with abort := some (k.abort.getD cause), stopped := true }
      s.post c k.asid (.further { index := k.index, abort := true, cause := cause, op := 0, val := 0 })
    else s

/-- Poison met by an access of a core: the page is kept for R336. -/
def State.metPoison (s : State) (c : CoreId) (pa : Nat) : State :=
  s.modCore c fun k => { k with poisonMet := some (pa / 4096 * 4096) }

-- traps (R322, R325)
/-- `svcause` of a trap (R327). -/
def svcauseOf (t : PendingEntry) : Word :=
  BitVec.ofNat 64 (t.seq.getD 0 % 65536 * 2 ^ 48 + (if t.late then 2 ^ 47 else 0) + (if t.orphan then 2 ^ 46 else 0)
    + t.reason * 2 ^ 44 + t.ctx * 2 ^ 40 + t.cause)

/-- A context of the core runs at service level. -/
def Core.inService (k : Core) : Bool := k.ctxs.any fun e => e.2.level == .service
/-- A context of the core is at service level, or waits to enter the handler: a further one waits its turn (R326). -/
def Core.serviceTaken (k : Core) : Bool := k.inService || k.ctxs.any fun e => e.2.entry.isSome

/-- The handler entry of R325: the service CSRs are written, the level changes and the pc is HANDLER. -/
def State.enterHandler (s : State) (c : CoreId) (k : Nat) (t : PendingEntry) (handler : Word) : State :=
  let last := ((s.core? c).map fun x => x.seqNext).getD 0
  let sel := match t.seq with
    | some q => q % 64
    | none => if last = 0 then 0 else (last - 1) % 64
  let s := s.modPos c fun p => { p with svcause := svcauseOf t, svepc := t.epc, svtval := t.tval, cpsel := sel }
  s.modCtx c k fun x => { x with level := .service, pc := handler, wait := none, entry := none }

/-- A trap taken by context `k` (R322): at firmware level it goes to the firmware's handler; at service level, with no handler, or for
POISON, it is an abort condition; otherwise the context enters the handler, or waits while another is at service level or waits
(R326). -/
def State.takeTrap (s : State) (c : CoreId) (k : Nat) (t : PendingEntry) : State :=
  let s := s.recordTrap c k (t.seq.getD 0) t.cause
  match s.core? c with
  | none => s
  | some core =>
    let x := core.ctx k
    let handler := ((s.job? core.asid).map Job.handler).getD 0
    match x.level with
    | .firmware => s.modCtx c k fun x => { x with fwEpc := t.epc, pc := Config.firmwareHandler, wait := none }
    | .service => s.abortCondition c t.cause
    | .job =>
      if handler = 0 || t.cause == cPOISON then s.abortCondition c t.cause
      else if core.serviceTaken then s.modCtx c k fun x => { x with entry := some t, wait := none }
      else s.enterHandler c k t handler

/-- The return from the handler (R177, R328): `svepc` checked as a branch target by the caller, `svcause` reset; a return from a REPEAT
entry consumes the poisoned page-fetch entries (R352). -/
def State.leaveHandler (s : State) (c : CoreId) (k : Nat) : State :=
  let p := s.pos c
  let s := s.modPos c fun p => { p with svcause := 0 }
  let s := if p.svcause.toNat / 2 ^ 44 % 4 = 1 then s.modCore c fun x => { x with stagedPoison := [] } else s
  s.modCtx c k fun x => { x with level := .job, pc := p.svepc, instret := x.instret + 1 }

/-- A precise trap of the instruction at the context's pc (R11). -/
def State.trap (s : State) (c : CoreId) (k cause : Nat) (tval : Word) : State :=
  match s.core? c with
  | none => s
  | some core =>
    s.takeTrap c k { cause := cause, seq := none, late := false, orphan := false, reason := 0, ctx := k, epc := (core.ctx k).pc, tval := tval }

/-- Causes whose class is Abort, given that they arrive late (R321). -/
def abortClass (cause : Nat) : Bool :=
  cause == cQDEAD || cause == cPOISON || cause == cPARITY || cause == cCHECKSUM || cause == cRETURNED || cause == cLINK

/-- The four waits that a late trap does not abandon (R323), and the stop of `SSABORT`, after which the context issues nothing more in
the attempt (R288). -/
def Wait.held : Wait → Bool
  | .gang _ _ _ offered _ => offered
  | .baraw _ _ _ _ arrived => arrived
  | .rfaao _ _ => true
  | .spawn _ _ _ => true
  | .stopped => true
  | _ => false

/-- A late trap reaches a core (R322, R323): an abort condition at once, or a trap held for the context that dispatched it, or
for context 0 when that is no longer live; one that finds its context at firmware level is the firmware's. -/
def State.lateTrap (s : State) (c : CoreId) (t : LateTrap) : State :=
  match s.core? c with
  | none => s
  | some core =>
    let handler := ((s.job? core.asid).map Job.handler).getD 0
    let orphan := t.orphan || !(core.ctx t.ctx).live
    let k := if orphan then 0 else t.ctx
    if (core.ctx k).level == .firmware then
      s.takeTrap c k { cause := t.cause, seq := some t.seq, late := true, orphan := orphan, reason := 0, ctx := t.ctx, epc := (core.ctx k).pc, tval := t.tval }
    else if abortClass t.cause || handler = 0 || (core.ctx k).level != .job then
      (s.recordTrap c k t.seq t.cause).abortCondition c t.cause
    else if core.stopped then s
    else
      s.modCtx c k fun x => { x with late := x.late ++ [{ t with orphan := orphan }], woken := some s.clock }

/-- A late trap is sent to the core that dispatched the operation (R323, R330). -/
def State.raiseLate (s : State) (c : CoreId) (asid : Nat) (t : LateTrap) : State := s.post c asid (.late t)

/-- A request of a waiting context that has not performed: abandoned without effect with its wait (R323). -/
def MsgKind.request : MsgKind → Bool
  | .loadReq _ _ _ => true
  | .atomic _ _ _ _ _ => true
  | .post _ _ _ => true
  | _ => false
/-- An answer that ends the wait of a context. -/
def MsgKind.answer : MsgKind → Bool
  | .response _ => true
  | .poisoned _ => true
  | .orderBad => true
  | .returned precise _ => precise
  | _ => false
/-- The request of an abandoned wait, or the answer to it, is withdrawn (R323). What an atomic has done at its home by then stands (log entry 38). -/
def State.recall (s : State) (c : CoreId) (k : Nat) : State :=
  let mine := fun (m : Msg) => m.src == c && m.ctx == k && (m.kind.request || m.kind.answer)
  let gone := (s.net.filter mine).map Msg.uid
  ({ s with net := s.net.filter fun m => !mine m }).modCore c fun x => { x with posts := x.posts.filter fun u => !gone.contains u }

/-- Context `k` takes its oldest pending late trap, if its wait may be abandoned: the resume address is the instruction's own,
since a held wait has ended before (R323). -/
def State.takeLate (s : State) (c : CoreId) (k : Nat) (t : LateTrap) : State :=
  let s := s.recall c k
  match s.core? c with
  | none => s
  | some core =>
    let x := core.ctx k
    let core' := match x.wait with
      | some w => core.abandonPush k w
      | none => core
    let s := s.setCore c ((core'.modCtx k fun x => { x with wait := none, late := x.late.drop 1 }).ringTaken t.seq)
    let s := s.modQuad (coreQuad c) fun q => { q with claims := q.claims.filter fun y => y.core != c || y.ctx != k }
    s.takeTrap c k { cause := t.cause, seq := some t.seq, late := true, orphan := t.orphan, reason := 0, ctx := t.ctx, epc := x.pc, tval := t.tval }

-- who issues
/-- The issuing context with what its instruction reads. -/
structure Issuer where
  c : CoreId
  k : Nat
  core : Core
  ctx : Ctx
  job : Job
  deriving DecidableEq, Repr

/-- The context that `cur` names, if it is live in a placed job. -/
def State.issuer? (s : State) : Option Issuer :=
  match s.core? s.cur.1 with
  | none => none
  | some core =>
    match s.job? core.asid with
    | none => none
    | some job =>
      if (core.ctx s.cur.2).live then some { c := s.cur.1, k := s.cur.2, core := core, ctx := core.ctx s.cur.2, job := job }
      else none

/-- The meaning of an instruction over its issuer. -/
def issue (s : State) (f : Issuer → State) : Result :=
  match s.issuer? with
  | some i => .next (f i)
  | none => .fault .noIssuer

/-- The instruction completes with the issuing context as given. -/
def State.finish (s : State) (i : Issuer) (x : Ctx) : State := s.setCtx i.c i.k x.advance
/-- The instruction traps precisely, leaving every register as it found it. -/
def State.trapI (s : State) (i : Issuer) (cause : Nat) (tval : Word) : State := s.trap i.c i.k cause tval
/-- ILLEGAL, GROUP and PRIV carry the instruction word (R325). -/
def State.trapW (s : State) (i : Issuer) (cause : Nat) : State := s.trap i.c i.k cause (s.ir.setWidth 64)

end Sys2Proof.Machine
end

