-- ==== Sys2Proof/Machine/Float.lean ====
section
/-! DEFINITION. Exact values and their rounding: BF16 and FP32 (R44 to R46), the scalar modes (R45), integers (R43, R51). -/

namespace Sys2Proof.Machine

/-- An exact value: `fin neg m e` is (-1)^neg × m × 2^e, and a zero keeps its sign (R46, R47). -/
inductive Num where
  | nan
  | nar
  | inf (neg : Bool)
  | fin (neg : Bool) (m : Nat) (e : Int)
  deriving DecidableEq, Repr

/-- The rounding modes of the F extension; everything else in the Q4 uses `rne` (R44, R45). -/
inductive Rm where
  | rne | rtz | rdn | rup | rmm
  deriving DecidableEq, Repr

/-- The flag bits [6:0] of `qflags` (R54). -/
abbrev Flags := BitVec 7
def flagNX : Flags := 1
def flagUF : Flags := 2
def flagOF : Flags := 4
def flagNV : Flags := 8
def flagSAT : Flags := 16
def flagTNV : Flags := 32
def flagHDR : Flags := 64

/-- `flag` when `b`, else no flag. -/
def flagIf (b : Bool) (flag : Flags) : Flags := if b then flag else 0

/-- A floating format: precision, weight of the least subnormal bit as a power of two, and the pattern of +Inf. -/
structure FloatFmt where
  prec : Nat
  qmin : Int
  width : Nat
  infPat : Nat
  deriving DecidableEq, Repr

def fp32 : FloatFmt := { prec := 24, qmin := -149, width := 32, infPat := 0x7F800000 }
def bf16 : FloatFmt := { prec := 8, qmin := -133, width := 16, infPat := 0x7F80 }

/-- The canonical NaN pattern: the quiet bit and no other fraction bit (R44). -/
def FloatFmt.nanPat (f : FloatFmt) : Nat := f.infPat + 2 ^ (f.prec - 2)
/-- The pattern with the sign bit set when `neg`. -/
def FloatFmt.signed (f : FloatFmt) (neg : Bool) (mag : Nat) : Nat := if neg then 2 ^ (f.width - 1) + mag else mag

/-- The exact value of a pattern (R41). -/
def FloatFmt.decode (f : FloatFmt) (p : Nat) : Num :=
  let neg := p.testBit (f.width - 1)
  let mag := p % 2 ^ (f.width - 1)
  let expo := mag / 2 ^ (f.prec - 1)
  let frac := mag % 2 ^ (f.prec - 1)
  if mag > f.infPat then .nan
  else if mag = f.infPat then .inf neg
  else if expo = 0 then .fin neg frac f.qmin
  else .fin neg (2 ^ (f.prec - 1) + frac) (f.qmin + (expo - 1 : Nat))

/-- A NaN whose quiet bit is clear (the RISC-V F extension, R45). -/
def isSignalling (p : Half32) : Bool :=
  p.toNat % 2 ^ 31 > 0x7F800000 && !p.getLsbD 22

/-- Does rounding the magnitude `sig` with remainder `rem` of `2^d` go up? -/
def roundsUp (rm : Rm) (neg : Bool) (sig rem d : Nat) : Bool :=
  match rm with
  | .rne => 2 * rem > 2 ^ d || (2 * rem == 2 ^ d && sig % 2 == 1)
  | .rmm => 2 * rem ≥ 2 ^ d
  | .rtz => false
  | .rdn => neg && rem != 0
  | .rup => !neg && rem != 0

/-- `m × 2^e` rounded to a multiple of `2^q`: the multiple, and whether it is inexact. -/
def roundAt (rm : Rm) (neg : Bool) (m : Nat) (e q : Int) : Nat × Bool :=
  if q ≤ e then (m <<< (e - q).toNat, false)
  else
    let d := (q - e).toNat
    let sig := m >>> d
    let rem := m % 2 ^ d
    (if roundsUp rm neg sig rem d then sig + 1 else sig, rem != 0)

/-- The magnitude an overflow delivers: infinity, or the largest finite value where the mode rounds towards zero. -/
def overflowsToInf (rm : Rm) (neg : Bool) : Bool :=
  match rm with
  | .rne | .rmm => true
  | .rtz => false
  | .rdn => neg
  | .rup => !neg

/-- A nonzero finite value rounded to a format, with the flags of R46: tininess is detected after rounding. -/
def FloatFmt.roundFin (f : FloatFmt) (rm : Rm) (neg : Bool) (m : Nat) (e : Int) : Nat × Flags :=
  let top : Int := (Nat.log2 m : Int) + e
  let free : Int := top - (f.prec - 1 : Nat)
  let q := max free f.qmin
  let (sig, nx) := roundAt rm neg m e q
  let mag := (q - f.qmin).toNat * 2 ^ (f.prec - 1) + sig
  let (sigFree, _) := roundAt rm neg m e free
  let tiny := decide (free < f.qmin) && !(decide (free + 1 = f.qmin) && sigFree == 2 ^ f.prec)
  if mag ≥ f.infPat then
    (f.signed neg (if overflowsToInf rm neg then f.infPat else f.infPat - 1), flagOF ||| flagNX)
  else (f.signed neg mag, flagIf nx flagNX ||| flagIf (tiny && nx) flagUF)

/-- A value rounded to a format; specials keep their meaning and set no flag (R46, R51). -/
def FloatFmt.round (f : FloatFmt) (rm : Rm) : Num → Nat × Flags
  | .nan => (f.nanPat, 0)
  | .nar => (f.nanPat, 0)
  | .inf neg => (f.signed neg f.infPat, 0)
  | .fin neg m e => if m = 0 then (f.signed neg 0, 0) else f.roundFin rm neg m e

/-- `round_rne` (R10, R46). -/
def roundRne (f : FloatFmt) (x : Num) : Nat × Flags := f.round .rne x

/-- The signed integer `m × 2^e` with the sign, relative to the exponent `q` (which is at most `e`). -/
def scaledInt (neg : Bool) (m : Nat) (e q : Int) : Int :=
  let v : Int := (m <<< (e - q).toNat : Nat)
  if neg then -v else v

/-- An integer times a power of two, an exact zero taking the sign `zeroNeg`. -/
def Num.ofScaled (v : Int) (e : Int) (zeroNeg : Bool) : Num :=
  if v = 0 then .fin zeroNeg 0 e else .fin (decide (v < 0)) v.natAbs e

/-- An integer as an exact value; zero is +0. -/
def Num.ofInt (v : Int) : Num := Num.ofScaled v 0 false

def Num.neg : Num → Num
  | .nan => .nan
  | .nar => .nar
  | .inf n => .inf (!n)
  | .fin n m e => .fin (!n) m e

def Num.isNaN : Num → Bool
  | .nan => true
  | .nar => true
  | _ => false

/-- The exact sum, with the sign of an exact zero as IEEE 754 gives it; +Inf + -Inf is NaN with NV (R46, R55). -/
def Num.add (rm : Rm) (x y : Num) : Num × Flags :=
  match x, y with
  | .nan, _ | .nar, _ | _, .nan | _, .nar => (.nan, 0)
  | .inf a, .inf b => if a = b then (.inf a, 0) else (.nan, flagNV)
  | .inf a, _ => (.inf a, 0)
  | _, .inf b => (.inf b, 0)
  | .fin a m e, .fin b n g =>
    let q := min e g
    let zeroNeg := if m = 0 ∧ n = 0 ∧ a = b then a else rm == .rdn
    (Num.ofScaled (scaledInt a m e q + scaledInt b n g q) q zeroNeg, 0)

/-- The exact product; 0 × Inf is NaN with NV (R55). -/
def Num.mul (x y : Num) : Num × Flags :=
  match x, y with
  | .nan, _ | .nar, _ | _, .nan | _, .nar => (.nan, 0)
  | .inf a, .inf b => (.inf (a != b), 0)
  | .inf a, .fin b n _ => if n = 0 then (.nan, flagNV) else (.inf (a != b), 0)
  | .fin a m _, .inf b => if m = 0 then (.nan, flagNV) else (.inf (a != b), 0)
  | .fin a m e, .fin b n g => (.fin (a != b) (m * n) (e + g), 0)

/-- x × y + z with one flag record: the product is exact and the sum exact. -/
def Num.fma (rm : Rm) (x y z : Num) : Num × Flags :=
  let (p, fl) := Num.mul x y
  let (s, fl') := Num.add rm p z
  (s, fl ||| fl')

/-- -1, 0 or 1 as a value is below, equal to or above another; NaN compares with nothing. -/
def Num.cmp (x y : Num) : Option Int :=
  match x, y with
  | .nan, _ | .nar, _ | _, .nan | _, .nar => none
  | .inf a, .inf b => some (if a = b then 0 else if a then -1 else 1)
  | .inf a, _ => some (if a then -1 else 1)
  | _, .inf b => some (if b then 1 else -1)
  | .fin a m e, .fin b n g =>
    let q := min e g
    let u := scaledInt a m e q
    let v := scaledInt b n g q
    some (if u < v then -1 else if u = v then 0 else 1)

/-- The integer square root, bit by bit from bit `k - 1` of the root downward. -/
def isqrtFrom (n : Nat) : Nat → Nat → Nat
  | 0, r => r
  | k + 1, r => if (r + 2 ^ k) * (r + 2 ^ k) ≤ n then isqrtFrom n k (r + 2 ^ k) else isqrtFrom n k r
def isqrt (n : Nat) : Nat := isqrtFrom n (Nat.log2 n / 2 + 1) 0

/-- A quotient with a sticky bit below 64 good bits: it rounds as the exact quotient does in every format here. -/
def divSticky (m : Nat) (e : Int) (n : Nat) (g : Int) : Nat × Int :=
  let s := 64 + Nat.log2 n
  let q := (m <<< s) / n
  (2 * q + (if q * n = m <<< s then 0 else 1), e - g - s - 1)

/-- A square root with a sticky bit below 64 good bits. -/
def sqrtSticky (m : Nat) (e : Int) : Nat × Int :=
  let odd := (e % 2).toNat
  let m2 := m <<< (128 + odd)
  let r := isqrt m2
  (2 * r + (if r * r = m2 then 0 else 1), (e - odd) / 2 - 64 - 1)

/-- The integer nearest to a finite value in a rounding mode, and whether the rounding changed it. -/
def roundInt (rm : Rm) (neg : Bool) (m : Nat) (e : Int) : Int × Bool :=
  let (sig, nx) := roundAt rm neg m e 0
  (if neg then -(sig : Int) else sig, nx)

/-- The exact integer clamped to a range, and whether the clamp changed it (R43). -/
def clampInt (lo hi v : Int) : Int × Bool :=
  if v < lo then (lo, true) else if v > hi then (hi, true) else (v, false)

/-- The low `w` bits of an integer. -/
def intBits (w : Nat) (v : Int) : Nat := (v % (2 ^ w : Nat)).toNat
/-- The signed reading of the low `w` bits. -/
def signedOf (w : Nat) (p : Nat) : Int :=
  let r := p % 2 ^ w
  if r < 2 ^ (w - 1) then r else (r : Int) - (2 ^ w : Nat)

end Sys2Proof.Machine
end

