-- ==== Sys2Proof/Machine/Taper.lean ====
section
/-! DEFINITION. The taper formats (R47 to R50), conversions between formats (R51, R52) and the XSUM record (R57 to R60). -/

namespace Sys2Proof.Machine

/-- A taper format: its width and its exponent bits (R47). -/
structure TaperFmt where
  n : Nat
  es : Nat
  deriving DecidableEq, Repr

def qt8 : TaperFmt := { n := 8, es := 0 }
def qt16 : TaperFmt := { n := 16, es := 1 }
def qt32 : TaperFmt := { n := 32, es := 2 }

/-- Length of the run of bits equal to `b` in `p`, from bit `k - 1` downward (R48). -/
def runLength (p : Nat) (b : Bool) : Nat → Nat
  | 0 => 0
  | k + 1 => if p.testBit k = b then runLength p b k + 1 else 0

/-- `taper_decode` (R48). -/
def TaperFmt.decode (f : TaperFmt) (pat : Nat) : Num :=
  let p := pat % 2 ^ f.n
  if p = 0 then .fin false 0 0
  else if p = 2 ^ (f.n - 1) then .nar
  else
    let s := p.testBit (f.n - 1)
    let b := if s then 2 ^ f.n - p else p
    let one := b.testBit (f.n - 2)
    let m := runLength b one (f.n - 1)
    let k : Int := if one then (m : Int) - 1 else -(m : Int)
    -- bits of `b` after the run and the bit that ends it
    let restLen := f.n - 1 - m - 1
    let rest := b % 2 ^ restLen
    let e := if restLen ≥ f.es then rest >>> (restLen - f.es) else rest <<< (f.es - restLen)
    let w := restLen - f.es
    let frac := rest % 2 ^ w
    .fin s (2 ^ w + frac) (k * (2 ^ f.es : Nat) + e - w)

/-- The base-two exponent of maxpos (R47). -/
def TaperFmt.maxExp (f : TaperFmt) : Int := ((f.n - 2) * 2 ^ f.es : Nat)

/-- `taper_encode` of a nonzero finite magnitude m × 2^e with its sign (R49). -/
def TaperFmt.encodeFin (f : TaperFmt) (neg : Bool) (m : Nat) (e : Int) : Nat × Flags :=
  let l := Nat.log2 m
  let top : Int := (l : Int) + e
  let k := top / (2 ^ f.es : Nat)
  let ex := (top - k * (2 ^ f.es : Nat)).toNat
  let regLen := if k ≥ 0 then k.toNat + 2 else (-k).toNat + 1
  let reg := if k ≥ 0 then (2 ^ (k.toNat + 1) - 1) * 2 else 1
  let body := (reg * 2 ^ f.es + ex) * 2 ^ l + (m - 2 ^ l)
  let len := regLen + f.es + l
  -- exactly n leading bits of the body (zeros appended), and the OR of the bits after them
  let lead := if len ≥ f.n then body >>> (len - f.n) else body <<< (f.n - len)
  let sticky := decide (len > f.n) && body % 2 ^ (len - f.n) != 0
  let q := lead / 2
  let guard := lead % 2 == 1
  let q := if guard && (sticky || q % 2 == 1) then q + 1 else q
  let q := if q = 0 then 1 else q
  let q := if q = 2 ^ (f.n - 1) then 2 ^ (f.n - 1) - 1 else q
  let above := decide (top > f.maxExp) || (decide (top = f.maxExp) && m != 2 ^ l)
  let below := decide (top < -f.maxExp)
  (if neg then 2 ^ f.n - q else q,
    flagIf (guard || sticky) flagNX ||| flagIf above flagOF ||| flagIf below flagUF)

/-- `taper_encode` (R49). -/
def TaperFmt.encode (f : TaperFmt) : Num → Nat × Flags
  | .nan => (2 ^ (f.n - 1), 0)
  | .nar => (2 ^ (f.n - 1), 0)
  | .inf _ => (2 ^ (f.n - 1), flagNV)
  | .fin neg m e => if m = 0 then (0, 0) else f.encodeFin neg m e

/-- The formats of R41 that a conversion reads or writes. -/
inductive Fmt where
  | f32 | bf16 | qt8 | qt16 | qt32 | i32 | i8 | u8
  deriving DecidableEq, Repr

def Fmt.width : Fmt → Nat
  | .f32 | .qt32 | .i32 => 32
  | .bf16 | .qt16 => 16
  | .qt8 | .i8 | .u8 => 8

/-- The exact value of a pattern of a format (R41, R48). -/
def Fmt.decode (f : Fmt) (p : Nat) : Num :=
  match f with
  | .f32 => fp32.decode (p % 2 ^ 32)
  | .bf16 => Sys2Proof.Machine.bf16.decode (p % 2 ^ 16)
  | .qt8 => Sys2Proof.Machine.qt8.decode p
  | .qt16 => Sys2Proof.Machine.qt16.decode p
  | .qt32 => Sys2Proof.Machine.qt32.decode p
  | .i32 => Num.ofInt (signedOf 32 p)
  | .i8 => Num.ofInt (signedOf 8 p)
  | .u8 => Num.ofInt (p % 2 ^ 8 : Nat)

/-- A value converted to an integer range: rounded to nearest even, then saturated (R43, R51). -/
def toIntRange (lo hi : Int) (x : Num) : Int × Flags :=
  match x with
  | .nan => (0, flagNV)
  | .nar => (0, flagNV)
  | .inf neg => (if neg then lo else hi, flagNV)
  | .fin neg m e =>
    let (v, nx) := roundInt .rne neg m e
    let (r, sat) := clampInt lo hi v
    (r, flagIf nx flagNX ||| flagIf sat flagSAT)

/-- A value as a pattern of a format: one rounding from the exact value (R51, R52). -/
def Fmt.encode (f : Fmt) (x : Num) : Nat × Flags :=
  match f with
  | .f32 => roundRne fp32 x
  | .bf16 => roundRne Sys2Proof.Machine.bf16 x
  | .qt8 => Sys2Proof.Machine.qt8.encode x
  | .qt16 => Sys2Proof.Machine.qt16.encode x
  | .qt32 => Sys2Proof.Machine.qt32.encode x
  | .i32 => let (v, fl) := toIntRange (-2147483648) 2147483647 x; (intBits 32 v, fl)
  | .i8 => let (v, fl) := toIntRange (-128) 127 x; (intBits 8 v, fl)
  | .u8 => let (v, fl) := toIntRange 0 255 x; (intBits 8 v, fl)

/-- A conversion between formats (R51, R52). -/
def convert (src dst : Fmt) (p : Nat) : Nat × Flags := dst.encode (src.decode p)

/-- The integer of a TERN2 code, and TNV for the reserved code (R42). -/
def ternDecode (c : Nat) : Int × Flags :=
  match c % 4 with
  | 0 => (0, 0)
  | 1 => (1, 0)
  | 3 => (-1, 0)
  | _ => (0, flagTNV)

/-- An XSUM record (R57): VALUE as the signed integer the pseudocode reads. -/
structure XRec where
  value : Int
  count : Nat
  nans : Bool
  nars : Bool
  pinf : Bool
  ninf : Bool
  ovf : Nat
  deriving DecidableEq, Repr

def XRec.empty : XRec := ⟨0, 0, false, false, false, false, 0⟩

/-- The record of 384 bits read as a natural number (R57). -/
def XRec.ofNat (b : Nat) : XRec :=
  { value := signedOf 320 b
    count := (b >>> 320) % 2 ^ 48
    nans := b.testBit 368
    ninf := b.testBit 370
    pinf := b.testBit 369
    nars := b.testBit 371
    ovf := (b >>> 372) % 256 }

/-- The status word, bits [383:320] (R57). -/
def XRec.status (r : XRec) : Nat :=
  r.count + 2 ^ 48 * (r.nans.toNat + 2 * r.pinf.toNat + 4 * r.ninf.toNat + 8 * r.nars.toNat + 16 * r.ovf)

/-- The 384 bits of a record. Its reserved bits [383:380] are written as zeros: R57 ignores them and R58 gives them no value (DESIGN CHOICE, log
entry 58). -/
def XRec.toNat (r : XRec) : Nat := intBits 320 r.value + 2 ^ 320 * r.status

def countMax : Nat := 2 ^ 48 - 1

/-- Brings an exact total back into the 320-bit range, counting the wraps (R58). -/
def XRec.wrap (r : XRec) (t : Int) (ovf : Int) : XRec :=
  let w := (t + (2 ^ 319 : Nat)) / (2 ^ 320 : Nat)
  { r with value := t - w * (2 ^ 320 : Nat), ovf := intBits 8 (ovf + w) }

/-- `xsum_add` (R58). -/
def xsumAdd (r : XRec) (x : Num) : XRec :=
  let r := { r with count := min (r.count + 1) countMax }
  match x with
  | .nan => { r with nans := true }
  | .nar => { r with nars := true }
  | .inf false => { r with pinf := true }
  | .inf true => { r with ninf := true }
  | .fin neg m e => r.wrap (r.value + scaledInt neg m e (-149)) r.ovf

/-- `xsum_merge` (R58). -/
def xsumMerge (r b : XRec) : XRec :=
  { r with
    count := min (r.count + b.count) countMax
    nans := r.nans || b.nans
    nars := r.nars || b.nars
    pinf := r.pinf || b.pinf
    ninf := r.ninf || b.ninf }.wrap (r.value + b.value) ((r.ovf : Int) + b.ovf)

/-- Headroom overflow (R59). -/
def XRec.headroom (r : XRec) : Bool := r.ovf != 0 || r.count == countMax

def Fmt.isInt : Fmt → Bool
  | .i32 | .i8 | .u8 => true
  | _ => false
def Fmt.isTaper : Fmt → Bool
  | .qt8 | .qt16 | .qt32 => true
  | _ => false

/-- `xsum_round` (R59): the first matching row. The pattern of a NaN, NaR or infinity is that of `Fmt.encode`. -/
def xsumRound (r : XRec) (f : Fmt) : Nat × Flags :=
  let nanPat := (f.encode .nan).1
  if r.nans || r.nars then (nanPat, flagIf f.isInt flagNV)
  else if r.pinf && r.ninf then (nanPat, flagNV)
  else if r.pinf then f.encode (.inf false)
  else if r.ninf then f.encode (.inf true)
  else if r.headroom then (nanPat, flagHDR)
  else f.encode (Num.ofScaled r.value (-149) false)

end Sys2Proof.Machine
end

