-- ==== Sys2Proof/Machine/Flags.lean ====
section
/-! DEFINITION. Flags: `fflags` of the scalar F instructions (R45, R131), `qflags` and NUMERIC (R54 to R56). -/

namespace Sys2Proof.Machine

/-- The flags of a rounding as `fflags` bits: NX, UF, OF and NV; DZ is bit 3 (RISC-V F 2.2). -/
def toFflags (fl : Flags) : BitVec 8 :=
  (if fl.getLsbD 0 then 0x01 else 0) ||| (if fl.getLsbD 1 then 0x02 else 0) ||| (if fl.getLsbD 2 then 0x04 else 0)
    ||| (if fl.getLsbD 3 then 0x10 else 0)
def ffDZ : BitVec 8 := 0x08
def ffNV : BitVec 8 := 0x10
/-- `frm`, bits [7:5] of `fcsr`. -/
def Ctx.frm (k : Ctx) : R3 := k.fcsr.extractLsb' 5 3
def Ctx.orFflags (k : Ctx) (fl : BitVec 8) : Ctx := { k with fcsr := k.fcsr ||| fl }
def Ctx.orQflags (k : Ctx) (fl : Flags) : Ctx := { k with flags := k.flags ||| fl }

/-- The rounding mode of a scalar F instruction: its rm field, or `frm` for rm = 7; none for a reserved mode. -/
def Ctx.rounding (k : Ctx) (rm : R3) : Option Rm :=
  match (if rm = 7 then k.frm else rm).toNat with
  | 0 => some .rne
  | 1 => some .rtz
  | 2 => some .rdn
  | 3 => some .rup
  | 4 => some .rmm
  | _ => none

/-- The `qflags` CSR: EN in [38:32], flags in [6:0] (R54). -/
def Ctx.qflagsCsr (k : Ctx) : Word := BitVec.ofNat 64 (k.enables.toNat * 2 ^ 32 + k.flags.toNat)
def Ctx.setQflagsCsr (k : Ctx) (v : Word) : Ctx := { k with flags := v.extractLsb' 0 7, enables := v.extractLsb' 32 7 }

/-- The NUMERIC trap of an operation: flags it set whose EN bit was 1 at dispatch (R56); the trap carries all it set (R325). `gone`: its helper
is no longer live (R163). -/
def numericOf (fl enabled : Flags) (seq ctx : Nat) (gone : Bool) : Option LateTrap :=
  if fl &&& enabled = 0 then none
  else some { cause := cNUMERIC, seq := seq, tval := fl.setWidth 64, ctx := ctx, orphan := gone }

end Sys2Proof.Machine
end

