-- ==== Sys2Proof/Machine/Operands.lean ====
section
/-! DEFINITION. Operand forms: address forms and their checks (R102 to R106, R132), vector values (R192, R195), descriptors (R147, R148). -/

namespace Sys2Proof.Machine

def addrForm (a : Word) : Nat := a.toNat / 2 ^ 60
def addrOff (a : Word) : Nat := a.toNat % 2 ^ 36
/-- The address has one of the forms and no nonzero reserved bit (R102, R104). -/
def formOk (forms : List Nat) (a : Word) : Bool :=
  forms.contains (addrForm a) &&
    match addrForm a with
    | 0 | 1 | 2 => a.toNat / 2 ^ 36 % 2 ^ 24 == 0
    | 4 => true
    | 5 => a.toNat / 2 ^ 50 % 2 ^ 10 == 0
    | 8 => a.toNat / 2 ^ 52 % 2 ^ 8 == 0
    | _ => false
/-- The forms of base loads and stores (R102) and of the local spaces. -/
def baseForms : List Nat := [0, 1, 2, 4, 5]
def localForms : List Nat := [0, 1, 2]
def isMesh (a : Word) : Bool := addrForm a == 4 || addrForm a == 5

/-- A 5-bit two's-complement field. -/
def signed5 (v : Nat) : Int := if v % 32 < 16 then (v % 32 : Nat) else (v % 32 : Nat) - 32

def spaceOf (code : Nat) : Option Space :=
  match code with
  | 0 => some .tcm
  | 1 => some .qsp
  | 3 => some .dss
  | _ => none

/-- The location an address of forms 0x0 to 0x5 names for an issuer at `c`; none for a row or column out of range or the
reserved mesh space (R102 to R104). -/
def locate (c : CoreId) (a : Word) : Option Dest :=
  let v := a.toNat
  let off := addrOff a
  match addrForm a with
  | 0 => some { core := c, space := .tcm, off := off }
  | 1 => some { core := c, space := .qsp, off := off }
  | 2 => some { core := c, space := .dss, off := off }
  | 4 =>
    let row := v / 2 ^ 43 % 32
    let col := v / 2 ^ 38 % 32
    if row < 16 ∧ col < 16 then
      (spaceOf (v / 2 ^ 36 % 4)).map fun sp => { core := coreKey (v / 2 ^ 50 % 1024) (v / 2 ^ 48 % 4) row col, space := sp, off := off }
    else none
  | 5 =>
    let row := (coreRow c : Int) + signed5 (v / 2 ^ 43)
    let col := (coreCol c : Int) + signed5 (v / 2 ^ 38)
    if 0 ≤ row ∧ row < 16 ∧ 0 ≤ col ∧ col < 16 then
      (spaceOf (v / 2 ^ 36 % 4)).map fun sp =>
        { core := coreKey (coreModule c) ((coreDie c + v / 2 ^ 48) % 4) row.toNat col.toNat, space := sp, off := off }
    else none
  | _ => none

/-- An access of `n` bytes, in the order of R106 rows 1 to 3 (the rows of R249, R253, R299 and R302 are the same with other forms
and alignments): the location, or the cause. -/
def checkAddr (j : Job) (c : CoreId) (level : Level) (forms : List Nat) (align n : Nat) (store : Bool) (a : Word) : Except Nat Dest :=
  if !formOk forms a then .error cFORM
  else if a.toNat % align != 0 then .error cALIGN
  else
    match locate c a with
    | none => .error cBOUNDS
    | some d =>
      if d.off + n ≤ j.limitOf d.space && !(store && j.guarded d.space d.off n level) then .ok d
      else .error cBOUNDS

/-- The code offset of an address lies in a CODE section (R132). -/
def inCodeAt (j : Job) (a : Word) : Bool := j.inCode (addrOff a) 1
/-- A branch target (R132): alignment, then form, then the CODE range. -/
def branchCause (j : Job) (a : Word) : Option Nat :=
  if a.toNat % 4 != 0 then some cALIGN
  else if !formOk [2] a then some cFORM
  else if !inCodeAt j a then some cBOUNDS
  else none
/-- A start address (R169, R171, R278): form, then alignment, then the CODE range. -/
def entryCause (j : Job) (a : Word) : Option Nat :=
  if !formOk [2] a then some cFORM
  else if a.toNat % 4 != 0 then some cALIGN
  else if !inCodeAt j a then some cBOUNDS
  else none

def sext12 (imm : BitVec 12) : Word := imm.signExtend 64
/-- offset[12:1] of a branch as a byte offset. -/
def branchOff (imm : BitVec 12) : Word := (imm ++ (0 : BitVec 1)).signExtend 64
/-- offset[20:1] of JAL as a byte offset. -/
def jalOff (imm : BitVec 20) : Word := (imm ++ (0 : BitVec 1)).signExtend 64
/-- The 32-bit immediate of LUI and AUIPC, sign-extended. -/
def upperImm (imm : BitVec 20) : Word := (imm ++ (0 : BitVec 12)).signExtend 64
/-- A 32-bit result sign-extended to 64 bits. -/
def sextW (v : Half32) : Word := v.signExtend 64
def low32 (v : Word) : Half32 := v.setWidth 32

-- vector operands (R192, R195)
/-- Element `i` is active under predicate `pg` for a grant of `ctx.grant` lanes. -/
def Ctx.active (k : Ctx) (pg : R3) (i : Nat) : Bool := decide (i < k.grant) && (k.getP pg).getLsbD i
/-- Value `j` of width `w` of a register: its low `w` bits (R195). -/
def Ctx.val (k : Ctx) (r : R5) (j w : Nat) : Nat := (k.getV r (j * w / 32)).toNat / 2 ^ (j % (32 / w) * w) % 2 ^ w
/-- Element `e` with value number `t` (0 to 32/w − 1) of width `w` replaced. -/
def putVal (e : Half32) (t w v : Nat) : Half32 :=
  let sh := t * w
  let old := e.toNat / 2 ^ sh % 2 ^ w
  BitVec.ofNat 32 (e.toNat - old * 2 ^ sh + v % 2 ^ w * 2 ^ sh)

-- the command word (R147, R148)
def dKind (d0 : Word) : Nat := d0.toNat % 256
def dPair (d0 : Word) : Nat := d0.toNat / 2 ^ 8 % 256
def dAccBase (d0 : Word) : Nat := d0.toNat / 2 ^ 16 % 8
def dRing (d0 : Word) : Nat := d0.toNat / 2 ^ 19 % 8
def dIndex (d0 : Word) : Nat := d0.toNat / 2 ^ 22 % 4
def dAccum (d0 : Word) : Bool := d0.getLsbD 24
def dTransB (d0 : Word) : Bool := d0.getLsbD 25
def dSkipz (d0 : Word) : Bool := d0.getLsbD 26
def dSignal (d0 : Word) : Bool := d0.getLsbD 27
def dGanged (d0 : Word) : Bool := d0.getLsbD 28
def dStatus (d0 : Word) : Bool := d0.getLsbD 29
def dHamper (d0 : Word) : Nat := d0.toNat / 2 ^ 32 % 2 ^ 24
def dGtag (d0 : Word) : Nat := d0.toNat / 2 ^ 56
def tOffset (d : Word) : Nat := d.toNat % 2 ^ 30
def tSpace (d : Word) : Nat := d.toNat / 2 ^ 30 % 4
def tStride (d : Word) : Nat := d.toNat / 2 ^ 32 % 2 ^ 16
def tKcnt (d : Word) : Nat := d.toNat / 2 ^ 48 % 2 ^ 6
def tRows (d : Word) : Nat := d.toNat / 2 ^ 54
/-- A descriptor with `p` added to OFFSET modulo 2^30 (R220, R246). -/
def patchOffset (d : Word) (p : Nat) : Word :=
  BitVec.ofNat 64 (d.toNat - tOffset d + (tOffset d + p) % 2 ^ 30)
/-- Replaces the PAIR field (R220). -/
def stampPair (d0 : Word) (pair : Nat) : Word := BitVec.ofNat 64 (d0.toNat - dPair d0 * 256 + pair * 256)

end Sys2Proof.Machine
end

