-- ==== Sys2Proof/Machine/Scalar.lean ====
section
/-! DEFINITION. The integer instructions of RV64I and M (R127, R128), each from its operands to rd. -/

namespace Sys2Proof.Machine

/-- A result computed from the issuing context's registers goes to rd; nothing else changes but the pc and `instret`. -/
def State.setRd (s : State) (i : Issuer) (rd : R5) (v : Word) : State := s.finish i (i.ctx.setX rd v)
/-- An operation on x[rs1] and an immediate. -/
def opImm (s : State) (rd rs1 : R5) (f : Word → Word) : Result := issue s fun i => s.setRd i rd (f (i.ctx.getX rs1))
/-- An operation on x[rs1] and x[rs2]. -/
def opReg (s : State) (rd rs1 rs2 : R5) (f : Word → Word → Word) : Result :=
  issue s fun i => s.setRd i rd (f (i.ctx.getX rs1) (i.ctx.getX rs2))
/-- The same on the low words, the 32-bit result sign-extended. -/
def opRegW (s : State) (rd rs1 rs2 : R5) (f : Half32 → Half32 → Half32) : Result :=
  opReg s rd rs1 rs2 fun a b => sextW (f (low32 a) (low32 b))

def boolWord (b : Bool) : Word := if b then 1 else 0
/-- Shift amounts: the low six bits, or five in the W forms. -/
def sh6 (v : Word) : Nat := v.toNat % 64
def sh5 (v : Half32) : Nat := v.toNat % 32

-- the divisions of M: by zero, all ones and the dividend; the overflow gives the dividend and zero (R128)
def divS {w : Nat} (a b : BitVec w) : BitVec w := if b = 0 then BitVec.allOnes w else a.sdiv b
def divU {w : Nat} (a b : BitVec w) : BitVec w := if b = 0 then BitVec.allOnes w else a.udiv b
def remS {w : Nat} (a b : BitVec w) : BitVec w := if b = 0 then a else a.srem b
def remU {w : Nat} (a b : BitVec w) : BitVec w := if b = 0 then a else a.umod b
-- the high words of products
def mulHss (a b : Word) : Word := BitVec.ofInt 64 (a.toInt * b.toInt / (2 ^ 64 : Nat))
def mulHsu (a b : Word) : Word := BitVec.ofInt 64 (a.toInt * b.toNat / (2 ^ 64 : Nat))
def mulHuu (a b : Word) : Word := BitVec.ofNat 64 (a.toNat * b.toNat / 2 ^ 64)

/-- LUI (R128). -/
def execLui (rd : R5) (imm : BitVec 20) (s : State) : Result := issue s fun i => s.setRd i rd (upperImm imm)
/-- AUIPC adds to the whole 64-bit pc, form bits included (R128). -/
def execAuipc (rd : R5) (imm : BitVec 20) (s : State) : Result := issue s fun i => s.setRd i rd (i.ctx.pc + upperImm imm)
/-- ADDI (R128). -/
def execAddi (rd rs1 : R5) (imm : BitVec 12) (s : State) : Result := opImm s rd rs1 fun a => a + sext12 imm
/-- SLTI (R128). -/
def execSlti (rd rs1 : R5) (imm : BitVec 12) (s : State) : Result := opImm s rd rs1 fun a => boolWord (a.slt (sext12 imm))
/-- SLTIU (R128). -/
def execSltiu (rd rs1 : R5) (imm : BitVec 12) (s : State) : Result := opImm s rd rs1 fun a => boolWord (a.ult (sext12 imm))
/-- XORI (R128). -/
def execXori (rd rs1 : R5) (imm : BitVec 12) (s : State) : Result := opImm s rd rs1 fun a => a ^^^ sext12 imm
/-- ORI (R128). -/
def execOri (rd rs1 : R5) (imm : BitVec 12) (s : State) : Result := opImm s rd rs1 fun a => a ||| sext12 imm
/-- ANDI (R128). -/
def execAndi (rd rs1 : R5) (imm : BitVec 12) (s : State) : Result := opImm s rd rs1 fun a => a &&& sext12 imm
/-- SLLI (R128). -/
def execSlli (rd rs1 : R5) (sh : BitVec 6) (s : State) : Result := opImm s rd rs1 fun a => a <<< sh.toNat
/-- SRLI (R128). -/
def execSrli (rd rs1 : R5) (sh : BitVec 6) (s : State) : Result := opImm s rd rs1 fun a => a >>> sh.toNat
/-- SRAI (R128). -/
def execSrai (rd rs1 : R5) (sh : BitVec 6) (s : State) : Result := opImm s rd rs1 fun a => a.sshiftRight sh.toNat
/-- ADD (R128). -/
def execAdd (rd rs1 rs2 : R5) (s : State) : Result := opReg s rd rs1 rs2 fun a b => a + b
/-- SUB (R128). -/
def execSub (rd rs1 rs2 : R5) (s : State) : Result := opReg s rd rs1 rs2 fun a b => a - b
/-- SLL (R128). -/
def execSll (rd rs1 rs2 : R5) (s : State) : Result := opReg s rd rs1 rs2 fun a b => a <<< sh6 b
/-- SLT (R128). -/
def execSlt (rd rs1 rs2 : R5) (s : State) : Result := opReg s rd rs1 rs2 fun a b => boolWord (a.slt b)
/-- SLTU (R128). -/
def execSltu (rd rs1 rs2 : R5) (s : State) : Result := opReg s rd rs1 rs2 fun a b => boolWord (a.ult b)
/-- XOR (R128). -/
def execXor (rd rs1 rs2 : R5) (s : State) : Result := opReg s rd rs1 rs2 fun a b => a ^^^ b
/-- SRL (R128). -/
def execSrl (rd rs1 rs2 : R5) (s : State) : Result := opReg s rd rs1 rs2 fun a b => a >>> sh6 b
/-- SRA (R128). -/
def execSra (rd rs1 rs2 : R5) (s : State) : Result := opReg s rd rs1 rs2 fun a b => a.sshiftRight (sh6 b)
/-- OR (R128). -/
def execOr (rd rs1 rs2 : R5) (s : State) : Result := opReg s rd rs1 rs2 fun a b => a ||| b
/-- AND (R128). -/
def execAnd (rd rs1 rs2 : R5) (s : State) : Result := opReg s rd rs1 rs2 fun a b => a &&& b
/-- ADDIW (R128). -/
def execAddiw (rd rs1 : R5) (imm : BitVec 12) (s : State) : Result := opImm s rd rs1 fun a => sextW (low32 (a + sext12 imm))
/-- SLLIW (R128). -/
def execSlliw (rd rs1 : R5) (sh : R5) (s : State) : Result := opImm s rd rs1 fun a => sextW (low32 a <<< sh.toNat)
/-- SRLIW (R128). -/
def execSrliw (rd rs1 : R5) (sh : R5) (s : State) : Result := opImm s rd rs1 fun a => sextW (low32 a >>> sh.toNat)
/-- SRAIW (R128). -/
def execSraiw (rd rs1 : R5) (sh : R5) (s : State) : Result := opImm s rd rs1 fun a => sextW ((low32 a).sshiftRight sh.toNat)
/-- ADDW (R128). -/
def execAddw (rd rs1 rs2 : R5) (s : State) : Result := opRegW s rd rs1 rs2 fun a b => a + b
/-- SUBW (R128). -/
def execSubw (rd rs1 rs2 : R5) (s : State) : Result := opRegW s rd rs1 rs2 fun a b => a - b
/-- SLLW (R128). -/
def execSllw (rd rs1 rs2 : R5) (s : State) : Result := opRegW s rd rs1 rs2 fun a b => a <<< sh5 b
/-- SRLW (R128). -/
def execSrlw (rd rs1 rs2 : R5) (s : State) : Result := opRegW s rd rs1 rs2 fun a b => a >>> sh5 b
/-- SRAW (R128). -/
def execSraw (rd rs1 rs2 : R5) (s : State) : Result := opRegW s rd rs1 rs2 fun a b => a.sshiftRight (sh5 b)
/-- MUL (R128). -/
def execMul (rd rs1 rs2 : R5) (s : State) : Result := opReg s rd rs1 rs2 fun a b => a * b
/-- MULH (R128). -/
def execMulh (rd rs1 rs2 : R5) (s : State) : Result := opReg s rd rs1 rs2 fun a b => mulHss a b
/-- MULHSU (R128). -/
def execMulhsu (rd rs1 rs2 : R5) (s : State) : Result := opReg s rd rs1 rs2 fun a b => mulHsu a b
/-- MULHU (R128). -/
def execMulhu (rd rs1 rs2 : R5) (s : State) : Result := opReg s rd rs1 rs2 fun a b => mulHuu a b
/-- DIV (R128). -/
def execDiv (rd rs1 rs2 : R5) (s : State) : Result := opReg s rd rs1 rs2 fun a b => divS a b
/-- DIVU (R128). -/
def execDivu (rd rs1 rs2 : R5) (s : State) : Result := opReg s rd rs1 rs2 fun a b => divU a b
/-- REM (R128). -/
def execRem (rd rs1 rs2 : R5) (s : State) : Result := opReg s rd rs1 rs2 fun a b => remS a b
/-- REMU (R128). -/
def execRemu (rd rs1 rs2 : R5) (s : State) : Result := opReg s rd rs1 rs2 fun a b => remU a b
/-- MULW (R128). -/
def execMulw (rd rs1 rs2 : R5) (s : State) : Result := opRegW s rd rs1 rs2 fun a b => a * b
/-- DIVW (R128). -/
def execDivw (rd rs1 rs2 : R5) (s : State) : Result := opRegW s rd rs1 rs2 fun a b => divS a b
/-- DIVUW (R128). -/
def execDivuw (rd rs1 rs2 : R5) (s : State) : Result := opRegW s rd rs1 rs2 fun a b => divU a b
/-- REMW (R128). -/
def execRemw (rd rs1 rs2 : R5) (s : State) : Result := opRegW s rd rs1 rs2 fun a b => remS a b
/-- REMUW (R128). -/
def execRemuw (rd rs1 rs2 : R5) (s : State) : Result := opRegW s rd rs1 rs2 fun a b => remU a b

/-- A transfer of control: the target checks of R132, then the link, the pc and the trace entry of a taken branch. -/
def State.jump (s : State) (i : Issuer) (rd : R5) (target : Word) : State :=
  match branchCause i.job target with
  | some cause => s.trapI i cause target
  | none =>
    (s.recordBranch i.c i.k target).setCtx i.c i.k { (i.ctx.setX rd (i.ctx.pc + 4)).advance with pc := target }
/-- A conditional branch; one that is not taken checks nothing (R132). -/
def branch (s : State) (rs1 rs2 : R5) (imm : BitVec 12) (f : Word → Word → Bool) : Result :=
  issue s fun i =>
    if f (i.ctx.getX rs1) (i.ctx.getX rs2) then s.jump i 0 (i.ctx.pc + branchOff imm) else s.finish i i.ctx
/-- JAL (R128, R132). -/
def execJal (rd : R5) (imm : BitVec 20) (s : State) : Result := issue s fun i => s.jump i rd (i.ctx.pc + jalOff imm)
/-- JALR clears bit 0 of its target before the checks (R132). -/
def execJalr (rd rs1 : R5) (imm : BitVec 12) (s : State) : Result := issue s fun i => s.jump i rd ((i.ctx.getX rs1 + sext12 imm) &&& ~~~1)
/-- BEQ (R128, R132). -/
def execBeq (rs1 rs2 : R5) (imm : BitVec 12) (s : State) : Result := branch s rs1 rs2 imm fun a b => a == b
/-- BNE (R128, R132). -/
def execBne (rs1 rs2 : R5) (imm : BitVec 12) (s : State) : Result := branch s rs1 rs2 imm fun a b => a != b
/-- BLT (R128, R132). -/
def execBlt (rs1 rs2 : R5) (imm : BitVec 12) (s : State) : Result := branch s rs1 rs2 imm fun a b => a.slt b
/-- BGE (R128, R132). -/
def execBge (rs1 rs2 : R5) (imm : BitVec 12) (s : State) : Result := branch s rs1 rs2 imm fun a b => !a.slt b
/-- BLTU (R128, R132). -/
def execBltu (rs1 rs2 : R5) (imm : BitVec 12) (s : State) : Result := branch s rs1 rs2 imm fun a b => a.ult b
/-- BGEU (R128, R132). -/
def execBgeu (rs1 rs2 : R5) (imm : BitVec 12) (s : State) : Result := branch s rs1 rs2 imm fun a b => !a.ult b

end Sys2Proof.Machine
end

