-- ==== Sys2Proof/Machine/BitOps.lean ====
section
/-! DEFINITION. Bit operations, scalar taper conversions, predicate operations and loop counters (R175, R180 to R184). -/

namespace Sys2Proof.Machine

/-- The truth table applied bit by bit, from bit `n - 1` downward (R180). -/
def lutBits (t : BitVec 8) (a b c : Word) : Nat → Nat
  | 0 => 0
  | n + 1 =>
    (if t.getLsbD (4 * (a.getLsbD n).toNat + 2 * (b.getLsbD n).toNat + (c.getLsbD n).toNat) then 2 ^ n else 0) + lutBits t a b c n
def popCount (a : Word) : Nat → Nat
  | 0 => 0
  | n + 1 => (a.getLsbD n).toNat + popCount a n
/-- Zero bits above the highest set bit among bits 0 to n − 1. -/
def leadZeros (a : Word) : Nat → Nat
  | 0 => 0
  | n + 1 => if a.getLsbD n then 0 else leadZeros a n + 1
/-- Zero bits below the lowest set bit, from bit 64 − n on. -/
def trailZeros (a : Word) : Nat → Nat
  | 0 => 0
  | n + 1 => if a.getLsbD (63 - n) then 0 else trailZeros a n + 1

/-- LUT3: rd is also the third input (R180). -/
def execLut3 (rd rs1 rs2 : R5) (table : BitVec 8) (s : State) : Result :=
  issue s fun i => s.setRd i rd (BitVec.ofNat 64 (lutBits table (i.ctx.getX rs1) (i.ctx.getX rs2) (i.ctx.getX rd) 64))
/-- FSHL (R181). -/
def execFshl (rd rs1 rs2 rs3 : R5) (s : State) : Result :=
  issue s fun i => s.setRd i rd (((i.ctx.getX rs1 ++ i.ctx.getX rs2) <<< sh6 (i.ctx.getX rs3)).extractLsb' 64 64)
/-- FSHR (R181). -/
def execFshr (rd rs1 rs2 rs3 : R5) (s : State) : Result :=
  issue s fun i => s.setRd i rd (((i.ctx.getX rs1 ++ i.ctx.getX rs2) >>> sh6 (i.ctx.getX rs3)).extractLsb' 0 64)
/-- POPC (R182). -/
def execPopc (rd rs1 : R5) (s : State) : Result := opImm s rd rs1 fun a => BitVec.ofNat 64 (popCount a 64)
/-- CLZ (R182). -/
def execClz (rd rs1 : R5) (s : State) : Result := opImm s rd rs1 fun a => BitVec.ofNat 64 (leadZeros a 64)
/-- CTZ (R182). -/
def execCtz (rd rs1 : R5) (s : State) : Result := opImm s rd rs1 fun a => BitVec.ofNat 64 (trailZeros a 64)

/-- FP32 to a taper pattern, sign-extended; `fflags` and NUMERIC are not touched (R183, R56). -/
def toTaper (s : State) (f : TaperFmt) (rd fs1 : R5) : Result :=
  issue s fun i =>
    let r := f.encode (fp32.decode (i.ctx.getF fs1).toNat)
    s.finish i ((i.ctx.setX rd (BitVec.ofInt 64 (signedOf f.n r.1))).orQflags r.2)
/-- A taper pattern to FP32 (R183). -/
def ofTaper (s : State) (f : TaperFmt) (fd rs1 : R5) : Result :=
  issue s fun i =>
    let r := roundRne fp32 (f.decode (i.ctx.getX rs1).toNat)
    s.finish i ((i.ctx.setF fd (BitVec.ofNat 32 r.1)).orQflags r.2)
/-- FCVT.QT8.S (R183). -/
def execFcvtQt8S (rd fs1 : R5) (s : State) : Result := toTaper s qt8 rd fs1
/-- FCVT.S.QT8 (R183). -/
def execFcvtSQt8 (fd rs1 : R5) (s : State) : Result := ofTaper s qt8 fd rs1
/-- FCVT.QT16.S (R183). -/
def execFcvtQt16S (rd fs1 : R5) (s : State) : Result := toTaper s qt16 rd fs1
/-- FCVT.S.QT16 (R183). -/
def execFcvtSQt16 (fd rs1 : R5) (s : State) : Result := ofTaper s qt16 fd rs1
/-- FCVT.QT32.S (R183). -/
def execFcvtQt32S (rd fs1 : R5) (s : State) : Result := toTaper s qt32 rd fs1
/-- FCVT.S.QT32 (R183). -/
def execFcvtSQt32 (fd rs1 : R5) (s : State) : Result := ofTaper s qt32 fd rs1

/-- A predicate result: a write to p0 is discarded (R135), and the trace may record the write (R355). -/
def State.setPd (s : State) (i : Issuer) (pd : R3) (v : Word) : State := (s.recordPred i.c i.k v).finish i (i.ctx.setP pd v)
def predOp (s : State) (pd p1 p2 : R3) (f : Word → Word → Word) : Result :=
  issue s fun i => s.setPd i pd (f (i.ctx.getP p1) (i.ctx.getP p2))
/-- PAND (R184). -/
def execPand (pd p1 p2 : R3) (s : State) : Result := predOp s pd p1 p2 fun a b => a &&& b
/-- POR (R184). -/
def execPor (pd p1 p2 : R3) (s : State) : Result := predOp s pd p1 p2 fun a b => a ||| b
/-- PXOR (R184). -/
def execPxor (pd p1 p2 : R3) (s : State) : Result := predOp s pd p1 p2 fun a b => a ^^^ b
/-- PNOT (R184). -/
def execPnot (pd p1 : R3) (s : State) : Result := predOp s pd p1 p1 fun a _ => ~~~a
/-- PMOV (R184). -/
def execPmov (pd p1 : R3) (s : State) : Result := predOp s pd p1 p1 fun a _ => a
/-- PSET (R184). -/
def execPset (pd : R3) (rs1 : R5) (s : State) : Result := issue s fun i => s.setPd i pd (i.ctx.getX rs1)
/-- PCNT (R184). -/
def execPcnt (rd : R5) (p1 : R3) (s : State) : Result :=
  issue s fun i => s.setRd i rd (BitVec.ofNat 64 (popCount (i.ctx.getP p1) 64))

/-- LCSET (R175). -/
def execLcset (lc : BitVec 2) (rs1 : R5) (s : State) : Result := issue s fun i => s.finish i (i.ctx.setLc lc.toNat (i.ctx.getX rs1))
/-- LCGET (R175). -/
def execLcget (rd : R5) (lc : BitVec 2) (s : State) : Result := issue s fun i => s.setRd i rd (i.ctx.getLc lc.toNat)

end Sys2Proof.Machine
end

