-- ==== Sys2Proof/Machine/Translate.lean ====
section
/-! DEFINITION. Physical addresses and tiers (R107), page tables and walks (R108 to R113), the pager (R114 to R116), leases as
an access meets them (R117, R118), CXL decoders (R120), poison (R122, R123) and open rows (R125). -/

namespace Sys2Proof.Machine

/-- The tier of a physical address (R107). -/
inductive Tier where
  | hbm | hw | lease | cxl | host | reserved
  deriving DecidableEq, Repr

def hbmEnd : Nat := 0x7FC0000000
def hwEnd : Nat := 0x8000000000
def leaseBase : Nat := 0x400000000000
def cxlBase : Nat := 0x800000000000
def hostBase : Nat := 0xC00000000000
def windowSpan : Nat := 0x4000000000

def tierOf (pa : Nat) : Tier :=
  if pa < hbmEnd then .hbm
  else if pa < hwEnd then .hw
  else if pa < leaseBase then .reserved
  else if pa < cxlBase then .lease
  else if pa < hostBase then .cxl
  else if pa < 2 ^ 48 then .host
  else .reserved

/-- The lender's module and address behind an offset of a lease window (R117); none unless the window is installed. -/
def State.leased (s : State) (m pa : Nat) : Option (Nat × Nat) :=
  let slot := (pa - leaseBase) / windowSpan
  match (s.module? m).bind fun d => dget? d.leases slot with
  | some l => if l.lender then none else some (l.peer, l.base + (pa - leaseBase) % windowSpan)
  | none => none

/-- Bytes at a physical address as module `m` reads it. CXL memory belongs to its device, which several modules may reach (R108, R120; log
entry 55). -/
def State.rdPa (s : State) (m pa n : Nat) : Nat :=
  match tierOf pa with
  | .hbm | .hw => ((s.module? m).map fun d => readMem d.hbm pa n).getD 0
  | .lease => match s.leased m pa with
    | some (p, a) => ((s.module? p).map fun d => readMem d.hbm a n).getD 0
    | none => 0
  | .cxl => readMem (dgetD s.cxl (Config.cxlStore m (pa / 4096)) []) pa n
  | .host => readMem s.host (pa - hostBase) n
  | .reserved => 0
def State.wrPa (s : State) (m pa n v : Nat) : State :=
  match tierOf pa with
  | .hbm | .hw => s.modModule m fun d => { d with hbm := writeMem d.hbm pa n v }
  | .lease => match s.leased m pa with
    | some (p, a) => s.modModule p fun d => { d with hbm := writeMem d.hbm a n v }
    | none => s
  | .cxl =>
    let k := Config.cxlStore m (pa / 4096)
    { s with cxl := dset s.cxl k (writeMem (dgetD s.cxl k []) pa n v) }
  | .host => { s with host := writeMem s.host (pa - hostBase) n v }
  | .reserved => s

/-- Bytes that a link carries from module `a` to module `b` (R361; log entry 83). -/
def State.countLink (s : State) (a b n : Nat) : State := if a = b then s else (s.count a 8 n).count b 9 n
/-- The counters that `n` bytes moved at a physical address of module `m` turn: HBM atoms read or written, at the lender behind a lease window with
the bytes on the link, and CXL atoms (R361; log entry 83). -/
def State.countAtoms (s : State) (m pa n : Nat) (write : Bool) : State :=
  let atoms := (n + 31) / 32
  let hbm := if write then 7 else 6
  match tierOf pa with
  | .hbm => s.count m hbm atoms
  | .lease => match s.leased m pa with
    | some (p, _) => (if write then s.countLink m p n else s.countLink p m n).count p hbm atoms
    | none => s
  | .cxl => s.count m 10 atoms
  | _ => s

def overlaps (a n b k : Nat) : Bool := a < b + k && b < a + n
/-- A page of a list, by number, meets the `n` bytes at `pa`. -/
def pagesMeet (pages : List Nat) (pa n : Nat) : Bool := pages.any fun p => overlaps (4096 * p) 4096 pa n
/-- A page of the module that holds some of the `n` bytes at `pa` is poisoned (R122). -/
def State.poisonAt (s : State) (m pa n : Nat) : Bool := ((s.module? m).map fun d => pagesMeet d.poison pa n).getD false
/-- The page of the module at `pa` is poisoned (R122). -/
def State.poisoned (s : State) (m pa : Nat) : Bool := s.poisonAt m pa 1
/-- A read of `n` bytes at a physical address meets poison: the module's own, the lender's, a CXL device's, or the host's (R120, R123). -/
def State.poisonOver (s : State) (m pa n : Nat) : Bool :=
  match tierOf pa with
  | .lease => match s.leased m pa with
    | some (p, a) => s.poisonAt p a n
    | none => false
  | .cxl => (List.range ((pa % 4096 + n + 4095) / 4096)).any fun i => (dgetD s.cxlPoison (Config.cxlStore m (pa / 4096 + i)) []).contains (pa / 4096 + i)
  | .host => pagesMeet s.hostPoison pa n
  | _ => s.poisonAt m pa n
/-- The reserved page that holds bytes of a scratchpad location, spilled there, and is poisoned (R20, R106, R122). -/
def State.spillPoison (s : State) (a : Nat) (d : Dest) (n : Nat) : Option Nat :=
  if d.space = .qsp then
    ((List.range (n / 4096 + 2)).filterMap fun i => if d.off / 4096 + i ≤ (d.off + n - 1) / 4096 then Config.spillPage a (coreQuad d.core) (d.off / 4096 + i) else none).find?
      fun pa => tierOf pa == .hw && s.poisoned (coreModule d.core) pa
  else none

/-- What stops an access to a physical address (R111, R118, R120, R121, R123): the lease state, the decoders, poison. A window whose slot has never
been taken gives LEASE like a freed one: the spec speaks of a freed window only (DESIGN CHOICE, log entry 61). -/
def State.paCause (s : State) (m pa n : Nat) (write : Bool) : Option Nat :=
  let poison := if !write && s.poisonOver m pa n then some cPOISON else none
  match tierOf pa with
  | .hbm => poison
  | .hw | .reserved => some cPAGE
  | .lease =>
    let slot := (pa - leaseBase) / windowSpan
    match (s.module? m).bind fun d => dget? d.leases slot with
    | none => some cLEASE
    | some l =>
      if l.lender || l.state != .taken || l.refused then some cLEASE
      else if (pa - leaseBase) % windowSpan + n > l.len then some cPAGE
      else poison
  | .cxl =>
    if !((s.module? m).map fun d => d.hdm.any fun r => r.1 ≤ pa && pa + n ≤ r.1 + r.2).getD false then some cPAGE
    else if ((s.module? m).map fun d => d.releasing.any fun r => overlaps r.1 r.2 pa n).getD false then some cLEASE
    else poison
  | .host => poison

-- page-table entries (R109)
def pteType (e : Nat) : Nat := e / 2 ^ 62 % 4
def pteW (e : Nat) : Bool := e.testBit 61
def pteA (e : Nat) : Bool := e.testBit 60
def pteD (e : Nat) : Bool := e.testBit 59
def pteS64 (e : Nat) : Bool := e.testBit 58
def pteRes (e : Nat) : Bool := e.testBit 57
def ptePfn (e : Nat) : Nat := e / 4096 % 2 ^ 36 * 4096
def setBit (e b : Nat) (v : Bool) : Nat := if e.testBit b == v then e else if v then e + 2 ^ b else e - 2 ^ b
def withPfn (e pa : Nat) : Nat := e - ptePfn e + pa / 4096 % 2 ^ 36 * 4096

/-- The ASID's pool (R114): base, blocks, blocks of records. -/
structure Pool where
  base : Nat
  nblk : Nat
  deriving DecidableEq, Repr
def Pool.recBlocks (p : Pool) : Nat := (p.nblk + 255) / 256
def Pool.frames (p : Pool) : Nat := (p.nblk - p.recBlocks) * 512
def Pool.frame (p : Pool) (f : Nat) : Nat := p.base + p.recBlocks * 0x200000 + f * 4096
def Pool.size (p : Pool) : Nat := p.nblk * 0x200000
/-- The pool entry of a root table lies in a poisoned page (R114, R123). -/
def State.poolPoisoned (s : State) (m root : Nat) : Bool := s.poisonOver m (root + 8 * 8191) 8
/-- The pool that a root table names, with the numbers as they stand: of NBLK 0, or a range that leaves tier 0, LAUNCH makes nothing and the spec
names no outcome (R114; DESIGN CHOICE, log entry 59). A poisoned entry gives none: its reader raises POISON where the spec has a place for it
(R123; log entry 96). -/
def State.poolOf (s : State) (m root : Nat) : Option Pool :=
  let e := s.rdPa m (root + 8 * 8191) 8
  if s.poolPoisoned m root then none
  else if pteType e = 3 then some { base := e / 2 ^ 21 % 2 ^ 27 * 2 ^ 21, nblk := e / 2 ^ 48 % 2 ^ 14 } else none

/-- A table may lie in tier 0 or in host memory (R108). -/
def tableOk (pa : Nat) : Bool := tierOf pa == .hbm || tierOf pa == .host
/-- A direct leaf's page may not meet a hardware-reserved or reserved range or the pool (R111). -/
def directOk (pool : Option Pool) (pa size : Nat) : Bool :=
  !overlaps pa size hbmEnd (leaseBase - hbmEnd) && decide (pa + size ≤ 2 ^ 48)
    && match pool with
      | some p => !overlaps pa size p.base p.size
      | none => true

/-- How a walk ends: a leaf, or a cause with the physical page that met poison. -/
inductive Walk where
  | leaf (e : TlbEntry) (entry : Nat)
  | fault (cause pa : Nat)
  deriving DecidableEq, Repr

/-- One table of a walk: its entry for `va`, given how the walk goes on below it (R108, R111). -/
def walkTable (s : State) (m : Nat) (asid : Nat) (pool : Option Pool) (va level t : Nat) (below : Nat → Walk) : Walk :=
  if !tableOk t then .fault cPAGE 0
  else if s.poisonOver m t 4096 then .fault cPOISON t
  else
    let shift := 12 + 9 * level
    let at_ := t + 8 * (va / 2 ^ shift % 512)
    let e := s.rdPa m at_ 8
    let size := if level = 0 ∧ pteS64 e then 65536 else 2 ^ shift
    let found := TlbEntry.mk asid (va / size * size) size (ptePfn e) (pteW e) at_
    if pteType e = 1 ∧ level ≠ 0 then below (ptePfn e)
    else if pteType e = 2 then
      if ptePfn e % size ≠ 0 || !directOk pool (ptePfn e) size then .fault cPAGE 0 else .leaf found e
    else if pteType e = 3 ∧ level = 0 then
      if ptePfn e % size ≠ 0 then .fault cPAGE 0
      else if !pteRes e && tierOf (ptePfn e) != .lease && tierOf (ptePfn e) != .cxl then .fault cPAGE 0
      else .leaf found e
    else .fault cPAGE 0
/-- The walk below the root: `level` 2, 1, 0 from a table at `t` (R108, R111). -/
def walkFrom (s : State) (m : Nat) (asid : Nat) (pool : Option Pool) (va : Nat) : Nat → Nat → Walk
  | 0, t => walkTable s m asid pool va 0 t fun _ => .fault cPAGE 0
  | l + 1, t => walkTable s m asid pool va (l + 1) t (walkFrom s m asid pool va l)

/-- The check of a direct leaf against the pool reads the pool entry, which may be poisoned (R111, R123). -/
def Walk.checked (s : State) (m root : Nat) : Walk → Walk
  | .leaf e entry => if pteType entry == 2 && s.poolPoisoned m root then .fault cPOISON (root + 8 * 8191) else .leaf e entry
  | .fault cause pa => .fault cause pa
/-- The four-level walk of a virtual address for a job with root table `root` (R108 to R111). -/
def State.walk (s : State) (m asid root va : Nat) : Walk :=
  if va / 2 ^ 39 = 8191 then .fault cPAGE 0
  else if s.poisonOver m (root + 8 * (va / 2 ^ 39)) 8 then .fault cPOISON (root + 8 * (va / 2 ^ 39))
  else
    let e := s.rdPa m (root + 8 * (va / 2 ^ 39)) 8
    if pteType e = 1 then (walkFrom s m asid (s.poolOf m root) va 2 (ptePfn e)).checked s m root else .fault cPAGE 0

/-- The entries that a walk reads below the root. -/
def State.tableReads (s : State) (m va : Nat) : Nat → Nat → List Nat
  | 0, t => [t + 8 * (va / 2 ^ 12 % 512)]
  | l + 1, t =>
    let at_ := t + 8 * (va / 2 ^ (12 + 9 * (l + 1)) % 512)
    let e := s.rdPa m at_ 8
    at_ :: if pteType e = 1 && tableOk (ptePfn e) then s.tableReads m va l (ptePfn e) else []
/-- The entries that a walk reads. -/
def State.walkReads (s : State) (m root va : Nat) : List Nat :=
  let at_ := root + 8 * (va / 2 ^ 39)
  let e := s.rdPa m at_ 8
  at_ :: if pteType e = 1 && tableOk (ptePfn e) then s.tableReads m va 2 (ptePfn e) else []

/-- A walk's reads of table entries in local HBM count (R361). -/
def State.countWalk (s : State) (m root va : Nat) : State := s.count m 6 ((s.walkReads m root va).filter fun a => tierOf a == .hbm).length

/-- Changes the leaf entries of one page: one entry, or the sixteen of a 64 KiB page (R110). -/
def State.modLeaf (s : State) (m : Nat) (e : TlbEntry) (f : Nat → Nat) : State :=
  if e.size = 65536 then
    let first := e.leaf / 128 * 128
    (List.range 16).foldl (fun s i => s.wrPa m (first + 8 * i) 8 (f (s.rdPa m (first + 8 * i) 8))) s
  else s.wrPa m e.leaf 8 (f (s.rdPa m e.leaf 8))

def State.dropTlb (s : State) (asid va : Nat) : State :=
  let keep := fun (e : TlbEntry) => e.asid != asid || !(decide (e.va ≤ va) && decide (va < e.va + e.size))
  { s with
    positions := dmap s.positions fun _ p => { p with tlb := p.tlb.filter keep }
    modules := dmap s.modules fun _ m => { m with dies := dmap m.dies fun _ d => { d with tlb := d.tlb.filter keep } } }
def State.dropTlbAsid (s : State) (asid : Nat) : State :=
  let keep := fun (e : TlbEntry) => e.asid != asid
  { s with
    positions := dmap s.positions fun _ p => { p with tlb := p.tlb.filter keep }
    modules := dmap s.modules fun _ m => { m with dies := dmap m.dies fun _ d => { d with tlb := d.tlb.filter keep } } }
/-- A translation enters the core's TLB of 128 entries and the die's of 8,192 (R112). -/
def State.fillTlb (s : State) (c : CoreId) (e : TlbEntry) : State :=
  let s := s.modPos c fun p => { p with tlb := (e :: p.tlb.filter (· != e)).take 128 }
  (s.modDie (coreDie c) fun d => { d with tlb := (e :: d.tlb.filter (· != e)).take 8192 }).count (coreModule c) 13 1

-- the pager (R115, R116): the record of frame f holds the backing address and the leaf's address
/-- The record of a frame lies in a poisoned page (R123). -/
def State.recPoisoned (s : State) (m : Nat) (p : Pool) (f : Nat) : Bool := s.poisonOver m (p.base + 16 * f) 16
def State.frameRec (s : State) (m : Nat) (p : Pool) (f : Nat) : Nat × Nat := (s.rdPa m (p.base + 16 * f) 8, s.rdPa m (p.base + 16 * f + 8) 8)
def State.setFrameRec (s : State) (m : Nat) (p : Pool) (f backing leaf : Nat) : State :=
  (s.wrPa m (p.base + 16 * f) 8 backing).wrPa m (p.base + 16 * f + 8) 8 leaf
/-- A frame is free when its record's entry address is 0, and records found in the pool at LAUNCH stand: the spec says neither (R115; DESIGN
CHOICE, log entry 60). -/
def State.frameFree (s : State) (m : Nat) (p : Pool) (f : Nat) : Bool := !s.recPoisoned m p f && (s.frameRec m p f).2 == 0
/-- What the pager must read to evict a page, its record or its leaf entry, lies in a poisoned page (R116, R123). -/
def State.frameUnreadable (s : State) (m : Nat) (p : Pool) (f : Nat) : Bool := s.recPoisoned m p f || s.poisonOver m (s.frameRec m p f).2 8
/-- A frame is pinned while a write to it waits for commit (R115). -/
def State.framePinned (s : State) (m : Nat) (p : Pool) (f : Nat) : Bool :=
  s.cores.any fun e => coreModule e.1 == m && e.2.writeOuts.any fun w => overlaps w.pa w.n (p.frame f) 4096
/-- `len` bytes copied between physical addresses of one module, 32 at a time. -/
def State.copyPa (s : State) (m src dst : Nat) : Nat → State
  | 0 => s
  | n + 1 =>
    let s := s.copyPa m src dst n
    s.wrPa m (dst + 32 * n) 32 (s.rdPa m (src + 32 * n) 32)
/-- The pager copies `n` atoms (R115, R116). -/
def State.movePage (s : State) (m src dst n : Nat) : State := ((s.copyPa m src dst n).countAtoms m src (32 * n) false).countAtoms m dst (32 * n) true

/-- The pager can write a page back: its window stands, also while it is being revoked, or a decoder claims it (R118, R120). -/
def State.backed (s : State) (m pa n : Nat) : Bool :=
  match tierOf pa with
  | .lease => match (s.module? m).bind fun d => dget? d.leases ((pa - leaseBase) / windowSpan) with
    | some l => !l.lender && !l.refused && decide ((pa - leaseBase) % windowSpan + n ≤ l.len)
    | none => false
  | .cxl => ((s.module? m).map fun d => d.hdm.any fun r => r.1 ≤ pa && pa + n ≤ r.1 + r.2).getD false
  | _ => (s.paCause m pa n true).isNone

/-- The first 4 KiB page, of those from `pa` on, that a read finds poisoned (R122, R336). -/
def State.poisonedPage (s : State) (m pa size : Nat) : Nat :=
  (((List.range (size / 4096)).map fun i => pa + 4096 * i).find? fun a => s.poisonOver m a 4096).getD pa
/-- The first frame of the page that a frame belongs to, and its number of frames. -/
def State.frameRun (s : State) (m : Nat) (p : Pool) (f : Nat) : Nat × Nat :=
  if !s.frameUnreadable m p f && pteS64 (s.rdPa m (s.frameRec m p f).2 8) then (f / 16 * 16, 16) else (f, 1)
/-- A frame of the page that frame `f` belongs to is pinned. -/
def State.pagePinned (s : State) (m : Nat) (p : Pool) (f : Nat) : Bool :=
  let (f0, k) := s.frameRun m p f
  (List.range k).any fun i => s.framePinned m p (f0 + i)
/-- A of a resident page is set in one of its entries. -/
def State.pageAccessed (s : State) (m : Nat) (p : Pool) (f : Nat) : Bool :=
  let (f0, k) := s.frameRun m p f
  (List.range k).any fun i => pteA (s.rdPa m (s.frameRec m p (f0 + i)).2 8)
/-- A of a resident page is cleared. -/
def State.clearAccessed (s : State) (m : Nat) (p : Pool) (f : Nat) : State :=
  let (f0, k) := s.frameRun m p f
  (List.range k).foldl (fun s i =>
    let leaf := (s.frameRec m p (f0 + i)).2
    s.wrPa m leaf 8 (setBit (s.rdPa m leaf 8) 60 false)) s
/-- A translation of module `m'` is one of the page that module `m` holds in `n` bytes of frames: its own, or one made from the same leaf entry, in
host memory, by another module of the job (R108, R116). -/
def TlbEntry.ofFrame (e : TlbEntry) (m' m asid pa n : Nat) : Bool :=
  e.asid == asid && overlaps e.pa e.size pa n && (m' == m || tierOf e.leaf == .host)
/-- Evicts the page in frame `f`: written back when dirty and readable, the leaf gets its backing address, every TLB loses it (R116, R359). The bytes of a
poisoned frame are not written outside retirement either, and raise no POISON there: the spec speaks of retirement only (log entry 74). A page whose
record or leaf entry is poisoned stays where it is: what cannot be read is neither copied nor changed (R123; log entry 96). That a dirty page
whose backing is refused or claimed by no decoder loses its bytes without a cause is the model's choice (log entry 88). -/
def State.evict (s : State) (m asid : Nat) (p : Pool) (f : Nat) : State :=
  let (f0, k) := s.frameRun m p f
  if (List.range k).any fun i => s.frameUnreadable m p (f0 + i) then s
  else
  let dirty := (List.range k).any fun i => pteD (s.rdPa m (s.frameRec m p (f0 + i)).2 8)
  let backing := (s.frameRec m p f0).1
  let lost := (List.range k).any fun i => s.poisoned m (p.frame (f0 + i))
  let s := if dirty && !lost && s.backed m backing (4096 * k) then s.movePage m (p.frame f0) backing (128 * k) else s
  let s := (List.range k).foldl (fun s i =>
    let leaf := (s.frameRec m p (f0 + i)).2
    let s := s.wrPa m leaf 8 (setBit (setBit (withPfn (s.rdPa m leaf 8) backing) 57 false) 59 false)
    s.setFrameRec m p (f0 + i) 0 0) s
  { s with
    positions := dmap s.positions fun c q => { q with tlb := q.tlb.filter fun e => !e.ofFrame (coreModule c) m asid (p.frame f0) (4096 * k) }
    modules := dmap s.modules fun m' d => { d with dies := dmap d.dies fun _ x =>
      { x with tlb := x.tlb.filter fun e => !e.ofFrame m' m asid (p.frame f0) (4096 * k) } } }.count m 12 1
/-- The clock of R116 from the hand on: A is cleared on each resident page passed, pinned or not, and the first unpinned page whose A
is already 0 is evicted. A page whose record or leaf entry is poisoned is passed over (log entry 96). -/
def State.evictClock (s : State) (m asid : Nat) (p : Pool) : Nat → Option State
  | 0 => none
  | n + 1 =>
    let h := ((s.module? m).map fun d => dgetD d.hand asid 0).getD 0
    let past := if s.frameFree m p h then h + 1 else (s.frameRun m p h).1 + (s.frameRun m p h).2
    let s := s.modModule m fun d => { d with hand := dset d.hand asid (past % p.frames) }
    if s.frameFree m p h || s.frameUnreadable m p h then s.evictClock m asid p n
    else if s.pageAccessed m p h then (s.clearAccessed m p h).evictClock m asid p n
    else if s.pagePinned m p h then s.evictClock m asid p n
    else some (s.evict m asid p h)
/-- A free frame, or the first of sixteen aligned free frames. -/
def State.findFrame (s : State) (m : Nat) (p : Pool) (k : Nat) : Option Nat :=
  ((List.range (p.frames / k)).find? fun f => (List.range k).all fun i => s.frameFree m p (f * k + i)).map (· * k)
/-- A free run of `k` frames after as many evictions as it takes (R115 step 1). -/
def State.makeFrame (s : State) (m asid : Nat) (p : Pool) (k : Nat) : Nat → Option (State × Nat)
  | 0 => none
  | n + 1 =>
    match s.findFrame m p k with
    | some f => some (s, f)
    | none => (s.evictClock m asid p (2 * p.frames + 1)).bind fun s => s.makeFrame m asid p k n
/-- A page that a promotion reads is poisoned: the pool entry's, one of the frame records', or one of the page itself (R115, R123; log entry 96). -/
def State.promotionPoison (s : State) (m root : Nat) (e : TlbEntry) : Nat :=
  if s.poolPoisoned m root then root + 8 * 8191
  else match s.poolOf m root with
    | some p => if s.poisonOver m e.pa e.size then s.poisonedPage m e.pa e.size else s.poisonedPage m p.base (p.recBlocks * 0x200000)
    | none => e.pa
/-- The promotion of the page of a leaf that is not resident (R115): the entry as it then stands, or the cause. -/
def State.promote (s : State) (m asid root : Nat) (e : TlbEntry) : Except Nat (State × TlbEntry) :=
  match s.poolOf m root with
  | none => .error (if s.poolPoisoned m root then cPOISON else cPAGE)
  | some p =>
    let k := e.size / 4096
    match s.paCause m e.pa e.size false with
    | some cause => .error cause
    | none =>
      if s.poisonOver m p.base (16 * p.frames) then .error cPOISON
      else match s.makeFrame m asid p k (p.frames + 1) with
      | none => .error cPAGE
      | some (s, f) =>
        let s := s.movePage m e.pa (p.frame f) (128 * k)
        let first := if k = 16 then e.leaf / 128 * 128 else e.leaf
        let s := (List.range k).foldl (fun s i =>
          let s := s.setFrameRec m p (f + i) (e.pa + 4096 * i) (first + 8 * i)
          s.wrPa m (first + 8 * i) 8 (setBit (setBit (withPfn (s.rdPa m (first + 8 * i) 8) (p.frame f)) 57 true) 60 true)) s
        .ok (s.count m 11 1, { e with pa := p.frame f })

-- banks (R124, R125): pseudo-channel, channel, stack and bank bits of an address name its bank; the rest its row
def bankOf (pa : Nat) : Nat := pa / 1024 % 2 ^ 13
def rowOf (pa : Nat) : Nat := pa / 2 ^ 23
/-- The row of a tier-0 access is open in its bank (R125); a reserved bank keeps its holder. -/
def State.touchRow (s : State) (m pa : Nat) : State :=
  if tierOf pa == .hbm then
    s.modModule m fun d =>
      let b := dgetD d.banks (bankOf pa) { row := 0, lastUse := 0, holder := none, since := 0 }
      { d with banks := dset d.banks (bankOf pa) { b with row := rowOf pa, lastUse := s.clock } }
  else s
/-- The bank of an address of a module's own HBM is reserved by a core other than `c`. -/
def State.bankHeldBy (s : State) (m pa : Nat) (c : Option CoreId) : Bool :=
  ((s.module? m).map fun d => ((dget? d.banks (bankOf pa)).map fun b => b.holder.isSome && b.holder != c).getD false).getD false
/-- An ordinary access to a bank that another core holds waits, at the lender when it goes through a lease window (R125). -/
def State.bankBusy (s : State) (m pa : Nat) (c : Option CoreId) : Bool :=
  match tierOf pa with
  | .hbm | .hw => s.bankHeldBy m pa c
  | .lease => match s.leased m pa with
    | some (p, a) => s.bankHeldBy p a c
    | none => false
  | _ => false
/-- Some KiB of `n` bytes at `pa` lies in such a bank. -/
def State.bankBusyOver (s : State) (m pa n : Nat) (c : Option CoreId) : Bool :=
  (List.range ((pa % 1024 + n + 1023) / 1024)).any fun i => s.bankBusy m (pa / 1024 * 1024 + 1024 * i) c
/-- A bank with a part of the range is reserved by a core other than `c`. -/
def Module.bankHeldIn (d : Module) (base len : Nat) (c : Option CoreId) : Bool :=
  d.banks.any fun b => b.2.holder.isSome && b.2.holder != c && decide ((b.1 * 1024 + 2 ^ 23 - base % 2 ^ 23) % 2 ^ 23 < len)
/-- What the pager changes when it evicts frame `f` may meet a reserved bank: its leaf entry, or its backing page, at the lender too (R125). -/
def State.frameBusy (s : State) (m : Nat) (p : Pool) (c : Option CoreId) (f : Nat) : Bool :=
  !s.frameFree m p f && (s.bankBusy m (s.frameRec m p f).2 c || s.bankBusyOver m (s.frameRec m p f).1 4096 c)
/-- The pager's work on the frames of a job's pool on a module may meet a reserved bank, and waits for it (R125). -/
def State.poolBusy (s : State) (m root : Nat) (c : Option CoreId) : Bool :=
  s.bankBusy m (root + 8 * 8191) c ||
    (match s.poolOf m root, s.module? m with
      | some p, some d => d.bankHeldIn p.base p.size c || (List.range p.frames).any (s.frameBusy m p c)
      | _, _ => false)
/-- The pager's copies for a promotion may meet a reserved bank: at the backing address, or for an eviction (R125). -/
def State.pagerBusy (s : State) (m root : Nat) (e : TlbEntry) (c : Option CoreId) : Bool := s.bankBusyOver m e.pa e.size c || s.poolBusy m root c
/-- A table entry that a write to `va` reads or changes lies in such a bank (R109, R125). -/
def State.tablesBusy (s : State) (m root va : Nat) (c : Option CoreId) : Bool := (s.walkReads m root va).any fun a => s.bankBusy m a c

/-- A cached translation of an address that allows the access. -/
def State.tlbHit (s : State) (c : CoreId) (asid va : Nat) : Option TlbEntry :=
  let hit := fun (e : TlbEntry) => e.asid == asid && decide (e.va ≤ va) && decide (va < e.va + e.size)
  match (s.pos c).tlb.find? hit with
  | some e => some e
  | none => (s.die (coreDie c)).tlb.find? hit

/-- A walk that found no translation: its table reads and the miss of the shared TLB count (R361). -/
def State.countFailedWalk (s : State) (m root va : Nat) : State := (s.countWalk m root va).count m 13 1
/-- An access that stopped at a virtual address missed the shared TLB, if no TLB held a translation for it (R112, R361). -/
def State.countMiss (s : State) (c : CoreId) (asid va : Nat) : State :=
  if (s.tlbHit c asid va).isSome then s else s.countFailedWalk (coreModule c) (((s.job? asid).map Job.root).getD 0) va
/-- A table entry that the walk reads lies in a bank that another core holds (R125). -/
def State.walkBusy (s : State) (c : CoreId) (root va : Nat) : Bool := s.tablesBusy (coreModule c) root va (some c)
/-- The walk of a virtual address: the walker sets A, a paged leaf that is not resident is promoted, the TLBs take the entry (R111 to R115).
Cause 0 means that it waits for a reserved bank (R125). -/
def State.walkIn (s : State) (c : CoreId) (asid root va : Nat) (write : Bool) : Except (Nat × Nat) (State × TlbEntry) :=
  let m := coreModule c
  if s.walkBusy c root va then .error (0, 0)
  else match s.walk m asid root va with
  | .fault cause pa => .error (cause, pa)
  | .leaf e entry =>
    let s := s.countWalk m root va
    if write && !e.write then .error (cPAGE, 0)
    else if pteType entry = 3 && !pteRes entry then
      if s.pagerBusy m root e (some c) then .error (0, 0)
      else
        match s.promote m asid root e with
        | .ok (s, e) => .ok (s.fillTlb c e, e)
        | .error cause => .error (cause, s.promotionPoison m root e)
    else .ok ((s.modLeaf m e fun x => setBit x 60 true).fillTlb c e, e)
/-- The tables still say of an address what a cached entry says. -/
def State.walkAgrees (s : State) (m asid root va : Nat) (e : TlbEntry) : Bool :=
  match s.walk m asid root va with
  | .leaf x entry => x == e && !(pteType entry == 3 && !pteRes entry)
  | .fault _ _ => false
/-- Translation of a virtual address for an access of core `c` (R108 to R116): through the TLBs, else by a walk. Where a cached entry
differs from the tables, which of the two is used is a free choice (R113). The cause comes with the page met. -/
def State.translate (s : State) (c : CoreId) (asid va : Nat) (write : Bool) : Except (Nat × Nat) (State × Nat) :=
  let root := ((s.job? asid).map Job.root).getD 0
  let found : Except (Nat × Nat) (State × TlbEntry) :=
    match s.tlbHit c asid va with
    | none => s.walkIn c asid root va write
    | some e =>
      if s.walkAgrees (coreModule c) asid root va e then .ok (s, e)
      else if s.drawBool.1 then .ok (s.drawBool.2, e)
      else s.drawBool.2.walkIn c asid root va write
  match found with
  | .error x => .error x
  | .ok (s, e) => if write && !e.write then .error (cPAGE, 0) else .ok (s, e.pa + (va - e.va))

/-- Does an entry of the table at `t` map the page at `page` (R329), given the tables below? `level` is the table's level. A leaf that names the page
counts though R111 makes its translation unresolvable: the rule asks for a leaf that maps the page, and the choice is the model's (log entry 89).
A poisoned table page shows no entry, and the search raises nothing (R123; log entry 96). -/
def mapsIn (s : State) (m page level t : Nat) (below : Nat → Bool) : Bool :=
  tableOk t && !s.poisonOver m t 4096 && (List.range 512).any fun i =>
    let e := s.rdPa m (t + 8 * i) 8
    if pteType e = 1 ∧ level ≠ 0 then below (ptePfn e)
    else if pteType e = 2 ∨ (pteType e = 3 ∧ level = 0) then
      overlaps (ptePfn e) (if level = 0 ∧ pteS64 e then 65536 else 2 ^ (12 + 9 * level)) page 4096
    else false
def mapsBelow (s : State) (m page : Nat) : Nat → Nat → Bool
  | 0, t => mapsIn s m page 0 t fun _ => false
  | l + 1, t => mapsIn s m page (l + 1) t (mapsBelow s m page l)
def State.mapsPage (s : State) (m root page : Nat) : Bool :=
  (List.range 8191).any fun i =>
    let e := s.rdPa m (root + 8 * i) 8
    !s.poisonOver m (root + 8 * i) 8 && pteType e == 1 && mapsBelow s m page 2 (ptePfn e)

/-- A table page that the search of `mapsIn` reads lies in a bank that another core holds (R125). -/
def tableHeld (s : State) (m : Nat) (c : CoreId) (level t : Nat) (below : Nat → Bool) : Bool :=
  tableOk t && (s.bankBusyOver m t 4096 (some c) || (decide (level ≠ 0) && (List.range 512).any fun i =>
    let e := s.rdPa m (t + 8 * i) 8
    pteType e == 1 && below (ptePfn e)))
def tablesHeldBelow (s : State) (m : Nat) (c : CoreId) : Nat → Nat → Bool
  | 0, t => tableHeld s m c 0 t fun _ => false
  | l + 1, t => tableHeld s m c (l + 1) t (tablesHeldBelow s m c l)
/-- Some table of the tree at `root` lies in such a bank; with no bank reserved none does. -/
def State.mapBusy (s : State) (m root : Nat) (c : CoreId) : Bool :=
  (((s.module? m).map fun d => d.banks.any fun b => b.2.holder.isSome && b.2.holder != some c).getD false) &&
    (s.bankBusyOver m root 65536 (some c) || (List.range 8191).any fun i =>
      let e := s.rdPa m (root + 8 * i) 8
      pteType e == 1 && tablesHeldBelow s m c 2 (ptePfn e))

/-- PAGE_WALK: a walker translates an address for a core and the TLBs take the entry (R112). -/
def pageWalk (c : CoreId) (va : Word) (write : Bool) (s : State) : State :=
  match s.core? c with
  | none => s
  | some core =>
    let root := ((s.job? core.asid).map Job.root).getD 0
    if s.walkBusy c root (va.toNat % 2 ^ 52) then s
    else match s.walk (coreModule c) core.asid root (va.toNat % 2 ^ 52) with
    | .leaf e entry =>
      if pteType entry == 3 && !pteRes entry then s
      else if write && !e.write then s.countFailedWalk (coreModule c) root (va.toNat % 2 ^ 52)
      else ((s.countWalk (coreModule c) root (va.toNat % 2 ^ 52)).modLeaf (coreModule c) e fun x => setBit x 60 true).fillTlb c e
    | .fault cause pa => (if cause = cPOISON then s.metPoison c pa else s).countFailedWalk (coreModule c) root (va.toNat % 2 ^ 52)
def execPageWalk (c : CoreId) (va : Word) (write : Bool) (s : State) : Result := .next (pageWalk c va write s)
/-- PAGER_PROMOTION: the page of a paged leaf that is not resident is brought into a frame; the walk to it counts its reads (R115, R361). -/
def pagerPromotion (c : CoreId) (va : Word) (s : State) : State :=
  match s.core? c with
  | none => s
  | some core =>
    let root := ((s.job? core.asid).map Job.root).getD 0
    if s.walkBusy c root (va.toNat % 2 ^ 52) then s
    else match s.walk (coreModule c) core.asid root (va.toNat % 2 ^ 52) with
    | .leaf e entry =>
      if pteType entry == 3 && !pteRes entry && !s.pagerBusy (coreModule c) root e (some c) then
        match (s.countWalk (coreModule c) root (va.toNat % 2 ^ 52)).promote (coreModule c) core.asid root e with
        | .ok (s, e) => s.fillTlb c e
        | .error cause => (if cause = cPOISON then s.metPoison c (s.promotionPoison (coreModule c) root e) else s).countFailedWalk (coreModule c) root (va.toNat % 2 ^ 52)
      else s
    | .fault _ _ => s
def execPagerPromotion (c : CoreId) (va : Word) (s : State) : Result := .next (pagerPromotion c va s)

end Sys2Proof.Machine
end

