-- ==== Sys2Proof/Machine/LoadStore.lean ====
section
/-! DEFINITION. Base loads and stores (R128, R102 to R106) and the visibility classes of stores (R239, R240). -/

namespace Sys2Proof.Machine

/-- A loaded value of `n` bytes as it enters an x register. -/
def loadWord (n v : Nat) (signed : Bool) : Word :=
  if signed then BitVec.signExtend 64 (BitVec.ofNat (8 * n) v) else BitVec.ofNat 64 v
/-- The register result of a load: x, or f for FLW. -/
def Ctx.setLoad (k : Ctx) (rd : R5) (n : Nat) (signed float : Bool) (v : Nat) : Ctx :=
  if float then k.setF rd (BitVec.ofNat 32 v) else k.setX rd (loadWord n v signed)

-- eager writes in flight (R249, R250, R292)
/-- Two locations have one home (R298). -/
def sameHome (a b : Dest) : Bool :=
  a.space == b.space && match a.space with
    | .tcm => a.core == b.core
    | .qsp => coreQuad a.core == coreQuad b.core
    | .dss => coreDie a.core == coreDie b.core
/-- Two ranges of bytes share a byte. -/
def meets (a b : Dest) (n k : Nat) : Bool := sameHome a b && decide (a.off < b.off + k) && decide (b.off < a.off + n)
/-- The old words of a CODE range that a write changes: the job's quads may fetch them until they discard them (R133). -/
def State.noteCode (s : State) (asid : Nat) (d : Dest) (n : Nat) : State :=
  match s.job? asid with
  | none => s
  | some j =>
    if d.space == .dss && j.inCode d.off n then
      let words := (List.range ((d.off % 4 + n + 3) / 4)).map fun i => d.off / 4 * 4 + 4 * i
      let die := coreDie d.core
      s.setJob asid { j with
        stale := j.stale ++ words.map fun w => { die := die, off := w, word := BitVec.ofNat 32 (readMem (dgetD j.dss die Mem.empty).cur w 4), seen := [] } }
    else s
/-- A write that performs at its home now and that an abort undoes (R239, R249). -/
def State.wrNow (s : State) (asid : Nat) (d : Dest) (n v : Nat) : State := (s.noteCode asid d n).wr asid d n v
/-- The home cannot serve the message: its core has stopped in its own control state and has not been fenced (R331). -/
def State.silentHome (s : State) (d : Dest) : Bool := d.space == .tcm && ((s.core? d.core).map Core.dead).getD false
/-- The location and the bytes of data of a request. -/
def MsgKind.reach : MsgKind → Option (CoreId × Nat)
  | .eager d n _ _ => some (d.core, n)
  | .loadReq d n _ => some (d.core, n)
  | .check d _ => some (d.core, 0)
  | .atomic d _ _ _ _ => some (d.core, 8)
  | .order d _ _ _ => some (d.core, 8)
  | .post c _ _ => some (c, 8)
  | _ => none
/-- The data of a request and of its answer crosses the link between the two modules. -/
def State.countAnswer (s : State) (m : Msg) (kind : MsgKind) : State :=
  match m.kind.reach with
  | none => s
  | some (c, n) =>
    let s := match m.kind with
      | .loadReq _ _ _ => s
      | _ => s.countLink (coreModule m.src) (coreModule c) n
    match kind with
    | .response _ => s.countLink (coreModule c) (coreModule m.src) n
    | _ => s
/-- The message `m` becomes an answer on its way back to its sender, from where its destination now stands. -/
def State.answer (s : State) (i : Nat) (m : Msg) (kind : MsgKind) : State :=
  ({ s.countAnswer m kind with net := s.net.eraseIdx i }).inject { m with kind := kind, home := m.kind.reach.map fun (x : CoreId × Nat) => s.forwarded m.asid x.1 }
/-- An eager write performs at its home and is acknowledged, or is returned (R105, R249). -/
def State.eagerAt (s : State) (i : Nat) (m : Msg) (d : Dest) (n v : Nat) (addr : Word) : State :=
  match s.target m.asid d with
  | none => s.answer i m (.returned false addr)
  | some t => if s.silentHome t then s else (s.wrNow m.asid t n v).answer i m .eagerAck
/-- The message is an eager write of context `k` of core `c` that meets the bytes where they lie now, behind a forwarding entry (R101). -/
def State.eagerOver (s : State) (m : Msg) (c : CoreId) (k : Nat) (d : Dest) (n : Nat) : Bool :=
  m.src == c && m.ctx == k && match m.kind with
    | .eager e l _ _ => meets (s.settled m.asid e) (s.settled m.asid d) l n
    | _ => false
/-- Earlier eager writes of a context to the bytes of an access perform before it (R292, same location). -/
def State.flushOwn (s : State) (c : CoreId) (k : Nat) (d : Dest) (n : Nat) : Nat → State
  | 0 => s
  | f + 1 =>
    match s.net.findIdx? (fun m => s.eagerOver m c k d n) with
    | none => s
    | some i =>
      match s.net[i]? with
      | some m => match m.kind with
        | .eager e l v addr => (s.eagerAt i m e l v addr).flushOwn c k d n f
        | _ => s
      | none => s
/-- Earlier eager writes of the issuing context to the bytes of a local access. -/
def State.settleOwn (s : State) (c : CoreId) (k : Nat) (d : Dest) (n : Nat) : State := s.flushOwn c k d n s.net.length

/-- An instruction reads `n` bytes at a home and then does `t`, or traps POISON where they are spilled on a poisoned page (R20, R106, R123). -/
def State.reading (s : State) (c : CoreId) (k asid : Nat) (d : Dest) (n : Nat) (t : State) : State :=
  match s.spillPoison asid d n with
  | some pa => (s.metPoison c pa).trap c k cPOISON 0
  | none => t
/-- A base load of `n` bytes (R106). A mesh form goes to its home as a message and completes with the response (R105); every
other load performs now and returns the contents at its home (R240), or meets poison where they are spilled (R106). Other concurrent writes are never
returned (R294; DESIGN CHOICE, log entry 103). -/
def load (s : State) (rd rs1 : R5) (imm : BitVec 12) (n : Nat) (signed float : Bool) : Result :=
  issue s fun i =>
    let a := i.ctx.getX rs1 + sext12 imm
    match checkAddr i.job i.c i.ctx.level baseForms n n false a with
    | .error cause => s.trapI i cause a
    | .ok d =>
      let s := s.recordMem i.c i.k false a
      if isMesh a then
        ((s.send i.c i.k i.core.asid 0 none (.loadReq d n a)).2).block i.c i.k (.load a rd n signed float)
      else
        let s := s.settleOwn i.c i.k d n
        s.reading i.c i.k i.core.asid d n (s.finish i (i.ctx.setLoad rd n signed float (s.rd i.core.asid d n)))

/-- A write of the class of its target (R239): TCM and quad scratchpad by a local form at once, every other deferred to commit.
A deferred write by a mesh form travels to its home in the superstep for the membership check (R105). -/
def State.storeClass (s : State) (c : CoreId) (k asid : Nat) (seq : Nat) (cmd : Option Nat) (a : Word) (d : Dest) (n v : Nat) : State :=
  if !isMesh a && d.space != .dss then (s.settleOwn c k d n).wr asid d n v
  else
    let s := s.modCore c fun x => { x with deferred := x.deferred ++ [{ dest := d, op := .write n v }] }
    if isMesh a then (s.send c k asid seq cmd (.check d a)).2 else s

/-- A base store of `n` bytes (R106, R239). -/
def store (s : State) (rs1 : R5) (imm : BitVec 12) (n : Nat) (value : Ctx → Nat) : Result :=
  issue s fun i =>
    let a := i.ctx.getX rs1 + sext12 imm
    match checkAddr i.job i.c i.ctx.level baseForms n n true a with
    | .error cause => s.trapI i cause a
    | .ok d => ((s.recordMem i.c i.k true a).storeClass i.c i.k i.core.asid 0 none a d n (value i.ctx % 2 ^ (8 * n))).finish i i.ctx

/-- LB (R128). -/
def execLb (rd rs1 : R5) (imm : BitVec 12) (s : State) : Result := load s rd rs1 imm 1 true false
/-- LH (R128). -/
def execLh (rd rs1 : R5) (imm : BitVec 12) (s : State) : Result := load s rd rs1 imm 2 true false
/-- LW (R128). -/
def execLw (rd rs1 : R5) (imm : BitVec 12) (s : State) : Result := load s rd rs1 imm 4 true false
/-- LD (R128). -/
def execLd (rd rs1 : R5) (imm : BitVec 12) (s : State) : Result := load s rd rs1 imm 8 false false
/-- LBU (R128). -/
def execLbu (rd rs1 : R5) (imm : BitVec 12) (s : State) : Result := load s rd rs1 imm 1 false false
/-- LHU (R128). -/
def execLhu (rd rs1 : R5) (imm : BitVec 12) (s : State) : Result := load s rd rs1 imm 2 false false
/-- LWU (R128). -/
def execLwu (rd rs1 : R5) (imm : BitVec 12) (s : State) : Result := load s rd rs1 imm 4 false false
/-- FLW (R128). -/
def execFlw (fd rs1 : R5) (imm : BitVec 12) (s : State) : Result := load s fd rs1 imm 4 false true
/-- SB (R128). -/
def execSb (rs2 rs1 : R5) (imm : BitVec 12) (s : State) : Result := store s rs1 imm 1 fun k => (k.getX rs2).toNat
/-- SH (R128). -/
def execSh (rs2 rs1 : R5) (imm : BitVec 12) (s : State) : Result := store s rs1 imm 2 fun k => (k.getX rs2).toNat
/-- SW (R128). -/
def execSw (rs2 rs1 : R5) (imm : BitVec 12) (s : State) : Result := store s rs1 imm 4 fun k => (k.getX rs2).toNat
/-- SD (R128). -/
def execSd (rs2 rs1 : R5) (imm : BitVec 12) (s : State) : Result := store s rs1 imm 8 fun k => (k.getX rs2).toNat
/-- FSW (R128). -/
def execFsw (fs2 rs1 : R5) (imm : BitVec 12) (s : State) : Result := store s rs1 imm 4 fun k => (k.getF fs2).toNat

end Sys2Proof.Machine
end

