-- ==== Sys2Proof/Machine/System.lean ====
section
/-! DEFINITION. The system instructions: FENCE, FENCE.I, ECALL, EBREAK, WFI (R128, R129), the CSR instructions (R130, R136),
`trapret`, `trig`, `svact` and `trread` (R177, R178, R329, R356), `yield`, `follow` and `solo` (R173, R174). -/

namespace Sys2Proof.Machine

/-- The instruction completes with the issuing context, as it now stands, changed by `f`. -/
def State.finishWith (s : State) (i : Issuer) (f : Ctx → Ctx) : State := s.modCtx i.c i.k fun x => (f x).advance

/-- Eager writes of context `k` whose homes lie in the extent of a scope and that have not performed (R298). -/
def State.fencePending (s : State) (core : Core) (c : CoreId) (k sc : Nat) : Bool :=
  core.eager.any fun e => e.ctx == k && e.cmd.isNone && s.homeIn core.asid sc c e.dest
/-- The quad's instruction buffer drops the entries of the job (R133). -/
def Job.discard (j : Job) (q : QuadId) : Job := { j with stale := j.stale.map fun w => { w with seen := q :: w.seen } }

/-- FENCE (R128): `fence.s.core`, whatever pred and succ hold. -/
def execFence (_ _ : BitVec 4) (s : State) : Result :=
  issue s fun i => if s.fencePending i.core i.c i.k 1 then s.block i.c i.k (.fence 1) else s.finish i i.ctx
/-- FENCE.TSO (R128). -/
def execFenceTso (s : State) : Result :=
  issue s fun i => if s.fencePending i.core i.c i.k 1 then s.block i.c i.k (.fence 1) else s.finish i i.ctx
/-- FENCE.I (R133): orders as `fence.s.core` and discards the quad's buffer entries of the job. -/
def execFenceI (s : State) : Result :=
  issue s fun i =>
    if s.fencePending i.core i.c i.k 1 then s.block i.c i.k .fenceI
    else (s.modJob i.core.asid fun j => j.discard (coreQuad i.c)).finish i i.ctx
/-- ECALL (R128). -/
def execEcall (s : State) : Result := issue s fun i => s.trapI i cECALL 0
/-- EBREAK (R128). -/
def execEbreak (s : State) : Result := issue s fun i => s.trapI i cEBREAK 0
/-- WFI (R128, R129): not ready until the first wake event at or after its issue; one of the same cycle counts (R38). -/
def execWfi (s : State) : Result :=
  issue s fun i => (s.setCtx i.c i.k { i.ctx with woken := i.ctx.woken.filter (· = s.clock) }).block i.c i.k .wfi
/-- A word that is no instruction (R137, R138). -/
def execReservedEncoding (w : Half32) (s : State) : Result := issue s fun i => s.trapI i cILLEGAL (w.setWidth 64)

-- CSRs (R136)
def Level.rank : Level → Nat
  | .job => 0
  | .service => 1
  | .firmware => 2
/-- The level that an allocated CSR address needs; none for an address that is not allocated (R136, R327). -/
def csrLevel (a : Nat) : Option Nat :=
  if a = 0x001 ∨ a = 0x002 ∨ a = 0x003 ∨ a = 0xC00 ∨ a = 0xC01 ∨ a = 0xC02 ∨ (0x800 ≤ a ∧ a ≤ 0x80C) ∨ a = 0x8FF then some 0
  else if 0x5C0 ≤ a ∧ a ≤ 0x5C7 then some 1
  else if 0x7C0 ≤ a ∧ a ≤ 0x7FF then some 2
  else none
def csrReadOnly (a : Nat) : Bool :=
  [0xC00, 0xC01, 0xC02, 0x800, 0x801, 0x803, 0x804, 0x806, 0x807, 0x80B, 0x8FF, 0x5C0, 0x5C2, 0x5C4, 0x5C7, 0x7C1].contains a

/-- `lcidx` (R25). -/
def lcidxCsr (j : Job) (core : Core) : Nat := (j.n - 1) * 2 ^ 32 + core.index
/-- `lcoord` (R25). -/
def lcoordCsr (c : CoreId) : Nat := coreModule c * 2 ^ 22 + coreDie c % 4 * 2 ^ 20 + coreRow c * 2 ^ 15 + coreCol c * 2 ^ 10
/-- `lshape` (R95). -/
def lshapeCsr (j : Job) (core : Core) : Nat :=
  let r := (j.rects[core.rect]?).getD { die := 0, row := 0, col := 0 }
  (j.rects.length - 1) * 2 ^ 48 + core.rect * 2 ^ 32 + (j.rr - 1) * 2 ^ 20 + (j.cc - 1) * 2 ^ 16 + r.row * 2 ^ 4 + r.col
/-- `cpring` at the entry that `cpsel` selects (R330). -/
def cpringCsr (core : Core) (sel : Nat) : Nat :=
  match dget? core.ring sel with
  | none => 0
  | some e =>
    e.seq * 2 ^ 48 + e.ctx * 2 ^ 44 + core.asid * 2 ^ 30 + (if e.valid then 2 ^ 29 else 0) + (if e.done then 2 ^ 28 else 0) + e.pcoff
/-- `patchst` (R351). -/
def patchstCsr (d : Die) : Nat :=
  d.lastPos * 2 ^ 32 + (d.patches.filter fun e => e.2.slot = 4).length * 2 ^ 24 + (d.patches.filter fun e => e.2.fenced).length * 2 ^ 16
    + (d.patches.filter fun e => e.2.perm).length * 2 ^ 8 + (d.roles.filter fun e => e.2 = .standby).length
/-- `time`: one count in ten cycles from module reset (R131). -/
def State.timeOf (s : State) (m : Nat) : Nat := (s.clock - ((s.module? m).map Module.resetClock).getD 0) / 10

/-- Doubleword `n` of a frozen trace, oldest entry first and low doubleword first (R356). -/
def traceWord (tr : List (Nat × Nat)) (n : Nat) : Option Nat :=
  if n / 2 < tr.length then (tr[tr.length - 1 - n / 2]?).map fun e => if n % 2 = 0 then e.2 else e.1 else none
/-- A read of `trread` (R356): 0 while FROZEN is clear; past the last entry the spec states no value, and it is free (log entry 3). -/
def State.readTrace (s : State) (c : CoreId) : Word × State :=
  if !((s.core? c).map fun k => traceBit k.tracectl 11).getD false then (0, s)
  else
    let p := s.pos c
    let s := s.modPos c fun p => { p with tracePos := p.tracePos + 1 }
    match traceWord p.trace p.tracePos with
    | some v => (BitVec.ofNat 64 v, s)
    | none => (BitVec.ofNat 64 s.draw.1, s.draw.2)

/-- The value a CSR instruction reads (R130, R136). Only `trread` changes the state. -/
def State.readCsr (s : State) (i : Issuer) (a : Nat) : Word × State :=
  let p := s.pos i.c
  let v : Nat := match a with
    | 0x001 => i.ctx.fcsr.toNat % 32
    | 0x002 => i.ctx.fcsr.toNat / 32
    | 0x003 => i.ctx.fcsr.toNat
    | 0xC00 => i.core.cycle s.clock
    | 0xC01 => s.timeOf (coreModule i.c)
    | 0xC02 => i.ctx.instret
    | 0x800 => lcidxCsr i.job i.core
    | 0x801 => lcoordCsr i.c
    | 0x802 => i.ctx.qflagsCsr.toNat
    | 0x803 => lshapeCsr i.job i.core
    | 0x804 => i.job.limit
    | 0x805 => i.core.ssentry.toNat
    | 0x806 => i.core.ssn
    | 0x807 => i.core.sscause.toNat
    | 0x808 => i.core.pool * 2 ^ 32 + i.core.age
    | 0x809 => i.core.nbwait
    | 0x80A => i.core.stagger
    | 0x80B => i.ctx.grant
    | 0x80C => i.core.tracectl.toNat
    | 0x8FF => 0x40201
    | 0x5C0 => cpringCsr i.core p.cpsel
    | 0x5C1 => p.cpsel
    | 0x5C2 => p.svcause.toNat
    | 0x5C3 => p.svepc.toNat
    | 0x5C4 => p.svtval.toNat
    | 0x5C6 => p.svscratch.toNat
    | 0x7C0 => p.hbperiod.toNat
    | 0x7C1 => patchstCsr (s.die (coreDie i.c))
    | _ => if 0x7C2 ≤ a then (Config.firmwareCsr a).toNat else 0
  if a = 0x5C7 then s.readTrace i.c else (BitVec.ofNat 64 v, s)

/-- The CAUSE field of `svact`: a value outside 0x01 to 0x15 acts as 0x0F (R329). -/
def svactCauseOf (v : Nat) : Nat := if 1 ≤ v ∧ v ≤ 0x15 then v else cWATCHDOG
/-- FAULT of `svact` (R329): an abort condition, after which the job ends; after the outcome it is discarded (R331). -/
def State.svactFaulted (s : State) (i : Issuer) (cause : Nat) : State :=
  (s.modJob i.core.asid fun j => if j.verdict.isSome then j else { j with endCause := some (j.endCause.getD cause) }).abortCondition i.c cause
/-- CLEAR of `svact` (R329): clears the poison bit of a tier-0 page that a leaf of the job maps. -/
def State.svactCleared (s : State) (i : Issuer) (page : Nat) : State :=
  let m := coreModule i.c
  if tierOf (page * 4096) == .hbm && s.mapsPage m i.job.root (page * 4096) then
    s.modModule m fun d => { d with poison := d.poison.filter (· ≠ page) }
  else s
/-- A CLEAR has page tables to read in a bank that another core holds, and waits for it (R125). -/
def State.clearBusy (s : State) (i : Issuer) (page : Nat) : Bool := tierOf (page * 4096) == .hbm && s.mapBusy (coreModule i.c) i.job.root i.c
def svactPage (v : Word) : Nat := v.toNat / 2 ^ 12 % 2 ^ 36
/-- A write of `svact` (R329). -/
def State.svact (s : State) (i : Issuer) (v : Word) : State :=
  let cause := svactCauseOf (v.toNat / 16 % 256)
  match v.toNat % 4 with
  | 1 => s.svactFaulted i cause
  | 2 => s.abortCondition i.c cause
  | 3 => s.svactCleared i (svactPage v)
  | _ => s

def tracectlMask : Word := 0x03FF0F0F
/-- A CSR write by its address: reserved fields ignore what is written (R3). Writing FROZEN = 0 restarts the read position, and ends the count of a
trigger still under way: the second is the model's choice (R356; DESIGN CHOICE, log entry 106). -/
def State.writeCsr (s : State) (i : Issuer) (a : Nat) (v : Word) : State :=
  let ctx := fun f => s.modCtx i.c i.k f
  let core := fun f => s.modCore i.c f
  let pos := fun f => s.modPos i.c f
  match a with
  | 0x001 => ctx fun x => { x with fcsr := (x.fcsr &&& 0xE0) ||| (v.setWidth 8 &&& 0x1F) }
  | 0x002 => ctx fun x => { x with fcsr := (x.fcsr &&& 0x1F) ||| (v.setWidth 8 <<< 5) }
  | 0x003 => ctx fun x => { x with fcsr := v.setWidth 8 }
  | 0x802 => ctx fun x => x.setQflagsCsr v
  | 0x805 => core fun k => { k with ssentry := v }
  | 0x808 => core fun k => { k with pool := v.toNat / 2 ^ 32 % 16, age := v.toNat % 2 ^ 32 }
  | 0x809 => core fun k => { k with nbwait := v.toNat % 2 ^ 32 }
  | 0x80A => core fun k => { k with stagger := v.toNat % 256 }
  | 0x80C =>
    let s := core fun k => { k with tracectl := v &&& tracectlMask }
    if traceBit v 11 then s else s.modPos i.c fun p => { p with tracePos := 0, tracePost := none }
  | 0x5C1 => pos fun p => { p with cpsel := v.toNat % 64 }
  | 0x5C3 => pos fun p => { p with svepc := v }
  | 0x5C6 => pos fun p => { p with svscratch := v }
  | 0x7C0 => pos fun p => { p with hbperiod := v &&& 0xFFFFFFFF }
  | _ => s

/-- A CSR instruction (R130): the checks in their order, `ssentry` checked as a branch target (R278), the value read (when `rd`
takes it or the write needs it), the value written when `new` gives one. -/
def csrOp (s : State) (rd : R5) (csr : BitVec 12) (reads : Bool) (new : Option (Ctx → Word → Word)) : Result :=
  issue s fun i =>
    let a := csr.toNat
    match csrLevel a with
    | none => s.trapW i cILLEGAL
    | some l =>
      if a = 0x805 ∧ i.k ≠ 0 then s.trapW i cILLEGAL
      else if i.ctx.level.rank < l then s.trapW i cPRIV
      else if new.isSome && csrReadOnly a then s.trapW i cILLEGAL
      else
        let r := if reads then s.readCsr i a else (0, s)
        match new with
        | none => r.2.finishWith i fun x => x.setX rd r.1
        | some f =>
          let v := f i.ctx r.1
          match (if a = 0x805 then entryCause i.job v else none) with
          | some cause => s.trapI i cause v
          | none =>
            let s' := (r.2.writeCsr i a v).finishWith i fun x => x.setX rd r.1
            if a ≠ 0x5C5 then s'
            else if v.toNat % 4 = 3 && s.clearBusy i (svactPage v) then s.block i.c i.k (.bank (svactPage v))
            else s'.svact i v
/-- CSRRW (R128, R130): with rd = x0 the CSR is not read. -/
def execCsrrw (rd rs1 : R5) (csr : BitVec 12) (s : State) : Result := csrOp s rd csr (rd != 0) (some fun k _ => k.getX rs1)
/-- CSRRS (R128, R130): with rs1 = x0 nothing is written. -/
def execCsrrs (rd rs1 : R5) (csr : BitVec 12) (s : State) : Result :=
  csrOp s rd csr true (if rs1 = 0 then none else some fun k v => v ||| k.getX rs1)
/-- CSRRC (R128, R130). -/
def execCsrrc (rd rs1 : R5) (csr : BitVec 12) (s : State) : Result :=
  csrOp s rd csr true (if rs1 = 0 then none else some fun k v => v &&& ~~~ (k.getX rs1))
/-- CSRRWI (R128, R130). -/
def execCsrrwi (rd uimm : R5) (csr : BitVec 12) (s : State) : Result := csrOp s rd csr (rd != 0) (some fun _ _ => uimm.setWidth 64)
/-- CSRRSI (R128, R130): with uimm = 0 nothing is written. -/
def execCsrrsi (rd uimm : R5) (csr : BitVec 12) (s : State) : Result :=
  csrOp s rd csr true (if uimm = 0 then none else some fun _ v => v ||| uimm.setWidth 64)
/-- CSRRCI (R128, R130). -/
def execCsrrci (rd uimm : R5) (csr : BitVec 12) (s : State) : Result :=
  csrOp s rd csr true (if uimm = 0 then none else some fun _ v => v &&& ~~~ (uimm.setWidth 64))

/-- The parts of a service-level CSR access that have rows of their own: PRIV at job level, then the effect (R130, R329). -/
def service (s : State) (f : Issuer → State) : Result :=
  issue s fun i => if i.ctx.level == .job then s.trapW i cPRIV else f i
/-- SVACT_FAULT (R329). -/
def execSvactFault (cause : BitVec 8) (s : State) : Result :=
  service s fun i => (s.finish i i.ctx).svactFaulted i (svactCauseOf cause.toNat)
/-- SVACT_ABORT (R329). -/
def execSvactAbort (cause : BitVec 8) (s : State) : Result :=
  service s fun i => (s.finish i i.ctx).abortCondition i.c (svactCauseOf cause.toNat)
/-- SVACT_CLEAR (R329). -/
def execSvactClear (page : BitVec 36) (s : State) : Result :=
  service s fun i =>
    if s.clearBusy i page.toNat then s.block i.c i.k (.bank page.toNat) else (s.finish i i.ctx).svactCleared i page.toNat
/-- TRREAD (R356). -/
def execTrread (rd : R5) (s : State) : Result :=
  service s fun i => (s.readTrace i.c).2.finishWith i fun x => x.setX rd (s.readTrace i.c).1

/-- TRAPRET (R177, R328): PRIV at job level; `svepc` is checked as a branch target. -/
def execTrapret (s : State) : Result :=
  issue s fun i =>
    match i.ctx.level with
    | .job => s.trapW i cPRIV
    | .firmware => s.setCtx i.c i.k { i.ctx with pc := i.ctx.fwEpc, instret := i.ctx.instret + 1 }
    | .service =>
      let a := (s.pos i.c).svepc
      match branchCause i.job a with
      | some cause => s.trapI i cause a
      | none => s.leaveHandler i.c i.k
/-- TRIG (R178, R356): a trigger when SWTRIG is set; TRIGGER at the next instruction when EN and TRAPEN are set. -/
def execTrig (rs1 : R5) (s : State) : Result :=
  issue s fun i =>
    let v := i.ctx.getX rs1
    let t := i.core.tracectl
    let s := if traceBit t 0 && traceBit t 9 then (s.record i.c i.k 4 false v).trigger i.c else s
    let s := s.finish i i.ctx
    if traceBit t 0 && traceBit t 10 then s.trap i.c i.k cTRIGGER v else s

/-- YIELD (R173): passed over once in favour of another ready context. -/
def execYield (s : State) : Result := issue s fun i => (s.finish i i.ctx).block i.c i.k .yielded
/-- The quad leader of a core: the job's core with the lowest index in its quad (R134). -/
def Job.leader (j : Job) (c : CoreId) : CoreId := ((j.inQuad (coreQuad c)).head?).getD c
/-- The leader has executed the `FOLLOW` that pairs with the follower's next one at this address (R134). -/
def State.followMet (s : State) (j : Job) (c : CoreId) (core : Core) (off : Nat) : Bool :=
  j.leader c == c || decide (dgetD core.follows off 0 < ((s.core? (j.leader c)).map fun l => dgetD l.follows off 0).getD 0)
/-- The core has executed a `FOLLOW` at an offset. The model counts every one that it executes, one that reaches it from the leader's stream too:
whether that one counts towards the n of R134 is open (DESIGN CHOICE, log entry 68). -/
def Core.followed (core : Core) (off : Nat) : Core := { core with follows := dset core.follows off (dgetD core.follows off 0 + 1) }
/-- FOLLOW (R134, R174): waits for the paired `FOLLOW` of the leader; a core then executes the same instructions by its own fetch,
whose results are those of follow mode (R39). -/
def execFollow (s : State) : Result :=
  issue s fun i =>
    let off := addrOff i.ctx.pc
    if i.k ≠ 0 then s.trapW i cILLEGAL
    else if s.followMet i.job i.c i.core off then (s.modCore i.c fun k => k.followed off).finish i i.ctx
    else s.block i.c i.k .follow
/-- SOLO (R134, R174). -/
def execSolo (s : State) : Result := issue s fun i => if i.k ≠ 0 then s.trapW i cILLEGAL else s.finish i i.ctx

end Sys2Proof.Machine
end

