-- ==== Sys2Proof/Machine/Tasks.lean ====
section
/-! DEFINITION. Helpers, continuation records and join counters (R157 to R172): `spawn`, `hexit`, `cpush`, `cjoin`, pool popping,
stealing and aging (R35, R36, R160, R161). -/

namespace Sys2Proof.Machine

/-- The core may issue and start work in this attempt (R283, R331). -/
def Core.active (k : Core) : Bool := k.open_ && !k.stopped
/-- Something of R338 happened at the core. -/
def State.progress (s : State) (c : CoreId) : State := s.modCore c fun k => { k with lastProgress := s.clock }

/-- A context as it starts (R56, R131, R158). -/
def startCtx (zero : Ctx) (life : Life) (pc x10 x11 : Word) : Ctx :=
  (({ Ctx.reset with life := life, pc := pc, fcsr := zero.fcsr &&& 0xE0, enables := zero.enables }).setX 10 x10).setX 11 x11
/-- The helpers that are idle, in ascending number. -/
def Core.idle (k : Core) : List Nat := ((List.range 11).filter fun n => n ≠ 0 && !(k.ctx n).live)
def Core.idlePool (k : Core) : List Nat := k.idle.filter fun n => n ≤ k.pool
def Core.startHelper (k : Core) (h : Nat) (life : Life) (pc x10 x11 : Word) : Core :=
  k.setCtx h (startCtx (k.ctx 0) life pc x10 x11)

/-- `SPAWN` takes the highest-numbered idle helper (R160, R169). -/
def State.spawnOn (s : State) (c : CoreId) (k : Nat) (rd : R5) (pc arg : Word) (h : Nat) : State :=
  s.modCore c fun core => (core.startHelper h .direct pc arg 0).modCtx k fun x => (x.setX rd (BitVec.ofNat 64 h)).advance
/-- SPAWN (R169). -/
def execSpawn (rd rs1 rs2 : R5) (s : State) : Result :=
  issue s fun i =>
    let a := i.ctx.getX rs1
    if i.k ≠ 0 then s.trapW i cILLEGAL
    else
      match entryCause i.job a with
      | some cause => s.trapI i cause a
      | none =>
        match i.core.idle.getLast? with
        | some h => s.spawnOn i.c i.k rd a (i.ctx.getX rs2) h
        | none => s.block i.c i.k (.spawn rd a (i.ctx.getX rs2))

/-- Accesses tied to the scoreboard slots of a context that have not performed (R170, R248). -/
def Core.slotsPending (k : Core) (n : Nat) : Bool := k.eager.any fun e => e.ctx == n && e.slot.isSome
/-- The helper becomes idle: its flags merge into context 0 (R56, R131), its late traps go to context 0 (R323), its lanes return
when its last vector instruction completes (R190), and what it still has in lanes, arrays and engines is marked as a helper's that is no
longer live (R163). -/
def Core.endHelper (core : Core) (k : Nat) : Core :=
  let x := core.ctx k
  let own := fun (l : LaneOp) => l.ctx == k && !l.gone
  let last := ((core.lanes.filter own).getLast?).map LaneOp.seq
  let core := { core with
    lanes := core.lanes.map fun l => if own l then { l with gone := true, release := if some l.seq == last then x.grant else l.release } else l
    q := dmap core.q fun _ l => l.map fun (m : Cmd) => if m.ctx = k then { m with gone := true } else m }
  (core.modCtx 0 fun z =>
    { z with flags := z.flags ||| x.flags, fcsr := z.fcsr ||| (x.fcsr &&& 0x1F), late := z.late ++ x.late.map fun (t : LateTrap) => { t with orphan := true } }).setCtx k
    Ctx.reset
/-- A record that came from the queue of `owner` has finished (R35). -/
def State.recordDone (s : State) (life : Life) : State :=
  match life with
  | .task owner seq _ => s.modCore owner fun k => { k with taskLive := k.taskLive.erase seq }
  | _ => s
/-- A late trap of the helper that is still on its way finds it no longer live (R163, R323). -/
def Msg.orphaned (m : Msg) (c : CoreId) (k : Nat) : Msg :=
  match m.kind with
  | .late t => if m.src = c ∧ t.ctx = k then { m with kind := .late { t with orphan := true } } else m
  | _ => m
/-- The arrivals of an idle helper leave the open core-scope episodes: it counts as idle, and whoever bears its number next takes part
anew (R289). -/
def Job.leaveEpisodes (j : Job) (c : CoreId) (k : Nat) : Job :=
  { j with episodes := j.episodes.map fun e =>
      if e.scope = 1 ∧ e.extent = c ∧ e.done.isNone then { e with arrivals := e.arrivals.filter fun a => a.ctx ≠ k } else e }
/-- The helper becomes idle, with everything that still refers to it. -/
def State.idleHelper (s : State) (c : CoreId) (asid k : Nat) : State :=
  let s := ((s.modCore c fun core => core.endHelper k).progress c).modJob asid fun j => j.leaveEpisodes c k
  { s with net := s.net.map fun m => m.orphaned c k }
/-- The join counter of a finishing task: decremented, or HAMPER when it is zero, after the helper's own earlier eager writes to it (R166,
R170, R292). A JOIN that resolves to no location, which only a RECORDS section can give, counts nothing, by the model's choice (log entry 92). -/
def State.joinDown (s : State) (asid : Nat) (c : CoreId) (k : Nat) (life : Life) : Option State :=
  match life with
  | .task _ _ join =>
    if join = 0 then some s
    else
      match locate c join with
      | none => some s
      | some d =>
        let s := (s.recordMem c k true join).settleOwn c k d 4
        let n := s.rd asid d 4
        if n = 0 then none else some (s.wr asid d 4 (n - 1))
  | _ => some s
/-- The page on which the join counter of a finishing task is spilled, when that is poisoned (R20, R123). -/
def State.joinPoison (s : State) (asid : Nat) (c : CoreId) (life : Life) : Option Nat :=
  match life with
  | .task _ _ join => if join = 0 then none else (locate c join).bind fun d => s.spillPoison asid d 4
  | _ => none
/-- HEXIT once nothing is pending: the decrement, then idle (R170). -/
def State.hexit (s : State) (c : CoreId) (k : Nat) : State :=
  match s.core? c with
  | none => s
  | some core =>
    let life := (core.ctx k).life
    match s.joinPoison core.asid c life with
    | some pa => (s.metPoison c pa).trap c k cPOISON 0
    | none =>
    match s.joinDown core.asid c k life with
    | none => s.trap c k cHAMPER 0
    | some s => (s.recordDone life).idleHelper c core.asid k
/-- HEXIT (R170). -/
def execHexit (s : State) : Result :=
  issue s fun i =>
    if i.k = 0 then s.trapW i cILLEGAL
    else if i.core.slotsPending i.k then s.block i.c i.k .hexit
    else s.hexit i.c i.k

/-- A record from its 256 bits (R164). -/
def recordOf (b : Nat) : TaskRec :=
  let prio := b / 2 ^ 192 % 256
  { code := BitVec.ofNat 64 b, frame := BitVec.ofNat 64 (b / 2 ^ 64), join := BitVec.ofNat 64 (b / 2 ^ 128), prio := prio
    ceil := max prio (b / 2 ^ 200 % 256), ordered := b.testBit 208, nosteal := b.testBit 209, level := prio, seq := 0, lseq := 0, since := 0 }
/-- The record enters level PRIO of the queue behind the records there (R171). -/
def Core.enterTask (k : Core) (r : TaskRec) (clock : Nat) : Core :=
  { k with tasks := k.tasks ++ [{ r with level := r.prio, seq := k.taskNext, lseq := k.taskNext, since := clock }], taskNext := k.taskNext + 1 }
def taskDepth : Nat := 4096
/-- The checks of a record's CODE and JOIN (R171 steps 4 and 5). -/
def recordCause (j : Job) (c : CoreId) (level : Level) (r : TaskRec) : Option (Nat × Word) :=
  match entryCause j r.code with
  | some cause => some (cause, r.code)
  | none =>
    if r.join = 0 then none
    else
      match checkAddr j c level [0, 1] 16 16 false r.join with
      | .error cause => some (cause, r.join)
      | .ok _ => none
/-- CPUSH (R171). -/
def execCpush (rs1 : R5) (s : State) : Result :=
  issue s fun i =>
    let a := i.ctx.getX rs1
    match checkAddr i.job i.c i.ctx.level [0, 1] 32 32 false a with
    | .error cause => s.trapI i cause a
    | .ok d =>
      let s := (s.recordMem i.c i.k false a).settleOwn i.c i.k d 32
      s.reading i.c i.k i.core.asid d 32 <|
      let r := recordOf (s.rd i.core.asid d 32)
      match recordCause i.job i.c i.ctx.level r with
      | some (cause, v) => s.trapI i cause v
      | none =>
        if i.core.tasks.length < taskDepth then (s.modCore i.c fun k => k.enterTask r s.clock).finish i i.ctx
        else s.block i.c i.k (.cpush r)
/-- CJOIN (R172). -/
def execCjoin (rs1 : R5) (s : State) : Result :=
  issue s fun i =>
    let a := i.ctx.getX rs1
    match checkAddr i.job i.c i.ctx.level [0, 1] 16 16 false a with
    | .error cause => s.trapI i cause a
    | .ok d =>
      let s := (s.recordMem i.c i.k false a).settleOwn i.c i.k d 4
      s.reading i.c i.k i.core.asid d 4 (if s.rd i.core.asid d 4 = 0 then s.finish i i.ctx else s.block i.c i.k (.cjoin d))

/-- The record may start (R35): it is first at its level and, when ORDERED, every earlier record of the queue has finished. -/
def Core.startable (k : Core) (r : TaskRec) : Bool :=
  k.tasks.all (fun t => t.level != r.level || decide (r.lseq ≤ t.lseq)) &&
    (!r.ordered || (k.tasks.all (fun t => decide (r.seq ≤ t.seq)) && k.taskLive.all fun q => decide (r.seq ≤ q)))
/-- The next record of a core: startable, at the highest level (R160). -/
def Core.nextRecord (k : Core) : Option TaskRec := leastBy (fun r => 255 - r.level) (k.tasks.filter k.startable)
/-- A record of `owner`'s queue starts on helper `h` of core `c` (R157, R160, R161), one of a RECORDS section unchecked (log entry 92). -/
def State.startRecord (s : State) (owner c : CoreId) (h : Nat) (r : TaskRec) : State :=
  let s := s.modCore owner fun k => { k with tasks := k.tasks.filter fun t => t.seq ≠ r.seq, taskLive := k.taskLive ++ [r.seq] }
  let s := s.modCore c fun k => k.startHelper h (.task owner r.seq r.join) r.code r.frame r.join
  (s.progress owner).progress c

/-- A `SPAWN` of the core waits: it takes a helper that becomes idle before any record can (R160). -/
def Core.spawnWaits (k : Core) : Bool :=
  match (k.ctx 0).wait with
  | some (.spawn _ _ _) => true
  | _ => false
/-- POOL_POP: the lowest idle pool helper takes the core's next record (R160). -/
def poolPop (c : CoreId) (s : State) : State :=
  match s.core? c with
  | none => s
  | some k =>
    match k.active && !k.spawnWaits, k.idlePool.head?, k.nextRecord with
    | true, some h, some r => s.startRecord c c h r
    | _, _, _ => s
def execPoolPop (c : CoreId) (s : State) : Result := .next (poolPop c s)

/-- The record is stealable by another core (R161). -/
def Core.stealable (k : Core) : Option TaskRec :=
  k.nextRecord.bind fun r => if !r.nosteal && (r.join == 0 || addrForm r.join == 1) && k.idlePool.isEmpty then some r else none
/-- The other cores of the job in the quad, in ascending index after `c`, wrapping (R161). -/
def Job.victims (j : Job) (c : CoreId) (index : Nat) : List CoreId :=
  let l := (j.inQuad (coreQuad c)).filter (· ≠ c)
  let ix := fun (d : CoreId) => ((j.places.findIdx? (· = d)).getD 0)
  (l.filter fun d => index < ix d) ++ l.filter fun d => ix d < index
/-- TASK_STEAL: an idle pool helper of a core without a startable record takes the next record of another core (R161). -/
def taskSteal (c : CoreId) (s : State) : State :=
  match s.core? c with
  | none => s
  | some k =>
    match k.active && !k.spawnWaits, k.idlePool.head?, k.nextRecord, s.job? k.asid with
    | true, some h, none, some j =>
      match firstSome ((j.victims c k.index).map fun d => (s.core? d).bind fun o => (if o.active then o.stealable else none).map fun r => (d, r)) with
      | some (d, r) => s.startRecord d c h r
      | none => s
    | _, _, _, _ => s
def execTaskSteal (c : CoreId) (s : State) : Result := .next (taskSteal c s)

/-- A record that has waited longer than AGE at a level below its ceiling moves up, behind the records there (R36). -/
def Core.ageOne (k : Core) (clock : Nat) (r : TaskRec) : Core :=
  if k.age ≠ 0 ∧ r.since + k.age < clock ∧ r.level < r.ceil then
    { k with
      tasks := k.tasks.map fun t => if t.seq = r.seq then { t with level := t.level + 1, lseq := k.taskNext, since := clock } else t
      taskNext := k.taskNext + 1 }
  else k
def Core.canAge (k : Core) (clock : Nat) : Bool := k.age ≠ 0 && k.tasks.any fun r => r.since + k.age < clock && r.level < r.ceil
/-- RECORD_AGING (R36, R159). -/
def recordAging (c : CoreId) (s : State) : State :=
  s.modCore c fun k => if k.active then (sortBy TaskRec.lseq k.tasks).foldl (fun k r => k.ageOne s.clock r) k else k
def execRecordAging (c : CoreId) (s : State) : Result := .next (recordAging c s)

end Sys2Proof.Machine
end

