-- ==== Sys2Proof/Machine/Sync.lean ====
section
/-! DEFINITION. Synchronisation inside a superstep: `ssclose` and `ssabort` (R287, R288), group barriers (R289, R290), gangs (R216),
scoreboard slots (R179, R248), eager stores (R249), atomics and ordered fetch-and-add (R300, R301), reduce-deltas (R302), fences
(R298, R299), and the messages they send. -/

namespace Sys2Proof.Machine

-- the closing barrier (R287)
/-- What R34 waits for on a core: queues and tasks drained, helpers idle, nothing in flight. -/
def State.quiescent (s : State) (c : CoreId) (core : Core) : Bool :=
  core.q.all (fun e => decide (4 ≤ e.1) || e.2.isEmpty) && core.tasks.isEmpty && core.idle.length == 10 && core.eager.isEmpty
    && core.posts.isEmpty && core.lanes.isEmpty && (core.ctx 0).late.isEmpty && (core.ctx 0).entry.isNone && !(s.net.any fun m => m.src == c && m.asid == core.asid)
/-- CLOSING to VOTED, once quiescent; a fault of R310 makes it an abort vote (R283, R310). -/
def State.tryVote (s : State) (c : CoreId) : State :=
  match s.core? c with
  | none => s
  | some core =>
    match core.phase, (core.ctx 0).wait with
    | .closing, some (.ssclose op _ val) =>
      if core.active && s.quiescent c core then
        (s.modCore c fun k => { k with phase := .voted }).post c core.asid
          (.vote { index := core.index, abort := core.voteFault.isSome, cause := core.voteFault.getD 0, op := op.toNat, val := val } core.ssn)
      else s
    | _, _ => s
/-- SSCLOSE (R287). -/
def execSsclose (op : BitVec 2) (rd rs1 : R5) (s : State) : Result :=
  issue s fun i =>
    if i.k ≠ 0 then s.trapW i cILLEGAL
    else ((s.modCore i.c fun k => { k with phase := .closing }).block i.c i.k (.ssclose op rd (i.ctx.getX rs1))).tryVote i.c
/-- SSABORT (R288): an urgent abort with cause 0; the context issues nothing more in the attempt. -/
def execSsabort (s : State) : Result :=
  issue s fun i => (s.post i.c i.core.asid (.urgent 0 i.core.index 1)).block i.c i.k .stopped

-- group barriers (R289, R290)
def Ctx.marked (k : Ctx) (sc : Nat) : Option Mark := k.marks.find? fun m => m.scope == sc
/-- The combination of the values of R139's op codes. -/
def combineOp (op : Nat) (a b : Word) : Word :=
  match op with
  | 0 => a + b
  | 1 => a ||| b
  | 2 => if a < b then b else a
  | _ => if b < a then b else a
def opIdentity (op : Nat) : Word := if op = 3 then BitVec.allOnes 64 else 0
def combineAll (op : Nat) (vs : List Word) : Word := vs.foldl (combineOp op) (opIdentity op)

/-- Every participant has arrived (R289): at core scope each context has arrived or is idle; else each core of the job in the extent. With a
participant that is fenced the episode never completes (R290). -/
def State.episodeFull (s : State) (j : Job) (e : Episode) : Bool :=
  if e.scope = 1 then
    match s.core? e.extent with
    | none => false
    | some core => !(s.patch e.extent).fenced && (List.range 11).all fun n => !(core.ctx n).live || e.arrivals.any fun a => a.ctx == n
  else (j.places.filter fun c => extentOf e.scope c = e.extent).all fun c =>
    match s.core? c with
    | none => false
    | some core => !(s.patch c).fenced && e.arrivals.any fun a => a.index == core.index
/-- The episode as it completes, its values combined as in R279. -/
def Episode.complete (e : Episode) (clock : Nat) : Episode :=
  let op := ((e.arrivals.head?).map Arrival.op).getD 0
  { e with done := some clock, mixed := e.arrivals.any (fun a => a.op != op), value := combineAll op (e.arrivals.map Arrival.val) }
/-- Completes the open episodes of a job that are full and wakes the contexts that hold their marks (R129, R289). -/
def State.completeEpisodes (s : State) (asid : Nat) : State :=
  match s.job? asid with
  | none => s
  | some j =>
    let full := fun (e : Episode) => e.done.isNone && s.episodeFull j e
    if j.episodes.any full then
      let ended := j.episodes.filter full
      let s := s.setJob asid { j with episodes := j.episodes.map fun e => if full e then e.complete s.clock else e }
      { s with cores := dmap s.cores fun c core =>
          if core.asid == asid then
            { core with ctxs := dmap core.ctxs fun _ x =>
                if x.marks.any fun m => ended.any fun e => e.scope == m.scope && e.number == m.episode && e.extent == extentOf e.scope c then
                  { x with woken := some s.clock }
                else x }
          else core }
    else s

/-- An arrival reaches the open episode of its scope, extent and number, which completes when it was the last (R289). -/
def State.joinEpisode (s : State) (asid sc ext n : Nat) (a : Arrival) : State :=
  let here := fun (e : Episode) => e.scope == sc && e.extent == ext && e.number == n && e.done.isNone
  (s.modJob asid fun j => { j with episodes := j.episodes.map fun e => if here e then { e with arrivals := e.arrivals ++ [a] } else e }).completeEpisodes asid
/-- The core's arrival at an episode is on its way through the barrier tree. -/
def State.arriving (s : State) (asid sc ext index : Nat) : Bool := s.net.any fun m => m.asid == asid && match m.kind with
  | .arrival sc2 ext2 _ a _ => sc2 == sc && ext2 == ext && a.index == index
  | _ => false
/-- An arrival for the open episode of the scope, which opens one if none is; none while the core's arrival stands there, or is on its way. It is a
message of the scope's barrier tree; at core scope it never leaves the core, and stands at once (R18, R289; log entry 99). -/
def State.arrive (s : State) (c : CoreId) (k : Nat) (sc op : Nat) (val : Word) : Option State :=
  match s.core? c with
  | none => none
  | some core =>
    match s.job? core.asid with
    | none => none
    | some j =>
      let ext := extentOf sc c
      let here := fun (e : Episode) => e.scope == sc && e.extent == ext
      let a : Arrival := { index := core.index, ctx := k, op := op, val := val }
      let mark := fun (s : State) (n : Nat) => s.modCtx c k fun x => { x with marks := { scope := sc, episode := n } :: x.marks.filter fun m => m.scope != sc }
      let opened : Episode := { scope := sc, extent := ext, number := (j.episodes.filter here).length, arrivals := [], done := none, mixed := false, value := 0 }
      let (e, s) := match j.episodes.find? fun e => here e && e.done.isNone with
        | some e => (e, s)
        | none => (opened, s.setJob core.asid { j with episodes := j.episodes ++ [opened] })
      if sc ≠ 1 ∧ (e.arrivals.any (fun b => b.index == core.index) || s.arriving core.asid sc ext core.index) then none
      else
        let s := mark s e.number
        some (if sc = 1 then s.joinEpisode core.asid sc ext e.number a else (s.send c k core.asid 0 none (.arrival sc ext e.number a core.ssn)).2)

/-- The release stagger of a core (R218). -/
def Core.staggerOf (k : Core) (c : CoreId) : Nat := (coreRow c + coreCol c) * k.stagger
/-- The completed episode of a context's mark, once the stagger has passed (R290). -/
def State.episodeDone (s : State) (c : CoreId) (core : Core) (m : Mark) : Option Episode :=
  ((s.job? core.asid).bind fun j => j.episodes.find? fun e => e.scope == m.scope && e.extent == extentOf m.scope c && e.number == m.episode).bind fun e =>
    e.done.bind fun t => if t + (if m.scope = 1 then 0 else core.staggerOf c) ≤ s.clock then some e else none
/-- The instruction word at a context's pc, as its die holds it. -/
def State.wordAt (s : State) (c : CoreId) (k : Nat) : Word :=
  match s.core? c with
  | none => 0
  | some core => BitVec.ofNat 64 (s.rd core.asid { core := c, space := .dss, off := addrOff (core.ctx k).pc } 4)
/-- A context at its `BARW`, or `BARAW` after its arrival: with its episode complete it takes the combined value, or traps ILLEGAL when
the ops differed, and the mark is cleared; none while the episode is open (R290). -/
def State.collect (s : State) (c : CoreId) (k : Nat) (sc : R3) (rd : R5) : Option State :=
  (s.core? c).bind fun core =>
    ((core.ctx k).marked sc.toNat).bind fun m =>
      (s.episodeDone c core m).map fun e =>
        let clear := fun (x : Ctx) => { x with marks := x.marks.filter fun y => y.scope != m.scope }
        if e.mixed then (s.modCtx c k clear).trap c k cILLEGAL (s.wordAt c k)
        else s.modCtx c k fun x => ((clear x).setX rd e.value).advance
/-- BARV (R290). -/
def execBarv (sc : R3) (op : BitVec 2) (rs1 : R5) (s : State) : Result :=
  issue s fun i =>
    let v := i.ctx.getX rs1
    if (i.ctx.marked sc.toNat).isSome then s.trapW i cILLEGAL
    else if s.fencePending i.core i.c i.k sc.toNat then s.block i.c i.k (.barv sc op v)
    else
      match s.arrive i.c i.k sc.toNat op.toNat v with
      | some s => s.finishWith i id
      | none => s.block i.c i.k (.barv sc op v)
/-- BARW (R290). -/
def execBarw (sc : R3) (rd : R5) (s : State) : Result :=
  issue s fun i =>
    if (i.ctx.marked sc.toNat).isNone then s.trapW i cILLEGAL
    else (s.collect i.c i.k sc rd).getD (s.block i.c i.k (.barw sc rd))
/-- BARAW (R290): BARV, then BARW. -/
def execBaraw (sc : R3) (op : BitVec 2) (rd rs1 : R5) (s : State) : Result :=
  issue s fun i =>
    let v := i.ctx.getX rs1
    if (i.ctx.marked sc.toNat).isSome then s.trapW i cILLEGAL
    else if s.fencePending i.core i.c i.k sc.toNat then s.block i.c i.k (.baraw sc op rd v false)
    else
      match s.arrive i.c i.k sc.toNat op.toNat v with
      | some s => (s.collect i.c i.k sc rd).getD (s.block i.c i.k (.baraw sc op rd v true))
      | none => s.block i.c i.k (.baraw sc op rd v false)
/-- BARRIER_RELEASE: a context waiting at `BARW`, or at `BARAW` after its arrival, completes once its stagger has passed (R218, R290). -/
def barrierRelease (c : CoreId) (k : Nat) (s : State) : State :=
  match (s.core? c).bind fun core => (core.ctx k).wait with
  | some (.barw sc rd) => (s.collect c k sc rd).getD s
  | some (.baraw sc _ rd _ true) => (s.collect c k sc rd).getD s
  | _ => s
def execBarrierRelease (c : CoreId) (k : Nat) (s : State) : Result := .next (barrierRelease c k s)

-- gangs (R216 to R218)
def Core.queue (k : Core) (n : Nat) : List Cmd := dgetD k.q n []
/-- A ganged command that the core has pushed has not completed; a push that still waits for queue space is none of them (R216, R217; log entry 77). -/
def Core.gangedPending (k : Core) : Bool := (k.queue 0).any fun m => dGanged m.d0
/-- The offer of a `GANG` on the wired barrier of its row: the open gang closes (R216). -/
def State.offerGang (s : State) (c : CoreId) (t w f : Nat) : State :=
  let s := s.modCore c fun k => { k with gang := none }
  match s.core? c with
  | none => s
  | some core => s.modJob core.asid fun j =>
    { j with offers := j.offers ++ [{ core := c, tag := t, width := w, first := f
                                      number := (j.offers.filter fun o => o.core == c && o.width == w && o.first == f).length }] }
/-- The latest offer of a core. -/
def Job.lastOffer (j : Job) (c : CoreId) : Option Offer := (j.offers.filter fun o => o.core == c).getLast?
/-- The cores of columns F to F + W − 1 of the row have each made the matching offer (R216). -/
def Job.offerMet (j : Job) (o : Offer) : Bool :=
  (List.range o.width).all fun m =>
    let d := o.core - coreCol o.core + o.first + m
    j.offers.any fun p => p.core == d && p.tag == o.tag && p.width == o.width && p.first == o.first && p.number == o.number
/-- The wired barrier of a waiting `GANG` completes: its release cycle is set (R218). -/
def State.tryWired (s : State) (c : CoreId) : State :=
  match s.core? c with
  | none => s
  | some core =>
    match (core.ctx 0).wait, (s.job? core.asid).bind fun j => (j.lastOffer c).map fun o => (j, o) with
    | some (.gang t w f true none), some (j, o) =>
      if j.offerMet o then s.modCtx c 0 fun x => { x with wait := some (.gang t w f true (some (s.clock + core.staggerOf c))) } else s
    | _, _ => s
/-- GANG_RELEASE: the `GANG` completes when its stagger has passed: the gang is open (R216, R218). -/
def gangRelease (c : CoreId) (s : State) : State :=
  match (s.core? c).bind fun core => (core.ctx 0).wait with
  | some (.gang t w f true (some r)) =>
    if r ≤ s.clock then s.modCore c fun k => ({ k with gang := some (t, w, f), gangPushed := 0, gangs := k.gangs + 1 }).modCtx 0 Ctx.advance
    else s
  | _ => s
def execGangRelease (c : CoreId) (s : State) : Result := .next (gangRelease c s)
/-- GANG (R216). -/
def execGang (rs1 rs2 : R5) (s : State) : Result :=
  issue s fun i =>
    let v := (i.ctx.getX rs1).toNat
    let t := v % 256
    let w := v / 256 % 8 + 1
    let f := (i.ctx.getX rs2).toNat % 16
    let col := coreCol i.c
    let org := ((i.job.rects[i.core.rect]?).map Rect.col).getD 0
    if i.k ≠ 0 then s.trapW i cILLEGAL
    else if f < org ∨ org + i.job.cc < f + w ∨ col < f ∨ f + w ≤ col then s.trapI i cBOUNDS 0
    else if i.core.gangedPending then s.block i.c i.k (.gang t w f false none)
    else gangRelease i.c (((s.offerGang i.c t w f).block i.c i.k (.gang t w f true none)).tryWired i.c)

-- scoreboard slots and eager stores (R179, R248, R249)
/-- SBWAIT (R179). -/
def execSbwait (slot : R3) (s : State) : Result :=
  issue s fun i =>
    if i.core.eager.any fun e => e.ctx == i.k && e.slot == some slot then s.block i.c i.k (.sbwait slot) else s.finish i i.ctx
/-- An eager write leaves the core (R248, R249): the entry that its acknowledgement removes, and the message. -/
def State.sendEager (s : State) (c : CoreId) (k asid seq : Nat) (slot : Option R3) (cmd : Option Nat) (d : Dest) (n v : Nat) (addr : Word) : State :=
  let (u, s) := s.send c k asid seq cmd (.eager d n v addr)
  s.modCore c fun x => { x with eager := x.eager ++ [{ uid := u, ctx := k, seq := seq, slot := slot, cmd := cmd, dest := d, addr := addr }] }
/-- `RSTE` of `n` bytes (R249): it takes a sequence number (R245). A ring entry's uid is one more than its message's number. -/
def rste (s : State) (rs2 rs1 : R5) (slot : Option R3) (n : Nat) : Result :=
  issue s fun i =>
    let a := i.ctx.getX rs1
    match checkAddr i.job i.c i.ctx.level baseForms n n true a with
    | .error cause => s.trapI i cause a
    | .ok d =>
      if i.core.ringFree then
        let (seq, core) := i.core.dispatch i.k (s.tickets + 1)
        (((s.setCore i.c core).recordMem i.c i.k true a).sendEager i.c i.k i.core.asid seq slot none d n ((i.ctx.getX rs2).toNat % 2 ^ (8 * n)) a).finish i i.ctx
      else s.block i.c i.k .ring
/-- RSTE.W (R249). -/
def execRsteW (rs2 rs1 : R5) (slot : Option R3) (s : State) : Result := rste s rs2 rs1 slot 4
/-- RSTE.D (R249). -/
def execRsteD (rs2 rs1 : R5) (slot : Option R3) (s : State) : Result := rste s rs2 rs1 slot 8

-- reduce-deltas (R302)
/-- A delta is deferred whatever its target; one by a mesh form travels for the membership check (R105, R302). -/
def rred (s : State) (rs1 : R5) (op : DeltaOp) (align n : Nat) (value : Ctx → Word) : Result :=
  issue s fun i =>
    let a := i.ctx.getX rs1
    match checkAddr i.job i.c i.ctx.level baseForms align n true a with
    | .error cause => s.trapI i cause a
    | .ok d =>
      let s := (s.recordMem i.c i.k true a).modCore i.c fun x => { x with deferred := x.deferred ++ [{ dest := d, op := .delta op (value i.ctx) }] }
      let s := if isMesh a then (s.send i.c i.k i.core.asid 0 none (.check d a)).2 else s
      s.finish i i.ctx
/-- RRED.ADD.W (R302). -/
def execRredAddW (rs2 rs1 : R5) (s : State) : Result := rred s rs1 .addW 4 4 fun k => k.getX rs2
/-- RRED.ADD.D (R302). -/
def execRredAddD (rs2 rs1 : R5) (s : State) : Result := rred s rs1 .addD 8 8 fun k => k.getX rs2
/-- RRED.MIN (R302). -/
def execRredMin (rs2 rs1 : R5) (s : State) : Result := rred s rs1 .min 8 8 fun k => k.getX rs2
/-- RRED.MAX (R302). -/
def execRredMax (rs2 rs1 : R5) (s : State) : Result := rred s rs1 .max 8 8 fun k => k.getX rs2
/-- RRED.OR (R302). -/
def execRredOr (rs2 rs1 : R5) (s : State) : Result := rred s rs1 .or 8 8 fun k => k.getX rs2
/-- RRED.FADD (R302): a record of 48 bytes at a multiple of 16. -/
def execRredFadd (fs2 rs1 : R5) (s : State) : Result := rred s rs1 .fadd 16 48 fun k => (k.getF fs2).setWidth 64

-- atomics (R300)
/-- What an atomic writes over `old`: op 0 adds, 1 compares with `b`, 2 swaps. -/
def atomicNew (op : Nat) (a b old : Word) : Option Word :=
  match op with
  | 0 => some (old + a)
  | 1 => if old = b then some a else none
  | _ => some a
/-- An atomic performs at its home (R300): the old value and the state. -/
def State.performAtomic (s : State) (asid : Nat) (d : Dest) (op : Nat) (a b : Word) : Word × State :=
  let old := BitVec.ofNat 64 (s.rd asid d 8)
  match atomicNew op a b old with
  | some v => (old, s.wrNow asid d 8 v.toNat)
  | none => (old, s)
/-- RFAA, RCAS and RSWP: by a mesh form they wait for the response; by a local form they perform at once, or meet poison (R123, R300). -/
def atomic (s : State) (rd rs1 : R5) (op : Nat) (a b : Ctx → Word) : Result :=
  issue s fun i =>
    let addr := i.ctx.getX rs1
    match checkAddr i.job i.c i.ctx.level baseForms 8 8 true addr with
    | .error cause => s.trapI i cause addr
    | .ok d =>
      let s := s.recordMem i.c i.k true addr
      if isMesh addr then
        ((s.send i.c i.k i.core.asid 0 none (.atomic d op (a i.ctx) (b i.ctx) addr)).2).block i.c i.k (.atomic addr rd)
      else
        let s := s.settleOwn i.c i.k d 8
        let (old, t) := s.performAtomic i.core.asid d op (a i.ctx) (b i.ctx)
        s.reading i.c i.k i.core.asid d 8 (t.finish i (i.ctx.setX rd old))
/-- RFAA (R300). -/
def execRfaa (rd rs2 rs1 : R5) (s : State) : Result := atomic s rd rs1 0 (fun k => k.getX rs2) fun _ => 0
/-- RCAS (R300): x[rs3] is the expected value. -/
def execRcas (rd rs2 rs3 rs1 : R5) (s : State) : Result := atomic s rd rs1 1 (fun k => k.getX rs2) fun k => k.getX rs3
/-- RSWP (R300). -/
def execRswp (rd rs2 rs1 : R5) (s : State) : Result := atomic s rd rs1 2 (fun k => k.getX rs2) fun _ => 0
/-- RFAAO (R301): the request travels to its home and waits for the response. -/
def execRfaao (rd rs2 rs3 rs1 : R5) (s : State) : Result :=
  issue s fun i =>
    let addr := i.ctx.getX rs1
    let e := (i.ctx.getX rs3).toNat
    match checkAddr i.job i.c i.ctx.level baseForms 8 8 true addr with
    | .error cause => s.trapI i cause addr
    | .ok d =>
      if e = 0 ∨ i.job.n < e then s.trapW i cILLEGAL
      else
        (((s.recordMem i.c i.k true addr).send i.c i.k i.core.asid 0 none (.order d (i.ctx.getX rs2) e addr)).2).block i.c i.k (.rfaao addr rd)

-- fences (R298, R299)
/-- FENCE.S (R298): order `.acq` never waits. -/
def execFenceS (sc : R3) (ord : BitVec 2) (s : State) : Result :=
  issue s fun i =>
    if ord ≠ 1 ∧ s.fencePending i.core i.c i.k sc.toNat then s.block i.c i.k (.fence sc) else s.finish i i.ctx
/-- What FFENCE waits for: eager writes of the context and the atoms of its `NXPUT` commands from their push (R274, R299). -/
def State.ffencePending (s : State) (core : Core) (c : CoreId) (k sc : Nat) : Bool :=
  core.eager.any (fun e => e.ctx == k && s.homeIn core.asid sc c e.dest)
    || (core.queue 3).any fun m => m.ctx == k && dKind m.d0 == 0x40 && (m.stage == .queued || m.stage == .running)
      && ((locate c m.a2).map fun d => s.homeIn core.asid sc c d).getD false
/-- The flag write of `FFENCE` (R299). -/
def State.sendFlag (s : State) (c : CoreId) (k asid : Nat) (d : Dest) (v : Word) : State := s.sendEager c k asid 0 none none d 8 v.toNat 0
/-- FFENCE (R299). -/
def execFfence (sc : R3) (rs2 rs1 : R5) (s : State) : Result :=
  issue s fun i =>
    let a := i.ctx.getX rs1
    match checkAddr i.job i.c i.ctx.level baseForms 8 8 true a with
    | .error cause => s.trapI i cause a
    | .ok d =>
      if !s.homeIn i.core.asid sc.toNat i.c d then s.trapI i cBOUNDS a
      else
        let s := s.recordMem i.c i.k true a
        if s.ffencePending i.core i.c i.k sc.toNat then s.block i.c i.k (.ffence sc d (i.ctx.getX rs2))
        else (s.sendFlag i.c i.k i.core.asid d (i.ctx.getX rs2)).finish i i.ctx

end Sys2Proof.Machine
end

