-- ==== Sys2Proof/Machine/Messages.lean ====
section
/-! DEFINITION. The arrivals of messages: eager writes and their acknowledgements (R249), remote requests and responses (R105), returned
messages, atomics and order groups (R300, R301), mailbox posts (R260), late traps and handler entries (R323, R325). -/

namespace Sys2Proof.Machine

/-- Eager writes and requests of one context to one location keep their order (R250, R292). -/
def State.overtaken (s : State) (i : Nat) (m : Msg) (d : Dest) (n : Nat) : Bool := (s.net.take i).any fun e => s.eagerOver e m.src m.ctx d n
/-- Every context of a core sees a wake event of `WFI` (R129). -/
def State.wake (s : State) (c : CoreId) : State := s.modCore c fun k => { k with ctxs := dmap k.ctxs fun _ x => { x with woken := some s.clock } }

/-- EAGER_WRITE_ARRIVAL (R249). -/
def eagerWriteArrival (i : Nat) (s : State) : State :=
  match s.net[i]? with
  | some m => match m.kind with
    | .eager d n v addr => if s.overtaken i m d n then s else s.eagerAt i m d n v addr
    | _ => s
  | none => s
def execEagerWriteArrival (i : Nat) (s : State) : Result := .next (eagerWriteArrival i s)

/-- A cause that one of a command's rows or atoms met: the first in the order of R276 stays. -/
def Cmd.blame (m : Cmd) (cause : Nat) (tval : Word) : Cmd :=
  if cause ≠ 0 ∧ (m.cause = 0 ∨ causeRank cause < causeRank m.cause) then { m with cause := cause, tval := tval } else m
/-- An atom of an `NXPUT` has been acknowledged or returned (R274, R276). -/
def Cmd.atomBack (m : Cmd) (returned : Bool) (addr : Word) : Cmd :=
  let m := { m with outstanding := m.outstanding - 1 }
  if returned then m.blame cRETURNED addr else m
def Core.modQueue (k : Core) (q : Nat) (f : List Cmd → List Cmd) : Core := { k with q := dset k.q q (f (k.queue q)) }
/-- An eager write of the core has performed or was returned: its slot entry goes, and the ring entry of an `RSTE` (R248, R330). -/
def Core.eagerBack (k : Core) (uid : Nat) (returned : Bool) (addr : Word) : Core :=
  let cmd := (k.eager.find? fun e => e.uid == uid).bind EagerOut.cmd
  let k := { k with
    eager := k.eager.filter fun e => e.uid != uid
    ring := dmap k.ring fun _ e => if e.uid == uid + 1 then { e with done := true, owed := if returned then 1 else 0 }.settle else e }
  match cmd with
  | some u => k.modQueue 3 fun l => l.map fun m => if m.uid == u then m.atomBack returned addr else m
  | none => k
/-- EAGER_ACK_ARRIVAL (R248). -/
def eagerAckArrival (i : Nat) (s : State) : State :=
  match s.net[i]? with
  | some m => match m.kind with
    | .eagerAck => ((s.dropMsg i).modCore m.src fun k => k.eagerBack m.uid false 0).progress m.src
    | _ => s
  | none => s
def execEagerAckArrival (i : Nat) (s : State) : Result := .next (eagerAckArrival i s)

/-- REMOTE_REQUEST_ARRIVAL: a base load is served at its home, a deferred write is checked (R101, R105, R240). Which of several concurrent writes a
plain read returns is open (R294, R296): the model returns the home's contents, as R240 says (DESIGN CHOICE, log entry 103). -/
def remoteRequestArrival (i : Nat) (s : State) : State :=
  match s.net[i]? with
  | some m => match m.kind with
    | .loadReq d n addr =>
      if s.overtaken i m d n then s
      else
        match s.target m.asid d with
        | none => s.answer i m (.returned true addr)
        | some t =>
          if s.silentHome t then s
          else
            match s.spillPoison m.asid t n with
            | some pa => s.answer i m (.poisoned pa)
            | none => s.answer i m (.response (s.rd m.asid t n))
    | .check d addr =>
      match s.target m.asid d with
      | none => s.answer i m (.returned false addr)
      | some t => if s.silentHome t then s else s.dropMsg i
    | _ => s
  | none => s
def execRemoteRequestArrival (i : Nat) (s : State) : Result := .next (remoteRequestArrival i s)

/-- A waiting load or atomic takes its value (R105, R300). -/
def Ctx.receive (x : Ctx) (v : Nat) : Ctx :=
  match x.wait with
  | some (.load _ rd n signed float) => (x.setLoad rd n signed float v).advance
  | some (.atomic _ rd) => (x.setX rd (BitVec.ofNat 64 v)).advance
  | some (.rfaao _ rd) => (x.setX rd (BitVec.ofNat 64 v)).advance
  | _ => x
/-- RESPONSE_ARRIVAL: a response for a core that has stopped is discarded with the attempt (R331). -/
def responseArrival (i : Nat) (s : State) : State :=
  match s.net[i]? with
  | some m => match m.kind with
    | .response v => ((s.dropMsg i).modCtx m.src m.ctx fun x => x.receive v).progress m.src
    | .poisoned pa =>
      let s' := (s.dropMsg i).progress m.src
      match (s.core? m.src).bind fun k => (k.ctx m.ctx).wait with
      | some (.load _ _ _ _ _) | some (.atomic _ _) | some (.rfaao _ _) => (s'.metPoison m.src pa).trap m.src m.ctx cPOISON 0
      | _ => s'
    | .orderBad =>
      let s' := (s.dropMsg i).progress m.src
      match (s.core? m.src).bind fun k => (k.ctx m.ctx).wait with
      | some (.rfaao _ _) => s'.trap m.src m.ctx cILLEGAL (s.wordAt m.src m.ctx)
      | _ => s'
    | _ => s
  | none => s
def execResponseArrival (i : Nat) (s : State) : Result := .next (responseArrival i s)

/-- RETURNED (R105): precise for base loads, atomics and `NPOST`; an abort condition for eager writes, flags and deferred stores; for an
atom of `NXPUT` the command's cause (R274). -/
def returned (i : Nat) (s : State) : State :=
  match s.net[i]? with
  | some m => match m.kind with
    | .returned precise addr =>
      let s' := (s.dropMsg i).progress m.src
      if precise then
        let s' := s'.modCore m.src fun k => { k with posts := k.posts.filter (· ≠ m.uid) }
        match (s.core? m.src).bind fun k => (k.ctx m.ctx).wait with
        | some (.load _ _ _ _ _) | some (.atomic _ _) | some (.rfaao _ _) | some (.npost _) => s'.trap m.src m.ctx cRETURNED addr
        | _ => s'
      else
        let s' := s'.modCore m.src fun k => k.eagerBack m.uid true addr
        if m.cmd.isSome then s'
        else s'.lateTrap m.src { cause := cRETURNED, seq := m.seq, tval := addr, ctx := m.ctx, orphan := false }
    | _ => s
  | none => s
def execReturned (i : Nat) (s : State) : Result := .next (returned i s)

/-- ATOMIC_ARRIVAL (R300). -/
def atomicArrival (i : Nat) (s : State) : State :=
  match s.net[i]? with
  | some m => match m.kind with
    | .atomic d op a b addr =>
      if s.overtaken i m d 8 then s
      else
        match s.target m.asid d with
        | none => s.answer i m (.returned true addr)
        | some t =>
          if s.silentHome t then s
          else match s.spillPoison m.asid t 8 with
          | some pa => s.answer i m (.poisoned pa)
          | none => (s.performAtomic m.asid t op a b).2.answer i m (.response (s.performAtomic m.asid t op a b).1.toNat)
    | _ => s
  | none => s
def execAtomicArrival (i : Nat) (s : State) : Result := .next (atomicArrival i s)

/-- The answer of a position to a request of an order group. -/
def OrderReq.answer (s : State) (asid : Nat) (r : OrderReq) (home : CoreId) (kind : MsgKind) : State :=
  s.inject { src := r.core, ctx := r.ctx, asid := asid, uid := r.uid, seq := 0, cmd := none, kind := kind, home := some home }
/-- A full group performs in ascending sender index, as one run (R301); at a poisoned location every request meets poison (R123). -/
def State.runGroup (s : State) (asid : Nat) (g : OrderGroup) : State :=
  match s.spillPoison asid g.dest 8 with
  | some pa => (sortBy OrderReq.index g.members).foldl (fun s r => r.answer s asid g.dest.core (.poisoned pa)) s
  | none => (sortBy OrderReq.index g.members).foldl (fun s r =>
    let (old, s) := s.performAtomic asid g.dest 0 r.addend 0
    r.answer (s.countLink (coreModule g.dest.core) (coreModule r.core) 8) asid g.dest.core (.response old.toNat)) s
/-- A request arrives at its location (R301); a closing group's held requests join in order, each closing at most the next group. -/
def State.joinOrder (s : State) (asid : Nat) (d : Dest) (r : OrderReq) : Nat → State
  | 0 => s
  | fuel + 1 =>
    match s.job? asid with
    | none => s
    | some j =>
      let here := fun (g : OrderGroup) => sameHome g.dest d && g.dest.off == d.off
      let g := (j.groups.find? here).getD { dest := d, count := r.count, members := [], held := [] }
      let others := j.groups.filter fun x => !here x
      if r.count ≠ g.count then r.answer s asid d.core .orderBad
      else if g.members.any fun x => x.index == r.index then s.setJob asid { j with groups := { g with held := g.held ++ [r] } :: others }
      else
        let g := { g with members := g.members ++ [r] }
        if g.members.length < g.count then s.setJob asid { j with groups := g :: others }
        else g.held.foldl (fun s r => s.joinOrder asid d r fuel) ((s.setJob asid { j with groups := others }).runGroup asid g)
/-- ORDER_GROUP_ARRIVAL (R301). -/
def orderGroupArrival (i : Nat) (s : State) : State :=
  match s.net[i]? with
  | some m => match m.kind with
    | .order d addend count addr =>
      if s.overtaken i m d 8 then s
      else
        match s.target m.asid d, s.core? m.src with
        | none, _ => s.answer i m (.returned true addr)
        | some t, some core =>
          if s.silentHome t then s
          else
            let held := ((s.job? m.asid).map fun j => (j.groups.map fun g => g.held.length).sum).getD 0
            ((s.countAnswer m .orderBad).dropMsg i).joinOrder m.asid t { index := core.index, core := m.src, ctx := m.ctx, uid := m.uid, addend := addend, count := count } (held + 2)
        | _, none => s.dropMsg i
    | _ => s
  | none => s
def execOrderGroupArrival (i : Nat) (s : State) : Result := .next (orderGroupArrival i s)

/-- The receiving mailbox: the same index in the opposite group (R140). -/
def oppositeMb (mb : Nat) : Nat := (mb + 8) % 16
/-- MAILBOX_POST_ARRIVAL: the post waits while the presence bit is set, then writes the value and completes (R260). -/
def mailboxPostArrival (i : Nat) (s : State) : State :=
  match s.net[i]? with
  | some m => match m.kind with
    | .post core mb v =>
      let t := s.forwarded m.asid core
      let earlier := (s.net.take i).any fun e => e.src == m.src && match e.kind with
        | .post c2 mb2 _ => c2 == core && mb2 == mb
        | _ => false
      if earlier then s
      else if !s.belongs m.asid t then s.answer i m (.returned true 0)
      else
        match s.core? t with
        | none => s
        | some k =>
          if k.dead || k.present.contains mb then s
          else
            let s := ((s.countAnswer m .eagerAck).dropMsg i).modCore t fun k => { k with mb := sset k.mb mb v, present := mb :: k.present }
            let s := ((s.wake t).progress t).progress m.src
            s.modCore m.src fun k => { k with posts := k.posts.filter (· ≠ m.uid) }.modCtx m.ctx fun x =>
              if x.wait == some (Wait.npost m.uid) then x.advance else x
    | _ => s
  | none => s
def execMailboxPostArrival (i : Nat) (s : State) : Result := .next (mailboxPostArrival i s)

/-- LATE_TRAP_ARRIVAL (R322, R323). -/
def lateTrapArrival (i : Nat) (s : State) : State :=
  match s.net[i]? with
  | some m => match m.kind with
    | .late t => (s.dropMsg i).lateTrap m.src t
    | _ => s
  | none => s
def execLateTrapArrival (i : Nat) (s : State) : Result := .next (lateTrapArrival i s)

/-- A pending late trap that the context takes now: at job level, not held by its wait (R323). -/
def Core.lateReady (core : Core) (k : Nat) : Option LateTrap :=
  let x := core.ctx k
  if x.level == .job && x.entry.isNone && core.active && !((x.wait.map Wait.held).getD false) then x.late.head? else none
/-- The context with the lowest number that waits to enter the handler, while no other is at service level (R325, R326). -/
def Core.entering (k : Core) : Option (Nat × PendingEntry) :=
  if k.inService || !k.active then none
  else firstSome (k.ctxs.map fun e => e.2.entry.map fun t => (e.1, t))
/-- HANDLER_ENTRY: a context that waited enters the handler, or takes its oldest late trap (R323, R325). -/
def handlerEntry (c : CoreId) (k : Nat) (s : State) : State :=
  match s.core? c with
  | none => s
  | some core =>
    match core.entering with
    | some (n, t) => if n = k then s.enterHandler c k t (((s.job? core.asid).map Job.handler).getD 0) else s
    | none =>
      match core.lateReady k with
      | some t => s.takeLate c k t
      | none => s
def execHandlerEntry (c : CoreId) (k : Nat) (s : State) : Result := .next (handlerEntry c k s)

end Sys2Proof.Machine
end

