-- ==== Sys2Proof/Machine/Feed.lean ====
section
/-! DEFINITION. Feeding work: the push of commands (R147 to R151, R176, R219 to R222, R246, R265), status queues (R247), hampers
(R251 to R254), flags (R255), rings (R256 to R258), mailboxes (R259 to R261) and `ctready` (R308, R309). -/

namespace Sys2Proof.Machine

-- mailboxes
/-- The neighbour in direction 0 N, 1 E, 2 S, 3 W on the die (R140). -/
def neighbour (c : CoreId) (dir : Nat) : Option CoreId :=
  match dir with
  | 0 => if coreRow c = 0 then none else some (c - 16)
  | 1 => if coreCol c = 15 then none else some (c + 1)
  | 2 => if coreRow c = 15 then none else some (c + 16)
  | _ => if coreCol c = 0 then none else some (c - 1)
/-- NPOST (R260). -/
def execNpost (mb : BitVec 4) (rs1 : R5) (s : State) : Result :=
  issue s fun i =>
    match neighbour i.c (mb.toNat / 4) with
    | none => s.trapI i cBOUNDS 0
    | some d =>
      let (u, s) := s.send i.c i.k i.core.asid 0 none (.post d (oppositeMb mb.toNat) (i.ctx.getX rs1))
      (s.modCore i.c fun k => { k with posts := u :: k.posts }).block i.c i.k (.npost u)
/-- A context takes the value of a mailbox whose presence bit is set (R261). -/
def State.takeMail (s : State) (c : CoreId) (k : Nat) (rd : R5) (mb : Nat) (pk : R3) : State :=
  let v := ((s.core? c).map fun x => sget x.mb mb).getD 0
  let s := s.recordPred c k (BitVec.allOnes 64)
  s.modCore c fun x => ({ x with present := x.present.filter (· ≠ mb) }).modCtx k fun x => ((x.setX rd v).setP pk (BitVec.allOnes 64)).advance
/-- `NGET` ends by time-out (R261). -/
def State.mailTimeout (s : State) (c : CoreId) (k : Nat) (rd : R5) (pk : R3) : State :=
  (s.recordPred c k 0).modCtx c k fun x => ((x.setX rd 0).setP pk 0).advance
/-- NGET (R261). -/
def execNget (rd : R5) (mb : BitVec 4) (pk : R3) (s : State) : Result :=
  issue s fun i =>
    if i.core.present.contains mb.toNat then s.takeMail i.c i.k rd mb.toNat pk
    else if i.core.nbwait = 0 then s.mailTimeout i.c i.k rd pk
    else s.block i.c i.k (.nget rd mb pk (s.clock + i.core.nbwait))
/-- Cycles that count towards the watchdog (R337). -/
def Job.ran (j : Job) (clock : Nat) : Nat :=
  j.wdCount + match j.wdFrom with
    | some t => clock - t
    | none => 0
/-- The watchdog's limit has passed: it removes the job before any later time-out of it (R337, R376). -/
def Job.expired (j : Job) (clock : Nat) : Bool := decide (j.wdog < j.ran clock)
/-- NGET_TIMEOUT (R261). -/
def ngetTimeout (c : CoreId) (k : Nat) (s : State) : State :=
  match s.core? c with
  | none => s
  | some core =>
    match (core.ctx k).wait with
    | some (.nget rd mb pk t) =>
      let late := ((s.job? core.asid).map fun j => j.expired s.clock).getD false
      if t ≤ s.clock ∧ !core.present.contains mb.toNat ∧ !late then s.mailTimeout c k rd pk else s
    | _ => s
def execNgetTimeout (c : CoreId) (k : Nat) (s : State) : Result := .next (ngetTimeout c k s)

-- hampers (R251, R252), as numbers of 128 bits
def field (h lo w : Nat) : Nat := h / 2 ^ lo % 2 ^ w
def setField (h lo w v : Nat) : Nat := h - field h lo w * 2 ^ lo + v % 2 ^ w * 2 ^ lo
def hmExpected (h : Nat) : Nat := field h 0 32
def hmArrived (h : Nat) : Nat := field h 32 32
def hmPhase (h : Nat) : Bool := h.testBit 64
def hmArmed (h : Nat) : Bool := h.testBit 65
/-- The completion of R252. -/
def hmComplete (h : Nat) : Nat :=
  setField (setField (setField h 32 32 (hmArrived h - hmExpected h)) 64 1 (if hmPhase h then 0 else 1)) 65 1 0
def hmTest (h : Nat) : Nat := if hmArmed h && decide (hmExpected h ≤ hmArrived h) then hmComplete h else h
/-- An arrival of `b` bytes (R252). -/
def hmArrive (h b : Nat) : Nat :=
  hmTest (setField (setField h 32 32 (min (hmArrived h + b) (2 ^ 32 - 1))) 80 16 (field h 80 16 + 1))
/-- Arming with `e` (R252): none traps HAMPER. -/
def hmArm (h e : Nat) : Option Nat :=
  if hmArmed h || e == 0 then none else some (hmTest (setField (setField (setField h 0 32 e) 80 16 0) 65 1 1))
/-- Wakes the contexts that see a hamper at `d` complete (R129). -/
def State.wakeHamper (s : State) (asid : Nat) (d : Dest) : State :=
  match d.space with
  | .qsp => (((s.job? asid).map fun j => j.inQuad (coreQuad d.core)).getD []).foldl (fun s c => s.wake c) s
  | _ => s.wake d.core
/-- A hamper takes a new value in one access; a completion flips its phase and is a wake event. -/
def State.putHamper (s : State) (asid : Nat) (d : Dest) (h h' : Nat) : State :=
  let s := s.wr asid d 16 h'
  if hmPhase h == hmPhase h' then s else s.wakeHamper asid d
/-- An arrival at a hamper (R252). -/
def State.hamperArrive (s : State) (asid : Nat) (d : Dest) (b : Nat) : State :=
  let h := s.rd asid d 16
  s.putHamper asid d h (hmArrive h b)
/-- The checks shared by the hamper, flag and ring instructions (R253, R255, R257), POISON after them (R123); a traced access is a store where the instruction may write (R356). -/
def feed (s : State) (write : Bool) (rs1 : R5) (n : Nat) (f : State → Issuer → Dest → State) : Result :=
  issue s fun i =>
    let a := i.ctx.getX rs1
    match checkAddr i.job i.c i.ctx.level [0, 1] n n false a with
    | .error cause => s.trapI i cause a
    | .ok d =>
      let s := (s.recordMem i.c i.k write a).settleOwn i.c i.k d n
      s.reading i.c i.k i.core.asid d n (f s i d)
/-- HMARM (R253). -/
def execHmarm (rs2 rs1 : R5) (s : State) : Result :=
  feed s true rs1 16 fun s i d =>
    let h := s.rd i.core.asid d 16
    match hmArm h ((i.ctx.getX rs2).toNat % 2 ^ 32) with
    | none => s.trapI i cHAMPER 0
    | some h' => (s.putHamper i.core.asid d h h').finishWith i id
/-- HMADD (R253). -/
def execHmadd (rs2 rs1 : R5) (s : State) : Result :=
  feed s true rs1 16 fun s i d => (s.hamperArrive i.core.asid d ((i.ctx.getX rs2).toNat % 2 ^ 32)).finishWith i id
/-- HMWAIT (R253). -/
def execHmwait (rs2 rs1 : R5) (s : State) : Result :=
  feed s false rs1 16 fun s i d =>
    let h := s.rd i.core.asid d 16
    let want := (i.ctx.getX rs2).getLsbD 0
    if hmPhase h == want then s.finish i i.ctx
    else if !hmArmed h then s.trapI i cHAMPER 0
    else s.block i.c i.k (.hmwait d want)
/-- WAITF (R255). -/
def execWaitf (rs2 rs1 : R5) (s : State) : Result :=
  feed s false rs1 8 fun s i d =>
    let v := i.ctx.getX rs2
    if v.toNat ≤ s.rd i.core.asid d 8 then s.finish i i.ctx else s.block i.c i.k (.waitf d v)

-- rings (R256 to R258), as numbers of 256 bits
def rgBase (b : Nat) : Word := BitVec.ofNat 64 b
def rgSlot (b : Nat) : Nat := field b 64 32
def rgNslot (b : Nat) : Nat := field b 96 16
def rgFree (b : Nat) : Nat := field b 128 32
def rgFilled (b : Nat) : Nat := field b 160 32
def rgPut (b : Nat) : Nat := field b 192 16
def rgGet (b : Nat) : Nat := field b 208 16
/-- The block is valid (R256); a producer holds no slot between its steps. -/
def ringValid (j : Job) (c : CoreId) (level : Level) (b : Nat) : Bool :=
  rgSlot b % 32 == 0 && decide (32 ≤ rgSlot b) && decide (rgSlot b ≤ 0x100000)
    && (match checkAddr j c level [0, 1] 32 ((rgNslot b + 1) * rgSlot b) false (rgBase b) with
      | .ok _ => true
      | .error _ => false)
    && decide (rgGet b ≤ rgNslot b) && decide (rgPut b ≤ rgNslot b) && decide (rgFree b + rgFilled b ≤ rgNslot b + 1)
/-- A filled slot is taken (R257): its address and the new block. -/
def ringTake (b : Nat) : Word × Nat :=
  let b' := setField (setField b 160 32 (rgFilled b - 1)) 208 16 ((rgGet b + 1) % (rgNslot b + 1))
  (rgBase b + BitVec.ofNat 64 (rgGet b * rgSlot b), b')
def State.takeSlot (s : State) (c : CoreId) (k asid : Nat) (rd : R5) (d : Dest) : State :=
  let r := ringTake (s.rd asid d 32)
  (s.wr asid d 32 r.2).modCtx c k fun x => (x.setX rd r.1).advance
/-- RGET (R257). -/
def execRget (rd rs1 : R5) (s : State) : Result :=
  feed s true rs1 32 fun s i d =>
    let b := s.rd i.core.asid d 32
    if !ringValid i.job i.c i.ctx.level b then s.trapI i cRING 0
    else if rgFilled b = 0 then s.block i.c i.k (.rget rd d)
    else s.takeSlot i.c i.k i.core.asid rd d
/-- RPUT (R258): the context's earlier eager writes to any slot perform first. -/
def execRput (rs2 rs1 : R5) (s : State) : Result :=
  feed s true rs1 32 fun s i d =>
    let b := s.rd i.core.asid d 32
    let n := (i.ctx.getX rs2).toNat
    if !ringValid i.job i.c i.ctx.level b || decide (rgNslot b + 1 < rgFree b + rgFilled b + n) then s.trapI i cRING 0
    else
      let s := match locate i.c (rgBase b) with
        | some d0 => s.settleOwn i.c i.k d0 ((rgNslot b + 1) * rgSlot b)
        | none => s
      (s.wr i.core.asid d 32 (setField b 128 32 (rgFree b + n))).finishWith i id

-- the push of a command
/-- What a kind may hold (R222, R263, R265): its queues, the header flags it uses (SKIPZ, TRANSB, ACCUM as `math`), the accumulator fields,
d1, d2, and the bits of d3 that are not reserved. -/
structure KindSpec where
  queues : List Nat
  ganged : Bool
  math : Bool
  accs : Bool
  d1 : Bool
  d2 : Bool
  d3 : Nat
  deriving DecidableEq, Repr
/-- The kinds of R150. -/
def kindSpec (kind : Nat) : Option KindSpec :=
  match kind with
  | 0x01 => some ⟨[0], true, true, true, true, true, 0xFFFFFFFFFFFFFFFF⟩
  | 0x02 => some ⟨[0], true, true, true, true, true, 0xFFFFFFFFFFFFFFFF⟩
  | 0x03 => some ⟨[0], false, false, true, false, true, 0⟩
  | 0x04 => some ⟨[0], false, false, true, false, true, 0x707⟩
  | 0x05 => some ⟨[0], false, false, true, false, false, 7⟩
  | 0x06 => some ⟨[0], true, false, true, false, false, 1⟩
  | 0x07 => some ⟨[0, 1, 2, 3], false, false, false, false, false, 0xF⟩
  | 0x08 => some ⟨[0, 1, 2, 3], false, false, false, false, false, 0xFFFFFFFF⟩
  | 0x20 => some ⟨[1], false, false, false, true, true, 0x3FFFFFFC0FFFF⟩
  | 0x21 => some ⟨[1], false, false, false, true, false, 0⟩
  | 0x22 => some ⟨[1], false, false, false, true, true, 1⟩
  | 0x23 => some ⟨[1], false, false, false, false, false, 0⟩
  | 0x24 => some ⟨[1], false, false, false, false, true, 0xFFFFFFFFFFFF⟩
  | 0x25 => some ⟨[1], false, false, false, true, true, 0⟩
  | 0x30 => some ⟨[2], false, false, false, true, true, 0x8001FFFFFFC0FFFF⟩
  | 0x40 => some ⟨[3], false, false, false, true, true, 0xFFFF⟩
  | 0x41 => some ⟨[3], false, false, false, true, false, 0xFFFF00070FFF⟩
  | _ => none

/-- The template as it stands when it is checked. -/
structure Template where
  d0 : Word
  d1 : Word
  d2 : Word
  d3 : Word
  deriving DecidableEq, Repr

/-- Rows that a matrix command covers (R214, R225, R229). -/
def matrixRows (kind : Nat) (t : Template) : Nat :=
  match kind with
  | 0x01 => tRows t.d1 + 1
  | 0x03 => tRows t.d2 + 1
  | 0x04 => tRows t.d2 + 1
  | _ => 64
/-- Accumulators that a command needs from ACCBASE on (R151, R214, R221, R230). -/
def accCount (kind : Nat) (t : Template) : Nat :=
  max (2 ^ dRing t.d0) (if kind = 0x05 then t.d3.toNat % 8 + 1 else (matrixRows kind t + 63) / 64)

/-- Step 2 of R151 with the additions of R221, R222, R229 to R233 and R265. `pair` is the pair code of an `MXI`. -/
def templateIllegal (core : Core) (q : Nat) (pair : Option Nat) (t : Template) : Bool :=
  let kind := dKind t.d0
  match kindSpec kind with
  | none => true
  | some k =>
    let ring := dRing t.d0 != 0 || dIndex t.d0 != 0
    let product := kind == 0x01 || kind == 0x02
    !k.queues.contains q || (product != pair.isSome) || (pair.isNone && dPair t.d0 != 0) || decide (3 < dRing t.d0)
      || t.d0.toNat / 2 ^ 30 % 4 != 0
      || (!k.ganged && dGanged t.d0) || (!k.math && (dSkipz t.d0 || dTransB t.d0 || dAccum t.d0))
      || (!k.accs && (dAccBase t.d0 != 0 || ring)) || (!k.d1 && t.d1 != 0) || (!k.d2 && t.d2 != 0)
      || (t.d3 &&& ~~~(BitVec.ofNat 64 k.d3)) != 0
      || (!dGanged t.d0 && dGtag t.d0 != 0) || (!dSignal t.d0 && dHamper t.d0 != 0) || (q == 2 && dStatus t.d0)
      || (!product && (tKcnt t.d1 != 0 || tKcnt t.d2 != 0))
      || (dGanged t.d0 && core.gang.map (fun g => g.1) != some (dGtag t.d0))
      || (product && (tKcnt t.d1 != tKcnt t.d2 || tRows t.d2 != 0))
      || (kind == 0x01 && decide (64 ≤ tRows t.d1) && ring)
      || ((kind == 0x03 || kind == 0x04) && decide (64 ≤ tRows t.d2) && ring)
      || (kind == 0x04 && t.d3.toNat / 256 % 8 != 0 && t.d3.toNat / 256 % 8 != 2)
      || (kind == 0x05 && t.d3.toNat % 8 != 0 && ring)
      || (kind == 0x06 && !dGanged t.d0)
      || (kind == 0x07 && !t.d3.getLsbD q)
      || (kind == 0x08 && !dSignal t.d0)
      || ((kind == 0x20 || kind == 0x22 || kind == 0x40) && tRows t.d1 != tRows t.d2)
      || (kind == 0x25 && (tRows t.d2 != 0 || tStride t.d2 != 0))
      || (kind == 0x21 && tStride t.d1 != 0)
      || (kind == 0x30 && tRows t.d2 != 0)
      || (kind == 0x30 && t.d3.getLsbD 63 && (t.d1.toNat % 2 ^ 32 != 0 || t.d2 != 0))
      || (kind == 0x41 && (!([0, 1, 5, 6, 7] : List Nat).contains (t.d3.toNat / 2 ^ 16 % 8)
        || decide (4096 < t.d3.toNat % 2 ^ 12 + t.d3.toNat / 2 ^ 32 % 2 ^ 16 + 1) || tRows t.d1 != 0 || tStride t.d1 != 0))

def tcmEnd : Nat := 0x20000
/-- Step 4 of R151 with R265: the cause and its address. -/
def templateStep4 (t : Template) : Option (Nat × Word) :=
  let kind := dKind t.d0
  let at_ := fun (cause off : Nat) => some (cause, BitVec.ofNat 64 off)
  let bitmap := t.d3.toNat / 2 ^ 32 % 2 ^ 17
  let boxes := (tRows t.d1 + 1 + t.d3.toNat / 2 ^ 22 % 2 ^ 10) / (t.d3.toNat / 2 ^ 22 % 2 ^ 10 + 1)
  if dHamper t.d0 % 16 ≠ 0 then at_ cALIGN (dHamper t.d0)
  else if tcmEnd ≤ dHamper t.d0 then at_ cBOUNDS (dHamper t.d0)
  else if kind = 0x20 ∧ bitmap % 8 ≠ 0 then at_ cALIGN bitmap
  else if kind = 0x20 ∧ t.d3.getLsbD 49 ∧ tcmEnd < bitmap + (boxes + 7) / 8 then at_ cBOUNDS bitmap
  else if kind = 0x30 ∧ bitmap % 4 ≠ 0 then at_ cALIGN bitmap
  else if kind = 0x30 ∧ tcmEnd < bitmap + 4 * (t.d3.toNat / 2 ^ 22 % 2 ^ 10 + 1) then at_ cBOUNDS bitmap
  else none
/-- Step 5 of R151: an indirect descriptor's doubleword. -/
def indirectCause (d : Word) : Option (Nat × Word) :=
  if tSpace d ≠ 3 then none
  else if tOffset d % 8 ≠ 0 then some (cALIGN, BitVec.ofNat 64 (tOffset d))
  else if tcmEnd < tOffset d + 8 then some (cBOUNDS, BitVec.ofNat 64 (tOffset d))
  else none
/-- The full address of a descriptor (R148). -/
def State.resolve (s : State) (asid : Nat) (c : CoreId) (d : Word) : Word :=
  if tSpace d = 3 then BitVec.ofNat 64 (s.rd asid { core := c, space := .tcm, off := tOffset d } 8)
  else BitVec.ofNat 64 (tSpace d * 2 ^ 60 + tOffset d)
/-- The doubleword of an indirect descriptor is read, after the context's earlier eager writes to it (R292, R356). -/
def State.settleIndirect (s : State) (i : Issuer) (d : Word) : State :=
  if tSpace d = 3 then (s.recordMem i.c i.k false (BitVec.ofNat 64 (tOffset d))).settleOwn i.c i.k { core := i.c, space := .tcm, off := tOffset d } 8 else s
/-- The checks of R151 from step 2 on, in their order. -/
def templateCause (core : Core) (q : Nat) (pair : Option Nat) (t : Template) : Option (Nat × Word) :=
  if templateIllegal core q pair t then some (cILLEGAL, 0)
  else if 8 < dAccBase t.d0 + accCount (dKind t.d0) t then some (cGROUP, 0)
  else
    match templateStep4 t, indirectCause t.d1, indirectCause t.d2 with
    | some e, _, _ => some e
    | none, some e, _ => some e
    | none, none, some e => some e
    | none, none, none => none

def queueDepth (q : Nat) : Nat :=
  match q with
  | 0 => 16
  | 1 => 32
  | 2 => 16
  | 3 => 32
  | _ => 8
/-- The command names queue `q` in a mark that is in force (R232). -/
def Cmd.marks (m : Cmd) (q : Nat) : Bool := m.firing.isNone && dKind m.d0 == 0x07 && m.d3.getLsbD q
def Core.commands (k : Core) : List Cmd := k.queue 0 ++ k.queue 1 ++ k.queue 2 ++ k.queue 3
/-- A command enters its queue (R232, R217): it stands behind the `QFENCE`s that mark the queue; a `QFENCE` notes what stands before
its marks; a ganged command takes its number in the open gang. -/
def Core.enterCmd (k : Core) (q uid : Nat) (m : Cmd) : Core :=
  let m := { m with
    uid := uid
    after := ((k.commands.filter fun x => x.marks q).map Cmd.uid)
    before := if m.firing.isNone && dKind m.d0 == 0x07 then
        (([0, 1, 2, 3] : List Nat).filter fun n => m.d3.getLsbD n).flatMap fun n => (k.queue n).map Cmd.uid
      else []
    pair := k.gangPushed }
  let k := if m.firing.isNone && dGanged m.d0 then { k with gangPushed := k.gangPushed + 1 } else k
  k.modQueue q fun l => l ++ [m]
/-- The command enters, or its context waits for queue space (R243). -/
def State.pushCmd (s : State) (c : CoreId) (k q : Nat) (m : Cmd) (lc : Option (Nat × Word)) : State :=
  let depth := ((s.core? c).map fun k => (k.queue q).length).getD 0
  if depth < queueDepth q then
    let (u, s) := s.fresh
    (s.modCore c fun x => x.enterCmd q u m).modCtx c k Ctx.advance
  else s.block c k (.push q m lc)
/-- The command takes its ring entry and sequence number and enters its queue; while the ring entry is held its context waits, and the
command stays as it stood at issue (R151, R330). -/
def State.dispatchCmd (s : State) (c : CoreId) (k q : Nat) (m : Cmd) (lc : Option (Nat × Word)) : State :=
  match s.core? c with
  | none => s
  | some core =>
    if core.ringFree then
      let (seq, core) := core.dispatch k 0
      (s.setCore c core).pushCmd c k q { m with seq := seq } lc
    else s.block c k (.ringPush q m lc)
def Cmd.blank (ctx : Nat) (enabled : BitVec 7) : Cmd :=
  { uid := 0, ctx := ctx, seq := 0, d0 := 0, d1 := 0, d2 := 0, d3 := 0, a1 := 0, a2 := 0, acc := 0, firing := none, patch := 0, pair := 0
    before := [], after := [], stage := .queued, progress := 0, outstanding := 0, cause := 0, tval := 0, flags := 0, enabled := enabled, bytes := 0, gone := false, hit := 0
    list := [], seen := none }

/-- The push of the template at x[rs1] into queue `q` (R151, R176, R220, R246): read, patch, check, take the ring index, stamp, enter. -/
def push (s : State) (q : Nat) (pair : Option Nat) (rs1 : R5) (patch : Ctx → Word) (scales : Ctx → Word) : Result :=
  issue s fun i =>
    let a := i.ctx.getX rs1
    match checkAddr i.job i.c i.ctx.level [0] 32 32 false a with
    | .error cause => s.trapI i cause a
    | .ok d =>
      let s := (s.recordMem i.c i.k false a).settleOwn i.c i.k d 32
      let b := s.rd i.core.asid d 32
      let p := (patch i.ctx).toNat
      let t : Template := { d0 := BitVec.ofNat 64 b, d1 := patchOffset (BitVec.ofNat 64 (b / 2 ^ 64)) (p % 2 ^ 30)
                            d2 := patchOffset (BitVec.ofNat 64 (b / 2 ^ 128)) (p / 2 ^ 32 % 2 ^ 30), d3 := BitVec.ofNat 64 (b / 2 ^ 192) }
      match templateCause i.core q pair t with
      | some (cause, v) => if cause = cILLEGAL ∨ cause = cGROUP then s.trapW i cause else s.trapI i cause v
      | none =>
        let s := (s.settleIndirect i t.d1).settleIndirect i t.d2
        let n := dIndex t.d0 - 1
        let size := 2 ^ dRing t.d0
        let lc := i.ctx.getLc n
        let indexed := dIndex t.d0 ≠ 0
        let m := { Cmd.blank i.k i.ctx.enables with
          d0 := (match pair with | some code => stampPair t.d0 code | none => t.d0)
          d1 := t.d1, d2 := t.d2
          d3 := if pair.isSome then scales i.ctx else t.d3
          a1 := s.resolve i.core.asid i.c t.d1, a2 := s.resolve i.core.asid i.c t.d2
          acc := dAccBase t.d0 + if indexed then lc.toNat % size else 0 }
        (s.modCtx i.c i.k fun x => if indexed then x.setLc n (BitVec.ofNat 64 ((lc.toNat + 1) % size)) else x).dispatchCmd i.c i.k q m
          (if indexed then some (n, lc) else none)
/-- ENQ (R246). -/
def execEnq (q : R3) (rs1 : R5) (s : State) : Result := push s q.toNat none rs1 (fun _ => 0) fun _ => 0
/-- ENQP (R246). -/
def execEnqp (q : R3) (rs1 rs2 : R5) (s : State) : Result := push s q.toNat none rs1 (fun k => k.getX rs2) fun _ => 0
/-- `MXI` with a pair code (R219, R220): rs3 = 31 traps GROUP. -/
def mxi (s : State) (code : Nat) (rs1 rs2 n : R5) : Result :=
  if n = 31 then issue s fun i => s.trapW i cGROUP
  else push s 0 (some code) rs1 (fun k => k.getX rs2) fun k => (k.getF (n + 1)) ++ (k.getF n)
/-- MXI.BF16.BF16 (R219). -/
def execMxiBf16Bf16 (rs1 rs2 n : R5) (s : State) : Result := mxi s 1 rs1 rs2 n
/-- MXI.BF16.QT16 (R219). -/
def execMxiBf16Qt16 (rs1 rs2 n : R5) (s : State) : Result := mxi s 2 rs1 rs2 n
/-- MXI.QT16.QT16 (R219). -/
def execMxiQt16Qt16 (rs1 rs2 n : R5) (s : State) : Result := mxi s 3 rs1 rs2 n
/-- MXI.QT8.QT8 (R219). -/
def execMxiQt8Qt8 (rs1 rs2 n : R5) (s : State) : Result := mxi s 4 rs1 rs2 n
/-- MXI.I8.I8 (R219). -/
def execMxiI8I8 (rs1 rs2 n : R5) (s : State) : Result := mxi s 5 rs1 rs2 n
/-- MXI.I8.TERN (R219). -/
def execMxiI8Tern (rs1 rs2 n : R5) (s : State) : Result := mxi s 6 rs1 rs2 n

/-- The oldest entry of a status queue is taken (R247). -/
def State.takeStatus (s : State) (c : CoreId) (k : Nat) (rd : R5) (q : Nat) : State :=
  let v := ((s.core? c).bind fun x => (dgetD x.status q []).head?).getD 0
  s.modCore c fun x => ({ x with status := dset x.status q ((dgetD x.status q []).drop 1) }).modCtx k fun x => (x.setX rd v).advance
/-- DEQ (R247). -/
def execDeq (rd : R5) (q : R3) (s : State) : Result :=
  issue s fun i =>
    if (dgetD i.core.status q.toNat []).isEmpty then s.block i.c i.k (.deq rd q.toNat) else s.takeStatus i.c i.k rd q.toNat

-- tiles (R308, R309): an entry as a number of 512 bits
def tlSrc (e : Nat) : Word := BitVec.ofNat 64 e
def tlDest (e : Nat) : Word := BitVec.ofNat 64 (e / 2 ^ 64)
def tlFirst (e : Nat) : Nat := field e 128 20
def tlPeers (e : Nat) : Nat := field e 160 20 + 1
def tlRoot (e : Nat) : Nat := field e 192 20
def tlSlot (e : Nat) : Nat := field e 224 12
def tlVals (e : Nat) : Nat := field e 240 12 + 1
def tlIn (e : Nat) : Nat := field e 256 3
def tlOut (e : Nat) : Nat := field e 260 3
def tlOp (e : Nat) : Nat := field e 264 2
def tlRootOnly (e : Nat) : Bool := e.testBit 266
def tlSrcEn (e : Nat) : Bool := e.testBit 267
def tlGateway (e : Nat) : Bool := e.testBit 268
def tlHmEn (e : Nat) : Bool := e.testBit 269
def tlHamper (e : Nat) : Nat := field e 272 32
/-- A reserved field of the entry is nonzero. -/
def tlReserved (e : Nat) : Bool :=
  [(148, 12), (180, 12), (212, 12), (236, 4), (252, 4), (259, 1), (263, 1), (270, 2), (304, 208)].any fun r => field e r.1 r.2 != 0
/-- Width in bytes of a format code (R143). -/
def codeBytes (code : Nat) : Nat :=
  match code with
  | 0 | 2 | 7 => 4
  | 1 | 6 => 2
  | _ => 1
def contributes (e index : Nat) : Bool := decide (tlFirst e ≤ index) && decide (index < tlFirst e + tlPeers e)
/-- The slots of an `NXRED` command (R275). -/
def nxSlots (m : Cmd) : Nat × Nat := (m.d3.toNat % 2 ^ 12, m.d3.toNat / 2 ^ 32 % 2 ^ 16 + 1)
/-- An `NXRED` of the core for slots of the entry is pending: in q3 or executed and not yet joined (R309). -/
def Core.nxredPending (k : Core) (e : Nat) : Bool :=
  let hit := fun (a n : Nat) => decide (a < tlSlot e + tlVals e) && decide (tlSlot e < a + n)
  (k.queue 3).any (fun m => m.firing.isNone && dKind m.d0 == 0x41 && hit (nxSlots m).1 (nxSlots m).2) || k.nxPending.any fun p => hit p.slot 1
/-- The checks of R309 in their order, with the value of `svtval`. -/
def tileCause (i : Issuer) (t patch : Nat) : Except (Nat × Word) Nat :=
  match ((dgetD i.job.tiles (coreDie i.c) [])[t]?) with
  | none => .error (cBOUNDS, 0)
  | some e =>
    let src := tlSrc e
    let dst := tlDest e
    let wi := codeBytes (tlIn e)
    let wo := codeBytes (tlOut e)
    let at_ := BitVec.ofNat 64 (src.toNat - addrOff src + addrOff src + patch)
    let space := fun (a : Word) => match addrForm a with
      | 0 => Space.tcm
      | 1 => .qsp
      | _ => .dss
    if tlReserved e || tlOp e == 3 || !([0, 1, 5, 6, 7] : List Nat).contains (tlIn e) || (tlRootOnly e && !contributes e (tlRoot e))
        || (tlOp e != 0 && i.core.nxredPending e) then .error (cILLEGAL, 0)
    else if !formOk localForms src then .error (cFORM, src)
    else if !formOk localForms dst then .error (cFORM, dst)
    else if (addrOff src + patch) % wi ≠ 0 then .error (cALIGN, at_)
    else if dst.toNat % wo ≠ 0 then .error (cALIGN, dst)
    else if tlHmEn e && tlHamper e % 16 != 0 then .error (cALIGN, BitVec.ofNat 64 (tlHamper e))
    else if !contributes e i.core.index || decide (i.job.window < tlSlot e + tlVals e) then .error (cBOUNDS, 0)
    else if i.job.limitOf (space src) < addrOff src + patch + tlVals e * wi then .error (cBOUNDS, at_)
    else if i.job.limitOf (space dst) < addrOff dst + tlVals e * wo then .error (cBOUNDS, dst)
    else if i.job.guarded (space dst) (addrOff dst) (tlVals e * wo) .job then .error (cBOUNDS, dst)
    else if tlHmEn e && decide (tcmEnd ≤ tlHamper e) then .error (cBOUNDS, BitVec.ofNat 64 (tlHamper e))
    else .ok e
/-- CTREADY (R309). -/
def execCtready (rs1 rs2 : R5) (s : State) : Result :=
  issue s fun i =>
    let t := (i.ctx.getX rs1).toNat
    let patch := (i.ctx.getX rs2).toNat % 2 ^ 30
    match tileCause i t patch with
    | .error (cause, v) => if cause = cILLEGAL then s.trapW i cause else s.trapI i cause v
    | .ok e => s.dispatchCmd i.c i.k 3 { Cmd.blank i.k i.ctx.enables with firing := some (t, e), patch := patch } none

end Sys2Proof.Machine
end

