-- ==== Sys2Proof/Machine/Vector.lean ====
section
/-! DEFINITION. The vector instructions (R185 to R212): registers change at dispatch, flags and late traps come at completion. -/

namespace Sys2Proof.Machine

/-- What a vector instruction leaves: the context, the flags it set, a late BOUNDS address (R324), the page of a late POISON (R353). -/
structure VecOut where
  ctx : Ctx
  flags : Flags
  fault : Option Word
  poison : Option Nat
  deriving DecidableEq, Repr

def VecOut.ok (k : Ctx × Flags) : VecOut := { ctx := k.1, flags := k.2, fault := none, poison := none }

/-- A dispatch to the lanes: it takes a sequence number and goes on with its register results in place (R193, R330). -/
def State.toLanes (s : State) (i : Issuer) (o : VecOut) : State :=
  (s.modCore i.c fun core =>
    let (seq, core) := core.dispatch i.k 0
    { core with lanes := core.lanes ++ [{ seq := seq, ctx := i.k, flags := o.flags, enabled := i.ctx.enables, fault := o.fault, poison := o.poison, release := 0, gone := false }] }).finish i o.ctx

/-- A vector instruction. GROUP without a grant (R191); a full ring entry makes the context not ready (R330). -/
def vecS (s : State) (needG : Bool) (f : Issuer → Except (Nat × Word) (State × VecOut)) : Result :=
  issue s fun i =>
    if needG && i.ctx.grant == 0 then s.trapW i cGROUP
    else
      match f i with
      | .error (cause, tval) =>
        if cause = cGROUP then s.trapW i cGROUP
        else s.trapI i cause tval
      | .ok (s', o) => if i.core.ringFree then s'.toLanes i o else s.block i.c i.k .ring
/-- A vector instruction that touches registers only. -/
def vec (s : State) (f : Ctx → Ctx × Flags) : Result := vecS s true fun i => .ok (s, .ok (f i.ctx))

/-- Element by element below `n`, in ascending order, from sources read before any write (R193). -/
def mapElems (k : Ctx) (act : Nat → Bool) (vd : R5) (f : Nat → Half32 × Flags) : Nat → Ctx × Flags
  | 0 => (k, 0)
  | n + 1 =>
    let r := mapElems k act vd f n
    if act n then (r.1.setV vd n (f n).1, r.2 ||| (f n).2) else r

/-- An element built from its values 0 to `n − 1` of width `w`. -/
def buildElem (w : Nat) (g : Nat → Nat × Flags) : Nat → Half32 × Flags
  | 0 => (0, 0)
  | n + 1 =>
    let r := buildElem w g n
    (putVal r.1 n w (g n).1, r.2 ||| (g n).2)

/-- The element types of funct2 (R195). -/
inductive ElemTy where
  | f32 | bf16 | i32 | i8
  deriving DecidableEq, Repr
def elemTy (ty : BitVec 2) : ElemTy :=
  match ty.toNat with
  | 0 => .f32
  | 1 => .bf16
  | 2 => .i32
  | _ => .i8
def ElemTy.width : ElemTy → Nat
  | .f32 | .i32 => 32
  | .bf16 => 16
  | .i8 => 8
def ElemTy.fmt : ElemTy → Fmt
  | .f32 => .f32
  | .bf16 => .bf16
  | .i32 => .i32
  | .i8 => .i8
def ElemTy.fp : ElemTy → Option FloatFmt
  | .f32 => some fp32
  | .bf16 => some Sys2Proof.Machine.bf16
  | _ => none

/-- The values of an element-wise instruction, under a governing predicate (R192). -/
def elementwise (k : Ctx) (ty : ElemTy) (vd : R5) (pg : R3) (g : Nat → Nat × Flags) : Ctx × Flags :=
  let w := ty.width
  mapElems k (k.active pg) vd (fun e => buildElem w (fun t => g (e * (32 / w) + t)) (32 / w)) k.grant

/-- An integer result saturated to width `w` (R43). -/
def satInt (w : Nat) (v : Int) : Nat × Flags :=
  let (r, sat) := clampInt (-(2 ^ (w - 1) : Nat)) ((2 ^ (w - 1) : Nat) - 1) v
  (intBits w r, flagIf sat flagSAT)

/-- An arithmetic operation on two values: by exact value and one rounding, or by saturation (R197). -/
def arith2 (ty : ElemTy) (fop : Num → Num → Num × Flags) (iop : Int → Int → Int) (a b : Nat) : Nat × Flags :=
  match ty.fp with
  | some f =>
    let (x, fl) := fop (f.decode a) (f.decode b)
    let (p, fl') := roundRne f x
    (p, fl ||| fl')
  | none => satInt ty.width (iop (signedOf ty.width a) (signedOf ty.width b))

/-- The larger or smaller of two values: NaN when either is NaN, +0 above -0 (R197); `none` stands for no value yet (R210). -/
def pickFp (max : Bool) (f : FloatFmt) (a b : Nat) : Nat :=
  match Num.cmp (f.decode a) (f.decode b) with
  | none => f.nanPat
  | some c => let below := c < 0 || (c == 0 && a.testBit (f.width - 1)); if below == max then b else a
def pick (max : Bool) (ty : ElemTy) (a b : Nat) : Nat × Flags :=
  match ty.fp with
  | some f => (pickFp max f a b, 0)
  | none => (if (decide (signedOf ty.width a < signedOf ty.width b)) == max then b else a, 0)

/-- relu of a value: a when a > 0, otherwise +0; NaN is canonical (R197). -/
def reluFp (f : FloatFmt) (a : Nat) : Nat :=
  match f.decode a with
  | .nan | .nar => f.nanPat
  | .inf neg => if neg then 0 else a
  | .fin neg m _ => if neg || m == 0 then 0 else a

def vbin (s : State) (ty : BitVec 2) (vd v1 v2 : R5) (pg : R3) (f : ElemTy → Nat → Nat → Nat × Flags) : Result :=
  vec s fun k => let t := elemTy ty; elementwise k t vd pg fun j => f t (k.val v1 j t.width) (k.val v2 j t.width)
def vun (s : State) (ty : BitVec 2) (vd v1 : R5) (pg : R3) (f : ElemTy → Nat → Nat × Flags) : Result :=
  vec s fun k => let t := elemTy ty; elementwise k t vd pg fun j => f t (k.val v1 j t.width)

/-- VADD (R197). -/
def execVadd (ty : BitVec 2) (vd v1 v2 : R5) (pg : R3) (s : State) : Result :=
  vbin s ty vd v1 v2 pg fun t => arith2 t (Num.add .rne) (· + ·)
/-- VSUB (R197). -/
def execVsub (ty : BitVec 2) (vd v1 v2 : R5) (pg : R3) (s : State) : Result :=
  vbin s ty vd v1 v2 pg fun t => arith2 t (fun a b => Num.add .rne a b.neg) (· - ·)
/-- VMUL (R197). -/
def execVmul (ty : BitVec 2) (vd v1 v2 : R5) (pg : R3) (s : State) : Result :=
  vbin s ty vd v1 v2 pg fun t => arith2 t Num.mul (· * ·)
/-- VMAX (R197). -/
def execVmax (ty : BitVec 2) (vd v1 v2 : R5) (pg : R3) (s : State) : Result := vbin s ty vd v1 v2 pg (pick true)
/-- VMIN (R197). -/
def execVmin (ty : BitVec 2) (vd v1 v2 : R5) (pg : R3) (s : State) : Result := vbin s ty vd v1 v2 pg (pick false)
/-- VABS (R197). -/
def execVabs (ty : BitVec 2) (vd v1 : R5) (pg : R3) (s : State) : Result :=
  vun s ty vd v1 pg fun t a =>
    match t.fp with
    | some f => (if (f.decode a).isNaN then f.nanPat else a % 2 ^ (f.width - 1), 0)
    | none => satInt t.width (signedOf t.width a).natAbs
/-- VNEG (R197). -/
def execVneg (ty : BitVec 2) (vd v1 : R5) (pg : R3) (s : State) : Result :=
  vun s ty vd v1 pg fun t a =>
    match t.fp with
    | some f => (if (f.decode a).isNaN then f.nanPat else (a + 2 ^ (f.width - 1)) % 2 ^ f.width, 0)
    | none => satInt t.width (-(signedOf t.width a))
/-- VRELU (R197). -/
def execVrelu (ty : BitVec 2) (vd v1 : R5) (pg : R3) (s : State) : Result :=
  vun s ty vd v1 pg fun t a =>
    match t.fp with
    | some f => (reluFp f a, 0)
    | none => (if signedOf t.width a < 0 then 0 else a, 0)

/-- VFMA and VFMS: every element below G, product exact, one rounding (R198). -/
def vfused (s : State) (t : ElemTy) (f : FloatFmt) (sub : Bool) (vd v1 v2 v3 : R5) : Result :=
  vec s fun k => elementwise k t vd 0 fun j =>
    let c := f.decode (k.val v3 j t.width)
    let (x, fl) := Num.fma .rne (f.decode (k.val v1 j t.width)) (f.decode (k.val v2 j t.width)) (if sub then c.neg else c)
    let (p, fl') := roundRne f x
    (p, fl ||| fl')
/-- VFMA.F32 (R198). -/
def execVfmaF32 (vd v1 v2 v3 : R5) (s : State) : Result := vfused s .f32 fp32 false vd v1 v2 v3
/-- VFMA.BF16 (R198). -/
def execVfmaBf16 (vd v1 v2 v3 : R5) (s : State) : Result := vfused s .bf16 bf16 false vd v1 v2 v3
/-- VFMS.F32 (R198). -/
def execVfmsF32 (vd v1 v2 v3 : R5) (s : State) : Result := vfused s .f32 fp32 true vd v1 v2 v3
/-- VFMS.BF16 (R198). -/
def execVfmsBf16 (vd v1 v2 v3 : R5) (s : State) : Result := vfused s .bf16 bf16 true vd v1 v2 v3

/-- VSCL: each value times the FP32 value of f[N], rounded once (R199). -/
def vscale (s : State) (t : ElemTy) (f : FloatFmt) (vd v1 fn : R5) : Result :=
  vec s fun k => elementwise k t vd 0 fun j =>
    let (x, fl) := Num.mul (f.decode (k.val v1 j t.width)) (fp32.decode (k.getF fn).toNat)
    let (p, fl') := roundRne f x
    (p, fl ||| fl')
/-- VSCL.F32 (R199). -/
def execVsclF32 (vd v1 fn : R5) (s : State) : Result := vscale s .f32 fp32 vd v1 fn
/-- VSCL.BF16 (R199). -/
def execVsclBf16 (vd v1 fn : R5) (s : State) : Result := vscale s .bf16 bf16 vd v1 fn

/-- Words 0 to 11 of record `i` of the group at register `g` as a 384-bit number (R204). -/
def groupRec (k : Ctx) (g i : Nat) : Nat → Nat
  | 0 => 0
  | w + 1 => groupRec k g i w + (sget k.v (64 * (g + w) + i)).toNat * 2 ^ (32 * w)
def putGroup (k : Ctx) (g i r : Nat) : Nat → Ctx
  | 0 => k
  | w + 1 => { putGroup k g i r w with v := sset (putGroup k g i r w).v (64 * (g + w) + i) (BitVec.ofNat 32 (r / 2 ^ (32 * w))) }
/-- The rounding of BADDRQ: `xsum_round` on v × s, an infinity taking the sign of s times its own (R205). -/
def requant (r : XRec) (sc : Num) : Nat × Flags :=
  match sc with
  | .fin neg m e =>
    if m = 0 then (bf16.nanPat, flagNV)
    else if r.nans || r.nars then (bf16.nanPat, 0)
    else if r.pinf && r.ninf then (bf16.nanPat, flagNV)
    else if r.pinf then roundRne bf16 (.inf neg)
    else if r.ninf then roundRne bf16 (.inf (!neg))
    else if r.headroom then (bf16.nanPat, flagHDR)
    else
      let v := Num.ofScaled r.value (-149) false
      match v with
      | .fin vneg vm ve => if vm = 0 then (0, 0) else roundRne bf16 (.fin (vneg != neg) (vm * m) (ve + e))
      | _ => (bf16.nanPat, 0)
  | _ => (bf16.nanPat, flagNV)
/-- Records 0 to n − 1 in ascending order (R205). -/
def baddLoop (k0 : Ctx) (vd v1 : R5) (g : Nat) (sc : Num) : Nat → Ctx × Flags
  | 0 => (k0, 0)
  | i + 1 =>
    let (k, fl) := baddLoop k0 vd v1 g sc i
    let r := xsumAdd (XRec.ofNat (groupRec k0 g i 12)) (fp32.decode (k0.getV v1 i).toNat)
    let k := putGroup k g i r.toNat 12
    let (p, fl') := requant r sc
    (k.setV vd (i / 2) (putVal (k.getV vd (i / 2)) (i % 2) 16 p), fl ||| fl')
/-- BADDRQ (R204, R205). -/
def execBaddrq (vd v1 v2 fn : R5) (s : State) : Result :=
  vecS s true fun i =>
    let g := v2.toNat
    let inside := fun (r : R5) => decide (g ≤ r.toNat) && decide (r.toNat ≤ g + 11)
    if g % 4 ≠ 0 ∨ g > 20 ∨ inside vd ∨ inside v1 then .error (cGROUP, 0)
    else .ok (s, .ok (baddLoop i.ctx vd v1 g (fp32.decode (i.ctx.getF fn).toNat) i.ctx.grant))

/-- Bitwise operations on whole elements, whatever funct2 (R200). -/
def vbits (s : State) (vd v1 v2 : R5) (pg : R3) (f : Half32 → Half32 → Half32) : Result :=
  vec s fun k => mapElems k (k.active pg) vd (fun e => (f (k.getV v1 e) (k.getV v2 e), 0)) k.grant
/-- VAND (R200). -/
def execVand (_ : BitVec 2) (vd v1 v2 : R5) (pg : R3) (s : State) : Result := vbits s vd v1 v2 pg (· &&& ·)
/-- VOR (R200). -/
def execVor (_ : BitVec 2) (vd v1 v2 : R5) (pg : R3) (s : State) : Result := vbits s vd v1 v2 pg (· ||| ·)
/-- VXOR (R200). -/
def execVxor (_ : BitVec 2) (vd v1 v2 : R5) (pg : R3) (s : State) : Result := vbits s vd v1 v2 pg (· ^^^ ·)
/-- A shift per value by the low log2(w) bits of the amount (R200); a type without shifts traps ILLEGAL (R141). -/
def vshift (s : State) (ty : BitVec 2) (vd v1 v2 : R5) (pg : R3) (f : Nat → Nat → Nat → Nat) : Result :=
  if tyInt ty then vbin s ty vd v1 v2 pg fun t a b => (f t.width a (b % t.width), 0)
  else issue s fun i => s.trapW i cILLEGAL
/-- VSHL (R200). -/
def execVshl (ty : BitVec 2) (vd v1 v2 : R5) (pg : R3) (s : State) : Result :=
  vshift s ty vd v1 v2 pg fun w a n => a * 2 ^ n % 2 ^ w
/-- VSHR (R200). -/
def execVshr (ty : BitVec 2) (vd v1 v2 : R5) (pg : R3) (s : State) : Result :=
  vshift s ty vd v1 v2 pg fun _ a n => a / 2 ^ n
/-- VSRA (R200). -/
def execVsra (ty : BitVec 2) (vd v1 v2 : R5) (pg : R3) (s : State) : Result :=
  vshift s ty vd v1 v2 pg fun w a n => intBits w (signedOf w a / (2 ^ n : Nat))
/-- VRSQ (R197); integer types trap ILLEGAL (R141). -/
def execVrsq (ty : BitVec 2) (vd v1 : R5) (pg : R3) (s : State) : Result :=
  if tyFp ty then
    vun s ty vd v1 pg fun t a =>
      match t.fp with
      | some f =>
        let r := f.decode (reluFp f a)
        let (x, fl) := Num.mul r r
        let (p, fl') := roundRne f x
        (p, fl ||| fl')
      | none => (a, 0)
  else issue s fun i => s.trapW i cILLEGAL
/-- VSEL: whole elements, every one below G (R202). -/
def execVsel (_ : BitVec 2) (vd v1 v2 : R5) (pg : R3) (s : State) : Result :=
  vec s fun k => mapElems k (fun _ => true) vd (fun e => (if (k.getP pg).getLsbD e then k.getV v1 e else k.getV v2 e, 0)) k.grant

/-- A relation between two values (R201). -/
def relHolds (ty : ElemTy) (f : Int → Bool) (a b : Nat) : Bool :=
  match ty.fp with
  | some g => match Num.cmp (g.decode a) (g.decode b) with
    | some c => f c
    | none => false
  | none =>
    let x := signedOf ty.width a
    let y := signedOf ty.width b
    f (if x < y then -1 else if x = y then 0 else 1)
/-- Bits 0 to n − 1 of the predicate a compare writes (R201). -/
def cmpBits (k : Ctx) (ty : ElemTy) (f : Int → Bool) (v1 v2 : R5) (pg : R3) : Nat → Nat
  | 0 => 0
  | i + 1 =>
    let w := ty.width
    let all := (List.range (32 / w)).all fun t => relHolds ty f (k.val v1 (i * (32 / w) + t) w) (k.val v2 (i * (32 / w) + t) w)
    cmpBits k ty f v1 v2 pg i + (if k.active pg i && all then 2 ^ i else 0)
def vcompare (s : State) (ty : BitVec 2) (pd : R3) (v1 v2 : R5) (pg : R3) (f : Int → Bool) : Result :=
  vecS s true fun i =>
    let p := BitVec.ofNat 64 (cmpBits i.ctx (elemTy ty) f v1 v2 pg 64)
    .ok (s.recordPred i.c i.k p, .ok (i.ctx.setP pd p, 0))
/-- VCMP.EQ (R201). -/
def execVcmpEq (ty : BitVec 2) (pd : R3) (v1 v2 : R5) (pg : R3) (s : State) : Result := vcompare s ty pd v1 v2 pg (· == 0)
/-- VCMP.LT (R201). -/
def execVcmpLt (ty : BitVec 2) (pd : R3) (v1 v2 : R5) (pg : R3) (s : State) : Result := vcompare s ty pd v1 v2 pg (· < 0)
/-- VCMP.LE (R201). -/
def execVcmpLe (ty : BitVec 2) (pd : R3) (v1 v2 : R5) (pg : R3) (s : State) : Result := vcompare s ty pd v1 v2 pg (· ≤ 0)

/-- The format codes of R143. -/
def fmtOf (code : Nat) : Fmt :=
  match code with
  | 0 => .f32
  | 1 => .bf16
  | 2 => .i32
  | 3 => .i8
  | 4 => .u8
  | 5 => .qt8
  | 6 => .qt16
  | _ => .qt32
/-- VCVT (R203). -/
def execVcvt (src dst : R3) (vd v1 : R5) (pg : R3) (s : State) : Result :=
  vec s fun k =>
    let fs := fmtOf src.toNat
    let fd := fmtOf dst.toNat
    let wd := fd.width
    let n := k.grant * 32 / max fs.width wd
    mapElems k (k.active pg) vd
      (fun e => if e < n * wd / 32 then buildElem wd (fun t => convert fs fd (k.val v1 (e * (32 / wd) + t) fs.width)) (32 / wd) else (0, 0))
      k.grant

/-- The checks of R206 and R207 for unit-stride and strided accesses: FORM, ALIGN, then BOUNDS over the active elements. Of several faulting elements
`svtval` names the lowest-numbered: R325 says the faulting address only (DESIGN CHOICE, log entry 101). -/
def stridedCause (i : Issuer) (a : Word) (stride : Int) (pg : R3) (store : Bool) : Option (Nat × Word) :=
  let sp := match addrForm a with
    | 0 => Space.tcm
    | 1 => .qsp
    | _ => .dss
  let bad := fun (e : Nat) =>
    let off := (addrOff a : Int) + e * stride
    off < 0 || off + 4 > i.job.limitOf sp || (store && i.job.guarded sp off.toNat 4 i.ctx.level)
  if !formOk localForms a then some (cFORM, a)
  else if a.toNat % 4 ≠ 0 then some (cALIGN, a)
  else if stride % 4 ≠ 0 then some (cALIGN, a + BitVec.ofInt 64 stride)
  else
    match (List.range i.ctx.grant).find? fun e => i.ctx.active pg e && bad e with
    | some e => some (cBOUNDS, a + BitVec.ofInt 64 (e * stride))
    | none => none

/-- The location of element `e` of an access at `a`. -/
def elemDest (i : Issuer) (a : Word) (off : Nat) : Dest :=
  { core := i.c, space := (match addrForm a with | 0 => .tcm | 1 => .qsp | _ => .dss), off := off }
def stridedOff (a : Word) (stride : Int) (e : Nat) : Nat := ((addrOff a : Int) + e * stride).toNat

def recordElems (s : State) (i : Issuer) (act : Nat → Bool) (write : Bool) (addr : Nat → Word) (n : Nat) : State :=
  (List.range n).foldl (fun s e => if act e then s.recordMem i.c i.k write (addr e) else s) s

/-- Earlier eager writes of the context to the elements of an access (R292). -/
def settleElems (s : State) (i : Issuer) (act : Nat → Bool) (a : Word) (off : Nat → Nat) : State :=
  (List.range i.ctx.grant).foldl (fun s e => if act e then s.settleOwn i.c i.k (elemDest i a (off e)) 4 else s) s
/-- Element stores in ascending order, with the class of their target (R208). All element accesses of one vector instruction perform in its own step:
others may observe them in any order by the rule, and the model shows them at once (DESIGN CHOICE, log entry 107). -/
def vstoreAt (s : State) (i : Issuer) (vs : R5) (act : Nat → Bool) (a : Word) (off : Nat → Nat) : State :=
  (List.range i.ctx.grant).foldl (fun s e =>
    if act e then s.storeClass i.c i.k i.core.asid 0 none a (elemDest i a (off e)) 4 (i.ctx.getV vs e).toNat else s) s

/-- The poisoned page in which an element lies (R106, R353). -/
def elemPage (s : State) (i : Issuer) (a : Word) (off : Nat → Nat) (e : Nat) : Option Nat := s.spillPoison i.core.asid (elemDest i a (off e)) 4
/-- Element loads from where `off` says, active elements only (R206, R208). POISON arrives late with the first poisoned page that an active element
lies in; what such an element gets is free (R11, R353; log entry 3). -/
def vloadElems (s : State) (i : Issuer) (vd : R5) (act : Nat → Bool) (a : Word) (off : Nat → Nat) (fault : Option Word) : State × VecOut :=
  let poison := firstSome ((List.range i.ctx.grant).map fun e => if act e then elemPage s i a off e else none)
  let (w, s') := if poison.isNone then (0, s) else s.draw
  let word := fun e => if (elemPage s i a off e).isSome then w / 2 ^ (32 * e) else s.rd i.core.asid (elemDest i a (off e)) 4
  let r := mapElems i.ctx act vd (fun e => (BitVec.ofNat 32 (word e), 0)) i.ctx.grant
  (s', { ctx := r.1, flags := r.2, fault := fault, poison := poison })

def vloadStrided (s : State) (vd rs1 : R5) (stride : Ctx → Int) (pg : R3) : Result :=
  vecS s true fun i =>
    let a := i.ctx.getX rs1
    let st := stride i.ctx
    match stridedCause i a st pg false with
    | some e => .error e
    | none =>
      let s := settleElems s i (i.ctx.active pg) a (stridedOff a st)
      let (s, o) := vloadElems s i vd (i.ctx.active pg) a (stridedOff a st) none
      .ok (recordElems s i (i.ctx.active pg) false (fun e => a + BitVec.ofInt 64 (e * st)) i.ctx.grant, o)
def vstoreStrided (s : State) (vs rs1 : R5) (stride : Ctx → Int) (pg : R3) : Result :=
  vecS s true fun i =>
    let a := i.ctx.getX rs1
    let st := stride i.ctx
    match stridedCause i a st pg true with
    | some e => .error e
    | none =>
      .ok (vstoreAt (recordElems s i (i.ctx.active pg) true (fun e => a + BitVec.ofInt 64 (e * st)) i.ctx.grant) i vs (i.ctx.active pg) a
        (stridedOff a st), .ok (i.ctx, 0))
/-- VLD (R206, R207). -/
def execVld (vd rs1 : R5) (pg : R3) (s : State) : Result := vloadStrided s vd rs1 (fun _ => 4) pg
/-- VST (R206, R207). -/
def execVst (vs rs1 : R5) (pg : R3) (s : State) : Result := vstoreStrided s vs rs1 (fun _ => 4) pg
/-- VLDS (R206, R207). -/
def execVlds (vd rs1 rs2 : R5) (pg : R3) (s : State) : Result := vloadStrided s vd rs1 (fun k => (k.getX rs2).toInt) pg
/-- VSTS (R206, R207). -/
def execVsts (vs rs1 rs2 : R5) (pg : R3) (s : State) : Result := vstoreStrided s vs rs1 (fun k => (k.getX rs2).toInt) pg

/-- The offset of element `e` of an indexed access, and whether it lies in quad scratchpad (R206, R207). -/
def indexedOff (i : Issuer) (a : Word) (v2 : R5) (e : Nat) : Nat := addrOff a + 4 * (i.ctx.getV v2 e).toNat
def indexedOk (i : Issuer) (a : Word) (v2 : R5) (e : Nat) : Bool := indexedOff i a v2 e + 4 ≤ i.job.limitOf .qsp
/-- The late BOUNDS of an indexed access: the address of its lowest-numbered faulting active element (R324, R325). -/
def indexedFault (i : Issuer) (a : Word) (v2 : R5) (pg : R3) : Option Word :=
  ((List.range i.ctx.grant).find? fun e => i.ctx.active pg e && !indexedOk i a v2 e).map fun e =>
    a + BitVec.ofNat 64 (4 * (i.ctx.getV v2 e).toNat)
def indexedCause (a : Word) : Option (Nat × Word) :=
  if !formOk [1] a then some (cFORM, a) else if a.toNat % 4 ≠ 0 then some (cALIGN, a) else none
/-- VLDX (R206, R207, R324). -/
def execVldx (vd rs1 v2 : R5) (pg : R3) (s : State) : Result :=
  vecS s true fun i =>
    let a := i.ctx.getX rs1
    match indexedCause a with
    | some e => .error e
    | none =>
      let act := fun e => i.ctx.active pg e && indexedOk i a v2 e
      let s := settleElems s i act a (indexedOff i a v2)
      let (s, o) := vloadElems s i vd act a (indexedOff i a v2) (indexedFault i a v2 pg)
      .ok (recordElems s i act false (fun e => a + BitVec.ofNat 64 (4 * (i.ctx.getV v2 e).toNat)) i.ctx.grant, o)
/-- VSTX (R206, R207, R324). -/
def execVstx (vs rs1 v2 : R5) (pg : R3) (s : State) : Result :=
  vecS s true fun i =>
    let a := i.ctx.getX rs1
    match indexedCause a with
    | some e => .error e
    | none =>
      let act := fun e => i.ctx.active pg e && indexedOk i a v2 e
      let s' := recordElems s i act true (fun e => a + BitVec.ofNat 64 (4 * (i.ctx.getV v2 e).toNat)) i.ctx.grant
      .ok (vstoreAt s' i vs act a (indexedOff i a v2), { ctx := i.ctx, flags := 0, fault := indexedFault i a v2 pg, poison := none })

/-- VPLD: eight bytes into a predicate; no grant needed. What poisoned bytes put there is free (R209, R353; log entry 3). -/
def execVpld (pd : R3) (rs1 : R5) (s : State) : Result :=
  vecS s false fun i =>
    let a := i.ctx.getX rs1
    match checkAddr i.job i.c i.ctx.level localForms 8 8 false a with
    | .error cause => .error (cause, a)
    | .ok d =>
      let s := s.settleOwn i.c i.k d 8
      let s' := s.recordMem i.c i.k false a
      let poison := s.spillPoison i.core.asid d 8
      let (n, s') := if poison.isNone then (s.rd i.core.asid d 8, s') else s'.draw
      let v := BitVec.ofNat 64 n
      .ok (s'.recordPred i.c i.k v, { ctx := i.ctx.setP pd v, flags := 0, fault := none, poison := poison })
/-- VPST: all 64 bits of a predicate (R209). -/
def execVpst (ps : R3) (rs1 : R5) (s : State) : Result :=
  vecS s false fun i =>
    let a := i.ctx.getX rs1
    match checkAddr i.job i.c i.ctx.level localForms 8 8 true a with
    | .error cause => .error (cause, a)
    | .ok d => .ok ((s.recordMem i.c i.k true a).storeClass i.c i.k i.core.asid 0 none a d 8 (i.ctx.getP ps).toNat, .ok (i.ctx, 0))

/-- The active values of a register, in order (R210). -/
def activeVals (k : Ctx) (ty : ElemTy) (v1 : R5) (pg : R3) : List Nat :=
  ((List.range k.grant).filter (k.active pg)).flatMap fun e =>
    (List.range (32 / ty.width)).map fun t => k.val v1 (e * (32 / ty.width) + t) ty.width
/-- The result goes to element 0 and zero to the others, whatever the predicate (R210). -/
def reduceTo (k : Ctx) (vd : R5) (r : Half32 × Flags) : Ctx × Flags :=
  let z := mapElems k (fun _ => true) vd (fun e => (if e = 0 then r.1 else 0, 0)) k.grant
  (z.1, r.2)
/-- VRED.SUM: one record, or the exact integer sum, rounded or saturated once (R66, R210). -/
def execVredSum (ty : BitVec 2) (vd v1 : R5) (pg : R3) (s : State) : Result :=
  vec s fun k =>
    let t := elemTy ty
    let vs := activeVals k t v1 pg
    match t.fp with
    | some f =>
      let (p, fl) := xsumRound (vs.foldl (fun r v => xsumAdd r (f.decode v)) XRec.empty) t.fmt
      reduceTo k vd (BitVec.ofNat 32 p, fl)
    | none =>
      let (p, fl) := satInt 32 (vs.foldl (fun a v => a + signedOf t.width v) 0)
      reduceTo k vd (BitVec.ofNat 32 p, fl)
/-- VRED.MAX and VRED.MIN (R210). -/
def vredPick (s : State) (max : Bool) (ty : BitVec 2) (vd v1 : R5) (pg : R3) : Result :=
  vec s fun k =>
    let t := elemTy ty
    let vs := activeVals k t v1 pg
    match t.fp with
    | some f =>
      let none_ := f.signed max f.infPat
      reduceTo k vd (BitVec.ofNat 32 (vs.foldl (fun a v => pickFp max f a v) none_), 0)
    | none =>
      let w := t.width
      let none_ : Int := if max then -(2 ^ (w - 1) : Nat) else (2 ^ (w - 1) : Nat) - 1
      let r := vs.foldl (fun a v => let x := signedOf w v; if (decide (a < x)) == max then x else a) none_
      reduceTo k vd (BitVec.ofInt 32 r, 0)
/-- VRED.MAX (R210). -/
def execVredMax (ty : BitVec 2) (vd v1 : R5) (pg : R3) (s : State) : Result := vredPick s true ty vd v1 pg
/-- VRED.MIN (R210). -/
def execVredMin (ty : BitVec 2) (vd v1 : R5) (pg : R3) (s : State) : Result := vredPick s false ty vd v1 pg
/-- VBCAST (R211). -/
def execVbcast (vd rs1 : R5) (pg : R3) (s : State) : Result :=
  vec s fun k => mapElems k (k.active pg) vd (fun _ => (low32 (k.getX rs1), 0)) k.grant
/-- VMVX (R212). -/
def execVmvx (rd v1 rs2 : R5) (s : State) : Result :=
  vecS s true fun i =>
    let k := (i.ctx.getX rs2).toNat
    if k ≥ i.ctx.grant then .error (cBOUNDS, 0) else .ok (s, .ok (i.ctx.setX rd (sextW (i.ctx.getV v1 k)), 0))

/-- Lanes of a quad that no grant holds: those of its cores' contexts, of helpers whose lanes have not returned, of its spare-position core
in a role (R185, R190). -/
def State.freeLanes (s : State) (q : QuadId) : Nat :=
  64 - (s.quad q).spare.foldl (fun n e => n + e.2) 0 - (s.cores.filter fun e => coreQuad e.1 = q).foldl (fun n e =>
    n + e.2.ctxs.foldl (fun n x => n + x.2.grant) 0 + e.2.lanes.foldl (fun n l => n + l.release) 0) 0
/-- The place of a claim among those of its cycle: by slot, a spare-position core last, then by context (R188). -/
def Claim.key (x : Claim) : Nat := x.entered * 128 + (if x.spare then 4 else coreSlot x.core) * 16 + x.ctx
/-- A claim enters the quad's order (R188). -/
def Quad.enter (q : Quad) (x : Claim) : Quad := { q with claims := insertBy Claim.key x q.claims }
/-- A grant of exactly `n` lanes: every element of every v register is zero (R187). -/
def Ctx.take (k : Ctx) (rd : R5) (n : Nat) : Ctx := { k with grant := n, v := [] }.setX rd (BitVec.ofNat 64 n)
/-- VCLAIM (R187, R188). -/
def execVclaim (rd rs1 : R5) (s : State) : Result :=
  issue s fun i =>
    let n := (i.ctx.getX rs1).toNat
    if n ≠ 0 ∧ (n > 64 ∨ n % 4 ≠ 0) then s.trapW i cGROUP
    else if n = 0 then s.setRd i rd (BitVec.ofNat 64 i.ctx.grant)
    else if i.ctx.grant ≠ 0 then
      if n = i.ctx.grant then s.setRd i rd (BitVec.ofNat 64 n) else s.trapW i cGROUP
    else
      let q := coreQuad i.c
      if (s.quad q).claims.isEmpty && decide (n ≤ s.freeLanes q) && decide ((s.quad q).headFrom ≤ s.clock) then
        (s.modQuad q fun d => { d with headFrom := s.clock + 1 }).finish i (i.ctx.take rd n)
      else
        (s.modQuad q fun d => d.enter { core := i.c, ctx := i.k, n := n, ticket := s.tickets, entered := s.clock, spare := false }).block i.c i.k (.vclaim rd n)
/-- A vector instruction of the live context `n` is in the lanes. -/
def Core.inLanes (k : Core) (n : Nat) : Bool := k.lanes.any fun l => l.ctx == n && !l.gone
/-- VYIELD (R189): at once when no vector instruction of the context is outstanding. Without a grant no element can be read, and the
next grant or boundary clears what the registers last held (R33, R187, R385). -/
def execVyield (s : State) : Result :=
  issue s fun i =>
    if i.core.inLanes i.k then s.block i.c i.k .vyield
    else s.finish i { i.ctx with grant := 0 }
/-- VCLAIM_GRANT: the claim at the head of a quad's order takes its lanes when they are free; the next becomes the head in the
cycle after (R188). -/
def vclaimGrant (q : QuadId) (s : State) : State :=
  match (s.quad q).claims with
  | [] => s
  | cl :: rest =>
    if cl.n ≤ s.freeLanes q ∧ (s.quad q).headFrom ≤ s.clock then
      let s := s.modQuad q fun d => { d with claims := rest, headFrom := s.clock + 1 }
      if cl.spare then s.modQuad q fun d => { d with spare := dset d.spare cl.ctx cl.n }
      else s.modCtx cl.core cl.ctx fun x =>
        match x.wait with
        | some (.vclaim rd _) => (x.take rd cl.n).advance
        | _ => x
    else s
def execVclaimGrant (q : QuadId) (s : State) : Result := .next (vclaimGrant q s)

/-- VECTOR_COMPLETION: the instruction with sequence number `seq` completes; its flags go to its issuer, a late BOUNDS, POISON or
NUMERIC is raised, and an idle helper's lanes return with its last instruction (R11, R56, R190, R193, R194, R353). -/
def vectorCompletion (c : CoreId) (seq : Nat) (s : State) : State :=
  match s.core? c with
  | none => s
  | some core =>
    match core.lanes.find? fun l => l.seq = seq with
    | none => s
    | some l =>
      let traps := (match l.fault with
        | some a => [{ cause := cBOUNDS, seq := seq, tval := a, ctx := l.ctx, orphan := l.gone : LateTrap }]
        | none => [])
        ++ (if l.poison.isSome then [{ cause := cPOISON, seq := seq, tval := 0, ctx := l.ctx, orphan := l.gone : LateTrap }] else [])
        ++ (numericOf l.flags l.enabled seq l.ctx l.gone).toList
      let s := match l.poison with
        | some pa => s.metPoison c pa
        | none => s
      let s := s.modCore c fun k => (({ k with lanes := k.lanes.filter fun x => x.seq ≠ seq }).ringOwe seq traps.length).ringDone seq
      let s := s.addFlags c l.ctx l.gone l.flags
      traps.foldl (fun s t => s.raiseLate c core.asid t) s
def execVectorCompletion (c : CoreId) (seq : Nat) (s : State) : Result := .next (vectorCompletion c seq s)

end Sys2Proof.Machine
end

