-- ==== Sys2Proof/Machine/Matrix.lean ====
section
/-! DEFINITION. The matrix commands (R213 to R237) and what every engine command shares: when it starts, `QFENCE` and `SIGNAL` (R232,
R233), completion and status entries (R234, R244, R398). A command's row of the table acts on the command at the head of its queue. -/

namespace Sys2Proof.Machine

/-- The engines of the core carry on: until the rollback they finish what they do (R283, R287). -/
def Core.engines (k : Core) : Bool := !k.dead && (k.phase == .run || k.phase == .closing || k.phase == .voted)
/-- No `QFENCE` that marked the command's queue before it still stands (R232). -/
def Core.unfenced (k : Core) (m : Cmd) : Bool := m.after.all fun u => !(k.commands.any fun x => x.uid == u)
/-- The command at the head of queue `q`, not performed, free to start. -/
def Core.headOf (k : Core) (q : Nat) : Option Cmd :=
  match k.queue q with
  | m :: _ => if k.engines && k.unfenced m && (m.stage == .queued || m.stage == .running) then some m else none
  | [] => none
def Core.headKind (k : Core) (q kind : Nat) : Option Cmd := (k.headOf q).bind fun m => if m.firing.isNone && dKind m.d0 == kind then some m else none
/-- The head of a queue replaced. -/
def Core.putHead (k : Core) (q : Nat) (m : Cmd) : Core := k.modQueue q fun l => m :: l.drop 1
/-- Step 1 of R234 is done: the cause (0 for none), `svtval`, the flags and the bytes of its arrival. A command that met no fault of its
own reports the hardware fault that struck it (R237, R276). -/
def Cmd.perform (m : Cmd) (cause : Nat) (tval : Word) (flags : Flags) (bytes : Nat) : Cmd :=
  let cause := if cause = 0 then m.hit else cause
  { m with stage := .performed, cause := cause, tval := tval, flags := if cause = 0 then flags else 0, bytes := bytes, list := [], seen := none }
/-- A hardware fault strikes the command: of two, the first in the order of R276 stays. -/
def Cmd.strike (m : Cmd) (cause : Nat) : Cmd := { m with hit := if m.hit = 0 ∨ causeRank cause < causeRank m.hit then cause else m.hit }
/-- The command at the head of a queue, its stage, and whether it has started. -/
def State.headStage (s : State) (c : CoreId) (q : Nat) : Option (Nat × CmdStage × Bool) :=
  (s.core? c).bind fun k => ((k.queue q).head?).map fun m => (m.uid, m.stage, m.seen.isSome)
/-- A command that reads operands starts: a store that performs at a home from now on races its reads (R235, R264). -/
def State.beginCmd (s : State) (c : CoreId) (q asid : Nat) (m : Cmd) : State :=
  s.modCore c fun k => k.putHead q { m with seen := some (s.homesOf asid c) }
/-- A command of kind `kind` at the head of `q` does its work; one that waits changes nothing. Its start and its end are progress (R338). -/
def State.onHead (s : State) (c : CoreId) (q kind : Nat) (f : State → Core → Cmd → State) : State :=
  match s.core? c with
  | none => s
  | some k =>
    match k.headKind q kind with
    | some m => let s' := f s k m; if s'.headStage c q = s.headStage c q then s' else s'.progress c
    | none => s
/-- A command that reads operands starts in a step of its own, and does its work in a later one (R235, R264). -/
def State.onStarted (s : State) (c : CoreId) (q kind : Nat) (f : State → Core → Cmd → State) : State :=
  s.onHead c q kind fun s k m => if m.seen.isNone then s.beginCmd c q k.asid m else f s k m
def State.performHead (s : State) (c : CoreId) (q : Nat) (m : Cmd) (cause : Nat) (tval : Word) (flags : Flags) (bytes : Nat) : State :=
  s.modCore c fun k => k.putHead q (m.perform cause tval flags bytes)

-- operands (R147, R148, R219, R223)
/-- An operand element format: a format of R41 or TERN2. -/
inductive OpFmt where
  | num (f : Fmt)
  | tern
  deriving DecidableEq, Repr
/-- The element formats of a pair code (R219). -/
def pairFmts (code : Nat) : OpFmt × OpFmt :=
  match code with
  | 1 => (.num .bf16, .num .bf16)
  | 2 => (.num .bf16, .num .qt16)
  | 3 => (.num .qt16, .num .qt16)
  | 4 => (.num .qt8, .num .qt8)
  | 5 => (.num .i8, .num .i8)
  | _ => (.num .i8, .tern)
/-- Bytes of `n` elements. -/
def OpFmt.bytes (f : OpFmt) (n : Nat) : Nat :=
  match f with
  | .num g => n * (g.width / 8)
  | .tern => (n + 3) / 4
/-- Element `x` of a row whose bytes are the number `row` (R223). -/
def OpFmt.elem (f : OpFmt) (row x : Nat) : Nat :=
  match f with
  | .num g => row / 2 ^ (x * g.width) % 2 ^ g.width
  | .tern => row / 2 ^ (2 * x) % 4
def spaceOfForm (a : Word) : Space :=
  match addrForm a with
  | 0 => .tcm
  | 1 => .qsp
  | _ => .dss
/-- The location at a byte offset from a local base address. -/
def localAt (c : CoreId) (a : Word) (off : Nat) : Dest := { core := c, space := spaceOfForm a, off := addrOff a + off }
/-- Rows of `n` bytes of a matrix operand, as a command that started with `seen` reads them (R235). -/
def State.rowsAt (s : State) (seen : Option Homes) (asid : Nat) (c : CoreId) (a : Word) (n : Nat) (offs : List Nat) : List Nat × State :=
  s.each (fun s o => s.rdEngine seen asid (localAt c a o) n) offs
/-- The page of the first row that lies in a spilled page that is poisoned (R20, R123, R353). -/
def State.rowsPoison (s : State) (asid : Nat) (c : CoreId) (a : Word) (n : Nat) (offs : List Nat) : Option Nat :=
  firstSome (offs.map fun o => s.spillPoison asid (localAt c a o) n)
/-- FORM, ALIGN and BOUNDS of rows at `offs` of `n` bytes each from a base (R237): the cause and the address. -/
def operandCause (j : Job) (a : Word) (offs : List Nat) (n : Nat) : Nat → Option Word
  | 0x03 => if !formOk localForms a then some a else none
  | 0x02 => if a.toNat % 32 ≠ 0 then some a else none
  | _ => (offs.find? fun o => j.limitOf (spaceOfForm a) < addrOff a + o + n).map fun o => a + BitVec.ofNat 64 o
/-- The first cause in the order of R237 over several operands. -/
def firstCause (ops : List (Nat → Option Word)) : Option (Nat × Word) :=
  firstSome ([cFORM, cALIGN, cBOUNDS].flatMap fun cause => ops.map fun f => (f cause).map fun v => (cause, v))

/-- A command's rows and columns as it reads them: row offsets of A, of B, and the sizes. -/
structure Product where
  code : Nat
  rows : Nat
  depth : Nat
  aOffs : List Nat
  bOffs : List Nat
  trans : Bool
  deriving DecidableEq, Repr
/-- The offsets of A's rows (R223), or by the gather latch for `MMAG` (R225). -/
def aOffsets (k : Core) (m : Cmd) : List Nat :=
  if dKind m.d0 = 0x02 then (List.range 64).map fun i => (sget k.latch ((tRows m.d1 + i) % 1024)).toNat * 32 * tStride m.d1
  else (List.range (tRows m.d1 + 1)).map fun i => i * 32 * tStride m.d1
/-- The product that member's command `m` computes with operand A of member 0 (R215, R223). -/
def productOf (k0 : Core) (m0 m : Cmd) : Product :=
  let kk := 64 * (tKcnt m0.d1 + 1)
  { code := dPair m.d0, rows := (aOffsets k0 m0).length, depth := kk, aOffs := aOffsets k0 m0
    bOffs := (List.range (if dTransB m.d0 then 64 else kk)).map fun i => i * 32 * tStride m.d2, trans := dTransB m.d0 }
def Product.aBytes (p : Product) : Nat := (pairFmts p.code).1.bytes p.depth
def Product.bBytes (p : Product) : Nat := (pairFmts p.code).2.bytes (if p.trans then p.depth else 64)

-- arithmetic (R61, R63)
/-- An exact chunk sum over pairs of operand values; infinite products of both signs set NV, beside a NaN product too (R61). -/
def chunkSum (ps : List (Num × Num)) : Num × Flags :=
  let products := ps.map fun p => Num.mul p.1 p.2
  let fl := products.foldl (fun f p => f ||| p.2) (0 : Flags)
  let vals := products.map Prod.fst
  let pinf := vals.any (· == .inf false)
  let ninf := vals.any (· == .inf true)
  if pinf && ninf then (.nan, fl ||| flagNV)
  else if vals.any Num.isNaN then (.nan, fl)
  else if pinf then (.inf false, fl)
  else if ninf then (.inf true, fl)
  else
      let sum := vals.foldl (fun (a : Int) v => match v with
        | .fin neg m e => a + scaledInt neg m e (-400)
        | _ => a) 0
      (Num.ofScaled sum (-400) false, fl)
/-- One chunk of R61: scaled, added to the accumulator and rounded once. -/
def fpChunk (sa sb : Num) (acc : Nat × Flags) (ps : List (Num × Num)) : Nat × Flags :=
  let (c, f1) := chunkSum ps
  let (c, f2) := Num.mul c sa
  let (c, f3) := Num.mul c sb
  let (x, f4) := Num.add .rne (fp32.decode acc.1) c
  let (p, f5) := roundRne fp32 x
  (p, acc.2 ||| f1 ||| f2 ||| f3 ||| f4 ||| f5)
/-- An element's list cut into chunks of 64. -/
def chunks {α : Type} : Nat → List α → List (List α)
  | 0, _ => []
  | n + 1, l => l.take 64 :: chunks n (l.drop 64)
/-- The integer of an operand element and its flag (R42, R226). -/
def OpFmt.int (f : OpFmt) (p : Nat) : Int × Flags :=
  match f with
  | .num _ => (signedOf 8 p, 0)
  | .tern => ternDecode p
/-- One chunk of R63: the exact sum added and saturated. -/
def intChunk (acc : Nat × Flags) (ps : List ((Int × Flags) × (Int × Flags))) : Nat × Flags :=
  let sum := ps.foldl (fun (a : Int) p => a + p.1.1 * p.2.1) 0
  let fl := ps.foldl (fun (f : Flags) p => f ||| p.1.2 ||| p.2.2) 0
  let (v, sat) := clampInt (-2147483648) 2147483647 (signedOf 32 acc.1 + sum)
  (intBits 32 v, acc.2 ||| fl ||| flagIf sat flagSAT)
/-- An element of the result (R224): from the operand patterns of its row and column, the starting pattern and the scales. -/
def elementOf (code : Nat) (as bs : List Nat) (start : Nat) (d3 : Word) (d3a : Word) : Nat × Flags :=
  let (fa, fb) := pairFmts code
  let n := as.length / 64
  match fa, fb with
  | .num ga, .num gb =>
    if code = 5 then (chunks n ((as.map fa.int).zip (bs.map fb.int))).foldl intChunk (start, 0)
    else
      let sa := fp32.decode (d3a.toNat % 2 ^ 32)
      let sb := fp32.decode (d3.toNat / 2 ^ 32)
      (chunks n ((as.map ga.decode).zip (bs.map gb.decode))).foldl (fpChunk sa sb) (start, 0)
  | _, _ => (chunks n ((as.map fa.int).zip (bs.map fb.int))).foldl intChunk (start, 0)

-- accumulators (R214)
def acIndex (acc row col : Nat) : Nat := 4096 * (acc + row / 64) + 64 * (row % 64) + col
def Core.getAc (k : Core) (acc row col : Nat) : Nat := (sget k.ac (acIndex acc row col)).toNat
def Core.setAc (k : Core) (acc row col v : Nat) : Core := { k with ac := sset k.ac (acIndex acc row col) (BitVec.ofNat 32 v) }
/-- Rows 0 to n − 1 of 64 columns written with flags gathered. -/
def Core.fillRows (k : Core) (acc : Nat) (f : Nat → Nat → Nat × Flags) (n : Nat) : Core × Flags :=
  (List.range n).foldl (fun r i => (List.range 64).foldl (fun r j => (r.1.setAc acc i j (f i j).1, r.2 ||| (f i j).2)) r) (k, 0)
/-- A faulted command writes zero into every row it would have written (R237). -/
def Core.zeroRows (k : Core) (acc n : Nat) : Core := (k.fillRows acc (fun _ _ => (0, 0)) n).1
/-- The product of one member into its accumulators, from the rows of A and of B (R224). -/
def Core.multiply (k : Core) (m0 m : Cmd) (p : Product) (arows brows : List Nat) : Core × Flags :=
  let (fa, fb) := pairFmts p.code
  let column := fun (j : Nat) =>
    if p.trans then let row := (brows[j]?).getD 0; (List.range p.depth).map fun x => fb.elem row x
    else brows.map fun row => fb.elem row j
  k.fillRows m.acc (fun i j =>
    let row := (arows[i]?).getD 0
    elementOf p.code ((List.range p.depth).map fun x => fa.elem row x) (column j) (if dAccum m.d0 then k.getAc m.acc i j else 0) m.d3 m0.d3) p.rows

-- joint operations (R217)
/-- The members of the core's open gang, member 0 first. -/
def Core.members (k : Core) (c : CoreId) : List CoreId :=
  match k.gang with
  | some (_, w, f) => (List.range w).map fun i => c - coreCol c + f + i
  | none => [c]
/-- The members with their cores and head commands, once every one's command of the joint operation heads its q0; a command that is not
ganged has one member. So has, by the model's choice, a ganged one that finds no gang open (log entry 77). -/
def State.jointOf (s : State) (c : CoreId) (k : Core) (m : Cmd) : Option (List (CoreId × Core × Cmd)) :=
  if dGanged m.d0 then
    (k.members c).mapM fun d => (s.core? d).bind fun x =>
      (x.headOf 0).bind fun y => if x.asid == k.asid && x.gang == k.gang && y.firing.isNone && dGanged y.d0 && y.pair == m.pair then some (d, x, y) else none
  else some [(c, k, m)]
/-- The members agree in the fields of R217. -/
def jointAgrees (l : List (CoreId × Core × Cmd)) : Bool :=
  match l with
  | [] => true
  | (_, _, m) :: _ => l.all fun x =>
    let y := x.2.2
    dKind y.d0 == dKind m.d0 && dPair y.d0 == dPair m.d0
      && (dKind m.d0 != 0x01 || (tRows y.d1 == tRows m.d1 && tKcnt y.d1 == tKcnt m.d1))
      && (dKind m.d0 != 0x02 || tKcnt y.d1 == tKcnt m.d1)
      && (dKind m.d0 != 0x06 || y.d3.getLsbD 0 == m.d3.getLsbD 0)
/-- Rows of accumulators that a command writes. -/
def writtenRows (m : Cmd) : Nat :=
  match dKind m.d0 with
  | 0x01 => tRows m.d1 + 1
  | 0x03 => tRows m.d2 + 1
  | 0x05 => 64 * (m.d3.toNat % 8 + 1)
  | 0x02 | 0x06 => 64
  | _ => 0
/-- The command at the head of q0 is done with every row of it zero, as a fault leaves them (R237). -/
def State.faultHead (s : State) (c : CoreId) (m : Cmd) (cause : Nat) (tval : Word) (bytes : Nat) : State :=
  (s.modCore c fun k => (k.zeroRows m.acc (writtenRows m)).putHead 0 (m.perform cause tval 0 bytes)).progress c
/-- Every member's command faults with ILLEGAL, carrying its KIND (R217, R325). -/
def State.jointIllegal (s : State) (l : List (CoreId × Core × Cmd)) : State :=
  l.foldl (fun s x => s.faultHead x.1 x.2.2 cILLEGAL (BitVec.ofNat 64 (dKind x.2.2.d0)) 0) s
/-- The exact integer of an operand pattern at a scale of 2^-200, with 0b10 of TERN2 as 0; none for NaN, NaR and the infinities, which are
not checked (R228). -/
def OpFmt.exact (f : OpFmt) (p : Nat) : Option Int :=
  match f with
  | .num g =>
    if g = .i8 then some (signedOf 8 p)
    else
      match g.decode p with
      | .fin neg m e => some (scaledInt neg m e (-200))
      | _ => none
  | .tern => some (ternDecode p).1
/-- `left` and `right` of R228 for a row `a` of A and the rows `b` of B of one chunk, `b[k][j]`; none when they are not checked. -/
def checkSums (a : List (Option Int)) (b : List (List (Option Int))) : Option (Int × Int) :=
  if a.any Option.isNone || b.any (fun r => r.any Option.isNone) then none
  else
    let a := a.map fun x => x.getD 0
    let b := b.map fun r => r.map fun x => x.getD 0
    let beta := b.map fun r => r.foldl (· + ·) 0
    some (((a.zip beta).map fun x => x.1 * x.2).foldl (· + ·) 0,
      ((List.range 64).map fun j => ((a.zip b).map fun x => x.1 * (x.2[j]?).getD 0).foldl (· + ·) 0).foldl (· + ·) 0)
/-- A hardware fault in the sum `left` of one row and chunk of a product shows as CHECKSUM, if that row and chunk are checked (R228).
Without one the two sums are the same exact number. -/
def Product.checksumFault (p : Product) (arows brows : List Nat) (place : Nat) : Bool :=
  let (fa, fb) := pairFmts p.code
  let n := p.depth / 64
  let x := place / n % p.rows
  let chunk := (List.range 64).map (place % n * 64 + ·)
  let row := (arows[x]?).getD 0
  let elemB := fun (i j : Nat) => if p.trans then fb.elem ((brows[j]?).getD 0) i else fb.elem ((brows[i]?).getD 0) j
  match checkSums (chunk.map fun i => fa.exact (fa.elem row i)) (chunk.map fun i => (List.range 64).map fun j => fb.exact (elemB i j)) with
  | some (left, right) => decide (left + 1 ≠ right)
  | none => false
/-- A soft error that struck the command of member 0 is in its A operand, which every member reads, or in what is its own: open (R237). -/
def State.struckA (s : State) (m0 : Cmd) : Bool × State := if m0.hit = 0 then (false, s) else s.drawBool
/-- The gather latch as `MMAG` reads it: an entry that `GTROWS` has written since the command started is seen or missed (R225, R235). -/
def State.latchSeen (s : State) (k : Core) (m : Cmd) : Core × State :=
  match m.seen with
  | none => (k, s)
  | some h =>
    if h.latch = k.latch then (k, s)
    else (List.range 64).foldl (fun r i =>
      let e := (tRows m.d1 + i) % 1024
      if sget h.latch e = sget r.1.latch e || r.2.drawBool.1 then (r.1, r.2.drawBool.2)
      else ({ r.1 with latch := sset r.1.latch e (sget h.latch e) }, r.2.drawBool.2)) (k, s)
/-- The members of a joint operation that have not started do so. -/
def State.beginJoint (s : State) (l : List (CoreId × Core × Cmd)) : State :=
  l.foldl (fun s x => if x.2.2.seen.isSome then s else (s.beginCmd x.1 0 x.2.1.asid x.2.2).progress x.1) s
/-- `MMA` and `MMAG` (R224, R225), one joint operation of all its members: it starts, and is performed in a later step. `upset` disturbs a checked sum of one
row and chunk, which of them is open, on the row's own core (R228, log entry 3). POISON of an operand comes before the hardware faults (R276, R353).
PARITY in member 0's A operand faults every member, any other only its own command (R237). -/
def product (c : CoreId) (kind : Nat) (upset : Bool) (s : State) : State :=
  s.onHead c 0 kind fun s k m =>
    match s.jointOf c k m with
    | none => s
    | some [] => s
    | some ((c0, k0, m0) :: rest) =>
      let l := (c0, k0, m0) :: rest
      if !jointAgrees l then s.jointIllegal l
      else if l.any fun x => x.2.2.seen.isNone then s.beginJoint l
      else
        match s.job? k.asid with
        | none => s
        | some j =>
          let place := s.draw.1
          let s := if upset then s.draw.2 else s
          let (inA, s) := s.struckA m0
          let (kl, s) := s.latchSeen k0 m0
          let p0 := productOf kl m0 m0
          let (arows, s) := s.rowsAt m0.seen k.asid c0 m0.a1 p0.aBytes p0.aOffs
          l.foldl (fun s x =>
            let p := productOf kl m0 x.2.2
            match firstCause [operandCause j m0.a1 p.aOffs p.aBytes, operandCause j x.2.2.a2 p.bOffs p.bBytes] with
            | some (cause, v) => s.faultHead x.1 x.2.2 cause v 0
            | none =>
              match (s.rowsPoison k.asid c0 m0.a1 p.aBytes p.aOffs).or (s.rowsPoison k.asid x.1 x.2.2.a2 p.bBytes p.bOffs) with
              | some pa => (s.metPoison x.1 pa).faultHead x.1 x.2.2 cPOISON 0 0
              | none =>
              if inA || x.2.2.hit ≠ 0 then s.faultHead x.1 x.2.2 cPARITY 0 0
              else
              let (brows, s) := s.rowsAt x.2.2.seen k.asid x.1 x.2.2.a2 p.bBytes p.bOffs
              if upset && x.1 == c && p.checksumFault arows brows place then s.faultHead x.1 x.2.2 cCHECKSUM 0 0
              else
                let (k', fl) := x.2.1.multiply m0 x.2.2 p arows brows
                (s.setCore x.1 (k'.putHead 0 (x.2.2.perform 0 0 fl 0))).progress x.1) s
/-- MMA (R224). -/
def mma (c : CoreId) (upset : Bool) (s : State) : State := product c 0x01 upset s
def execMma (c : CoreId) (upset : Bool) (s : State) : Result := .next (mma c upset s)
/-- MMAG (R225). -/
def mmag (c : CoreId) (upset : Bool) (s : State) : State := product c 0x02 upset s
def execMmag (c : CoreId) (upset : Bool) (s : State) : Result := .next (mmag c upset s)

/-- Offsets of the rows of d2. -/
def d2Offs (m : Cmd) : List Nat := (List.range (tRows m.d2 + 1)).map fun i => i * 32 * tStride m.d2
/-- ACCLD (R229): it starts, and is performed in a later step (R235). -/
def accld (c : CoreId) (s : State) : State :=
  s.onStarted c 0 0x03 fun s k m =>
    match s.job? k.asid with
    | none => s
    | some j =>
      match firstCause [operandCause j m.a2 (d2Offs m) 256] with
      | some (cause, v) => s.faultHead c m cause v 0
      | none =>
        match s.rowsPoison k.asid c m.a2 256 (d2Offs m) with
        | some pa => (s.metPoison c pa).faultHead c m cPOISON 0 0
        | none =>
        if m.hit ≠ 0 then s.faultHead c m m.hit 0 0
        else
        let (rows, s) := s.rowsAt m.seen k.asid c m.a2 256 (d2Offs m)
        let k' := (k.fillRows m.acc (fun i x => (((rows[i]?).getD 0) / 2 ^ (32 * x) % 2 ^ 32, 0)) rows.length).1
        s.setCore c (k'.putHead 0 (m.perform 0 0 0 0))
def execAccld (c : CoreId) (s : State) : Result := .next (accld c s)

/-- A row of 64 accumulator elements converted and packed (R229). -/
def storeRow (k : Core) (m : Cmd) (i : Nat) : Nat × Flags :=
  let src := fmtOf (m.d3.toNat / 256 % 8)
  let dst := fmtOf (m.d3.toNat % 8)
  (List.range 64).foldl (fun r x =>
    let p := k.getAc m.acc i x
    let (v, fl) := if src = dst then (p, 0) else convert src dst p
    (r.1 + v % 2 ^ dst.width * 2 ^ (x * dst.width), r.2 ||| fl)) (0, 0)
/-- The rows that a command does before the one in which a hardware fault struck it: which row that is is open. -/
def State.struckRow (s : State) (m : Cmd) (rows : Nat) : Nat × State := if m.hit = 0 then (rows, s) else (s.draw.1 % max 1 rows, s.draw.2)
/-- ACCST (R229, R237): rows in ascending order up to the first that leaves its space or touches the map or CODE, or that a soft error strikes. The
byte count of a faulted one is the full one (log entry 76). -/
def accst (c : CoreId) (s : State) : State :=
  s.onHead c 0 0x04 fun s k m =>
    match s.job? k.asid with
    | none => s
    | some j =>
      let w := (fmtOf (m.d3.toNat % 8)).width / 8
      let bytes := (tRows m.d2 + 1) * 64 * w
      match firstCause [fun cause => if cause = cBOUNDS then none else operandCause j m.a2 [] 0 cause] with
      | some (cause, v) => s.performHead c 0 m cause v 0 bytes
      | none =>
        let bad := fun (o : Nat) => j.limitOf (spaceOfForm m.a2) < addrOff m.a2 + o + 64 * w || j.guarded (spaceOfForm m.a2) (addrOff m.a2 + o) (64 * w) .job
        let (rows, s) := s.struckRow m (tRows m.d2 + 1)
        let good := ((d2Offs m).takeWhile fun o => !bad o).take rows
        let r := good.zipIdx.foldl (fun (r : State × Flags) (x : Nat × Nat) =>
          let (v, fl) := storeRow k m x.2
          (r.1.storeClass c m.ctx k.asid m.seq none m.a2 (localAt c m.a2 x.1) (64 * w) v, r.2 ||| fl)) (s, 0)
        match (d2Offs m).find? bad with
        | some o => r.1.performHead c 0 m cBOUNDS (m.a2 + BitVec.ofNat 64 o) 0 bytes
        | none => r.1.performHead c 0 m 0 0 r.2 bytes
def execAccst (c : CoreId) (s : State) : Result := .next (accst c s)

/-- ACCZ: its rows are zero, whether it faults or not (R230, R237). -/
def accz (c : CoreId) (s : State) : State :=
  s.onHead c 0 0x05 fun s _ m => s.faultHead c m 0 0 0
def execAccz (c : CoreId) (s : State) : Result := .next (accz c s)

/-- An element of `ACCXR` over the members' partials (R231). -/
def crossElement (int : Bool) (ps : List Nat) : Nat × Flags :=
  if int then
    let (v, sat) := clampInt (-2147483648) 2147483647 (ps.foldl (fun a p => a + signedOf 32 p) 0)
    (intBits 32 v, flagIf sat flagSAT)
  else xsumRound (ps.foldl (fun r p => xsumAdd r (fp32.decode p)) XRec.empty) .f32
/-- ACCXR (R231). -/
def accxr (c : CoreId) (s : State) : State :=
  s.onHead c 0 0x06 fun s k m =>
    match s.jointOf c k m with
    | none => s
    | some l =>
      if !jointAgrees l then s.jointIllegal l
      else
        let f := fun i j => crossElement (m.d3.getLsbD 0) (l.map fun x => x.2.1.getAc x.2.2.acc i j)
        l.foldl (fun s x =>
          if x.2.2.hit ≠ 0 then s.faultHead x.1 x.2.2 x.2.2.hit 0 0
          else
          let (k', fl) := x.2.1.fillRows x.2.2.acc f 64
          (s.setCore x.1 (k'.putHead 0 (x.2.2.perform 0 0 fl 0))).progress x.1) s
def execAccxr (c : CoreId) (s : State) : Result := .next (accxr c s)

/-- QFENCE (R232): completes once every command that stood before a mark has completed. -/
def qfence (c : CoreId) (q : Nat) (s : State) : State :=
  s.onHead c q 0x07 fun s k m =>
    if m.before.all fun u => !(k.commands.any fun x => x.uid == u) then s.performHead c q m 0 0 0 0 else s
def execQfence (c : CoreId) (q : Nat) (s : State) : Result := .next (qfence c q s)
/-- SIGNAL (R233): at the head of its queue every earlier command has completed. -/
def signal (c : CoreId) (q : Nat) (s : State) : State :=
  s.onHead c q 0x08 fun s _ m => s.performHead c q m 0 0 0 (m.d3.toNat % 2 ^ 32)
def execSignal (c : CoreId) (q : Nat) (s : State) : Result := .next (signal c q s)

-- completion (R234, R244, R276)
/-- A fault for which R310 makes the core vote abort: a firing's mismatch, and an `NXRED` whose slots leave the window. Its late trap goes where R321
and R322 send it, to the handler where there is one; the core's vote carries ABORT all the same (log entry 32). -/
def Cmd.votesAbort (m : Cmd) : Bool := (m.firing.isSome && m.cause == cILLEGAL) || (m.firing.isNone && dKind m.d0 == 0x41 && m.cause == cBOUNDS && m.tval == 0)
/-- The late traps of a command: its fault, or NUMERIC (R56, R237, R276). -/
def Cmd.traps (m : Cmd) : List LateTrap :=
  if m.cause = 0 then (numericOf m.flags m.enabled m.seq m.ctx m.gone).toList
  else [{ cause := m.cause, seq := m.seq, tval := m.tval, ctx := m.ctx, orphan := m.gone }]
def Core.popHead (k : Core) (q : Nat) : Core := k.modQueue q fun l => l.drop 1
/-- COMMAND_COMPLETION: the work of the head of a queue is done: it arrives on its hamper, its flags go to its issuer, its late traps
set out; without STATUS it leaves its queue and is complete (R234, R330, R398). A fault of R310 marks the core's vote. -/
def commandCompletion (c : CoreId) (q : Nat) (s : State) : State :=
  match s.core? c with
  | none => s
  | some k =>
    match k.queue q with
    | [] => s
    | m :: _ =>
      if !k.engines || m.stage != .performed then s
      else
        let s := if m.firing.isNone && dSignal m.d0 then
            s.hamperArrive k.asid { core := c, space := .tcm, off := dHamper m.d0 } m.bytes
          else s
        let s := (s.addFlags c m.ctx m.gone m.flags).progress c
        let s := s.modCore c fun k =>
          let k := k.ringOwe m.seq m.traps.length
          if m.firing.isNone && dStatus m.d0 then k.putHead q { m with stage := .arrived } else (k.popHead q).ringDone m.seq
        let s := m.traps.foldl (fun s t => s.raiseLate c k.asid t) s
        if m.votesAbort then s.modCore c fun k => { k with voteFault := some (k.voteFault.getD m.cause) } else s
def execCommandCompletion (c : CoreId) (q : Nat) (s : State) : Result := .next (commandCompletion c q s)
/-- The status queue of a command queue (R242). -/
def statusQueue (q : Nat) : Nat :=
  match q with
  | 0 => 4
  | 1 => 5
  | _ => 6
/-- A status entry (R234). -/
def statusWord (m : Cmd) : Word := BitVec.ofNat 64 (m.cause % 256 * 2 ^ 32 + dKind m.d0 * 2 ^ 16 + m.seq % 2 ^ 16)
/-- STATUS_ENTRY: the entry enters the status queue once that has room, and the command leaves its queue, complete (R234, R244, R330). -/
def statusEntry (c : CoreId) (q : Nat) (s : State) : State :=
  match s.core? c with
  | none => s
  | some k =>
    match k.queue q with
    | [] => s
    | m :: _ =>
      let l := dgetD k.status (statusQueue q) []
      if k.engines && m.stage == .arrived && decide (l.length < 8) then
        (s.modCore c fun k => { (k.popHead q).ringDone m.seq with status := dset k.status (statusQueue q) (l ++ [statusWord m]) }).progress c
      else s
def execStatusEntry (c : CoreId) (q : Nat) (s : State) : Result := .next (statusEntry c q s)

end Sys2Proof.Machine
end

