-- ==== Sys2Proof/Machine/Copy.lean ====
section
/-! DEFINITION. The copy, gather and network commands (R263 to R276, R398): rows of 32-byte atoms moved between the spaces, the mesh and
the tiers. A command that reads operands starts, then does its work in one step; `CPRING`, `CPPFL` and `NXPUT` go on as slots, reads and
acknowledgements come. -/

namespace Sys2Proof.Machine

/-- Why a row stops a command (R276): the cause, `svtval` and the physical page that met poison. Cause 0 means that the row waits. -/
structure EFault where
  cause : Nat
  tval : Word
  pa : Nat
  deriving DecidableEq, Repr
/-- The order of R276; a wait comes first. -/
def EFault.rank (e : EFault) : Nat := causeRank e.cause
def EFault.first (e f : EFault) : EFault := if f.rank < e.rank then f else e
/-- What stops the row that a hardware fault struck: its own cause or that one, whichever comes first (R276); 0 is no fault. -/
def EFault.struck (hit : Nat) {α : Type} (r : Except EFault α) : Except EFault α :=
  if hit = 0 then r
  else match r with
  | .error e => .error (e.first ⟨hit, 0, 0⟩)
  | .ok _ => .error ⟨hit, 0, 0⟩

/-- Who moves data: the core, the job and the command. -/
structure Mover where
  c : CoreId
  k : Core
  j : Job
  m : Cmd
  deriving DecidableEq, Repr
/-- An address a byte offset away from a base, for `svtval`. -/
def Mover.at_ (a : Word) (off : Nat) : Word := a + BitVec.ofNat 64 off
/-- BOUNDS of `n` bytes at an offset from a base (R102, R276). -/
def Mover.bounds (v : Mover) (a : Word) (off n : Nat) (write : Bool) : Option EFault :=
  let bad : Bool := match addrForm a with
    | 8 => decide (2 ^ 52 < a.toNat % 2 ^ 52 + off + n)
    | _ => match locate v.c a with
      | none => true
      | some d => decide (v.j.limitOf d.space < d.off + off + n) || (write && v.j.guarded d.space (d.off + off) n .job)
  if bad then some ⟨cBOUNDS, Mover.at_ a off, 0⟩ else none
/-- The physical address of a virtual one, or what stops the access (R111, R118, R120, R123, R125). -/
def State.reach (s : State) (v : Mover) (a : Word) (off n : Nat) (write : Bool) : Except EFault (State × Nat) :=
  match s.translate v.c v.k.asid (a.toNat % 2 ^ 52 + off) write with
  | .error (cause, pa) => .error ⟨cause, Mover.at_ a off, pa⟩
  | .ok (s, pa) =>
    match s.paCause (coreModule v.c) pa n write with
    | some cause => .error ⟨cause, Mover.at_ a off, pa⟩
    | none => if s.bankBusy (coreModule v.c) pa (some v.c) then .error ⟨0, 0, 0⟩ else .ok (s.touchRow (coreModule v.c) pa, pa)
/-- Where an atom of a local or mesh address lies now, or RETURNED; a silent home makes the command wait. -/
def State.atomHome (s : State) (v : Mover) (a : Word) (off : Nat) : Except EFault Dest :=
  match (locate v.c a).bind fun d => s.target v.k.asid { d with off := d.off + off } with
  | none => .error ⟨cRETURNED, Mover.at_ a off, 0⟩
  | some t => if s.silentHome t then .error ⟨0, 0, 0⟩ else .ok t
/-- What stood at a local location when the step of the command began: only the core's TCM and its quad's scratchpad take writes of the command itself at
once (R239). -/
def State.rdBefore (s : State) (v : Mover) (d : Dest) (n : Nat) : Nat :=
  match d.space with
  | .tcm => if d.core = v.c then readMem v.k.tcm.cur d.off n else s.rd v.k.asid d n
  | .qsp => readMem (dgetD v.j.qsp (coreQuad d.core) Mem.empty).cur d.off n
  | .dss => s.rd v.k.asid d n
/-- `n` bytes as the command reads them: what it has written itself in this step, else with the stores that race it seen or missed (R235, R264). -/
def State.rdMover (s : State) (v : Mover) (d : Dest) (n : Nat) : Nat × State :=
  if s.rdBefore v d n = s.rd v.k.asid d n then s.rdEngine v.m.seen v.k.asid d n else (s.rd v.k.asid d n, s)
/-- One atom of a read (R240), or poison where its home is spilled (R20, R276). -/
def State.readAtom (s : State) (v : Mover) (a : Word) (off : Nat) : Except EFault (State × Nat) :=
  if addrForm a = 8 then
    match s.reach v a off 32 false with
    | .error e => .error e
    | .ok (s, pa) => .ok (s.countAtoms (coreModule v.c) pa 32 false, s.rdPa (coreModule v.c) pa 32)
  else
    match s.atomHome v a off with
    | .error e => .error e
    | .ok d =>
      match s.spillPoison v.k.asid d 32 with
      | some pa => .error ⟨cPOISON, Mover.at_ a off, pa⟩
      | none =>
        let (x, s) := s.rdMover v d 32
        .ok (s.countLink (coreModule d.core) (coreModule v.c) 32, x)
/-- One atom of a write, with the class of its target (R239, R264): TCM and scratchpad now, shares and mesh deferred, tiers after commit. -/
def State.writeAtom (s : State) (v : Mover) (a : Word) (off val : Nat) : Except EFault State :=
  if addrForm a = 8 then
    match s.reach v a off 32 true with
    | .error e => .error e
    | .ok (s, pa) =>
      let w : WriteOut := { va := a.toNat % 2 ^ 52 + off, pa := pa, n := 32, val := val, fill := if dKind v.m.d0 = 0x24 then some v.m.uid else none }
      .ok (s.modCore v.c fun k => { k with writeOuts := k.writeOuts ++ [w] })
  else
    match s.atomHome v a off with
    | .error e => .error e
    | .ok d =>
      if !isMesh a && d.space != .dss then .ok (s.wr v.k.asid d 32 val)
      else .ok (s.modCore v.c fun k => { k with deferred := k.deferred ++ [{ dest := d, op := .write 32 val }] })
/-- `n` atoms of a row as one number, or the first cause in the order of R276 among them. -/
def State.readAtoms (s : State) (v : Mover) (a : Word) (off : Nat) : Nat → Except EFault (State × Nat)
  | 0 => .ok (s, 0)
  | n + 1 =>
    match s.readAtoms v a off n with
    | .error e =>
      match s.readAtom v a (off + 32 * n) with
      | .error f => .error (e.first f)
      | .ok _ => .error e
    | .ok (s, x) =>
      match s.readAtom v a (off + 32 * n) with
      | .error e => .error e
      | .ok (s, y) => .ok (s, x + y * 2 ^ (256 * n))
def State.writeAtoms (s : State) (v : Mover) (a : Word) (off val : Nat) : Nat → Except EFault State
  | 0 => .ok s
  | n + 1 =>
    match s.writeAtoms v a off val n with
    | .error e =>
      match s.writeAtom v a (off + 32 * n) 0 with
      | .error f => .error (e.first f)
      | .ok _ => .error e
    | .ok s => s.writeAtom v a (off + 32 * n) (val / 2 ^ (256 * n) % 2 ^ 256)
def Mover.within (e : Option EFault) (f : Except EFault α) : Except EFault α :=
  match e with
  | some x => .error x
  | none => f
/-- A row of `n` bytes read whole. -/
def State.readRow (s : State) (v : Mover) (a : Word) (off n : Nat) : Except EFault (State × Nat) :=
  Mover.within (v.bounds a off n false) (s.readAtoms v a off (n / 32))
/-- A row of `n` bytes written, or not at all. -/
def State.writeRow (s : State) (v : Mover) (a : Word) (off n val : Nat) : Except EFault State :=
  Mover.within (v.bounds a off n true) (s.writeAtoms v a off val (n / 32))
/-- A row copied: read whole before it is written; of two causes the first in the order of R276. -/
def State.copyRow (s : State) (v : Mover) (a : Word) (aoff : Nat) (b : Word) (boff n : Nat) : Except EFault State :=
  match s.readRow v a aoff n with
  | .ok (s, x) => s.writeRow v b boff n x
  | .error e =>
    match s.writeRow v b boff n 0 with
    | .error f => .error (e.first f)
    | .ok _ => .error e

/-- Steps done one after another up to the first that stops. -/
def runSteps (f : State → Nat → Except EFault State) : List Nat → State → State × Option EFault
  | [], s => (s, none)
  | i :: t, s =>
    match f s i with
    | .error e => (s, some e)
    | .ok s => runSteps f t s
/-- The rows of a command up to the one that a hardware fault struck, when one did: which row that is is open (R276). -/
def runStruck (hit : Nat) (f : State → Nat → Except EFault State) (l : List Nat) (s : State) : State × Option EFault :=
  if hit = 0 then runSteps f l s
  else
    let h := s.draw.1 % max 1 l.length
    runSteps (fun s i => EFault.struck (if l[h]? = some i then hit else 0) (f s i)) l s.draw.2
/-- FORM and ALIGN of the bases (R276). -/
def basesCause (l : List (List Nat × Word)) : Option EFault :=
  match l.find? fun x => !formOk x.1 x.2 with
  | some x => some ⟨cFORM, x.2, 0⟩
  | none => (l.find? fun x => x.2.toNat % 32 ≠ 0).map fun x => ⟨cALIGN, x.2, 0⟩
/-- What an access that stopped a command leaves: the core notes poison that it met, and a walk without a translation counts (R336, R361). -/
def State.stopped (s : State) (v : Mover) (e : EFault) : State :=
  let s := if e.cause = cPOISON then s.metPoison v.c e.pa else s
  if addrForm e.tval = 8 && [cPAGE, cPOISON, cLINK, cLEASE].contains e.cause then s.countMiss v.c v.k.asid (e.tval.toNat % 2 ^ 52) else s
/-- How a command ends after its steps: a wait leaves the state as it was; a fault or success performs it with its full byte count. -/
def State.moved (s0 : State) (v : Mover) (q bytes : Nat) (r : State × Option EFault) : State :=
  match r.2 with
  | none => r.1.performHead v.c q v.m 0 0 0 bytes
  | some e =>
    if e.cause = 0 then s0
    else
      (r.1.stopped v e).performHead v.c q v.m e.cause e.tval 0 bytes
/-- A data command at the head of its queue. -/
def mover (c : CoreId) (q kind : Nat) (f : State → Mover → State) (s : State) : State :=
  s.onHead c q kind fun s k m =>
    match s.job? k.asid with
    | none => s
    | some j => f s { c := c, k := k, j := j, m := m }
/-- One that reads operands at homes: it starts in a step of its own (R264). -/
def reader (c : CoreId) (q kind : Nat) (f : State → Mover → State) (s : State) : State :=
  s.onStarted c q kind fun s k m =>
    match s.job? k.asid with
    | none => s
    | some j => f s { c := c, k := k, j := j, m := m }

def dataForms : List Nat := [0, 1, 2, 4, 5, 8]
def Mover.rows1 (v : Mover) : Nat := tRows v.m.d1 + 1
def Mover.off1 (v : Mover) (i : Nat) : Nat := i * 32 * tStride v.m.d1
def Mover.off2 (v : Mover) (i : Nat) : Nat := i * 32 * tStride v.m.d2
def lenOf (d3 : Word) : Nat := 32 * (d3.toNat % 2 ^ 16 + 1)

/-- An entry of a page-fetch list, from its 256 bits (R267). -/
structure Fetch where
  va : Word
  len : Nat
  hamper : Nat
  dest : Word
  next : Bool
  signal : Bool
  deriving DecidableEq, Repr
def fetchOf (b : Nat) : Fetch :=
  { va := BitVec.ofNat 64 b, len := field b 64 32, hamper := field b 96 32, dest := BitVec.ofNat 64 (b / 2 ^ 128), next := b.testBit 192, signal := b.testBit 194 }
/-- Entry `i` of the list of a `CPPFL`: as the command read it when it started (R264, R268). -/
def State.fetchAt (s : State) (v : Mover) (i : Nat) : Except EFault Fetch :=
  match v.m.list[i]? with
  | some b => .ok (fetchOf b)
  | none =>
    match s.readRow v v.m.a1 (32 * i) 32 with
    | .error e => .error e
    | .ok (_, b) => .ok (fetchOf b)
/-- The entries of a list from entry `i` on, up to the first that cannot be read. -/
def State.listFrom (s : State) (v : Mover) (i : Nat) : Nat → List Nat × State
  | 0 => ([], s)
  | n + 1 =>
    match s.readRow v v.m.a1 (32 * i) 32 with
    | .ok (s, b) =>
      let (l, s) := s.listFrom v (i + 1) n
      (b :: l, s)
    | .error _ => ([], s)
/-- A `CPPFL` that starts reads its list (R264). -/
def State.withList (s : State) (v : Mover) : Mover × State :=
  if v.m.stage == .queued then
    let (l, s) := s.listFrom v 0 v.rows1
    ({ v with m := { v.m with list := l } }, s)
  else (v, s)
/-- The bytes of a command's arrival, whether it faults or not (R233, R398); a firing makes none. -/
def State.fullBytes (s : State) (v : Mover) : Nat :=
  let d3 := v.m.d3.toNat
  if v.m.firing.isSome then 0
  else match dKind v.m.d0 with
  | 0x04 => (tRows v.m.d2 + 1) * 64 * ((fmtOf (d3 % 8)).width / 8)
  | 0x20 | 0x40 => v.rows1 * lenOf v.m.d3
  | 0x21 => ((List.range v.rows1).map fun i => match s.fetchAt v i with
      | .ok f => if f.next then 0 else f.len
      | .error _ => 0).sum
  | 0x22 => v.rows1 * 1024
  | 0x24 => (tRows v.m.d2 + 1) * (32 * (d3 / 2 ^ 32 % 2 ^ 16 + 1))
  | 0x25 => v.rows1 * rgSlot (s.rd v.k.asid (localAt v.c v.m.a2 0) 32)
  | 0x30 => if d3.testBit 63 then 0 else (d3 / 2 ^ 22 % 2 ^ 10 + 1) * lenOf v.m.d3
  | 0x41 => (nxSlots v.m).2 * codeBytes (d3 / 2 ^ 16 % 8)
  | 0x08 => d3 % 2 ^ 32
  | _ => 0

/-- A byte of the core's TCM. -/
def State.tcmByte (s : State) (v : Mover) (off : Nat) : Nat := s.rd v.k.asid { core := v.c, space := .tcm, off := off } 1
/-- Row `i` of a `CPBOX`, of which a hardware fault struck row `h`. -/
def State.boxRow (v : Mover) (h : Nat) (s : State) (i : Nat) : Except EFault State :=
  EFault.struck (if i = h then v.m.hit else 0) (s.copyRow v v.m.a1 (v.off1 i) v.m.a2 (v.off2 i) (lenOf v.m.d3))
/-- The rows of box `b`. -/
def Mover.boxRows (v : Mover) (b : Nat) : List Nat :=
  let br := v.m.d3.toNat / 2 ^ 22 % 2 ^ 10 + 1
  (List.range br).filterMap fun i => if b * br + i < v.rows1 then some (b * br + i) else none
/-- A box of `CPBOX`: skipped when its bit stands; else its rows, then its bit (R266). -/
def State.box (v : Mover) (h : Nat) (s : State) (b : Nat) : Except EFault State :=
  let d3 := v.m.d3.toNat
  let at_ := d3 / 2 ^ 32 % 2 ^ 17 + b / 8
  let bm := d3.testBit 49
  if bm && (s.tcmByte v at_).testBit (b % 8) then .ok s
  else
    match runSteps (State.boxRow v h) (v.boxRows b) s with
    | (_, some e) => .error e
    | (s, none) =>
      if bm then .ok (s.wr v.k.asid { core := v.c, space := .tcm, off := at_ } 1 (s.tcmByte v at_ ||| 2 ^ (b % 8))) else .ok s
/-- The boxes of a command; rows of a box before a faulting row stand (R276). -/
def State.boxes (v : Mover) (h : Nat) : List Nat → State → State × Option EFault
  | [], s => (s, none)
  | b :: t, s =>
    match s.box v h b with
    | .ok s => State.boxes v h t s
    | .error e => ((runSteps (State.boxRow v h) (v.boxRows b) s).1, some e)
/-- CPBOX (R266). -/
def cpbox (c : CoreId) (s : State) : State :=
  reader c 1 0x20 (fun s v =>
    let br := v.m.d3.toNat / 2 ^ 22 % 2 ^ 10 + 1
    let r := match basesCause [(dataForms, v.m.a1), (dataForms, v.m.a2)] with
      | some e => (s, some e)
      | none => State.boxes v (s.draw.1 % v.rows1) (List.range ((v.rows1 + br - 1) / br)) (if v.m.hit = 0 then s else s.draw.2)
    s.moved v 1 (s.fullBytes v) r) s
def execCpbox (c : CoreId) (s : State) : Result := .next (cpbox c s)

-- page fetches (R267 to R269)
/-- What makes an entry invalid, in the order of R276: what R267 asks of it, its HAMPER among the addresses (log entry 78), and BOUNDS of DEST, which
a RUNPFL list shares (log entry 73). -/
def fetchCause (v : Mover) (f : Fetch) : Option EFault :=
  if !formOk [8] f.va then some ⟨cFORM, f.va, 0⟩
  else if !formOk localForms f.dest then some ⟨cFORM, f.dest, 0⟩
  else if f.va.toNat % 32 ≠ 0 then some ⟨cALIGN, f.va, 0⟩
  else if f.dest.toNat % 32 ≠ 0 then some ⟨cALIGN, f.dest, 0⟩
  else if f.len % 32 ≠ 0 then some ⟨cALIGN, f.va, 0⟩
  else if f.signal && f.hamper % 16 != 0 then some ⟨cALIGN, BitVec.ofNat 64 f.hamper, 0⟩
  else if f.len = 0 ∨ 0x1000000 < f.len then some ⟨cBOUNDS, f.va, 0⟩
  else if f.signal && decide (tcmEnd ≤ f.hamper) then some ⟨cBOUNDS, BitVec.ofNat 64 f.hamper, 0⟩
  else v.bounds f.dest 0 f.len true
def Fetch.arrive (f : Fetch) (s : State) (v : Mover) : State :=
  if f.signal then s.hamperArrive v.k.asid { core := v.c, space := .tcm, off := f.hamper } f.len else s
/-- The staged entry that an identical push claims: one that no other push has claimed and no command is reading (R269, R334). -/
def Job.claimable (j : Job) (index : Nat) (f : Fetch) : Option Nat :=
  j.staged.findIdx? fun e => e.index == index && !e.claimed && e.va == f.va.toNat % 2 ^ 52 && e.len == f.len && e.dest == f.dest
/-- A staged entry of the core with the data of `f`. -/
def Mover.staged (v : Mover) (f : Fetch) (source : Memory) (poison : Option Nat) (reader : Option Nat) : Staged :=
  { index := v.k.index, va := f.va.toNat % 2 ^ 52, len := f.len, dest := f.dest, hamper := f.hamper, signal := f.signal
    data := none, poison := poison, source := source, claimed := true, reader := reader }
def State.stage (s : State) (asid : Nat) (g : Staged) : State := s.modJob asid fun j => { j with staged := j.staged ++ [g] }
/-- The read of the command's entry with NEXT = 0 that is under way (R268, R334). -/
def Job.reading (j : Job) (index uid : Nat) : Option Nat := j.staged.findIdx? fun e => e.index == index && e.reader == some uid
/-- An entry with NEXT = 0: its read starts, and an abort then finishes it into staging (R334); once read, or when staging holds it, it is written with
DEST's class (R268). False means that it is being read. -/
def State.fetchNow (s : State) (v : Mover) (f : Fetch) : Except EFault (Bool × State) :=
  match ((s.job? v.k.asid).bind fun j => (j.reading v.k.index v.m.uid).or (j.claimable v.k.index f)) with
  | some i =>
    let e := ((s.job? v.k.asid).bind fun j => j.staged[i]?)
    match e with
    | some e =>
      let s := s.modJob v.k.asid fun j => { j with staged := j.staged.eraseIdx i }
      match e.poison with
      | some pa => .error ⟨cPOISON, 0, pa⟩
      | none => (s.writeRow v f.dest 0 f.len (readMem e.source 0 f.len)).map fun s => (true, f.arrive s v)
    | none => .ok (true, s)
  | none =>
    match s.readRow v f.va 0 f.len, s.copyRow v f.va 0 f.dest 0 f.len with
    | .ok (s, x), .ok _ => .ok (false, s.stage v.k.asid (v.staged f (writeMem [] 0 f.len x) none (some v.m.uid)))
    | _, .error e => .error e
    | .error e, .ok _ => .error e
/-- An entry with NEXT = 1 starts: the bytes committed before this superstep go into staging (R240, R269); poison is kept with it. -/
def State.fetchNext (s : State) (v : Mover) (f : Fetch) : Except EFault State :=
  match ((s.job? v.k.asid).bind fun j => j.claimable v.k.index f) with
  | some i => .ok (s.modJob v.k.asid fun j =>
      { j with staged := j.staged.zipIdx.map fun e => if e.2 = i then { e.1 with claimed := true, hamper := f.hamper, signal := f.signal } else e.1 })
  | none =>
    match s.readRow v f.va 0 f.len with
    | .ok (s, x) => .ok (s.stage v.k.asid (v.staged f (writeMem [] 0 f.len x) none none))
    | .error e => if e.cause = cPOISON then .ok ((s.countMiss v.c v.k.asid (e.tval.toNat % 2 ^ 52)).stage v.k.asid (v.staged f [] (some e.pa) none)) else .error e
/-- One entry of a list; false means that it is being read. -/
def State.fetchOne (s : State) (v : Mover) (i : Nat) : Except EFault (Bool × State) :=
  match s.fetchAt v i with
  | .error e => .error e
  | .ok f => Mover.within (fetchCause v f) (if f.next then (s.fetchNext v f).map fun s => (true, s) else s.fetchNow v f)
/-- Entries one after another up to the first that stops, or that is being read. -/
def State.fetches (v : Mover) (h : Nat) : List Nat → State → State × Option EFault × Option Nat
  | [], s => (s, none, none)
  | i :: t, s =>
    match EFault.struck (if i = h then v.m.hit else 0) (s.fetchOne v i) with
    | .error e => (s, some e, none)
    | .ok (true, s) => State.fetches v h t s
    | .ok (false, s) => (s, none, some i)
/-- CPPFL: it reads its list when it starts, and waits for the read of each entry with NEXT = 0 in a step of its own (R264, R268). A hardware fault
strikes one of the entries that are left, which one is open (R276). -/
def cppfl (c : CoreId) (s : State) : State :=
  reader c 1 0x21 (fun s v =>
    match basesCause [(localForms, v.m.a1)] with
    | some e => s.moved v 1 (s.fullBytes v) (s, some e)
    | none =>
      let (v, s) := s.withList v
      let i := v.m.progress
      match State.fetches v (i + s.draw.1 % max 1 (v.rows1 - i)) ((List.range v.rows1).drop i) (if v.m.hit = 0 then s else s.draw.2) with
      | (t, none, some n) => t.modCore c fun k => k.putHead 1 { v.m with stage := .running, progress := n }
      | (t, e, _) =>
        let t := t.modJob v.k.asid fun j => { j with staged := j.staged.filter fun g => g.index != v.k.index || g.reader != some v.m.uid }
        s.moved v 1 (s.fullBytes v) (t, e)) s
def execCppfl (c : CoreId) (s : State) : Result := .next (cppfl c s)
/-- STAGING_READ_COMPLETE: the read of staged entry `i` is in the job's staging (R269). -/
def stagingReadComplete (asid i : Nat) (s : State) : State :=
  s.modJob asid fun j => { j with staged := j.staged.zipIdx.map fun e => if e.2 = i then { e.1 with data := some e.1.source } else e.1 }
def execStagingReadComplete (asid i : Nat) (s : State) : Result := .next (stagingReadComplete asid i s)

-- streaming (R125, R270)
/-- The core gives up the bank it has reserved. -/
def State.releaseBank (s : State) (c : CoreId) : State :=
  match (s.core? c).bind Core.reserved with
  | none => s
  | some b =>
    let s := s.modModule (coreModule c) fun d => { d with banks := dmod d.banks b fun x => { x with holder := none } }
    s.modCore c fun k => { k with reserved := none, kept := false }
/-- The core gives up a bank that was reserved for the command under way only; one that an earlier `CPSTRM` kept stands (R270). -/
def State.endStream (s : State) (c : CoreId) : State := if ((s.core? c).map Core.kept).getD false then s else s.releaseBank c
/-- The bank of a tier-0 row is reserved for the core: a bank kept from an earlier command goes when it is another, and when it is the same one the 5,000
cycles of R125 run anew, by the model's choice (log entry 91). -/
def State.holdBank (s : State) (c : CoreId) (pa : Nat) : State :=
  let s := if (s.core? c).bind Core.reserved == some (bankOf pa) then s else s.releaseBank c
  let s := s.modModule (coreModule c) fun d => { d with banks := dset d.banks (bankOf pa) { row := rowOf pa, lastUse := s.clock, holder := some c, since := s.clock } }
  s.modCore c fun k => { k with reserved := some (bankOf pa) }
/-- A row of `CPSTRM`: 1 KiB; the bank of an aligned row of tier 0 is the core's while it streams, any other row is copied without
reservation (R270, log entry 37). -/
def State.streamRow (s : State) (v : Mover) (i : Nat) : Except EFault State :=
  let copy := fun (s : State) => s.copyRow v v.m.a1 (v.off1 i) v.m.a2 (v.off2 i) 1024
  match s.reach v v.m.a1 (v.off1 i) 32 false with
  | .error e => if e.cause = 0 then .error e else copy s
  | .ok (s, pa) => copy (if pa % 1024 = 0 && tierOf pa == .hbm then s.holdBank v.c pa else s.endStream v.c)
/-- With KEEP the bank of the last row, if it has one, stays reserved after the command (R270). -/
def State.keepBank (s : State) (c : CoreId) : State := s.modCore c fun k => { k with kept := k.reserved.isSome }
/-- CPSTRM (R270). -/
def cpstrm (c : CoreId) (s : State) : State :=
  mover c 1 0x22 (fun s v =>
    let r := match basesCause [([8], v.m.a1), ([0, 1], v.m.a2)] with
      | some e => (s, some e)
      | none => runStruck v.m.hit (fun s i => s.streamRow v i) (List.range v.rows1) s
    let s' := if v.m.d3.getLsbD 0 && r.2.isNone then r.1.keepBank c else r.1.endStream c
    s.moved v 1 (s.fullBytes v) (s', r.2)) s
def execCpstrm (c : CoreId) (s : State) : Result := .next (cpstrm c s)
/-- CPCLOSE (R270). -/
def cpclose (c : CoreId) (s : State) : State := mover c 1 0x23 (fun s v => (s.releaseBank c).performHead c 1 v.m 0 0 0 0) s
def execCpclose (c : CoreId) (s : State) : Result := .next (cpclose c s)

/-- `n` copies of a 32-bit pattern (R271). -/
def fillRow (pattern : Nat) : Nat → Nat
  | 0 => 0
  | n + 1 => fillRow pattern n * 2 ^ 32 + pattern
/-- CPFILL (R271). -/
def cpfill (c : CoreId) (s : State) : State :=
  mover c 1 0x24 (fun s v =>
    let l := 32 * (v.m.d3.toNat / 2 ^ 32 % 2 ^ 16 + 1)
    let rows := tRows v.m.d2 + 1
    let r := match basesCause [(dataForms, v.m.a2)] with
      | some e => (s, some e)
      | none => runStruck v.m.hit (fun s i => s.writeRow v v.m.a2 (v.off2 i) l (fillRow (v.m.d3.toNat % 2 ^ 32) (l / 4))) (List.range rows) s
    s.moved v 1 (s.fullBytes v) r) s
def execCpfill (c : CoreId) (s : State) : Result := .next (cpfill c s)

/-- The page on which the ring block is spilled, when that is poisoned and the block's address is sound: nothing of the block is known then (R20, R123). -/
def blockPoison (s : State) (v : Mover) : Option Nat :=
  if (basesCause [([0, 1, 2, 8], v.m.a1), ([0, 1], v.m.a2)]).isSome || (v.bounds v.m.a2 0 32 false).isSome then none
  else s.spillPoison v.k.asid (localAt v.c v.m.a2 0) 32
/-- FORM, ALIGN, BOUNDS and RING of the source row, the ring block and its BASE, the first in the order of R276 (R256). -/
def ringCause (s : State) (v : Mover) : Option EFault :=
  let b := s.rd v.k.asid (localAt v.c v.m.a2 0) 32
  let outside := v.bounds v.m.a2 0 32 false
  let bases := [([0, 1, 2, 8], v.m.a1), ([0, 1], v.m.a2)] ++ if outside.isNone && formOk [0, 1] v.m.a2 then [([0, 1], rgBase b)] else []
  match basesCause bases, outside, v.bounds v.m.a1 (v.off1 v.m.progress) (rgSlot b) false with
  | some e, _, _ => some e
  | none, some e, _ => some e
  | none, none, some e => some e
  | none, none, none => if ringValid v.j v.c .job b then none else some ⟨cRING, 0, 0⟩
/-- CPRING (R272): one slot in a step, while FREE > 0; a hardware fault strikes the next one. A block on a poisoned page gives POISON, and how many bytes then
arrive is open (R276; log entry 3). At each slot the block is read and checked as it stands then, and the arrival's bytes are those of the SLOTSZ at the
end; a slot taken for a row whose copy faults stays taken: FREE is down, PUTIX on, FILLED as it was. The spec says neither (DESIGN CHOICE, log entry 97). -/
def cpring (c : CoreId) (s : State) : State :=
  reader c 1 0x25 (fun s v =>
    let d := localAt v.c v.m.a2 0
    let b := s.rd v.k.asid d 32
    let bytes := s.fullBytes v
    match blockPoison s v, ringCause s v with
    | some pa, _ => s.moved v 1 (s.draw.1 % 2 ^ 32) (s.draw.2, some ⟨cPOISON, v.m.a2, pa⟩)
    | none, some e => s.moved v 1 bytes (s, some e)
    | none, none =>
      if rgFree b = 0 then if v.m.hit = 0 then s else s.moved v 1 bytes (s, some ⟨v.m.hit, 0, 0⟩)
      else
        let s1 := s.wr v.k.asid d 32 (setField (setField b 128 32 (rgFree b - 1)) 192 16 ((rgPut b + 1) % (rgNslot b + 1)))
        match EFault.struck v.m.hit (s1.copyRow v v.m.a1 (v.off1 v.m.progress) (rgBase b) (rgPut b * rgSlot b) (rgSlot b)) with
        | .error e => s.moved v 1 bytes (s1, some e)
        | .ok s2 =>
          let s3 := s2.wr v.k.asid d 32 (setField (s2.rd v.k.asid d 32) 160 32 (rgFilled b + 1))
          if v.m.progress + 1 = v.rows1 then s3.performHead c 1 v.m 0 0 0 bytes
          else s3.modCore c fun k => k.putHead 1 { v.m with stage := .running, progress := v.m.progress + 1, seen := some (s3.homesOf v.k.asid c) }) s
def execCpring (c : CoreId) (s : State) : Result := .next (cpring c s)

/-- GTROWS: it starts, then reads its index list and moves its rows (R264, R273). -/
def gtrows (c : CoreId) (s : State) : State :=
  reader c 2 0x30 (fun s v =>
    let d3 := v.m.d3.toNat
    let n := d3 / 2 ^ 22 % 2 ^ 10 + 1
    let idx := d3 / 2 ^ 32 % 2 ^ 17
    let o := tRows v.m.d1
    let (list, s) := s.rdEngine v.m.seen v.k.asid { core := v.c, space := .tcm, off := idx } (4 * n)
    let index := fun (i : Nat) => list / 2 ^ (32 * i) % 2 ^ 32
    if d3.testBit 63 then
      let (n, s) := s.struckRow v.m n
      let s' := (List.range n).foldl (fun (s : State) i => s.modCore c fun k => { k with latch := sset k.latch ((o + i) % 1024) (BitVec.ofNat 32 (index i)) }) s
      s'.performHead c 2 v.m 0 0 0 0
    else
      let r := match basesCause [([0, 1, 2, 8], v.m.a1), (localForms, v.m.a2)] with
        | some e => (s, some e)
        | none => runStruck v.m.hit (fun s i => s.copyRow v v.m.a1 ((index i + o) * 32 * tStride v.m.d1) v.m.a2 (v.off2 i) (lenOf v.m.d3)) (List.range n) s
      s.moved v 2 (s.fullBytes v) r) s
def execGtrows (c : CoreId) (s : State) : Result := .next (gtrows c s)

/-- The atoms of a row of `NXPUT` set out (R274). -/
def State.sendRow (s : State) (v : Mover) (i val n : Nat) : State :=
  (List.range n).foldl (fun s t =>
    let a := Mover.at_ v.m.a2 (v.off2 i + 32 * t)
    match locate v.c a with
    | some d => s.sendEager v.c v.m.ctx v.k.asid v.m.seq none (some v.m.uid) d 32 (val / 2 ^ (256 * t) % 2 ^ 256) a
    | none => s) s
/-- NXPUT (R274): its atoms set out as eager writes; it is done once every one is acknowledged or returned, with the
first cause in the order of R276 among those that its rows and atoms met. Where a row faults with another cause than RETURNED, the rows before it are sent
and none after it: R274 speaks of RETURNED only (DESIGN CHOICE, log entry 102). -/
def nxput (c : CoreId) (s : State) : State :=
  reader c 3 0x40 (fun s v =>
    let l := lenOf v.m.d3
    let bytes := s.fullBytes v
    if v.m.stage == .queued then
      match basesCause [([0, 1], v.m.a1), ([2, 4, 5], v.m.a2)] with
      | some e => s.moved v 3 bytes (s, some e)
      | none =>
        let one := fun (s : State) (i : Nat) =>
          Mover.within (v.bounds v.m.a2 (v.off2 i) l true) ((s.readRow v v.m.a1 (v.off1 i) l).map fun r => r.1.sendRow v i r.2 (l / 32))
        let r := runStruck v.m.hit one (List.range v.rows1) s
        if r.2.map EFault.cause = some 0 then s
        else
        let r := (match r.2 with
          | some e => r.1.stopped v e
          | none => r.1, r.2)
        let out := (((r.1.core? c).map fun k => (k.eager.filter fun e => e.cmd == some v.m.uid).length).getD 0)
        r.1.modCore c fun k => k.putHead 3 { v.m with
          stage := .running, outstanding := out, cause := (r.2.map EFault.cause).getD 0, tval := (r.2.map EFault.tval).getD 0 }
    else if v.m.outstanding = 0 then
      let m := v.m.blame v.m.hit 0
      s.performHead c 3 v.m m.cause m.tval 0 bytes
    else s) s
def execNxput (c : CoreId) (s : State) : Result := .next (nxput c s)

/-- A contributed value as kept: format code and pattern. -/
def packValue (code p : Nat) : Nat := code * 2 ^ 32 + p
/-- NXRED (R275, R310). -/
def nxred (c : CoreId) (s : State) : State :=
  reader c 3 0x41 (fun s v =>
    let (slot, n) := nxSlots v.m
    let code := v.m.d3.toNat / 2 ^ 16 % 8
    let w := codeBytes code
    let (all, s') := s.rdEngine v.m.seen v.k.asid (localAt c v.m.a1 0) (n * w)
    let value := fun (i : Nat) => all / 2 ^ (8 * w * i) % 2 ^ (8 * w)
    let cause := match basesCause [([0, 1], v.m.a1)] with
      | some e => some e
      | none =>
        match v.bounds v.m.a1 0 (n * w) false with
        | some e => some e
        | none =>
          if v.j.window < slot + n then some ⟨cBOUNDS, 0, 0⟩
          else
            match s.spillPoison v.k.asid (localAt c v.m.a1 0) (n * w) with
            | some pa => some ⟨cPOISON, v.m.a1, pa⟩
            | none => if v.m.hit = 0 then none else some ⟨v.m.hit, 0, 0⟩
    match cause with
    | some e => s.moved v 3 (s.fullBytes v) (s, some e)
    | none =>
      let s := s'.modCore c fun k => { k with nxPending := k.nxPending ++ (List.range n).map fun i => { slot := slot + i, value := packValue code (value i), firing := none } }
      s.performHead c 3 v.m 0 0 0 (n * w)) s
def execNxred (c : CoreId) (s : State) : Result := .next (nxred c s)

/-- The value lists of a firing: own values at SRC + patch, then the pending `NXRED` values of each slot (R309, R312). -/
def fireValues (s : State) (seen : Option Homes) (c : CoreId) (k : Core) (e patch : Nat) : List (List (Nat × Nat)) × State :=
  let w := codeBytes (tlIn e)
  let (all, s) := if tlSrcEn e then s.rdEngine seen k.asid (localAt c (tlSrc e) patch) (tlVals e * w) else (0, s)
  ((List.range (tlVals e)).map fun i =>
    (if tlSrcEn e then [(tlIn e, all / 2 ^ (8 * w * i) % 2 ^ (8 * w))] else [])
      ++ (k.nxPending.filter fun p => p.slot == tlSlot e + i && p.firing.isNone).map fun p => (p.value / 2 ^ 32, p.value % 2 ^ 32), s)
/-- FIRING: the firing at the head of q3 starts, and in a later step its values and the pending `NXRED` values go to the module's mangle (R309); those values
stay pending until the arrival has joined a round. -/
def firing (c : CoreId) (s : State) : State :=
  match s.core? c with
  | none => s
  | some k =>
    match k.headOf 3 with
    | none => s
    | some m =>
      match m.firing, m.stage with
      | some (t, e), .queued =>
        if m.seen.isNone then (s.beginCmd c 3 k.asid m).progress c
        else match (if tlSrcEn e then s.spillPoison k.asid (localAt c (tlSrc e) m.patch) (tlVals e * codeBytes (tlIn e)) else none) with
        | some pa => ((s.metPoison c pa).performHead c 3 m cPOISON 0 0 0).progress c
        | none =>
        let (vs, s) := fireValues s m.seen c k e m.patch
        let s := s.modCore c fun k => { (k.putHead 3 { m with stage := .running }) with
          nxPending := k.nxPending.map fun p =>
            if tlSlot e ≤ p.slot ∧ p.slot < tlSlot e + tlVals e ∧ p.firing.isNone then { p with firing := some m.uid } else p }
        ((s.send c m.ctx k.asid m.seq (some m.uid) (.fire t e m.patch vs)).2).progress c
      | _, _ => s
def execFiring (c : CoreId) (s : State) : Result := .next (firing c s)

end Sys2Proof.Machine
end

