-- ==== Sys2Proof/Machine/Collectives.lean ====
section
/-! DEFINITION. Exact collectives: rounds, their combination, delivery across modules, gateway blocks and the failure of a mangle (R307 to
R317). The reduction tree is a star at the module of rectangle 0: its shape is not architectural (R314). -/

namespace Sys2Proof.Machine

/-- The fields of an entry that all contributors must share: all but SRC, DEST and HAMPER (R310). -/
def entryKey (e : Nat) : Nat × Nat := (e / 2 ^ 128 % 2 ^ 144, e / 2 ^ 304)
/-- The modules of a job that hold contributors of an entry. -/
def Job.contributorsOn (j : Job) (e m : Nat) : List CoreId :=
  (j.places.zipIdx.filter fun x => contributes e x.2 && coreModule x.1 == m).map Prod.fst
def Job.modules (j : Job) : List Nat := (j.rects.map fun r => dieModule r.die).dedup
def Job.rootModule (j : Job) : Nat := ((j.rects.head?).map fun r => dieModule r.die).getD j.home
def Job.tileModules (j : Job) (e : Nat) : List Nat := j.modules.filter fun m => !(j.contributorsOn e m).isEmpty
/-- The module that completes a round: the root when it has contributors, else the first that has. -/
def Job.roundRoot (j : Job) (e : Nat) : Nat := if (j.tileModules e).contains j.rootModule then j.rootModule else ((j.tileModules e).head?).getD j.rootModule
/-- A module carries the round out on its gateway cores: the entry's PATH says so, or its mangle had failed when the attempt began (R316, R317). -/
def Job.byGateway (j : Job) (e m : Nat) : Bool := tlGateway e || j.gateways.contains m
/-- The mangle of a module has failed in this attempt: the rounds that it would carry out go no further (R317). -/
def State.mangleDown (s : State) (j : Job) (e m : Nat) : Bool := !j.byGateway e m && ((s.module? m).map Module.mangleFailed).getD false
/-- The module has a gateway core in role (R22, R317). -/
def State.hasGateway (s : State) (m : Nat) : Bool :=
  ((s.module? m).map fun d => d.dies.any fun x => x.2.roles.any fun r => r.2.isGateway).getD false
def blockCount (e : Nat) : Nat := (tlVals e + 63) / 64

-- values (R312)
/-- The larger or smaller of two decoded values: NaN and NaR win, +0 above -0. -/
def pickNum (max : Bool) (a b : Num) : Num :=
  if a.isNaN then a
  else if b.isNaN then b
  else
    match Num.cmp a b with
    | some c =>
      let aNeg := match a with
        | .fin neg _ _ => neg
        | _ => false
      let below := c < 0 || (c == 0 && aNeg)
      if below == max then b else a
    | none => .nan
/-- The result of one value index (R312). -/
def roundValue (e : Nat) (vs : List (Nat × Nat)) : Nat × Flags :=
  let out := fmtOf (tlOut e)
  let xs := vs.map fun v => (fmtOf v.1).decode v.2
  if tlOp e = 0 then xsumRound (xs.foldl xsumAdd XRec.empty) out
  else
    let max := tlOp e == 1
    out.encode (xs.foldl (pickNum max) (.inf max))
/-- The results of a full round. -/
def Round.results (r : Round) : List (Nat × Flags) :=
  (List.range (tlVals r.entry)).map fun i => roundValue r.entry (r.arrivals.flatMap fun a => (a.values[i]?).getD [])

-- delivery (R313)
/-- A firing completes. -/
def State.firingDone (s : State) (a : RoundArrival) (cause : Nat) (tval : Word) (flags : Flags) : State :=
  (s.modCore a.core fun k => k.modQueue 3 fun l => l.map fun m =>
    if m.firing.isSome && m.uid == a.uid then m.perform cause tval flags 0 else m).progress a.core
/-- The results are written at DEST of one receiver, then its hamper takes the arrival; a delivery at the core is progress (R338). -/
def State.deliverTo (s : State) (asid : Nat) (a : RoundArrival) (rs : List (Nat × Flags)) : State :=
  let w := codeBytes (tlOut a.entry)
  let s := rs.zipIdx.foldl (fun s x => s.wrNow asid (localAt a.core (tlDest a.entry) (x.2 * w)) w x.1.1) s
  let s := if tlHmEn a.entry then s.hamperArrive asid { core := a.core, space := .tcm, off := tlHamper a.entry } (rs.length * w) else s
  s.progress a.core
def Round.receives (r : Round) (a : RoundArrival) : Bool := !tlRootOnly r.entry || a.index == tlRoot r.entry
/-- A module delivers a full round to its own receivers (R313 steps 1 and 2). -/
def State.deliverOn (s : State) (asid m : Nat) (r : Round) : State :=
  let rs := r.results
  let here := r.arrivals.filter fun a => coreModule a.core == m
  let s := here.foldl (fun s a => if r.receives a then s.deliverTo asid a rs else s) s
  s.count m (if ((s.job? asid).map fun j => j.byGateway r.entry m).getD false then 15 else 14) 1
/-- The round has delivered at every receiver: its firings complete, the receivers' with the flags of the rounding (R309, R313 step 3). -/
def State.firingsDone (s : State) (r : Round) : State :=
  let fl := r.results.foldl (fun (f : Flags) x => f ||| x.2) 0
  r.arrivals.foldl (fun s a => s.firingDone a 0 0 (if r.receives a then fl else 0)) s

-- rounds (R311, R314)
/-- Every contributor on the module has arrived. -/
def Job.localFull (j : Job) (r : Round) (m : Nat) : Bool := (j.contributorsOn r.entry m).all fun c => r.arrivals.any fun a => a.core == c
/-- The module has all that it combines: its local arrivals, and at the root the partials of the others. -/
def Job.gathered (j : Job) (r : Round) (m : Nat) : Bool :=
  j.localFull r m && (m != j.roundRoot r.entry || (j.tileModules r.entry).all fun x => x == m || r.partials.contains x)
/-- The module's combination is done: at once in a mangle that has not failed, block by block on gateway cores (R316, R317). -/
def State.combined (s : State) (j : Job) (r : Round) (m : Nat) : Bool :=
  j.gathered r m && (if j.byGateway r.entry m then decide (blockCount r.entry ≤ dgetD r.blocks m 0) else !s.mangleDown j r.entry m)
def State.putRound (s : State) (asid : Nat) (r : Round) : State :=
  s.modJob asid fun j => { j with rounds := r :: j.rounds.filter fun x => x.tile != r.tile }
/-- A fresh arrival joins the open round of its tile, or is held (R311). -/
def joinRound (j : Job) (tile : Nat) (a : RoundArrival) : Round :=
  match j.rounds.find? fun r => r.tile == tile with
  | none => { tile := tile, entry := a.entry, arrivals := [a], held := [], partials := [], sent := [], blocks := [], delivered := [] }
  | some r => if r.arrivals.any fun b => b.index == a.index then { r with held := r.held ++ [a] } else { r with arrivals := r.arrivals ++ [a] }
/-- An arrival joins, or is held; with a round joined, its `NXRED` values are no longer pending (R309, R311). -/
def State.joinArrival (s : State) (asid tile : Nat) (a : RoundArrival) : State :=
  match s.job? asid with
  | none => s
  | some j =>
    let r := joinRound j tile a
    let s := s.putRound asid r
    if r.held.contains a then s else s.modCore a.core fun k => { k with nxPending := k.nxPending.filter fun p => p.firing != some a.uid }
/-- The round closes when every module has delivered: its firings complete, held arrivals form the next rounds in their order (R311). -/
def State.closeRound (s : State) (asid : Nat) (r : Round) : State :=
  let s := (s.firingsDone r).modJob asid fun j => { j with rounds := j.rounds.filter fun x => x.tile != r.tile }
  r.held.foldl (fun s a => s.joinArrival asid r.tile a) s
/-- A module has delivered its part. -/
def State.delivered (s : State) (asid m : Nat) (r : Round) : State :=
  let r := { r with delivered := m :: r.delivered }
  match s.job? asid with
  | none => s
  | some j => if (j.tileModules r.entry).all r.delivered.contains then s.closeRound asid r else s.putRound asid r
/-- What a module does once its combination is done: a branch sends its partial to the root; the root delivers and sends the results.
Should held arrivals then form a round, every module of the tile looks at it; the last argument bounds how often. -/
def State.advanceFor (s : State) (asid tile m : Nat) : Nat → State
  | 0 => s
  | fuel + 1 =>
    match s.job? asid with
    | none => s
    | some j =>
      match j.rounds.find? fun r => r.tile == tile with
      | none => s
      | some r =>
        if !s.combined j r m || r.delivered.contains m then s
        else if m ≠ j.roundRoot r.entry then
          if r.sent.contains m then s
          else ((s.putRound asid { r with sent := m :: r.sent }).postHub m asid (.partial_ tile m)).countLink m (j.roundRoot r.entry) (48 * tlVals r.entry)
        else
          let others := (j.tileModules r.entry).filter (· ≠ m)
          let s := others.foldl (fun s x => (s.postHub m asid (.result tile x)).countLink m x (tlVals r.entry * codeBytes (tlOut r.entry))) s
          let s := (s.deliverOn asid m r).delivered asid m r
          if r.held.isEmpty then s else (j.tileModules r.entry).foldl (fun s x => s.advanceFor asid tile x fuel) s
/-- `advanceFor` with room for every held arrival. -/
def State.advanceRound (s : State) (asid tile m : Nat) : State :=
  s.advanceFor asid tile m ((((s.job? asid).bind fun j => j.rounds.find? fun r => r.tile == tile).map fun r => r.held.length).getD 0 + 1)

/-- A slot of the arrival is held by another tile's open round: it waits (R311). -/
def Job.slotBusy (j : Job) (tile e : Nat) : Bool :=
  j.rounds.any fun r => r.tile != tile && decide (tlSlot r.entry < tlSlot e + tlVals e) && decide (tlSlot e < tlSlot r.entry + tlVals r.entry)
/-- The lowest logical core index of a job on a module (R314). -/
def Job.lowestOn (j : Job) (m : Nat) : Option Nat := ((j.places.zipIdx.filter fun x => coreModule x.1 == m).head?).map Prod.snd
/-- The proxy vote of a mangle, with cause LINK (R314, R317). -/
def State.mangleVote (s : State) (asid m : Nat) : State :=
  match (s.job? asid).bind fun j => j.lowestOn m with
  | some i => s.postHub m asid (.further { index := i, abort := true, cause := cLINK, op := 0, val := 0 })
  | none => s
/-- A fresh arrival joins, and its module goes on; one at a mangle that has failed in this attempt is voted down (R311, R317; log entry 82). -/
def State.arriveRound (s : State) (asid tile m : Nat) (a : RoundArrival) : State :=
  let t := (s.joinArrival asid tile a).advanceRound asid tile m
  if ((s.job? asid).map fun j => s.mangleDown j a.entry m).getD false then t.mangleVote asid m else t
/-- MANGLE_ARRIVAL (R309 to R311). -/
def mangleArrival (n : Nat) (s : State) : State :=
  match s.net[n]? with
  | none => s
  | some m =>
    match m.kind, s.job? m.asid, s.core? m.src with
    | .fire tile e _ vs, some j, some k =>
      let a : RoundArrival := { index := k.index, core := m.src, ctx := m.ctx, uid := m.cmd.getD 0, seq := m.seq, entry := e, values := vs }
      match j.rounds.find? fun r => r.tile == tile with
      | some r =>
        if entryKey r.entry ≠ entryKey e then (s.dropMsg n).firingDone a cILLEGAL 0 0
        else (s.dropMsg n).arriveRound m.asid tile (coreModule m.src) a
      | none =>
        if j.slotBusy tile e then s
        else (s.dropMsg n).arriveRound m.asid tile (coreModule m.src) a
    | _, _, _ => s
def execMangleArrival (n : Nat) (s : State) : Result := .next (mangleArrival n s)
/-- MANGLE_PARTIAL_ARRIVAL (R314). -/
def manglePartialArrival (n : Nat) (s : State) : State :=
  match s.net[n]? with
  | none => s
  | some m =>
    match m.kind, s.job? m.asid with
    | .partial_ tile x, some j =>
      match j.rounds.find? fun r => r.tile == tile with
      | some r => ((s.dropMsg n).putRound m.asid { r with partials := x :: r.partials }).advanceRound m.asid tile (j.roundRoot r.entry)
      | none => s.dropMsg n
    | _, _ => s
def execManglePartialArrival (n : Nat) (s : State) : Result := .next (manglePartialArrival n s)
/-- MANGLE_RESULT_ARRIVAL (R313, R314); a mangle that has failed in this attempt delivers nothing (R317). -/
def mangleResultArrival (n : Nat) (s : State) : State :=
  match s.net[n]? with
  | none => s
  | some m =>
    match m.kind, s.job? m.asid with
    | .result tile x, some j =>
      match j.rounds.find? fun r => r.tile == tile with
      | some r =>
        if s.mangleDown j r.entry x then s.dropMsg n
        else
        let s' := ((s.dropMsg n).deliverOn m.asid x r).delivered m.asid x r
        if r.held.isEmpty then s' else (j.tileModules r.entry).foldl (fun s x => s.advanceRound m.asid tile x) s'
      | none => s.dropMsg n
    | _, _ => s
def execMangleResultArrival (n : Nat) (s : State) : Result := .next (mangleResultArrival n s)
/-- BLOCK_QUEUE_HANDOUT: an idle gateway core takes the next block of a round (R316). With no core in the gateway role on the module the round waits, though
a mangle works there: the spec names no carrier for it, and the wait is the model's choice (log entry 93). Once the attempt is decided no block is
handed out: a round that has not delivered by then delivers no more (R315, R334). -/
def blockQueueHandout (m asid tile : Nat) (s : State) : State :=
  match s.job? asid with
  | none => s
  | some j =>
    match j.rounds.find? fun r => r.tile == tile with
    | none => s
    | some r =>
      let b := dgetD r.blocks m 0
      if j.verdict.isNone && j.byGateway r.entry m && s.hasGateway m && j.gathered r m && !r.delivered.contains m && decide (b < blockCount r.entry) then
        (s.putRound asid { r with blocks := dset r.blocks m (b + 1) }).advanceRound asid tile m
      else s
def execBlockQueueHandout (m asid tile : Nat) (s : State) : Result := .next (blockQueueHandout m asid tile s)

/-- The mangle of a module takes part in an open round of the job. -/
def Job.openOn (j : Job) (m : Nat) : Bool :=
  j.rounds.any fun r => (j.tileModules r.entry).contains m && !r.delivered.contains m && !j.byGateway r.entry m
/-- A round of the job is open on the link between two modules (R314). -/
def Job.openLink (j : Job) (a b : Nat) : Bool :=
  j.rounds.any fun r => (j.tileModules r.entry).contains a && (j.tileModules r.entry).contains b && (j.roundRoot r.entry == a || j.roundRoot r.entry == b)
/-- A UALink failure makes the mangles on both sides vote for every job with an open round on the link (R314). -/
def State.linkVotes (s : State) (a b : Nat) : State :=
  if a = b then s
  else ((s.jobs.filter fun e => e.2.openLink a b).map Prod.fst).foldl (fun s x => (s.mangleVote x a).mangleVote x b) s
/-- MANGLE_FAILURE (R317). -/
def mangleFailure (m : Nat) (s : State) : State :=
  if ((s.module? m).map Module.mangleFailed).getD true then s
  else
    let hit := (s.jobs.filter fun e => e.2.openOn m).map Prod.fst
    let s := s.modModule m fun d => { d with mangleFailed := true }
    hit.foldl (fun s a => s.mangleVote a m) s
def execMangleFailure (m : Nat) (s : State) : Result := .next (mangleFailure m s)

end Sys2Proof.Machine
end

