-- ==== Sys2Proof/Machine/Sm3.lean ====
section
/-! DEFINITION. The SM3 digest (GB/T 32905), which the spec names and does not write out (R67, R81, R365). The constants and the round
are those of the standard (PRESUMED, log entry 7). -/

namespace Sys2Proof.Machine

/-- The eight working words. -/
structure Sm3 where
  a : Half32
  b : Half32
  c : Half32
  d : Half32
  e : Half32
  f : Half32
  g : Half32
  h : Half32
  deriving DecidableEq, Repr

def Sm3.iv : Sm3 :=
  { a := 0x7380166f, b := 0x4914b2b9, c := 0x172442d7, d := 0xda8a0600, e := 0xa96f30bc, f := 0x163138aa, g := 0xe38dee4d, h := 0xb0fb0e4e }
def sm3P0 (x : Half32) : Half32 := x ^^^ x.rotateLeft 9 ^^^ x.rotateLeft 17
def sm3P1 (x : Half32) : Half32 := x ^^^ x.rotateLeft 15 ^^^ x.rotateLeft 23
def sm3T (j : Nat) : Half32 := if j < 16 then 0x79cc4519 else 0x7a879d8a
def sm3FF (j : Nat) (x y z : Half32) : Half32 := if j < 16 then x ^^^ y ^^^ z else (x &&& y) ||| (x &&& z) ||| (y &&& z)
def sm3GG (j : Nat) (x y z : Half32) : Half32 := if j < 16 then x ^^^ y ^^^ z else (x &&& y) ||| (~~~x &&& z)

/-- One round with message words `w` and `w'`. -/
def Sm3.round (v : Sm3) (j : Nat) (w w' : Half32) : Sm3 :=
  let a12 := v.a.rotateLeft 12
  let ss1 := (a12 + v.e + (sm3T j).rotateLeft (j % 32)).rotateLeft 7
  let ss2 := ss1 ^^^ a12
  let tt1 := sm3FF j v.a v.b v.c + v.d + ss2 + w'
  let tt2 := sm3GG j v.e v.f v.g + v.h + ss1 + w
  { a := tt1, b := v.a, c := v.b.rotateLeft 9, d := v.c, e := sm3P0 tt2, f := v.e, g := v.f.rotateLeft 19, h := v.g }

/-- The expansion of a block to 68 words: the words so far, newest first. -/
def sm3Expand : Nat → List Half32 → List Half32
  | 0, w => w
  | n + 1, w =>
    let at_ := fun k => w.getD (k - 1) 0
    sm3Expand n ((sm3P1 (at_ 16 ^^^ at_ 9 ^^^ (at_ 3).rotateLeft 15) ^^^ (at_ 13).rotateLeft 7 ^^^ at_ 6) :: w)
/-- The rounds over the expanded words, in their order. -/
def Sm3.rounds (j : Nat) : Nat → List Half32 → Sm3 → Sm3
  | n + 1, w :: t, v => Sm3.rounds (j + 1) n t (v.round j w (w ^^^ t.getD 3 0))
  | _, _, v => v
def Sm3.xor (u v : Sm3) : Sm3 :=
  { a := u.a ^^^ v.a, b := u.b ^^^ v.b, c := u.c ^^^ v.c, d := u.d ^^^ v.d, e := u.e ^^^ v.e, f := u.f ^^^ v.f, g := u.g ^^^ v.g, h := u.h ^^^ v.h }
/-- One block of sixteen big-endian words. -/
def Sm3.block (v : Sm3) (ws : List Half32) : Sm3 := (Sm3.rounds 0 64 (sm3Expand 52 ws.reverse).reverse v).xor v

/-- Bytes as big-endian words. -/
def bigWords : List Nat → List Half32
  | a :: b :: c :: d :: t => BitVec.ofNat 32 (((a * 256 + b) * 256 + c) * 256 + d) :: bigWords t
  | _ => []
/-- The padded message of SM3. -/
def sm3Pad (bytes : List Nat) : List Nat :=
  let n := bytes.length
  let zeros := (119 - n % 64) % 64
  bytes ++ [0x80] ++ List.replicate zeros 0 ++ (List.range 8).map fun i => n * 8 / 256 ^ (7 - i) % 256
def Sm3.run : Nat → List Half32 → Sm3 → Sm3
  | 0, _, v => v
  | n + 1, ws, v => Sm3.run n (ws.drop 16) (v.block (ws.take 16))
/-- A word's bytes in output order, as a little-endian number. -/
def swap32 (w : Half32) : Nat :=
  let n := w.toNat
  n / 2 ^ 24 + n / 2 ^ 16 % 256 * 2 ^ 8 + n / 2 ^ 8 % 256 * 2 ^ 16 + n % 256 * 2 ^ 24
/-- The digest with its first output byte at the lowest address (R67, R81). -/
def Sm3.toNat (v : Sm3) : Nat :=
  swap32 v.a + swap32 v.b * 2 ^ 32 + swap32 v.c * 2 ^ 64 + swap32 v.d * 2 ^ 96 + swap32 v.e * 2 ^ 128 + swap32 v.f * 2 ^ 160
    + swap32 v.g * 2 ^ 192 + swap32 v.h * 2 ^ 224
/-- SM3 of a string of bytes. -/
def sm3 (bytes : List Nat) : Nat :=
  let ws := bigWords (sm3Pad bytes)
  (Sm3.run (ws.length / 16) ws Sm3.iv).toNat
/-- `n` bytes of a little-endian number. -/
def bytesOf (v : Nat) (n : Nat) : List Nat := (List.range n).map fun i => v / 256 ^ i % 256
/-- `n` bytes of a memory. -/
def bytesAt (m : Memory) (a n : Nat) : List Nat := (List.range n).map fun i => (readByte m (a + i)).toNat

end Sys2Proof.Machine
end

