-- ==== Sys2Proof/Machine/Journal.lean ====
section
/-! DEFINITION. The command journal with its held table and mirror (R80 to R84), completions and their rings (R75, R78), management events
(R362), and the end of a job (R85, R358). -/

namespace Sys2Proof.Machine

-- journal causes (R81)
def cBADKIND : Nat := 0x40
def cBADFIELD : Nat := 0x41
def cBADIMAGE : Nat := 0x42
def cDIGEST : Nat := 0x43
def cUNSUPPORTED : Nat := 0x44
def cASIDBUSY : Nat := 0x45
def cNOTLIVE : Nat := 0x46
def cBADSTATE : Nat := 0x47
def cNOPLACE : Nat := 0x48
def cIMGREAD : Nat := 0x49
-- journal states (R82)
def jACCEPTED : Nat := 0
def jPLACED : Nat := 1
def jRUNNING : Nat := 2
def jCOMMITTED : Nat := 3
def jCOMPLETED : Nat := 4
def jFAULTED : Nat := 5
def jCANCELLED : Nat := 6
def jPAUSED : Nat := 7

/-- Final states (R82). -/
def Entry.final (e : Entry) : Bool := e.state == jCOMPLETED || e.state == jFAULTED || e.state == jCANCELLED
/-- The 64 bytes of an entry (R81). -/
def Entry.toNat (e : Entry) : Nat :=
  e.jsn % 2 ^ 48 + e.qseq * 2 ^ 64 + e.queue * 2 ^ 112 + e.kind * 2 ^ 128 + e.cause * 2 ^ 136 + e.state * 2 ^ 144 + e.asid * 2 ^ 160
    + e.ssn * 2 ^ 192 + e.digest * 2 ^ 256

/-- The place of an entry in the held table (R83). -/
def Module.heldPlace (d : Module) (jsn : Nat) : Option Nat := (d.heldTab.find? fun x => x.2.jsn == jsn).map Prod.fst
/-- The entry of a JSN, in its slot or in the held table (R83). -/
def Module.entry? (d : Module) (jsn : Nat) : Option Entry :=
  match dget? d.slots (jsn % 65536) with
  | some e => if e.jsn = jsn then some e else (d.heldTab.find? fun x => x.2.jsn == jsn).map Prod.snd
  | none => (d.heldTab.find? fun x => x.2.jsn == jsn).map Prod.snd
def State.entry? (s : State) (m jsn : Nat) : Option Entry := (s.module? m).bind fun d => d.entry? jsn
/-- The lowest JSN still held (R83). -/
def Module.oldest (d : Module) : Nat := (d.slots.map (fun e => e.2.jsn) ++ d.heldTab.map fun e => e.2.jsn).foldl min d.jhead

/-- A write of the Q4 into host memory at a bus address. -/
def State.hostPut (s : State) (a n v : Nat) : State := { s with host := writeMem s.host a n v }
/-- The mirror's copy of an entry at an offset (R84). -/
def State.mirrorAt (s : State) (m off : Nat) (e : Entry) : State :=
  match s.module? m with
  | some d => if d.jmen then s.hostPut (d.jmbase + off) 64 e.toNat else s
  | none => s
def slotOffset (jsn : Nat) : Nat := 64 * (jsn % 65536)
def heldOffset (h : Nat) : Nat := 0x400000 + 64 * h
/-- A change of an entry, mirrored where it stands (R84). -/
def State.modEntry (s : State) (m jsn : Nat) (f : Entry → Entry) : State :=
  match s.module? m with
  | none => s
  | some d =>
    match dget? d.slots (jsn % 65536), d.heldTab.find? fun x => x.2.jsn == jsn with
    | some e, h =>
      if e.jsn = jsn then (s.modModule m fun d => { d with slots := dset d.slots (jsn % 65536) (f e) }).mirrorAt m (slotOffset jsn) (f e)
      else
        match h with
        | some (p, x) => (s.modModule m fun d => { d with heldTab := dset d.heldTab p (f x) }).mirrorAt m (heldOffset p) (f x)
        | none => s
    | none, some (p, x) => (s.modModule m fun d => { d with heldTab := dset d.heldTab p (f x) }).mirrorAt m (heldOffset p) (f x)
    | none, none => s
/-- Every held entry is copied to the mirror (R72). -/
def State.mirrorAll (s : State) (m : Nat) : State :=
  match s.module? m with
  | none => s
  | some d =>
    let s := d.slots.foldl (fun s e => s.mirrorAt m (slotOffset e.2.jsn) e.2) s
    d.heldTab.foldl (fun s e => s.mirrorAt m (heldOffset e.1) e.2) s

-- accepted commands (R76)
def cmdKind (b : Nat) : Nat := field b 0 8
def cmdAsid (b : Nat) : Nat := field b 32 14
/-- A CANCEL, PAUSE or RESUME for the job has been accepted at its home module and is still to be carried out (R85). -/
def State.requestsDue (s : State) (asid : Nat) (j : Job) : Bool :=
  ((s.module? j.home).map fun d => d.commands.any fun c => decide (2 ≤ cmdKind c.bytes) && decide (cmdKind c.bytes ≤ 4) && cmdAsid c.bytes == asid).getD false

-- queues and completions (R73 to R78)
def Module.queue (d : Module) (q : Nat) : Queue := dgetD d.queues q Queue.reset
def Module.modQueue (d : Module) (q : Nat) (f : Queue → Queue) : Module := { d with queues := dset d.queues q (f (d.queue q)) }
def State.modQ (s : State) (m q : Nat) (f : Queue → Queue) : State := s.modModule m fun d => d.modQueue q f
def State.complete (s : State) (m q : Nat) (c : Completion) : State := s.modQ m q fun x => { x with pending := x.pending ++ [c] }
/-- The completion ring holds 2^SIZE - 1 entries that the host has not consumed (R75). -/
def Queue.full (q : Queue) : Bool := (q.cidx + 1) % 2 ^ q.size == q.chead % 2 ^ q.size
/-- The 16 bytes of a completion (R78). -/
def Completion.toNat (c : Completion) (phase : Bool) : Nat :=
  c.qseq % 2 ^ 48 + c.jsn % 2 ^ 48 * 2 ^ 48 + c.status * 2 ^ 96 + c.cause * 2 ^ 104 + (if phase then 2 ^ 127 else 0)
/-- MSI-X is enabled when a message falls due. The configuration write that sets the enable has no row of its own: a free value says whether
it has come since the reset (log entry 45). -/
def State.msixReady (s : State) (m : Nat) : Bool × State :=
  if ((s.module? m).map Module.msixOn).getD false then (true, s)
  else (s.drawBool.1, s.drawBool.2.modModule m fun d => { d with msixOn := s.drawBool.1 })
/-- An MSI-X message: written to host memory, or pending while its vector is masked; none while MSI-X is not enabled. -/
def State.msix (s : State) (m vec : Nat) : State :=
  let (on, s) := s.msixReady m
  if !on then s
  else
    match (s.module? m).bind fun d => dget? d.msix vec with
    | some e => if e.masked then s.modModule m fun d => { d with pba := vec :: d.pba.filter (· ≠ vec) } else s.hostPut e.addr 4 e.data
    | none => s.modModule m fun d => { d with pba := vec :: d.pba.filter (· ≠ vec) }
/-- COMPLETION_WRITE: the queue's oldest completion goes into its ring, held while the ring is full; indexes count modulo 2^SIZE (R75, R78,
R84). -/
def completionWrite (m q : Nat) (s : State) : State :=
  match s.module? m with
  | none => s
  | some d =>
    let x := d.queue q
    match x.pending with
    | [] => s
    | c :: rest =>
      if x.full then s
      else
        let s := s.hostPut (x.cbase + 16 * (x.cidx % 2 ^ x.size)) 16 (c.toNat x.cphase)
        let next := (x.cidx + 1) % 2 ^ x.size
        let s := s.modQ m q fun x => { x with pending := rest, cidx := next, cphase := if next = 0 then !x.cphase else x.cphase }
        if x.irq then s.msix m x.vec else s
def execCompletionWrite (m q : Nat) (s : State) : Result := .next (completionWrite m q s)

/-- A command's entry reaches a final state, then its second completion is due (R78, R82, R84). -/
def State.finishCmd (s : State) (m jsn state cause : Nat) : State :=
  match s.entry? m jsn with
  | none => s
  | some e =>
    if e.final then s
    else
      (s.modEntry m jsn fun e => { e with state := state, cause := cause }).complete m e.queue
        { status := state + 12, cause := if state = jFAULTED then cause else 0, jsn := jsn, qseq := e.qseq }

-- management events (R362)
def eventWord (kind die row col role : Nat) : Word :=
  BitVec.ofNat 64 (kind * 2 ^ 56 + die % 4 * 2 ^ 40 + row * 2 ^ 36 + col * 2 ^ 32 + role)
/-- An event enters the queue of 256, or counts as lost. -/
def State.event (s : State) (m : Nat) (w a : Word) : State :=
  s.modModule m fun d => if d.events.length < 256 then { d with events := d.events ++ [(w, a)] } else { d with lost := d.lost + 1 }

-- the end of a job
/-- The pager writes back and evicts every frame of the ASID's pool on a module (R116, R358). -/
def State.evictPool (s : State) (m asid root : Nat) : State :=
  match s.poolOf m root with
  | none => s
  | some p => (List.range p.frames).foldl (fun s f => if s.frameFree m p f then s else s.evict m asid p f) s
/-- The write-backs of a job's frames, on some module of it, may meet a reserved bank (R125). -/
def State.endBusy (s : State) (j : Job) : Bool := j.modules.any fun m => s.poolBusy m j.root none
/-- A dirty frame of the pool cannot be read (R359), or what says which frames are dirty cannot: the pool entry, a record or a leaf entry (R123;
log entry 96). -/
def State.lostFrame (s : State) (m root : Nat) : Bool :=
  match s.poolOf m root with
  | none => s.poolPoisoned m root
  | some p => (List.range p.frames).any fun f =>
      s.recPoisoned m p f || !s.frameFree m p f && (s.frameUnreadable m p f || pteD (s.rdPa m (s.frameRec m p f).2 8) && s.poisoned m (p.frame f))
/-- What a job holds on its positions is given up: frames written back, banks, claims, cores, forwarding entries, messages (R341, R358). -/
def State.vacate (s : State) (asid : Nat) (j : Job) : State :=
  let s := j.modules.foldl (fun s m => s.evictPool m asid j.root) s
  let s := j.places.foldl (fun s c => (s.releaseBank c).dropClaims c) s
  let s := s.dropTlbAsid asid
  let dropF := fun (d : Die) => { d with forwards := d.forwards.filter fun f => f.asid != asid }
  { s with
    cores := s.cores.filter fun e => e.2.asid != asid
    net := s.net.filter fun m => m.asid != asid
    modules := dmap s.modules fun _ m => { m with dies := dmap m.dies fun _ d => dropF d, hand := derase m.hand asid } }
def State.releaseJob (s : State) (asid : Nat) : State :=
  match s.job? asid with
  | none => s
  | some j => { s.vacate asid j with jobs := derase (s.vacate asid j).jobs asid }
/-- The job ends (R82, R85): its LAUNCH entry takes the state; the CANCEL `by_` that took effect is carried out; every other pending
request finds no live job. -/
def State.endJob (s : State) (asid state cause : Nat) (by_ : Option Nat) : State :=
  match s.job? asid with
  | none => s
  | some j =>
    let s := (s.releaseJob asid).finishCmd j.home j.jsn state cause
    j.pending.foldl (fun s r =>
      if some r.jsn = by_ then s.finishCmd j.home r.jsn jCOMPLETED 0 else s.finishCmd j.home r.jsn jFAULTED cNOTLIVE) s

/-- The state `t` after a step on job `asid`, unless the step ends the job while its write-backs meet a reserved bank: then the step is still to
come (R125). -/
def State.unlessBusy (s t : State) (asid : Nat) : State :=
  if (t.job? asid).isNone && ((s.job? asid).map s.endBusy).getD false then s else t

end Sys2Proof.Machine
end

