-- ==== Sys2Proof/Machine/Placement.lean ====
section
/-! DEFINITION. Where a job goes: candidate shapes and rectangles (R90 to R94), the division of die shared SRAM (R96), the placement map
(R97), slot windows (R307), spare cores and their roles (R22, R23), patches (R98, R99, R349) and migration (R100, R101, R342). -/

namespace Sys2Proof.Machine

/-- A candidate shape: rectangles, rows and columns of each (R92). -/
structure Shape where
  count : Nat
  rr : Nat
  cc : Nat
  deriving DecidableEq, Repr

def Job.codeBytes (j : Job) : Nat := (j.codes.map Prod.snd).sum
/-- The job's share of each die (R96). -/
def Job.share (j : Job) : Nat := j.limit - j.codeBytes
def sharePool : Nat := 0x4000000
def codeRegion : Nat := 0x1000000

/-- Steps 1 and 2 of R92. -/
def gridShape (r c : Nat) : List Shape :=
  if r ≠ 0 ∧ c ≠ 0 ∧ (r ≤ 16 ∨ r % 16 = 0) ∧ (c ≤ 16 ∨ c % 16 = 0) then
    [{ count := r / min r 16 * (c / min c 16), rr := min r 16, cc := min c 16 }]
  else []
/-- The shapes of one rectangle count, by RR + CC and then RR. -/
def rectShapes (m q : Nat) : List Shape :=
  sortBy (fun x => (x.rr + x.cc) * 32 + x.rr) ((List.range 16).filterMap fun i =>
    if q % (i + 1) = 0 ∧ q / (i + 1) ≤ 16 then some { count := m, rr := i + 1, cc := q / (i + 1) } else none)
/-- The list for ROWS = 0. -/
def autoShapes (n : Nat) (spandie spanmod : Bool) : List Shape :=
  (List.range (min n 4096)).flatMap fun i =>
    let m := i + 1
    if n % m = 0 ∧ (m = 1 ∨ (spandie ∧ m ≤ 4) ∨ spanmod) then rectShapes m (n / m) else []
/-- The candidate shapes of a job in their order (R92). -/
def Job.shapes (j : Job) : List Shape :=
  let listed := autoShapes j.n j.spandie j.spanmod
  if j.rows = 0 then listed
  else if j.exact then gridShape j.rows j.cols
  else gridShape j.rows j.cols ++ gridShape j.cols j.rows ++ listed
/-- An empty pod of `mods` modules could hold the shape (R90, R92, R96, R307). -/
def Job.possible (j : Job) (mods : Nat) (x : Shape) : Bool :=
  let per := if j.spandie then 4 else 1
  (x.count == 1 || j.spandie || j.spanmod) && (decide (x.count ≤ per) || j.spanmod) && decide (x.count ≤ per * mods)
    && decide (j.share ≤ sharePool) && decide (j.codeBytes ≤ codeRegion) && decide (j.window ≤ 4096)

/-- A position is free: in no partition, not permanently fenced, no forwarding entry (R93, R342). -/
def State.positionFree (s : State) (c : CoreId) : Bool :=
  (s.core? c).isNone && !(s.patch c).perm && !((s.die (coreDie c)).forwards.any fun f => f.old == c)
def State.freeOn (s : State) (d : DieId) : List CoreId := ((List.range 256).map (d * 256 + ·)).filter s.positionFree
/-- Shares and code of the jobs on a die. -/
def State.shareUsed (s : State) (d : DieId) : Nat := (s.jobs.map fun e => if e.2.hasDie d then e.2.share else 0).sum
def State.codeUsed (s : State) (d : DieId) : Nat := (s.jobs.map fun e => if e.2.hasDie d then e.2.codeBytes else 0).sum
/-- The cores of a rectangle. -/
def Rect.cores (r : Rect) (rr cc : Nat) : List CoreId :=
  (List.range rr).flatMap fun i => (List.range cc).map fun k => r.die * 256 + (r.row + i) * 16 + r.col + k
/-- The first free origin on a die: an even side has an even origin (R91). -/
def fitOn (free : List CoreId) (d : DieId) (rr cc : Nat) : Option Rect :=
  let ok := fun (r : Rect) => (r.cores rr cc).all free.contains
  let origins := fun (n : Nat) => (List.range (17 - n)).filter fun o => n % 2 = 1 || o % 2 = 0
  firstSome ((origins rr).flatMap fun r => (origins cc).map fun c =>
    if ok { die := d, row := r, col := c } then some { die := d, row := r, col := c } else none)
/-- A free slot window on a module (R307). -/
def State.freeWindow (s : State) (m size : Nat) : Option Nat :=
  let used := s.jobs.filterMap fun e => (dget? e.2.windows m).map fun b => (b, e.2.window)
  (List.range 64).map (64 * ·) |>.find? fun b => decide (b + size ≤ 4096) && used.all fun u => decide (u.1 + u.2 ≤ b) || decide (b + size ≤ u.1)

/-- The die of one more rectangle (R93): the fewest free cores left, then the lowest module, die and origin. -/
def State.nextRect (s : State) (j : Job) (x : Shape) (dies : List DieId) (taken : List Rect) : Option Rect :=
  let admits := fun (d : DieId) =>
    !(taken.any fun r => r.die = d) && (j.spandie || !(taken.any fun r => dieModule r.die = dieModule d))
      && decide (s.shareUsed d + j.share ≤ sharePool) && decide (s.codeUsed d + j.codeBytes ≤ codeRegion)
      && (j.window == 0 || (taken.any fun r => dieModule r.die = dieModule d) || (s.freeWindow (dieModule d) j.window).isSome)
  let fits := (dies.filter admits).filterMap fun d => (fitOn (s.freeOn d) d x.rr x.cc).map fun r => ((s.freeOn d).length, r)
  (leastBy Prod.fst fits).map Prod.snd
/-- Rectangles one at a time (R93). -/
def State.placeRects (s : State) (j : Job) (x : Shape) (dies : List DieId) : Nat → List Rect → Option (List Rect)
  | 0, taken => some taken
  | n + 1, taken =>
    match s.nextRect j x dies taken with
    | some r => s.placeRects j x dies n (taken ++ [r])
    | none => none
def diesOf (m : Nat) : List DieId := (List.range 4).map (4 * m + ·)
/-- The modules on which a job can be placed. -/
def State.upModules (s : State) : List Nat := (s.modules.filter fun e => e.2.power == .d0 && e.2.ready).map Prod.fst
/-- A placement of one shape (R93): without SPANMOD on the lowest module that admits all. -/
def State.tryShape (s : State) (j : Job) (x : Shape) : Option (List Rect) :=
  if j.spanmod then s.placeRects j x (s.upModules.flatMap diesOf) x.count []
  else firstSome (s.upModules.map fun m => s.placeRects j x (diesOf m) x.count [])
/-- The candidates that an empty pod could hold; a parked job keeps its shape (R341). -/
def State.candidates (s : State) (j : Job) : List Shape :=
  if j.parked.isSome then [{ count := j.n / (j.rr * j.cc), rr := j.rr, cc := j.cc }] else j.shapes.filter (j.possible s.modules.length)
/-- The first candidate that can be placed now. -/
def State.findPlace (s : State) (j : Job) : Option (Shape × List Rect) :=
  firstSome ((s.candidates j).map fun x => (s.tryShape j x).map fun r => (x, r))

/-- The placement map (R97). -/
def Rect.mapEntry (r : Rect) : Nat := dieModule r.die * 2 ^ 32 + r.die % 4 * 2 ^ 28 + r.row * 2 ^ 24 + r.col * 2 ^ 20
def Job.writeMap (j : Job) (m : Memory) : Memory := j.rects.zipIdx.foldl (fun m x => writeMem m (j.limit + 8 * x.2) 8 x.1.mapEntry) m
/-- Every die's copy of the map is written, for good. -/
def Job.putMap (j : Job) : Job :=
  { j with dss := j.rects.foldl (fun d r => dset d r.die (let m := dgetD d r.die Mem.empty; { cur := j.writeMap m.cur, base := j.writeMap m.base })) j.dss }
/-- A slot window on every module of the job (R307). -/
def State.giveWindows (s : State) (j : Job) : Job :=
  if j.window = 0 then j else { j with windows := j.modules.foldl (fun w m => match s.freeWindow m j.window with | some b => dset w m b | none => w) [] }

-- spare cores and patches (R23, R349)
/-- The quad of a position within its die, and the die quadrant of a quad. -/
def quadIn (c : CoreId) : Nat := coreRow c / 2 * 8 + coreCol c / 2
def quadrantOf (q : Nat) : Nat × Nat := (q / 8 / 4, q % 8 / 4)
def absDiff (a b : Nat) : Nat := a - b + (b - a)
def quadHops (a b : Nat) : Nat := absDiff (a / 8) (b / 8) + absDiff (a % 8) (b % 8)
/-- The standby that takes over a role (R23). Of several in the die quadrant, or equally near outside it, the spec names none: the model takes the
nearest in quad hops, and among those the lowest quad (DESIGN CHOICE, log entry 46). -/
def Die.standbyFor (d : Die) (q : Nat) : Option Nat :=
  let free := (d.roles.filter fun e => e.2 == .standby).map Prod.fst
  match leastBy (quadHops q) (free.filter fun x => quadrantOf x = quadrantOf q) with
  | some x => some x
  | none => leastBy (quadHops q) free
def Role.code : Role → Nat
  | .steward => 0
  | .service => 1
  | _ => 2
/-- The spare of a quad leaves its role: it passes to a standby, or lapses with an event (R23). -/
def State.passRole (s : State) (d : DieId) (q : Nat) (r : Role) : State :=
  if r = .standby then s
  else
    match (s.die d).standbyFor q with
    | some x => s.modDie d fun y => { y with roles := dset y.roles x r }
    | none => s.event (dieModule d) (eventWord 1 d 0 0 r.code) 0
/-- A position starts on other hardware: its service and heartbeat state is that of a core out of reset. `hbperiod` is the die's, the die's heartbeat
clock goes on, and what the position's links have delivered in its period stands (R344). That the count of rejected appeals does not start anew once the
position has been readmitted is the model's choice (R348; DESIGN CHOICE, log entry 104). -/
def State.freshPos (s : State) (c : CoreId) : State :=
  let p := s.pos c
  { s with positions := dset s.positions c { Pos.reset with
      hbperiod := p.hbperiod, probation := p.probation, rejections := p.rejections, lastBeat := p.lastBeat, lastCheck := p.lastCheck
      heard := p.heard, crcs := p.crcs, headers := p.headers, seen := p.seen } }
/-- The rectangle of the job at a position has a patch at the present boundary (R342). -/
def State.notePatch (s : State) (c : CoreId) : State :=
  match s.core? c with
  | none => s
  | some k => s.modJob k.asid fun j => { j with patchedAt := k.rect :: j.patchedAt }
/-- What the neighbours of a position had counted of its appeal, and the acceptances they hold, lapse: it was rejected, or is readmitted
(R348). -/
def State.forgetAppeal (s : State) (c : CoreId) : State :=
  (List.range 4).foldl (fun s i => match neighbour c i with
    | some d => s.modPos d fun p => { p with accepted := p.accepted.filter fun a => a.1 ≠ c, clean := derase p.clean ((i + 2) % 4) }
    | none => s) s
/-- The misses that the neighbours of a position count begin anew: it is no present neighbour while it is fenced (R344, R345). -/
def State.forgetMisses (s : State) (c : CoreId) : State :=
  (List.range 4).foldl (fun s i => match neighbour c i with
    | some d => s.modPos d fun p => { p with misses := derase p.misses ((i + 2) % 4) }
    | none => s) s
/-- Another position of the quad, of a placed job, was fenced before this one and waits for the spare: the first is patched (R352). -/
def State.spareWanted (s : State) (c : CoreId) : Bool :=
  ([0, 1, 16, 17].map fun o => c - coreSlot c / 2 * 16 - coreSlot c % 2 + o).any fun d =>
    d != c && (s.patch d).fenced && !(s.patch d).perm && (s.patch d).slot != 4 && (s.core? d).isSome && decide ((s.pos d).fencedAt < (s.pos c).fencedAt)
/-- PERM is set, a change of the position, with its event (R348, R350, R351, R362). -/
def State.fenceForGood (s : State) (c : CoreId) : State :=
  if (s.patch c).perm then s
  else ((s.setPatch c { s.patch c with perm := true }).modDie (coreDie c) fun d => { d with lastPos := c % 256 }).event (coreModule c) (eventWord 3 (coreDie c) (coreRow c) (coreCol c) 0) 0
/-- The steward patches a fenced position onto its quad's spare, or sets PERM when the spare is patched in, has failed, or goes to a position that
was fenced before (R349, R350, R352). Where the steward's own role has lapsed, no standby being left (R23), the spec does not say who patches: the
model goes on patching, readmitting and passing roles (DESIGN CHOICE, log entry 100). -/
def State.patchPosition (s : State) (c : CoreId) : State :=
  let d := coreDie c
  let p := s.patch c
  match dgetD (s.die d).roles (quadIn c) .patched with
  | .patched | .failed => s.fenceForGood c
  | r =>
    if s.spareWanted c then s.fenceForGood c
    else
    let s := s.passRole d (quadIn c) r
    let s := s.modDie d fun y => { y with roles := dset y.roles (quadIn c) .patched, lastPos := c % 256 }
    let s := ((s.setPatch c { p with fenced := false, slot := 4 }).freshPos c).notePatch c
    ((s.modCore c fun k => { k with dead := false }).event (dieModule d) (eventWord 2 d (coreRow c) (coreCol c) 0) 0).count (dieModule d) 4 1
/-- A job is at a boundary: its cores have finished with an attempt, or it does not run (R99, R283). -/
def State.atBoundary (s : State) (j : Job) : Bool :=
  j.stage != .running || j.held || j.places.all fun c => ((s.core? c).map fun k => k.phase == .applied || k.phase == .rolled || k.phase == .held).getD true
/-- Every job on a quad is at a boundary (R99). -/
def State.quadQuiet (s : State) (q : QuadId) : Bool := s.jobs.all fun e => !(e.2.places.any fun c => coreQuad c == q) || s.atBoundary e.2

-- service CSRs
/-- The service CSRs of a position. -/
def Pos.service (p : Pos) : ServiceRegs := { sel := p.cpsel, cause := p.svcause, epc := p.svepc, tval := p.svtval, scratch := p.svscratch }
/-- The position with other service CSRs: those of the core that now stands there (R327; log entry 48). -/
def Pos.withService (p : Pos) (r : ServiceRegs) : Pos := { p with cpsel := r.sel, svcause := r.cause, svepc := r.epc, svtval := r.tval, svscratch := r.scratch }

-- migration (R100, R101, R342)
/-- A rectangle of a job may move to a place on another die by the rules for placing (R90, R91, R96, R100, R307). -/
def State.admitsMove (s : State) (j : Job) (r : Nat) (old new : Rect) : Bool :=
  let others := j.rects.eraseIdx r
  let crosses := dieModule new.die ≠ dieModule old.die
  decide (new.die ≠ old.die) && (j.rr % 2 == 1 || new.row % 2 == 0) && (j.cc % 2 == 1 || new.col % 2 == 0)
    && decide (new.row + j.rr ≤ 16) && decide (new.col + j.cc ≤ 16)
    && !(others.any fun x => x.die = new.die) && (j.spandie || !(others.any fun x => dieModule x.die = dieModule new.die))
    && (j.spanmod || others.isEmpty || !crosses)
    && (j.window == 0 || (dget? j.windows (dieModule new.die)).isSome || (s.freeWindow (dieModule new.die) j.window).isSome)
    && decide (s.shareUsed new.die + j.share ≤ sharePool) && decide (s.codeUsed new.die + j.codeBytes ≤ codeRegion)
    && s.upModules.contains (dieModule new.die) && (new.cores j.rr j.cc).all s.positionFree
/-- The die has a forwarding entry for every position that the rectangle would vacate (R101). A rectangle of more than 64 cores never moves:
each of its positions needs an entry, and a die holds 64 (DEDUCED, log entry 47). -/
def State.forwardRoom (s : State) (j : Job) (old : Rect) : Bool := decide ((s.die old.die).forwards.length + j.rr * j.cc ≤ 64)
/-- The job stands at a boundary that R342 admits for a migration of rectangle `r`: after a commit, or the aborted one of R350, and with no
patch of the rectangle at the same boundary. -/
def State.mayMigrate (s : State) (j : Job) (r : Nat) : Bool :=
  j.stage == .running && j.held && j.parked.isNone && j.verdict.isNone && !j.patchedAt.contains r
    && !s.endBusy j
    && (((j.lastAttempt.map Verdict.commit).getD false)
      || j.places.any fun c => (s.patch c).fenced && (s.patch c).perm && ((s.core? c).map fun k => k.rect == r).getD false)
/-- Where a rectangle could move now, in the order of dies of R93. -/
def State.freeRects (s : State) (j : Job) (r : Nat) (old : Rect) : List Rect :=
  let fits := (s.upModules.flatMap diesOf).filterMap fun d => (fitOn (s.freeOn d) d j.rr j.cc).map fun x => ((s.freeOn d).length, x)
  ((sortBy Prod.fst fits).map Prod.snd).filter (s.admitsMove j r old)
/-- Rectangle `r` of a job moves: its cores keep index and state, its memories, tile tables and slot window go along, its positions forward
(R100, R101, R342). -/
def State.migrate (s : State) (asid : Nat) (j : Job) (r : Nat) (old new : Rect) : State :=
  let others := j.rects.eraseIdx r
  let pairs := (old.cores j.rr j.cc).zip (new.cores j.rr j.cc)
  let s := (s.evictPool (dieModule old.die) asid j.root).dropTlbAsid asid
  let s := pairs.foldl (fun s p => (s.releaseBank p.1).dropClaims p.1) s
  let moved := pairs.filterMap fun p => (s.core? p.1).map fun k => (p.2, { k with dead := false })
  let s := pairs.foldl (fun s p => s.modPos p.2 fun q => q.withService (s.pos p.1).service) s
  let s := { s with cores := s.cores.filter fun e => !(pairs.any fun p => p.1 = e.1) }
  let s := moved.foldl (fun s e => s.setCore e.1 e.2) s
  let qsp := pairs.foldl (fun (q : Dict Mem) p => if (dget? q (coreQuad p.2)).isSome then q else dset q (coreQuad p.2) (dgetD j.qsp (coreQuad p.1) Mem.empty))
    (j.qsp.filter fun e => !(pairs.any fun p => coreQuad p.1 = e.1))
  let dss := dset (derase j.dss old.die) new.die (dgetD j.dss old.die Mem.empty)
  let windows := match s.freeWindow (dieModule new.die) j.window with
    | some b => if j.window = 0 || (dget? j.windows (dieModule new.die)).isSome then j.windows else dset j.windows (dieModule new.die) b
    | none => j.windows
  let windows := if others.any fun x => dieModule x.die = dieModule old.die then windows
    else if dieModule new.die ≠ dieModule old.die then derase windows (dieModule old.die) else windows
  let s := s.setJob asid ({ j with rects := j.rects.set r new, qsp := qsp, dss := dss, windows := windows }).putMap
  let keep := fun (f : Forward) => if f.asid = asid then (match pairs.find? fun p => p.1 = f.new with | some p => { f with new := p.2 } | none => f) else f
  let s := { s with modules := dmap s.modules fun _ m => { m with dies := dmap m.dies fun _ d => { d with forwards := d.forwards.map keep } } }
  s.modDie old.die fun d => { d with forwards := d.forwards ++ pairs.map fun p => { asid := asid, old := p.1, new := p.2, commits := 0 } }

end Sys2Proof.Machine
end

