-- ==== Sys2Proof/Machine/Supersteps.lean ====
section
/-! DEFINITION. The closing barrier and what follows it: votes, further and urgent aborts, doom notices and outcomes (R279 to R283, R331,
R332), applying (R284, R285), rolling back (R334), the boundary and the next superstep (R33, R85, R269, R336), retirement (R357, R358),
the watchdog (R337) and QDEAD (R338). -/

namespace Sys2Proof.Machine

-- the root of the closing barrier (R279 to R281)
def Job.voteOf (j : Job) (i : Nat) : Option Vote := j.votes.find? fun v => v.index == i
def Job.proxyOf (j : Job) (i : Nat) : Option Vote := j.proxies.find? fun v => v.index == i
/-- The cause with which an index votes abort: its own first, else the first message that stands for it (R279, R331, R333). -/
def Job.abortOf (j : Job) (i : Nat) : Option Nat :=
  match j.voteOf i with
  | some v => if v.abort then some v.cause else (j.proxyOf i).map Vote.cause
  | none => (j.proxyOf i).map Vote.cause
/-- The vote of an index is in: its own, or the proxy of a fenced core (R333). -/
def State.voteIn (s : State) (j : Job) (i : Nat) : Bool :=
  (j.voteOf i).isSome || ((j.proxyOf i).isSome && ((j.coreAt i).map fun c => (s.patch c).fenced).getD false)
/-- The outcome of N votes (R281). -/
def Job.outcomeOf (j : Job) : Verdict :=
  match firstSome ((List.range j.n).map fun i => (j.abortOf i).map fun c => (i, c)) with
  | some (i, c) => { commit := false, cause := c, index := i, origin := 0, val := 0 }
  | none =>
    let op := ((j.voteOf 0).map Vote.op).getD 0
    match leastBy Vote.index (j.votes.filter fun v => v.op ≠ op) with
    | some v => { commit := false, cause := cILLEGAL, index := v.index, origin := 0, val := 0 }
    | none => { commit := true, cause := 0, index := 0, origin := 0, val := combineAll op (j.votes.map Vote.val) }
/-- A message of the barrier network to every core of the job. -/
def State.toCores (s : State) (asid : Nat) (j : Job) (kind : MsgKind) : State := j.places.foldl (fun s c => s.post c asid kind) s
/-- A core of the job has stopped in its control state and is not fenced yet (R331). -/
def State.awaitsFence (s : State) (j : Job) : Bool := j.places.any fun c => ((s.core? c).map Core.dead).getD false && !(s.patch c).fenced
/-- After a decision the watchdog counts only while an aborted attempt waits for the fence of a core that has stopped (R331, R337). -/
def State.watchRolling (s : State) (asid : Nat) : State :=
  match s.job? asid with
  | none => s
  | some j =>
    match j.verdict with
    | none => s
    | some v =>
      if !v.commit && s.awaitsFence j then s.setJob asid { j with wdFrom := some (j.wdFrom.getD s.clock) }
      else s.setJob asid { j with wdCount := j.ran s.clock, wdFrom := none }
/-- The outcome is decided once and broadcast; the watchdog stops counting unless a core has stopped (R281, R282, R337). -/
def State.announce (s : State) (asid : Nat) (v : Verdict) : State :=
  match s.job? asid with
  | none => s
  | some j => ((s.setJob asid { j with verdict := some v }).watchRolling asid).toCores asid j (.outcome v)
def State.tryOutcome (s : State) (asid : Nat) : State :=
  match s.job? asid with
  | none => s
  | some j => if j.verdict.isNone && (List.range j.n).all (s.voteIn j) then s.announce asid j.outcomeOf else s
/-- The first abort vote of an attempt broadcasts the doom notice (R332). -/
def State.doomJob (s : State) (asid : Nat) : State :=
  match s.job? asid with
  | none => s
  | some j => if j.doomed || j.verdict.isSome then s else (s.setJob asid { j with doomed := true }).toCores asid j .doom
/-- The superstep number of the job at the tree (R280). -/
def State.ssnOf (s : State) (j : Job) : Nat := ((j.places.head?.bind s.core?).map Core.ssn).getD 0

/-- A tree node's abort vote for an index, in place of a message that it discards (R280). -/
def State.nodeAbort (s : State) (asid index cause : Nat) : State :=
  ((s.modJob asid fun j => { j with proxies := j.proxies ++ [{ index := index, abort := true, cause := cause, op := 0, val := 0 }] }).doomJob asid).tryOutcome asid
/-- BARRIER_MESSAGE: one of the closing barrier, or an arrival at a group barrier; one with another SSN is not combined (R18, R279, R280, R289). -/
def barrierMessage (n : Nat) (s : State) : State :=
  match s.net[n]? with
  | none => s
  | some m =>
    match m.kind, s.job? m.asid with
    | .vote v ssn, some j =>
      let s := s.dropMsg n
      if j.verdict.isSome then s
      else
        let v : Vote := if ssn = s.ssnOf j then v else { index := v.index, abort := true, cause := cLINK, op := 0, val := 0 }
        let s := s.setJob m.asid { j with votes := j.votes ++ [v] }
        (if v.abort then s.doomJob m.asid else s).tryOutcome m.asid
    | .vote _ _, none => s.dropMsg n
    | .arrival sc ext num a ssn, some j =>
      let s := s.dropMsg n
      if j.verdict.isSome || j.held then s
      else if ssn = s.ssnOf j then s.joinEpisode m.asid sc ext num a
      else s.nodeAbort m.asid a.index cLINK
    | .arrival _ _ _ _ _, none => s.dropMsg n
    | _, _ => s
def execBarrierMessage (n : Nat) (s : State) : Result := .next (barrierMessage n s)
/-- FURTHER_ABORT_MESSAGE (R331); one for an attempt that has ended is dropped (R281, R333). -/
def furtherAbortMessage (n : Nat) (s : State) : State :=
  match s.net[n]? with
  | none => s
  | some m =>
    match m.kind, s.job? m.asid with
    | .further v, some j =>
      let s := s.dropMsg n
      if j.verdict.isSome || j.held then s else ((s.setJob m.asid { j with proxies := j.proxies ++ [v] }).doomJob m.asid).tryOutcome m.asid
    | .further _, none => s.dropMsg n
    | _, _ => s
def execFurtherAbortMessage (n : Nat) (s : State) : Result := .next (furtherAbortMessage n s)
/-- URGENT_ABORT (R281, R282). -/
def urgentAbort (n : Nat) (s : State) : State :=
  match s.net[n]? with
  | none => s
  | some m =>
    match m.kind, s.job? m.asid with
    | .urgent cause index origin, some j =>
      let s := s.dropMsg n
      if j.verdict.isSome || j.held then s else s.announce m.asid { commit := false, cause := cause, index := index, origin := origin, val := 0 }
    | .urgent _ _ _, none => s.dropMsg n
    | _, _ => s
def execUrgentAbort (n : Nat) (s : State) : Result := .next (urgentAbort n s)
/-- DOOM_NOTICE: a core that has not voted stops and votes ABORT = 0; every wait on the core ends (R332). -/
def doomNotice (n : Nat) (s : State) : State :=
  match s.net[n]? with
  | none => s
  | some m =>
    match m.kind with
    | .doom =>
      let s := s.dropMsg n
      match s.core? m.src with
      | none => s
      | some k =>
        if k.dead || k.asid ≠ m.asid then s
        else if k.open_ then
          let s := (s.modCore m.src fun k => { k with phase := .voted }).stopCore m.src
          s.post m.src m.asid (.vote { index := k.index, abort := false, cause := 0, op := 0, val := 0 } k.ssn)
        else if k.phase == .voted then (s.modCore m.src fun k => { k with stopped := true }).stopCore m.src
        else s
    | _ => s
def execDoomNotice (n : Nat) (s : State) : Result := .next (doomNotice n s)
/-- OUTCOME_ARRIVAL (R282, R283). -/
def outcomeArrival (n : Nat) (s : State) : State :=
  match s.net[n]? with
  | none => s
  | some m =>
    match m.kind with
    | .outcome v =>
      let s := s.dropMsg n
      if v.commit then s.modCore m.src fun k => { k with phase := .applying, outcome := true, result := v.val }
      else (s.modCore m.src fun k => { k with phase := .rolling, outcome := false }).stopCore m.src
    | _ => s
def execOutcomeArrival (n : Nat) (s : State) : Result := .next (outcomeArrival n s)

-- commit (R284, R285)
/-- A reduce-delta at commit (R302). -/
def DeltaOp.width : DeltaOp → Nat
  | .addW => 4
  | .fadd => 48
  | _ => 8
def DeltaOp.apply (op : DeltaOp) (m : Nat) (v : Word) : Nat :=
  match op with
  | .addW => (m + v.toNat % 2 ^ 32) % 2 ^ 32
  | .addD => (m + v.toNat) % 2 ^ 64
  | .min => if v.slt (BitVec.ofNat 64 m) then v.toNat else m
  | .max => if (BitVec.ofNat 64 m).slt v then v.toNat else m
  | .or => (BitVec.ofNat 64 m ||| v).toNat
  | .fadd => (xsumAdd (XRec.ofNat m) (fp32.decode (v.toNat % 2 ^ 32))).toNat
/-- The bytes of data that a deferred effect carries. -/
def DeferredOp.bytes : DeferredOp → Nat
  | .write n _ => n
  | .delta op _ => op.width
/-- A deferred effect of core `c` at its home, in TCM and darn image alike (R284); a position that a fence took is written through its image (R285).
What a delta finds on a poisoned page is open: the outcome is decided by then (R123; log entries 3, 96). -/
def State.applyDeferred (s : State) (c : CoreId) (asid : Nat) (d : Deferred) : State :=
  let t := { d.dest with core := s.forwarded asid d.dest.core }
  let s := s.countLink (coreModule c) (coreModule t.core) d.op.bytes
  if ((s.core? t.core).map fun k => k.asid == asid).getD false then
    match d.op with
    | .write n v => s.wrBoth asid t n v
    | .delta op v =>
      let (old, s) := if (s.spillPoison asid t op.width).isSome then (s.draw.1 % 2 ^ (8 * op.width), s.draw.2) else (s.rd asid t op.width, s)
      s.wrBoth asid t op.width (op.apply old v)
  else s
/-- The version log of a core's homes is discarded: the contents stand (R285). -/
def State.pressHomes (s : State) (c : CoreId) (asid : Nat) : State :=
  let s := s.modCore c fun k => { k with tcm := k.tcm.commit }
  s.modJob asid fun j => { j with qsp := dmod j.qsp (coreQuad c) Mem.commit, dss := dmod j.dss (coreDie c) Mem.commit }
def State.unwindHomes (s : State) (c : CoreId) (asid : Nat) : State :=
  let s := s.modCore c fun k => { k with tcm := k.tcm.rollback }
  s.modJob asid fun j => { j with qsp := dmod j.qsp (coreQuad c) Mem.rollback, dss := dmod j.dss (coreDie c) Mem.rollback }
/-- The entry state of s + 1: x, f, p and carried CSRs as they stand, `rd` and `ssn` as R287 gives. -/
def Core.entryState (k : Core) (v : Word) : Snapshot :=
  let z := k.ctx 0
  let z := match z.wait with
    | some (.ssclose _ rd _) => z.setX rd v
    | _ => z
  { x := z.x, f := z.f, p := z.p, pc := z.pc + 4, fcsr := z.fcsr, flags := z.flags, enables := z.enables, ssentry := k.ssentry
    ssn := k.ssn + 1, age := k.age, pool := k.pool, nbwait := k.nbwait, stagger := k.stagger, tracectl := k.tracectl }
/-- The word of the job at a code offset on a core's die. -/
def State.codeWord (s : State) (asid : Nat) (c : CoreId) (off : Nat) : Nat := s.rd asid { core := c, space := .dss, off := off } 4
/-- The core stands at an end word (R357). -/
def State.endWord (s : State) (asid : Nat) (j : Job) (c : CoreId) : Bool :=
  match s.core? c with
  | none => false
  | some k =>
    let off := addrOff k.snapshot.pc
    j.codes.all (fun r => decide (r.1 + r.2 ≤ off)) || (j.inCode off 1 && s.codeWord asid c off == 0)
/-- The leaf that maps a written address becomes dirty (R109). That the write-out sets A with D, as a walk does, is the model's choice (log entry 87). -/
def State.setDirty (s : State) (m asid root va : Nat) : State :=
  match s.walk m asid root va with
  | .leaf e _ => s.modLeaf m e fun x => setBit (setBit x 60 true) 59 true
  | .fault _ _ => s
/-- Messages that belong to no job. -/
def noJob : Nat := 16384
/-- A committed engine write goes to its tier (R285): to tier 0 at once, to a lease window, a CXL device or host memory as a transaction that
arrives there (R119, R120, R306). -/
def State.writeOut (s : State) (c : CoreId) (asid root : Nat) (w : WriteOut) : State :=
  let s := (s.setDirty (coreModule c) asid root w.va).countAtoms (coreModule c) w.pa w.n true
  if tierOf w.pa == .hbm then s.wrPa (coreModule c) w.pa w.n w.val else s.post c noJob (.lease true w.pa w.n w.val)
/-- Write-outs of the job's cores are still on their way. -/
def State.writing (s : State) (j : Job) : Bool := s.net.any fun m => match m.kind with
  | .lease _ _ _ _ => j.places.contains m.src
  | _ => false
/-- The page is covered by atoms of one `CPFILL` (R123, R271). -/
def coversPage (ws : List WriteOut) (page uid : Nat) : Bool :=
  (List.range 128).all fun i => ws.any fun w => w.fill == some uid && decide (w.pa ≤ page + 32 * i) && decide (page + 32 * i + 32 ≤ w.pa + w.n)
/-- The write-outs of a core, in their order; a page that one `CPFILL` covered loses its poison. They wait while a bank that one of them goes
to, or that holds a table entry of it, is reserved by another core (R109, R125). That a fill through a lease window leaves the lender's poison bit set is
the model's choice (log entry 90). -/
def State.writeOuts (s : State) (c : CoreId) : State :=
  match s.core? c with
  | none => s
  | some k =>
    let root := ((s.job? k.asid).map Job.root).getD 0
    let ws := k.writeOuts
    if ws.any fun w => (tierOf w.pa == .hbm && s.bankBusyOver (coreModule c) w.pa w.n (some c)) || s.tablesBusy (coreModule c) root w.va (some c) then s
    else
    let s := ws.foldl (fun s w => s.writeOut c k.asid root w) s
    let fills := (ws.filterMap fun w => w.fill.map fun u => (w.pa / 4096, u)).dedup
    let s := fills.foldl (fun s x =>
      if tierOf (x.1 * 4096) == .hbm && coversPage ws (x.1 * 4096) x.2 then
        s.modModule (coreModule c) fun d => { d with poison := d.poison.filter (· ≠ x.1) }
      else s) s
    s.modCore c fun k => { k with writeOuts := [] }
/-- Every core of the job has applied. -/
def State.allApplied (s : State) (j : Job) : Bool := j.places.all fun d => ((s.core? d).map fun x => x.phase == .applied).getD true
def lastSsn : Nat := 0xFFFFFFFFFFFF
/-- The journal records a commit once every write-out of it has performed (R306, R368). -/
def State.journalCommit (s : State) (asid : Nat) : State :=
  match s.job? asid with
  | none => s
  | some j =>
    let applied := j.places.all fun d => ((s.core? d).map fun x => x.phase == .applied && x.writeOuts.isEmpty).getD true
    if j.stage == .running && applied && !s.writing j then
      s.modEntry j.home j.jsn fun e => { e with ssn := s.ssnOf j, state := jCOMMITTED }
    else s
/-- Probation counts down on every commit, the final one too (R348). -/
def State.probationDown (s : State) (c : CoreId) : State :=
  if (s.pos c).probation = 0 then s else s.modPos c fun p => { p with probation := p.probation - 1 }
/-- Every core has applied: forwarding entries age, the final commit is recognised, and any other commit is journaled after its write-outs
(R101, R277, R306, R357). -/
def State.committedJob (s : State) (asid : Nat) : State :=
  match s.job? asid with
  | none => s
  | some j =>
    let age := fun (f : Forward) => if f.asid = asid then { f with commits := f.commits + 1 } else f
    let old := fun (d : Die) => { d with forwards := (d.forwards.map age).filter fun f => f.asid ≠ asid || decide (f.commits < 2) }
    let s := ({ s with modules := dmap s.modules fun _ m => { m with dies := dmap m.dies fun _ d => old d } }).count j.home 1 1
    let ssn := s.ssnOf j
    if j.places.all (s.endWord asid j) then
      (j.places.foldl State.probationDown s).setJob asid { j with finalCommit := true, endCause := none, stage := .retiring }
    else
      let s := j.places.foldl State.writeOuts s
      (s.modJob asid fun j => { j with wdCount := 0, endCause := if ssn = lastSsn then some cWATCHDOG else j.endCause }).journalCommit asid
/-- COMMIT_APPLY: the deferred writes and deltas of a core are applied, in ascending index (R284), and its entry state is taken. Write-outs that
waited for a bank go out afterwards (R125, R285). -/
def commitApply (c : CoreId) (s : State) : State :=
  match s.core? c with
  | none => s
  | some k =>
    match s.job? k.asid with
    | none => s
    | some j =>
      let turn := j.places.all fun d => ((s.core? d).map fun x => decide (k.index ≤ x.index) || x.phase == .applied).getD true
      if k.phase == .applied && !k.writeOuts.isEmpty && s.allApplied j && j.stage == .running then (s.writeOuts c).journalCommit k.asid
      else if k.phase != .applying || !turn then s
      else
        let s := k.deferred.foldl (fun s d => s.applyDeferred c k.asid d) s
        let s := (s.pressHomes c k.asid).modCore c fun x => { x with phase := .applied, deferred := [], snapshot := x.entryState k.result }
        if s.allApplied j then s.committedJob k.asid else s
def execCommitApply (c : CoreId) (s : State) : Result := .next (commitApply c s)

-- rollback (R33, R285, R334)
/-- Context 0 with a snapshot's registers; every helper is idle (R33, R285). -/
def Snapshot.ctx (n : Snapshot) (pc : Word) (level : Level) : Ctx :=
  { Ctx.reset with life := .control, pc := pc, x := n.x, f := n.f, p := n.p, fcsr := n.fcsr, flags := n.flags, enables := n.enables, level := level }
/-- A core at the start of a superstep: the snapshot's carried state, and R33 for what is not carried. Ring entries are free and read as they
stood (R327, R330). -/
def Core.restart (k : Core) (pc : Word) (level : Level) : Core :=
  let n := k.snapshot
  { k with
    ctxs := [(0, n.ctx pc level)], ac := [], latch := [], present := [], q := [], status := [], tasks := [], taskNext := 0, taskLive := []
    ring := dmap k.ring fun _ e => { e with valid := false }, seqNext := 0, lanes := [], eager := [], deferred := [], writeOuts := [], posts := [], abort := none, stopped := false
    outcome := false, result := 0, age := n.age, pool := n.pool, nbwait := n.nbwait, stagger := n.stagger, tracectl := n.tracectl
    ssentry := n.ssentry, ssn := n.ssn, voteFault := none, follows := [], gang := none, gangPushed := 0, gangs := 0, nxPending := [] }
/-- What the attempt left in the job is emptied (R280, R285, R290, R301, R315). Old words of changed code count as fetchable until here, where
the boundary begins: a CODEWRITE to a held or paused job leaves them through the next superstep (DESIGN CHOICE, log entry 49). -/
def Job.clearAttempt (j : Job) : Job :=
  { j with rounds := [], votes := [], proxies := [], verdict := none, doomed := false, episodes := [], groups := [], offers := [], stale := [] }
/-- ROLLBACK: once every core of the job has the outcome, messages of the attempt are discarded, the homes are unwound, page fetches finish
into staging, a fenced position is patched and the entry snapshot is taken; the mangle's slots are emptied (R315, R334). A core stopped in its control state waits for its fence. -/
def rollback (c : CoreId) (s : State) : State :=
  match s.core? c with
  | none => s
  | some k =>
    match s.job? k.asid with
    | none => s
    | some j =>
      let all := j.places.all fun d => ((s.core? d).map fun x => x.phase == .rolling || x.phase == .rolled).getD true
      if k.phase != .rolling || !all || (k.dead && !(s.patch c).fenced) then s
      else
        let s := ({ s with net := s.net.filter fun m => m.asid != k.asid }).unwindHomes c k.asid
        let s := s.modJob k.asid fun j => { j with rounds := [], staged := j.staged.map fun e => if e.index = k.index then { e with data := some e.source, reader := none } else e }
        let s := if (s.patch c).fenced then s.patchPosition c else s
        s.modCore c fun x => { x.restart x.snapshot.ssentry .job with phase := .rolled }
def execRollback (c : CoreId) (s : State) : Result := .next (rollback c s)

-- the boundary
/-- `sscause` for the attempt that ended (R335). -/
def sscauseOf (j : Job) : Word :=
  match j.lastAttempt with
  | none => 0
  | some v =>
    if v.commit then 0
    else BitVec.ofNat 64 (min 255 j.aborts * 2 ^ 48 + v.index * 2 ^ 24 + v.origin * 2 ^ 9 + 2 ^ 8 + v.cause)
/-- The counts of R336 after an abort: the job as it counts, whether the run has reached three, and whether this abort continues a run. -/
def Job.countAbort (j : Job) (v : Verdict) : Job × Bool × Bool :=
  let j := { j with aborts := j.aborts + 1 }
  if 2 ≤ v.origin then (j, false, true)
  else
    let goes := j.runCount ≠ 0 ∧ j.runCause = v.cause
    let n := if goes then j.runCount + 1 else 1
    ({ j with totalAborts := j.totalAborts + 1, runCause := v.cause, runCount := if n = 3 then 0 else n }, n == 3, decide goes)
/-- The page that `svtval` of a REPEAT entry for POISON names (R336). -/
def Core.countPoison (k : Core) (counted goes : Bool) : Core :=
  { k with
    poisonRun := if counted then (match k.poisonMet with | some p => some p | none => if goes then k.poisonRun else none) else k.poisonRun
    poisonMet := none }
/-- The entries of the tile table as the boundary stands, on a die (R308). -/
def Job.tileTable (j : Job) (d : DieId) : List Nat :=
  match j.sections.find? fun x => x.type = 5 with
  | none => []
  | some t => (List.range (t.size / 64)).map fun i => readMem (dgetD j.dss d Mem.empty).cur (t.addr + 64 * i) 64
/-- A module that has contributors of the job, by its tile tables as they stand, can carry out no round (R317). -/
def State.noRounds (s : State) (j : Job) : Bool :=
  j.modules.any fun m =>
    ((s.module? m).map Module.mangleFailed).getD false && !s.hasGateway m
      && j.rects.any fun r => (j.tileTable r.die).any fun e => !(j.contributorsOn e m).isEmpty
/-- Why the job ends at this boundary as FAULTED, if it does (R277, R329, R336, R337); R317 is judged on the tile tables that its next superstep
would use. -/
def State.endCauseOf (s : State) (j : Job) (v : Verdict) (third : Bool) : Option Nat :=
  match j.endCause with
  | some c => some c
  | none =>
    if !v.commit && decide (16 ≤ j.totalAborts) && decide (v.origin < 2) then some v.cause
    else if third && j.handler == 0 then some v.cause
    else none
/-- Pending requests at a boundary, in JSN order (R85): the CANCEL that takes effect, and whether the job pauses. -/
def takeRequests (commit : Bool) (paused : Bool) : List Request → Option Nat × Bool
  | [] => (none, paused)
  | r :: t =>
    if r.cancel then (some r.jsn, paused)
    else if commit then takeRequests commit true t
    else takeRequests commit paused t
/-- The PAUSE requests before the one that ends the list are carried out (R85). -/
def State.pauseNow (s : State) (asid : Nat) (j : Job) : State :=
  let (before, rest) := j.pending.span fun r => !r.cancel
  let s := before.foldl (fun s r => s.finishCmd j.home r.jsn jCOMPLETED 0) s
  let s := s.modEntry j.home j.jsn fun e => { e with state := jPAUSED }
  s.modJob asid fun j => { j with paused := true, pending := rest }
/-- The boundary of a job, once every core has applied or rolled back (R85, R283, R336): it ends, or it stands ready for its next superstep. -/
def State.boundary (s : State) (asid : Nat) (j : Job) (v : Verdict) : State :=
  let (j1, third, goes) := if v.commit then ({ j with aborts := 0, totalAborts := 0, runCount := 0 }, false, false) else j.countAbort v
  let staged := if v.commit then j1.staged.filter Staged.claimed else (j1.staged.filter Staged.claimed).map fun e => { e with claimed := false }
  let j2 := { j1.clearAttempt with
    lastAttempt := some v, held := true, deadline := none, staged := staged, wdFrom := none, wdCount := if v.commit then 0 else j1.ran s.clock }
  let s := (s.setJob asid j2).count j.home 2 (if v.commit then 0 else 1)
  let s := { s with net := s.net.filter fun m => m.asid != asid }
  let settle := fun (c : CoreId) (s : State) => s.modCore c fun k =>
    let k := k.countPoison (!v.commit && decide (v.origin < 2)) goes
    let k := if v.commit then k.restart k.snapshot.pc (k.ctx 0).level else k
    { k with phase := .held, repeatCause := if third then some v.cause else none, stagedPoison := if v.commit then [] else k.stagedPoison }
  let s := j.places.foldl (fun s c => settle c s) s
  match s.endCauseOf j2 v third with
  | some c => s.endJob asid jFAULTED c none
  | none =>
    match takeRequests v.commit j2.paused j2.pending with
    | (some jsn, pausing) =>
      let s := if pausing && !j2.paused then s.pauseNow asid j2 else s
      s.endJob asid jCANCELLED 0 (some jsn)
    | (none, pausing) => if pausing && !j2.paused then s.pauseNow asid j2 else s

-- entering RUN
/-- Staged entries of a core are written at DEST and arrive; a poisoned one is not written and makes POISON due (R269, R352). -/
def State.deliverStaged (s : State) (asid : Nat) (c : CoreId) (e : Staged) : State :=
  let s := match e.poison, locate c e.dest with
    | some pa, _ => s.modCore c fun k => { k with stagedPoison := k.stagedPoison ++ [pa] }
    | none, some d => s.modHome asid d fun m => { m with cur := layMem (e.data.getD []) (clearMem m.cur d.off e.len) d.off }
    | none, none => s
  if e.signal then s.hamperArrive asid { core := c, space := .tcm, off := e.hamper } e.len else s
/-- A core enters RUN: `sscause` is written, its POISON of staged entries is raised, a due REPEAT entry is taken (R335, R336, R352). -/
def State.startCore (s : State) (j : Job) (c : CoreId) : State :=
  let s := s.modCore c fun k => { k with
    phase := .run, stopped := false, ssStart := s.clock, lastProgress := s.clock, sscause := sscauseOf j, poisonMet := none }
  match s.core? c with
  | none => s
  | some k =>
    let s := s.record c 0 6 false (BitVec.ofNat 64 k.ssn)
    let s := match k.repeatCause with
      | some cause =>
        let page := if cause = cPOISON then k.poisonRun.getD 0 else 0
        let s := s.modCore c fun k => { k with repeatCause := none, poisonRun := none }
        s.enterHandler c 0 { cause := cause, seq := none, late := false, orphan := false, reason := 1, ctx := 0, epc := k.ssentry, tval := BitVec.ofNat 64 page } j.handler
      | none => s
    match k.stagedPoison.getLast? with
    | some pa => if k.repeatCause.isSome then s else ((s.metPoison c pa).recordTrap c 0 0 cPOISON).abortCondition c cPOISON
    | none => s
/-- The boundary's last writes: translations of before are dropped, staged pages are delivered (R113, R269). -/
def State.finishBoundary (s : State) (asid : Nat) (j : Job) : State :=
  let s := s.dropTlbAsid asid
  let s := j.staged.foldl (fun s e =>
    match e.claimed, j.coreAt e.index with
    | true, some c => s.deliverStaged asid c e
    | _, _ => s) s
  j.places.foldl (fun s c => s.pressHomes c asid) s
/-- Tile tables are copied, the modules whose mangle has failed go over to gateway cores, every core starts (R283, R308, R317). With superstep 1 the
LAUNCH entry becomes RUNNING (R82). -/
def State.startRun (s : State) (asid : Nat) (j : Job) : State :=
  let s := s.modJob asid fun j => { j with
    staged := j.staged.filter fun e => !e.claimed, held := false, wdFrom := some s.clock, removeAt := false, patchedAt := []
    gateways := j.modules.filter fun m => ((s.module? m).map Module.mangleFailed).getD false
    tiles := j.rects.foldl (fun t r => dset t r.die (j.tileTable r.die)) [] }
  let s := if ((s.entry? j.home j.jsn).map fun e => e.state == jPLACED).getD false then s.modEntry j.home j.jsn fun e => { e with state := jRUNNING } else s
  j.places.foldl (fun s c => s.startCore j c) s
/-- The job enters RUN. Where a module with contributors of the tile tables, taken as the copies of this boundary stand, can carry out no round, the
job is removed instead, FAULTED with LINK: its last boundary's outcome stands (R308, R317). -/
def State.enterRun (s : State) (asid : Nat) (j : Job) : State :=
  let s := s.finishBoundary asid j
  if ((s.job? asid).map s.noRounds).getD false then s.endJob asid jFAULTED cLINK none else s.startRun asid j
/-- Every core has finished applying or rolling. A core that has stopped holds the job up until it is fenced (R283, R331), unless a CANCEL or the
watchdog removes the job (R85, R337). -/
def State.boundaryReached (s : State) (j : Job) : Bool :=
  !s.writing j && j.places.all fun c => match s.core? c with
    | none => true
    | some k => (k.phase == .applied && k.writeOuts.isEmpty) || k.phase == .rolled || (k.dead && !(s.patch c).fenced && (j.endCause == some cWATCHDOG || j.removeAt))
/-- Fenced positions of a job at its boundary are patched, where every job of their quad is at a boundary (R99, R349). -/
def State.patchJob (s : State) (j : Job) : State :=
  j.places.foldl (fun s c => if (s.patch c).fenced && s.quadQuiet (coreQuad c) then s.patchPosition c else s) s
/-- A position that may be readmitted: threshold of acceptances reached, at a point that R99 allows (R348). -/
def State.readmit (s : State) (c : CoreId) : State :=
  let p := s.pos c
  if p.readmit && s.quadQuiet (coreQuad c) then
    let q := quadIn c
    let e := s.patch c
    let s := if e.slot = 4 then (s.modDie (coreDie c) fun d => { d with roles := dset d.roles q .standby }).freshPos c else s
    let s := s.setPatch c { e with fenced := false, slot := coreSlot c }
    let s := (s.modDie (coreDie c) fun d => { d with lastPos := c % 256 }).modCore c fun k => { k with dead := false }
    (s.modPos c fun p => { p with readmit := false, appealing := false, firstBeat := none, probation := 16 }).forgetAppeal c
  else s
/-- The positions of the quads that hold a core of the job. -/
def Job.quadMates (j : Job) : List CoreId :=
  (j.places.flatMap fun c => [0, 1, 16, 17].map fun o => c - coreSlot c / 2 * 16 - coreSlot c % 2 + o).dedup
/-- The waiting job that asked for the room is still waiting (R339). -/
def State.wanted (s : State) (w : Nat × Nat) : Bool := s.jobs.any fun e => (e.2.home, e.2.jsn) == w && e.2.stage == .waiting
/-- The job is to go to a waiting one at this boundary: the end of an attempt, commit or abort (R339). -/
def State.yields (s : State) (j : Job) : Bool := j.lastAttempt.isSome && (j.yieldTo.map s.wanted).getD false
/-- The rectangle of a position that no spare can take moves to a free rectangle, if there is one (R350). -/
def State.moveFenced (s : State) (asid : Nat) (c : CoreId) : State :=
  match s.job? asid, s.core? c with
  | some j, some k =>
    match j.rects[k.rect]? with
    | none => s
    | some old =>
      match (s.freeRects j k.rect old).head? with
      | some new => if (s.patch c).perm && s.mayMigrate j k.rect && s.forwardRoom j old then s.migrate asid j k.rect old new else s
      | none => s
  | _, _ => s
/-- A held job is released into RUN, unless it is paused, is to yield, or waits for a request, a patch, a migration or a staged page (R85, R283,
R339, R349, R350). -/
def State.release (s : State) (asid : Nat) (j : Job) : State :=
  if !j.held || j.paused || j.parked.isSome || s.requestsDue asid j || s.yields j then s
  else
    let s := s.patchJob j
    match j.places.find? fun c => (s.patch c).fenced with
    | some c => s.moveFenced asid c
    | none => if j.staged.any fun e => e.claimed && e.data.isNone && e.poison.isNone then s else s.unlessBusy (s.enterRun asid j) asid
/-- SUPERSTEP_START: the boundary of a job, where the dispatcher holds it; then, in a step of its own, its release into RUN. A request that was
accepted before the boundary takes effect at it (R85, R283, R349, R350). -/
def superstepStart (asid : Nat) (s : State) : State :=
  match s.job? asid with
  | none => s
  | some j =>
    if j.stage != .running then s
    else
      match j.verdict with
      | some v =>
        if s.boundaryReached j && !s.requestsDue asid j then
          let t := if v.commit then j.places.foldl State.probationDown s else s
          s.unlessBusy ((j.quadMates.foldl State.readmit t).boundary asid j v) asid
        else s
      | none => s.release asid j
def execSuperstepStart (asid : Nat) (s : State) : Result := .next (superstepStart asid s)

/-- RETIREMENT: the last write-outs, the pager's write-backs, the release of all that the job holds, and COMPLETED (R357 to R359); a reserved
bank is waited for (R125). -/
def retirement (asid : Nat) (s : State) : State :=
  match s.job? asid with
  | none => s
  | some j =>
    if j.stage != .retiring then s
    else
      let ssn := s.ssnOf j
      let s := j.places.foldl State.writeOuts s
      if s.writing j || (j.places.any fun c => ((s.core? c).map fun k => !k.writeOuts.isEmpty).getD false) || s.endBusy j then s
      else
      let lost := j.modules.any fun m => s.lostFrame m j.root
      let s := j.quadMates.foldl State.readmit (s.modEntry j.home j.jsn fun e => { e with ssn := ssn })
      match j.endCause with
      | some c => s.endJob asid jFAULTED c none
      | none => if lost then s.endJob asid jFAULTED cPOISON none else s.endJob asid jCOMPLETED 0 none
def execRetirement (asid : Nat) (s : State) : Result := .next (retirement asid s)

/-- WATCHDOG: past WDOG cycles the job is removed as by a CANCEL at once, FAULTED, be it on its way to another end (R337). -/
def watchdog (asid : Nat) (s : State) : State :=
  match s.job? asid with
  | none => s
  | some j =>
    if j.stage == .running && !j.held && j.endCause != some cWATCHDOG && j.expired s.clock then
      let s := s.setJob asid { j with endCause := some cWATCHDOG }
      if j.verdict.isNone then s.postHub j.home asid (.urgent cWATCHDOG 0 2) else s
    else s
def execWatchdog (asid : Nat) (s : State) : Result := .next (watchdog asid s)

/-- The waits that count for QDEAD (R338). -/
def Wait.starved : Wait → Bool
  | .push _ _ _ => true
  | .deq _ _ => true
  | .spawn _ _ _ => true
  | .cpush _ => true
  | .ssclose _ _ _ => true
  | _ => false
/-- The core has been starved for 65,536 cycles (R338). -/
def Core.starved (k : Core) (clock : Nat) : Bool :=
  k.active && decide (k.lastProgress + 65536 ≤ clock) && k.ctxs.all fun e => !e.2.live || (e.2.wait.map Wait.starved).getD false
/-- QDEAD (R338). -/
def qdead (c : CoreId) (s : State) : State :=
  match s.core? c with
  | none => s
  | some k => if k.starved s.clock then (s.recordTrap c 0 0 cQDEAD).abortCondition c cQDEAD else s
def execQdead (c : CoreId) (s : State) : Result := .next (qdead c s)

end Sys2Proof.Machine
end

