-- ==== Sys2Proof/Machine/Dispatcher.lean ====
section
/-! DEFINITION. The dispatcher: fetching and accepting commands (R75, R76, R79, R80, R83), LAUNCH with the job image (R67 to R70, R87),
CANCEL, PAUSE-AT-BOUNDARY and RESUME (R85), READ-JOURNAL and SYNC (R77), placing, staging and starting a job (R69, R87 to R89, R94). -/

namespace Sys2Proof.Machine

-- a command's 64 bytes (R76)
def cmdQseq (b : Nat) : Nat := field b 64 48
def cmdArg (b i : Nat) : Nat := field b (128 + 64 * i) 64
/-- A reserved field, FLAGS included, is nonzero (R76). -/
def cmdReserved (b : Nat) : Bool :=
  field b 8 8 != 0 || field b 16 16 != 0 || field b 46 18 != 0 || field b 112 16 != 0 || field b 384 128 != 0
def noArgs (b : Nat) (l : List Nat) : Bool := l.all fun i => cmdArg b i == 0

-- acceptance (R79, R80, R83)
/-- The lowest place from `lo` that holds no entry or a final one. -/
def lowestFree : Nat → Dict Entry → Nat
  | lo, [] => lo
  | lo, (k, e) :: t => if k < lo then lowestFree lo t else if k = lo then (if e.final then lo else lowestFree (lo + 1) t) else lo
/-- The place of the held table that an entry takes when it leaves its slot (R83). -/
def Module.heldFor (d : Module) (e : Entry) : Option Nat :=
  let lo := if e.kind = 1 then 16384 else 0
  let h := lowestFree lo d.heldTab
  if h < lo + 16384 then some h else none
/-- The entry in the next JSN's slot moves to the held table first when it is not final; none when it finds no place (R83, R84). -/
def State.clearSlot (s : State) (m : Nat) : Option State :=
  match s.module? m with
  | none => none
  | some d =>
    match dget? d.slots (d.jhead % 65536) with
    | none => some s
    | some e =>
      if e.final then some s
      else (d.heldFor e).map fun h => (s.modModule m fun d => { d with heldTab := dset d.heldTab h e }).mirrorAt m (heldOffset h) e
/-- The command can be carried out no further than its acceptance: a reserved KIND or LEASE operation (R77, R81, R117). -/
def badKind (b : Nat) : Option Nat :=
  let k := cmdKind b
  if k = 0 ∨ 7 < k then some cBADKIND
  else if k = 5 ∧ (field b 128 4 = 0 ∨ 4 < field b 128 4) then some cBADFIELD
  else none
/-- A LAUNCH entry of the pod for an ASID is not final (R400). -/
def State.asidBusy (s : State) (asid : Nat) : Bool :=
  s.modules.any fun x => (x.2.slots.map Prod.snd ++ x.2.heldTab.map Prod.snd).any fun e => e.kind == 1 && e.asid == asid && !e.final
/-- Acceptance: the entry in state ACCEPTED, its ACCEPTED completion, and the command among those to be carried out (R80). A LAUNCH whose ASID has
a LAUNCH entry in the pod that is not final is marked (R85, R359, R400; log entry 50). -/
def State.accept (s : State) (m q b digest : Nat) : State :=
  match s.clearSlot m, s.module? m with
  | some s, some d =>
    let x := d.queue q
    let e : Entry := { jsn := d.jhead, qseq := x.qexp, queue := q, kind := cmdKind b, cause := 0, state := jACCEPTED, asid := cmdAsid b, ssn := 0, digest := digest }
    let c : Command := { jsn := d.jhead, queue := q, prio := x.prio, bytes := b, busy := cmdKind b == 1 && s.asidBusy (cmdAsid b) }
    let s := s.modModule m fun d => { d with slots := dset d.slots (d.jhead % 65536) e, jhead := d.jhead + 1, commands := d.commands ++ [c] }
    let s := (s.modQ m q fun x => { x with qexp := x.qexp + 1 }).mirrorAt m (slotOffset e.jsn) e
    let s := s.complete m q { status := 0, cause := 0, jsn := e.jsn, qseq := e.qseq }
    match badKind b with
    | some cause => (s.modModule m fun d => { d with commands := d.commands.filter fun c => c.jsn ≠ e.jsn }).finishCmd m e.jsn jFAULTED cause
    | none => s
  | _, _ => s
/-- The entry of a queue's sequence number, while it is held. -/
def Module.entryOf (d : Module) (q qseq : Nat) : Option Entry :=
  ((d.slots.map Prod.snd ++ d.heldTab.map Prod.snd).find? fun e => e.queue == q && e.qseq == qseq)
/-- A queue with a command to fetch: indexes count modulo 2^SIZE (R75). -/
def Queue.fetchable (q : Queue) : Bool := q.enabled && q.head % 2 ^ q.size != q.tail % 2 ^ q.size && !q.full
/-- The queue served next: the highest PRIO, then in turn after the one of that PRIO served last (R79). -/
def Module.nextQueue (d : Module) : Option Nat :=
  let qs := (List.range 64).filter fun q => (d.queue q).fetchable
  leastBy (fun q => (255 - (d.queue q).prio) * 64 + (q + 63 - dgetD d.served (d.queue q).prio 63) % 64) qs
/-- COMMAND_FETCH (R75, R79, R80). No rule names an outcome of an entry on a poisoned host page: that it is read as good is the model's choice (log
entry 86). -/
def commandFetch (m : Nat) (s : State) : State :=
  match s.module? m with
  | none => s
  | some d =>
    match d.nextQueue with
    | none => s
    | some q =>
      if !d.ready || (s.clearSlot m).isNone then s
      else
        let x := d.queue q
        let b := readMem s.host (x.base + 64 * (x.head % 2 ^ x.size)) 64
        let digest := sm3 (bytesOf b 64)
        let qseq := cmdQseq b
        let s := (s.modQ m q fun x => { x with head := (x.head + 1) % 2 ^ x.size }).modModule m fun d => { d with served := dset d.served x.prio q }
        if qseq = 0 ∨ x.qexp < qseq then s.complete m q { status := 3, cause := 0, jsn := 0, qseq := qseq }
        else if qseq = x.qexp then s.accept m q b digest
        else
          match d.entryOf q qseq with
          | some e => s.complete m q { status := if e.digest = digest then 1 else 2, cause := 0, jsn := e.jsn, qseq := qseq }
          | none => s.complete m q { status := 1, cause := 0, jsn := 0, qseq := qseq }
def execCommandFetch (m : Nat) (s : State) : Result := .next (commandFetch m s)

/-- The accepted command of a JSN and kind, when no earlier command for its ASID is still to be carried out (R85). -/
def State.command? (s : State) (m jsn kind : Nat) : Option Command :=
  (s.module? m).bind fun d =>
    (d.commands.find? fun c => c.jsn == jsn && cmdKind c.bytes == kind).bind fun c =>
      if d.commands.any fun e => decide (e.jsn < jsn) && cmdAsid e.bytes == cmdAsid c.bytes && decide (cmdKind e.bytes ≤ 4) && decide (kind ≤ 4) then none
      else some c
def State.takeCmd (s : State) (m jsn : Nat) : State := s.modModule m fun d => { d with commands := d.commands.filter fun c => c.jsn ≠ jsn }
/-- A command that has been carried out, or that faults. -/
def State.cmdDone (s : State) (m jsn : Nat) : State := (s.takeCmd m jsn).finishCmd m jsn jCOMPLETED 0
def State.cmdFault (s : State) (m jsn cause : Nat) : State := (s.takeCmd m jsn).finishCmd m jsn jFAULTED cause
/-- A command at its event. -/
def onCommand (m jsn kind : Nat) (f : State → Command → State) (s : State) : State :=
  match s.command? m jsn kind with
  | some c => f s c
  | none => s

-- the job image (R67, R68, R70)
/-- A section-table entry of 256 bits. Of a TILETABLE the body is read with it, since the placement needs its window (R307; log entry 79); every other
body is read when it is staged, so that the image is read once (R67). -/
def sectionOf (img : Memory) (b : Nat) : Section :=
  let type := field b 0 8
  let size := field b 192 64
  { type := type, space := field b 8 8, runpfl := b.testBit 16, addr := field b 64 64, off := field b 128 64, size := size
    body := if type = 5 then sliceMem img (field b 128 64) size else [] }
/-- A section-table entry obeys R68. -/
def sectionOk (b : Nat) : Bool :=
  let type := field b 0 8
  let space := field b 8 8
  let addr := field b 64 64
  let off := field b 128 64
  let size := field b 192 64
  let spaces : List Nat := match type with
    | 1 => [2]
    | 2 | 3 => [0, 1, 2, 8]
    | 4 => [0, 1, 2]
    | 5 => [2]
    | 6 => [0]
    | _ => []
  spaces.contains space && field b 17 47 == 0 && (!b.testBit 16 || type == 4) && size % 32 == 0 && size != 0 && off % 32 == 0
    && (type != 3 || off == 0) && addr % 32 == 0 && (space != 8 || decide (addr < 2 ^ 52)) && (type != 6 || addr == 0) && (type != 5 || size % 64 == 0)
def bodyInside (b imgsize : Nat) : Bool := field b 0 8 == 3 || decide (field b 128 64 + field b 192 64 ≤ imgsize)
/-- Two sections overlap in one space; RECORDS sections occupy no offsets. -/
def sectionsMeet (a b : Section) : Bool :=
  a.type != 6 && b.type != 6 && a.space == b.space && decide (a.addr < b.addr + b.size) && decide (b.addr < a.addr + a.size)
def anyPair {α : Type} (f : α → α → Bool) : List α → Bool
  | [] => false
  | a :: t => t.any (f a) || anyPair f t
def spaceEnds (x : Section) : Bool :=
  x.type == 6 || match x.space with
    | 0 => decide (x.addr + x.size ≤ 0x20000)
    | 1 => decide (x.addr + x.size ≤ 0x340000)
    | _ => true
/-- The slot window that the tile table needs (R307). -/
def windowOf (l : List Section) : Nat :=
  match l.find? fun x => x.type = 5 with
  | none => 0
  | some t =>
    let top := ((List.range (t.size / 64)).map fun i => let e := readMem t.body (64 * i) 64; tlSlot e + tlVals e).foldl max 0
    max 64 ((top + 63) / 64 * 64)
/-- LIMIT of the job's die-shared-SRAM space (R96). -/
def limitOf (l : List Section) : Nat := ((l.filter fun x => x.space = 2).map fun x => x.addr + x.size).foldl max 0 + 65535 |> (· / 65536 * 65536)
/-- A job before its image has been read. -/
def Job.blank : Job :=
  { home := 0, jsn := 0, queue := 0, prio := 0, n := 0, rows := 0, cols := 0, spandie := false, spanmod := false, exact := false, entry := 0
    ssentry := 0, handler := 0, wdog := 0, qage := 0, root := 0, limit := 0, sections := [], image := 0, imgsize := 0, early := [], digest := 0, rr := 1
    cc := 1, rects := [], stage := .waiting, parked := none, paused := false, held := false, dss := [], qsp := [], windows := [], window := 0
    tiles := [], rounds := [], votes := [], proxies := [], verdict := none, doomed := false, episodes := [], groups := [], offers := []
    staged := [], pending := [], endCause := none, removeAt := false, yieldTo := none, deadline := none, runCause := 0, runCount := 0
    totalAborts := 0, aborts := 0, lastAttempt := none, patchedAt := [], gateways := [], finalCommit := false, wdCount := 0, wdFrom := none, stale := [] }
/-- An image at a bus address, checked by conditions 1 to 5 of R70: the job it describes, or the cause. Bytes that are poisoned (`bad`) cannot be
read (R81). The whole section table is to end within IMGSIZE (log entry 72). -/
def readImage (host : Memory) (bad : Nat → Nat → Bool) (a limit : Nat) : Except Nat Job :=
  if decide (2 ^ 64 < a + 128) || bad a 128 then .error cIMGREAD
  else
    let h := readMem host a 128
    let imgsize := field h 64 64
    let n := field h 128 32
    let rows := field h 160 16
    let cols := field h 176 16
    let nsect := field h 512 16
    let sectab := field h 544 32
    let img := sliceMem host a imgsize
    let words := (List.range nsect).map fun i => readMem img (sectab + 32 * i) 32
    let secs := words.map (sectionOf img)
    let entry := BitVec.ofNat 64 (field h 256 64)
    let ssentry := BitVec.ofNat 64 (field h 320 64)
    let handler := BitVec.ofNat 64 (field h 384 64)
    let total := fun (t : Nat) => ((secs.filter fun x => x.type = t).map Section.size).sum
    let j := { Job.blank with
      n := n, rows := rows, cols := cols, spandie := h.testBit 192, spanmod := h.testBit 193, exact := h.testBit 194, entry := entry
      ssentry := ssentry, handler := handler, wdog := if field h 448 64 = 0 then 1250000000 else field h 448 64
      qage := if field h 576 32 = 0 then 4096 else field h 576 32, sections := secs, image := a, imgsize := imgsize
      early := ((0, 128) :: (sectab, 32 * nsect) :: (secs.filter fun x => x.type = 5).map fun x => (x.off, x.size)).map fun r => (r.1, r.2, sliceMem img r.1 r.2)
      limit := limitOf secs, window := windowOf secs
      digest := field h 640 256 }
    if field h 0 32 ≠ 0x4A415451 ∨ field h 32 16 ≠ 1 ∨ field h 48 16 ≠ 0x80 ∨ limit < imgsize ∨ field h 896 128 ≠ 0 ∨ field h 608 32 ≠ 0
        ∨ field h 528 16 ≠ 0 ∨ field h 195 29 ≠ 0 then .error cBADIMAGE
    else if 2 ^ 64 < a + imgsize then .error cIMGREAD
    else if field h 224 32 ≠ 0 then .error cUNSUPPORTED
    else if nsect = 0 ∨ 256 < nsect ∨ sectab % 32 ≠ 0 ∨ sectab < 0x80 ∨ imgsize < sectab + 32 * nsect then .error cBADIMAGE
    else if bad (a + sectab) (32 * nsect) then .error cIMGREAD
    else if !words.all sectionOk
        || decide (0x800000 < total 1) || decide (32 * 1024 < total 6) || decide (1 < (secs.filter fun x => x.type = 5).length) then .error cBADIMAGE
    else if !(words.all fun b => bodyInside b imgsize) || anyPair sectionsMeet secs || !secs.all spaceEnds then .error cBADIMAGE
    else if secs.any fun x => x.type == 5 && bad (a + x.off) x.size then .error cIMGREAD
    else if (entryCause j entry).isSome || (entryCause j ssentry).isSome || (handler != 0 && (entryCause j handler).isSome) || n == 0
        || decide (1048576 < n) || (rows == 0) != (cols == 0) || (rows != 0 && rows * cols != n) || (j.exact && rows == 0) then .error cBADIMAGE
    else .ok j

/-- Host memory at a bus address is poisoned (R107, R123). -/
def State.hostBad (s : State) (a n : Nat) : Bool := pagesMeet s.hostPoison (hostBase + a) n
/-- The root address of a LAUNCH (R108). -/
def rootOk (a : Nat) : Bool := a % 65536 == 0 && tableOk a
/-- The pool entries that LAUNCH reads: its own, and those of the placed jobs, meet a reserved bank (R114, R125). -/
def State.poolsHeld (s : State) (m root : Nat) : Bool :=
  s.bankBusy m (root + 8 * 8191) none || s.jobs.any fun e => !e.2.rects.isEmpty && s.bankBusy e.2.home (e.2.root + 8 * 8191) none
/-- The pool overlaps the pool of a placed job (R114). -/
def State.poolMeets (s : State) (m root : Nat) : Bool :=
  match s.poolOf m root with
  | none => false
  | some p => s.jobs.any fun e => !e.2.rects.isEmpty && match s.poolOf e.2.home e.2.root with
    | some r => overlaps p.base p.size r.base r.size
    | none => false
/-- LAUNCH: steps 1 to 3 of R87, then the job waits for its partition. A reserved bank with a pool entry is waited for (R125). -/
def launch (m jsn : Nat) (s : State) : State :=
  onCommand m jsn 1 (fun s c =>
    let b := c.bytes
    let root := cmdArg b 2
    if cmdReserved b || cmdArg b 3 != 0 || cmdArg b 0 % 4096 != 0 || !rootOk root then s.cmdFault m jsn cBADFIELD
    else if s.poolsHeld m root then s
    else if s.poolMeets m root then s.cmdFault m jsn cBADFIELD
    else
      match readImage s.host s.hostBad (cmdArg b 0) (cmdArg b 1) with
      | .error cause => s.cmdFault m jsn cause
      | .ok j =>
        let j := { j with home := m, jsn := jsn, queue := c.queue, prio := c.prio, root := root }
        if c.busy || (s.job? (cmdAsid b)).isSome then s.cmdFault m jsn cASIDBUSY
        else if (s.candidates j).isEmpty then s.cmdFault m jsn cNOPLACE
        else (s.takeCmd m jsn).setJob (cmdAsid b) j) s
def execLaunch (m jsn : Nat) (s : State) : Result := .next (launch m jsn s)

-- commands that target a job (R85)
/-- A job that a command of this module can still reach (R400); a job in retirement is past its final commit (R359). -/
def State.liveJob (s : State) (m asid : Nat) : Option Job :=
  (s.job? asid).bind fun j => if j.home = m ∧ j.stage ≠ .retiring then some j else none
/-- The LAUNCH is ACCEPTED or PLACED, the job is paused, or it stands held at a boundary: a CANCEL acts at once (R85, R341). -/
def Job.idle (j : Job) : Bool := j.stage == .waiting || j.stage == .staging || j.stage == .runpfl || j.held
/-- CANCEL (R85); write-backs that meet a reserved bank are waited for (R125). -/
def cancel (m jsn : Nat) (s : State) : State :=
  onCommand m jsn 2 (fun s c =>
    let b := c.bytes
    if cmdReserved b || !noArgs b [1, 2, 3] || decide (1 < cmdArg b 0) then s.cmdFault m jsn cBADFIELD
    else
      match s.liveJob m (cmdAsid b) with
      | none => s.cmdFault m jsn cNOTLIVE
      | some j =>
        if j.idle && s.endBusy j then s
        else
        let j := { j with pending := j.pending ++ [{ jsn := jsn, cancel := true }], removeAt := j.removeAt || cmdArg b 0 == 1 }
        let s := (s.takeCmd m jsn).setJob (cmdAsid b) j
        if j.idle then s.endJob (cmdAsid b) jCANCELLED 0 (some jsn)
        else if cmdArg b 0 = 1 then s.postHub m (cmdAsid b) (.urgent 0 0 2)
        else s) s
def execCancel (m jsn : Nat) (s : State) : Result := .next (cancel m jsn s)
/-- PAUSE-AT-BOUNDARY (R85). -/
def pauseAtBoundary (m jsn : Nat) (s : State) : State :=
  onCommand m jsn 3 (fun s c =>
    let b := c.bytes
    if cmdReserved b || !noArgs b [0, 1, 2, 3] then s.cmdFault m jsn cBADFIELD
    else
      match s.liveJob m (cmdAsid b) with
      | none => s.cmdFault m jsn cNOTLIVE
      | some j =>
        if j.paused || j.pending.any fun r => !r.cancel then s.cmdDone m jsn
        else (s.takeCmd m jsn).setJob (cmdAsid b) { j with pending := j.pending ++ [{ jsn := jsn, cancel := false }] }) s
def execPauseAtBoundary (m jsn : Nat) (s : State) : Result := .next (pauseAtBoundary m jsn s)
/-- RESUME (R82, R85). -/
def resume (m jsn : Nat) (s : State) : State :=
  onCommand m jsn 4 (fun s c =>
    let b := c.bytes
    if cmdReserved b || !noArgs b [0, 1, 2, 3] then s.cmdFault m jsn cBADFIELD
    else
      match s.liveJob m (cmdAsid b) with
      | none => s.cmdFault m jsn cNOTLIVE
      | some j =>
        let pauses := j.pending.filter fun r => !r.cancel
        if j.paused then
          ((s.setJob (cmdAsid b) { j with paused := false }).modEntry j.home j.jsn fun e => { e with state := jCOMMITTED }).cmdDone m jsn
        else if pauses.isEmpty then s.cmdFault m jsn cBADSTATE
        else
          let s := s.setJob (cmdAsid b) { j with pending := j.pending.filter Request.cancel }
          (pauses.foldl (fun s r => s.finishCmd m r.jsn jCOMPLETED 0) s).cmdDone m jsn) s
def execResume (m jsn : Nat) (s : State) : Result := .next (resume m jsn s)
/-- READ-JOURNAL (R77). -/
def readJournal (m jsn : Nat) (s : State) : State :=
  onCommand m jsn 6 (fun s c =>
    let b := c.bytes
    let first := cmdArg b 0
    let count := cmdArg b 1
    let dst := cmdArg b 2
    if cmdReserved b || cmdArg b 3 != 0 || count == 0 || decide (4096 < count) || dst % 64 != 0 then s.cmdFault m jsn cBADFIELD
    else
      let image := fun (n : Nat) => ((s.entry? m n).map Entry.toNat).getD 0
      ((List.range count).foldl (fun s i => s.hostPut (dst + 64 * i) 64 (image (first + i))) s).cmdDone m jsn) s
def execReadJournal (m jsn : Nat) (s : State) : Result := .next (readJournal m jsn s)
/-- Every earlier command of the queue is final (R77). -/
def Module.queueFinal (d : Module) (q jsn : Nat) : Bool :=
  (d.slots.map Prod.snd ++ d.heldTab.map Prod.snd).all fun e => e.queue != q || decide (jsn ≤ e.jsn) || e.final
/-- SYNC (R77). -/
def sync (m jsn : Nat) (s : State) : State :=
  onCommand m jsn 7 (fun s c =>
    if cmdReserved c.bytes || !noArgs c.bytes [0, 1, 2, 3] then s.cmdFault m jsn cBADFIELD
    else if ((s.module? m).map fun d => d.queueFinal c.queue jsn).getD false then s.cmdDone m jsn
    else s) s
def execSync (m jsn : Nat) (s : State) : Result := .next (sync m jsn s)

-- placing a job (R93 to R97)
/-- A core of a job before its state is set; the round robin of R37 begins with context 0 (DESIGN CHOICE, log entry 1). -/
def Core.blank (asid index rect : Nat) : Core :=
  { asid := asid, index := index, rect := rect, ctxs := [], lastIssued := 10, tcm := Mem.empty, ac := [], latch := [], mb := [], present := [], q := []
    status := [], tasks := [], taskNext := 0, taskLive := [], ring := [], seqNext := 0, lanes := [], eager := [], deferred := [], writeOuts := []
    posts := [], phase := .held, abort := none, voteFault := none, stopped := false, dead := false, result := 0, outcome := false, age := 0x1000, pool := 10, nbwait := 0x10000
    stagger := 2, tracectl := 0, ssentry := 0, ssn := 0, sscause := 0
    snapshot := { x := [], f := [], p := [], pc := 0, fcsr := 0, flags := 0, enables := 0, ssentry := 0, ssn := 0, age := 0x1000, pool := 10, nbwait := 0x10000, stagger := 2, tracectl := 0 }
    ssStart := 0, follows := [], gang := none, gangPushed := 0, gangs := 0, reserved := none, kept := false, poisonMet := none, poisonRun := none
    nxPending := [], lastProgress := 0, stagedPoison := [], repeatCause := none }
/-- The waiting job of a LAUNCH. -/
def State.waitingJob (s : State) (m jsn : Nat) : Option (Nat × Job) :=
  (s.jobs.find? fun e => e.2.home == m && e.2.jsn == jsn && e.2.stage == .waiting)
/-- The order of R94: priority, then JSN. JSNs count in each home module apart (R400); between jobs of different homes the bare numbers are
compared, and of two that are equal the one of the lower home module goes first (DESIGN CHOICE, log entry 51). -/
def Job.before (a b : Job) : Bool := decide (b.prio < a.prio) || (a.prio == b.prio && (decide (a.jsn < b.jsn) || (a.jsn == b.jsn && decide (a.home < b.home))))
/-- What parking saved comes back at the job's new positions; a quad's scratchpad is that of its lowest core (R341). -/
def State.unpark (s : State) (asid : Nat) (j : Job) (k : Parked) : State :=
  let put := fun (s : State) (i : Nat) (core : Core) => match j.coreAt i with
    | some c => (s.setCore c { core with rect := i / (j.rr * j.cc) })
    | none => s
  let s := k.cores.foldl (fun s e => put s e.1 e.2) s
  let s := k.service.foldl (fun s e => match j.coreAt e.1 with
    | some c => s.modPos c fun p => p.withService e.2
    | none => s) s
  let qsp := (List.range j.n).foldl (fun (q : Dict Mem) i => match j.coreAt i with
    | some c => if (dget? q (coreQuad c)).isSome then q else dset q (coreQuad c) (dgetD k.qsp i Mem.empty)
    | none => q) []
  let dss := j.rects.zipIdx.foldl (fun (d : Dict Mem) x => dset d x.1.die (dgetD k.dss x.2 Mem.empty)) []
  s.setJob asid ({ j with qsp := qsp, dss := dss, parked := none, stage := .running, held := true }.putMap)
/-- A job has been placed: the yields that were asked for it are withdrawn (R339). -/
def State.withdraw (s : State) (w : Nat × Nat) : State :=
  { s with jobs := dmap s.jobs fun _ j => if j.yieldTo = some w then { j with yieldTo := none, deadline := none } else j }
/-- PLACE_JOB: the first of the waiting jobs, in the order of R94, that can be placed now takes its partition (R92 to R94, R341). A request that was
accepted before comes first (R85, R87). -/
def placeJob (m jsn : Nat) (s : State) : State :=
  match s.waitingJob m jsn with
  | none => s
  | some (asid, j) =>
    if s.requestsDue asid j || s.jobs.any fun e => e.2.stage == .waiting && e.2.before j && (s.findPlace e.2).isSome then s
    else
      match s.findPlace j with
      | none => s
      | some (x, rects) =>
        let s := s.withdraw (j.home, j.jsn)
        let j := s.giveWindows { j with rr := x.rr, cc := x.cc, rects := rects }
        match j.parked with
        | some k => s.unpark asid j k
        | none =>
          let j := { j with stage := .staging, dss := j.rects.foldl (fun d r => dset d r.die Mem.empty) [] }
          (List.range j.n).foldl (fun s i => match j.coreAt i with
            | some c => s.setCore c (Core.blank asid i (i / (j.rr * j.cc)))
            | none => s) (s.setJob asid j)
def execPlaceJob (m jsn : Nat) (s : State) : Result := .next (placeJob m jsn s)

-- staging (R69)
/-- The hub's translation of a VIRT address through the LAUNCH page tables, whatever W holds (R69, R112); cause 0 is the wait for a reserved bank
(R125). -/
def State.hubTranslate (s : State) (m asid root va : Nat) : Except Nat (State × Nat) :=
  if 2 ^ 52 ≤ va then .error cPAGE
  else if (s.walkReads m root va).any fun x => s.bankBusy m x none then .error 0
  else match s.walk m asid root va with
  | .fault cause _ => .error cause
  | .leaf e entry =>
    if pteType entry = 3 && !pteRes entry then
      if s.pagerBusy m root e none then .error 0
      else match s.promote m asid root e with
      | .ok (s, e) => .ok (s.countWalk m root va, e.pa + (va - e.va))
      | .error cause => .error cause
    else .ok ((s.countWalk m root va).modLeaf m e (fun x => setBit x 60 true), e.pa + (va - e.va))
/-- A 32-byte atom of a VIRT section is written; an address that is not mapped gives PAGE, as does a leaf that passes the length of its lease
window, and a target that cannot be written otherwise gives IMGREAD (R81, R87, R111). Cause 0 means that a reserved bank is waited for (R125). -/
def State.stageAtom (s : State) (m asid root va v : Nat) : Except Nat State :=
  match s.hubTranslate m asid root va with
  | .error cause => .error (if cause = cPAGE ∨ cause = 0 then cause else cIMGREAD)
  | .ok (s, pa) =>
    match s.paCause m pa 32 true with
    | some cause => .error (if cause = cPAGE then cPAGE else cIMGREAD)
    | none => if s.bankBusyOver m pa 32 none then .error 0 else .ok (((s.setDirty m asid root va).wrPa m pa 32 v).countAtoms m pa 32 true)
def State.stageVirt (s : State) (m asid root : Nat) (x : Section) : Nat → State × Option Nat
  | 0 => (s, none)
  | n + 1 =>
    match s.stageVirt m asid root x n with
    | (s, some e) => (s, some e)
    | (s, none) =>
      match s.stageAtom m asid root (x.addr + 32 * n) (readMem x.body (32 * n) 32) with
      | .error e => (if e = 0 ∨ 2 ^ 52 ≤ x.addr + 32 * n then s else s.countWalk m root (x.addr + 32 * n), some e)
      | .ok s => (s, none)
/-- A section's contents over zeroed space. -/
def Section.lay (x : Section) (m : Memory) : Memory := layMem x.body (clearMem m x.addr x.size) x.addr
def Section.layMem (x : Section) (m : Mem) : Mem := { cur := x.lay m.cur, base := x.lay m.base }
/-- One section goes to its space (R69); what a failing VIRT section had written stands. -/
def State.stageSection (s : State) (asid : Nat) (j : Job) (x : Section) : State × Option Nat :=
  if x.type = 6 then (s, none)
  else
    match x.space with
    | 0 => (j.places.foldl (fun s c => s.modCore c fun k => { k with tcm := x.layMem k.tcm }) s, none)
    | 1 =>
      let quads := (j.places.map coreQuad).dedup
      (s.modJob asid fun j => { j with qsp := quads.foldl (fun q d => dset q d (x.layMem (dgetD q d Mem.empty))) j.qsp }, none)
    | 2 => (s.modJob asid fun j => { j with dss := j.rects.foldl (fun q r => dset q r.die (x.layMem (dgetD q r.die Mem.empty))) j.dss }, none)
    | _ => s.stageVirt j.home asid j.root x (x.size / 32)
def State.stageAll (s : State) (asid : Nat) (j : Job) : List Section → State × Option Nat
  | [] => (s, none)
  | x :: t =>
    match s.stageSection asid j x with
    | (s, some e) => (s, some e)
    | (s, none) => s.stageAll asid j t
/-- The job of a LAUNCH at a stage. -/
def State.jobAt (s : State) (m jsn : Nat) (st : Stage) : Option (Nat × Job) :=
  s.jobs.find? fun e => e.2.home == m && e.2.jsn == jsn && e.2.stage == st
/-- The image as the dispatcher has it at step 5: what step 2 read, and the rest as the host holds it now: each byte is read once (R67, R87). -/
def Job.imageNow (j : Job) (host : Memory) : Memory :=
  j.early.foldl (fun m p => layMem (sliceMem p.2.2 0 p.2.1) (clearMem m p.1 p.2.1) p.1) (sliceMem host j.image j.imgsize)
/-- An atom of the image that is still to be read is poisoned (R67, R81, R123). -/
def State.imageBad (s : State) (j : Job) : Bool :=
  (List.range ((j.imgsize + 31) / 32)).any fun i =>
    s.hostBad (j.image + 32 * i) (min 32 (j.imgsize - 32 * i)) && !j.early.any fun p => decide (p.1 ≤ 32 * i) && decide (32 * i < p.1 + p.2.1)
/-- The job with the bodies of its sections from the image (R87 step 5); a ZERO section has none. -/
def Job.readBodies (j : Job) (host : Memory) : Job :=
  { j with sections := j.sections.map fun x => if x.type = 3 then x else { x with body := sliceMem (j.imageNow host) x.off x.size } }
/-- The image's bytes from 0x80 on have the digest of the header (R70 condition 6). -/
def Job.digestOk (j : Job) (host : Memory) : Bool := sm3 (bytesAt (j.imageNow host) 128 (j.imgsize - 128)) == j.digest
/-- The rest of the image is read, whole (log entry 79), its sections staged and its digest decided: the job as the step leaves it (R69, R81, R87, R97). -/
def State.stageJob (s : State) (m jsn asid : Nat) (j : Job) : State :=
  if s.imageBad j then s.endJob asid jFAULTED cIMGREAD none
  else
    let full := j.readBodies s.host
    match s.stageAll asid full full.sections with
    | (t, some cause) => if cause = 0 then s else t.endJob asid jFAULTED cause none
    | (t, none) =>
      if !j.digestOk s.host then t.endJob asid jFAULTED cDIGEST none
      else (t.modJob asid fun j => { j.putMap with stage := .runpfl, sections := full.sections }).modEntry m jsn fun e => { e with state := jPLACED }
/-- STAGING_COMPLETE (R69, R87). A request that was accepted before comes first (R85). -/
def stagingComplete (m jsn : Nat) (s : State) : State :=
  match s.jobAt m jsn .staging with
  | none => s
  | some (asid, j) => if s.requestsDue asid j then s else s.unlessBusy (s.stageJob m jsn asid j) asid
def execStagingComplete (m jsn : Nat) (s : State) : Result := .next (stagingComplete m jsn s)

-- RUNPFL lists and superstep 1 (R88, R89)
/-- The cores whose quad's copy engine runs the copies of a list (R88). -/
def Job.copiers (j : Job) (space : Nat) : List CoreId :=
  let first := fun (key : CoreId → Nat) => j.places.foldl (fun (l : List CoreId) c => if l.any fun d => key d = key c then l else l ++ [c]) []
  match space with
  | 0 => j.places
  | 1 => first coreQuad
  | _ => first coreDie
/-- One entry of one copy: delivered now, with its arrival, or the cause (R88). An entry that breaks R267, or whose DEST leaves its space or meets
code or the map, is BADIMAGE (log entry 73). A source that a lease window no longer holds counts as a translation
that cannot be resolved, PAGE (DESIGN CHOICE, log entry 52); cause 0 means that a reserved bank is waited for (R87, R125). The walk of a copy that
faults counts (R361). -/
def State.runEntry (s : State) (asid : Nat) (c : CoreId) (b : Nat) : State × Option Nat :=
  match s.core? c, s.job? asid with
  | some k, some j =>
    let v : Mover := { c := c, k := k, j := j, m := Cmd.blank 0 0 }
    let f := fetchOf b
    if (fetchCause v f).isSome then (s, some cBADIMAGE)
    else
      match s.readRow v f.va 0 f.len with
      | .error e => (s.stopped v e, some (if e.cause = cPOISON ∨ e.cause = 0 then e.cause else cPAGE))
      | .ok (s, x) =>
        match locate c f.dest with
        | some d => (f.arrive (s.wr asid d f.len x) v, none)
        | none => (s, some cBADIMAGE)
  | _, _ => (s, none)
def State.runEntries (s : State) (asid : Nat) : List (CoreId × Nat) → State × Option Nat
  | [] => (s, none)
  | (c, b) :: t =>
    match s.runEntry asid c b with
    | (s, some e) => (s, some e)
    | (s, none) => s.runEntries asid t
/-- Every entry of every copy of the RUNPFL lists. R88 gives no order of lists and cores among each other: section by section, core by core, each
entry as the image holds it, is the model's choice, and so is which of two writes to one place stays and which of two causes is reported (DESIGN
CHOICE, log entry 98). -/
def Job.runList (j : Job) : List (CoreId × Nat) :=
  (j.sections.filter fun x => x.type = 4 && x.runpfl).flatMap fun x =>
    (j.copiers x.space).flatMap fun c => (List.range (x.size / 32)).map fun i => (c, readMem x.body (32 * i) 32)
/-- The records of the RECORDS sections in their order (R89). No rule checks their CODE and JOIN: that such a record is queued and started like any other
is the model's choice (log entry 92). -/
def Job.records (j : Job) : List TaskRec :=
  (j.sections.filter fun x => x.type = 6).flatMap fun x => (List.range (x.size / 32)).map fun i => recordOf (readMem x.body (32 * i) 32)
/-- A core at the start of superstep 1 (R89). -/
def Core.first (k : Core) (j : Job) (clock : Nat) : Core :=
  let n : Snapshot := { x := [], f := [], p := [], pc := j.entry, fcsr := 0, flags := 0, enables := 0, ssentry := j.ssentry, ssn := 1, age := j.qage, pool := 10
                        nbwait := 0x10000, stagger := 2, tracectl := 0 }
  let k := { k with snapshot := n }.restart j.entry .job
  j.records.foldl (fun k r => k.enterTask r clock) k
/-- RUNPFL_COMPLETE: every RUNPFL entry is delivered, the initial state is set, service CSRs included, and superstep 1 starts as soon as nothing holds
it up (R87 to R89, R327). A CANCEL accepted before comes first (R85). -/
def runpflComplete (m jsn : Nat) (s : State) : State :=
  match s.jobAt m jsn .runpfl with
  | none => s
  | some (asid, j) =>
    if s.requestsDue asid j then s
    else
      match s.runEntries asid j.runList with
      | (t, some cause) => if cause = 0 then s else s.unlessBusy (t.endJob asid jFAULTED cause none) asid
      | (s, none) =>
        let s := j.places.foldl (fun s c => (s.modCore c fun k => k.first j s.clock).modPos c fun p => p.withService Pos.reset.service) s
        superstepStart asid (s.modJob asid fun j => { j with stage := .running, held := true })
def execRunpflComplete (m jsn : Nat) (s : State) : Result := .next (runpflComplete m jsn s)

-- pre-emption and parking (R339 to R341)
/-- The job would fit with some jobs gone, their forwarding entries with them (R101, R339). -/
def State.fitsWithout (s : State) (w : Job) (x : Shape) (gone : List Nat) : Bool :=
  let s := { s with
    cores := s.cores.filter fun e => !gone.contains e.2.asid
    jobs := dmap s.jobs fun a j => if gone.contains a then { j with rects := [], windows := [] } else j
    modules := dmap s.modules fun _ m => { m with dies := dmap m.dies fun _ d => { d with forwards := d.forwards.filter fun f => !gone.contains f.asid } } }
  (s.tryShape w x).isSome
/-- Victims in ascending priority and then descending JSN, until the shape fits (R339). -/
def State.victims (s : State) (w : Job) (x : Shape) : List (Nat × Job) → List Nat → Option (List Nat)
  | [], gone => if s.fitsWithout w x gone then some gone else none
  | v :: t, gone => if s.fitsWithout w x gone then some gone else s.victims w x t (gone ++ [v.1])
/-- A move of one rectangle, of a job that stands at a boundary that admits it, after which a waiting job can be placed (R339, R342; log entry 20). -/
def State.roomByMove (s : State) (w : Job) : Option State :=
  firstSome (s.jobs.flatMap fun e => e.2.rects.zipIdx.flatMap fun x =>
    if s.mayMigrate e.2 x.2 && s.forwardRoom e.2 x.1 then
      (s.freeRects e.2 x.2 x.1).map fun new =>
        if ((s.migrate e.1 e.2 x.2 x.1 new).findPlace w).isSome then some (s.migrate e.1 e.2 x.2 x.1 new) else none
    else [])
/-- The placed jobs below a waiting one, those still being staged among them, in the order in which they are chosen (R339). -/
def State.below (s : State) (w : Job) : List (Nat × Job) :=
  sortBy (fun e => e.2.prio * 2 ^ 48 + (2 ^ 48 - 1 - e.2.jsn)) (s.jobs.filter fun e => decide (e.2.prio < w.prio) && !e.2.rects.isEmpty && e.2.stage != .retiring)
/-- A victim is asked for a boundary yield, unless it is already to yield to a job that still waits (R339, R340). That the queue's ABORTOK and QDLINE are
read once, at this request, is the model's choice (log entry 94). -/
def State.askYield (s : State) (w : Nat × Nat) (a : Nat) : State :=
  s.modJob a fun j =>
    let q := ((s.module? j.home).map fun d => d.queue j.queue).getD Queue.reset
    let dl := if q.abortok ∧ q.qdline ≠ 0 then some (s.clock + q.qdline * 1250) else none
    if (j.yieldTo.map s.wanted).getD false then j else { j with yieldTo := some w, deadline := dl }
/-- PREEMPTION_REQUEST: a waiting LAUNCH that cannot be placed gets room by a migration, or asks victims for a boundary yield (R339). -/
def preemptionRequest (m jsn : Nat) (s : State) : State :=
  match s.waitingJob m jsn with
  | none => s
  | some (_, w) =>
    match (s.candidates w).head?, s.findPlace w with
    | some x, none =>
      match s.victims w x (s.below w) [] with
      | none => s
      | some gone =>
        match s.roomByMove w with
        | some t => t
        | none => gone.foldl (fun s a => s.askYield (m, jsn) a) s
    | _, _ => s
def execPreemptionRequest (m jsn : Nat) (s : State) : Result := .next (preemptionRequest m jsn s)
/-- PREEMPTION_DEADLINE: an urgent abort with ORIGIN 0b11 (R340). -/
def preemptionDeadline (asid : Nat) (s : State) : State :=
  match s.job? asid with
  | none => s
  | some j =>
    match j.deadline with
    | some t =>
      if decide (t ≤ s.clock) && j.stage == .running && !j.held && j.verdict.isNone && (j.yieldTo.map s.wanted).getD false then
        (s.setJob asid { j with deadline := none }).postHub j.home asid (.urgent 0 0 3)
      else s
    | none => s
def execPreemptionDeadline (asid : Nat) (s : State) : Result := .next (preemptionDeadline asid s)
/-- The core's state that parking saves: what a held job carries. -/
def Job.saved (j : Job) (s : State) : Parked :=
  let cores := (List.range j.n).filterMap fun i => (j.coreAt i).bind fun c => (s.core? c).map fun k => (i, { k with reserved := none, kept := false, dead := false })
  let service := (List.range j.n).filterMap fun i => (j.coreAt i).map fun c => (i, (s.pos c).service)
  let qsp := (List.range j.n).filterMap fun i => (j.coreAt i).bind fun c => (dget? j.qsp (coreQuad c)).map fun m => (i, m)
  let dss := j.rects.zipIdx.filterMap fun x => (dget? j.dss x.1.die).map fun m => (x.2, m)
  { cores := cores, service := service, qsp := qsp, dss := dss }
/-- The rectangle of a position can move nowhere: no rectangle of the shape is free, a die has too few forwarding entries for it, or a position of
it was patched at this boundary (R101, R342, R350). That a job parks when a second position of the patched rectangle finds no spare, though a free
rectangle may exist, is the model's choice: R350 asks for a migration that R342 forbids at this boundary (DESIGN CHOICE, log entry 105). -/
def State.cannotMove (s : State) (j : Job) (c : CoreId) : Bool :=
  match (s.core? c).bind fun k => (j.rects[k.rect]?).map fun old => (k.rect, old) with
  | some (r, old) => decide (64 < j.rr * j.cc) || j.patchedAt.contains r || (s.freeRects j r old).isEmpty
  | none => true
/-- The job waits for a rectangle that no free place gives (R350), or it is to yield (R339). -/
def State.mustPark (s : State) (j : Job) : Bool := s.yields j || j.places.any fun c => (s.patch c).fenced && (s.patch c).perm && s.cannotMove j c
/-- PARK: a held job is saved and its partition freed; it waits at its priority (R341, R350). -/
def park (asid : Nat) (s : State) : State :=
  match s.job? asid with
  | none => s
  | some j =>
    if j.stage == .running && j.held && j.parked.isNone && j.verdict.isNone && s.mustPark j && !s.endBusy j then
      let k := j.saved s
      (s.vacate asid j).modJob asid fun j => { j with
        parked := some k, stage := .waiting, rects := [], windows := [], dss := [], qsp := [], tiles := [], yieldTo := none, deadline := none }
    else s
def execPark (asid : Nat) (s : State) : Result := .next (park asid s)

-- migration (R100, R101, R342)
/-- MIGRATE_RECTANGLE: at a boundary that admits it, rectangle `r` moves to a free rectangle of its shape on another die; its positions forward
(R100, R101, R342). -/
def migrateRectangle (asid r die row col : Nat) (s : State) : State :=
  match s.job? asid with
  | none => s
  | some j =>
    match j.rects[r]? with
    | none => s
    | some old =>
      let new : Rect := { die := die, row := row, col := col }
      if s.mayMigrate j r && s.admitsMove j r old new && s.forwardRoom j old then s.migrate asid j r old new else s
def execMigrateRectangle (asid r die row col : Nat) (s : State) : Result := .next (migrateRectangle asid r die row col s)

end Sys2Proof.Machine
end

