-- ==== Sys2Proof/Machine/Fencing.lean ====
section
/-! DEFINITION. Heartbeats, accusations and fences (R343 to R347), the appeal of a fenced position (R348), soft errors (R321, R331) and
link failures (R399). -/

namespace Sys2Proof.Machine

-- `hbperiod` (R343)
def Pos.period (p : Pos) : Nat := max 256 (p.hbperiod.toNat % 2 ^ 16)
def Pos.missMax (p : Pos) : Nat := max 1 (p.hbperiod.toNat / 2 ^ 16 % 16)
def Pos.crcMax (p : Pos) : Nat := p.hbperiod.toNat / 2 ^ 20 % 16
def Pos.headerMax (p : Pos) : Nat := 4 * (p.hbperiod.toNat / 2 ^ 24 % 256)

-- neighbours (R345)
def neighbours (c : CoreId) : List CoreId := (List.range 4).filterMap (neighbour c)
/-- The direction in which one position sees another. -/
def directionOf (c d : CoreId) : Option Nat := (List.range 4).find? fun i => neighbour c i == some d
def State.present (s : State) (c : CoreId) : List CoreId := (neighbours c).filter fun d => !(s.patch d).fenced
/-- The number of distinct accusers or accepters that decides (R345). -/
def fenceThreshold : Nat → Option Nat
  | 4 => some 3
  | 3 => some 2
  | 2 => some 2
  | _ => none
def State.thresholdMet (s : State) (suspect : CoreId) (by_ : List CoreId) : Bool :=
  match fenceThreshold (s.present suspect).length with
  | some t => decide (t ≤ (by_.filter fun c => (s.present suspect).contains c).dedup.length)
  | none => false

/-- The message that a fenced core sent last may have been injected in part only: a free value says so, and it is then discarded without an
acknowledgement (R347; log entry 54). -/
def State.cutMessage (s : State) (c : CoreId) : State :=
  match ((s.net.zipIdx.filter fun x => some x.1 == dget? s.lastSent c).map Prod.snd).getLast? with
  | none => s
  | some n => if s.drawBool.1 then s.drawBool.2.dropMsg n else s.drawBool.2
/-- The address of an ordered add that a context waits for. -/
def State.orderAddr (s : State) (r : OrderReq) : Word :=
  match (s.core? r.core).bind fun k => (k.ctx r.ctx).wait with
  | some (.rfaao addr _) => addr
  | _ => 0
/-- The ordered adds that wait at a fenced position are returned (R301, R347). -/
def State.returnOrders (s : State) (asid : Nat) (c : CoreId) : State :=
  match s.job? asid with
  | none => s
  | some j =>
    let here := j.groups.filter fun g => g.dest.core == c
    let s := s.setJob asid { j with groups := j.groups.filter fun g => g.dest.core != c }
    (here.flatMap fun g => g.members ++ g.held).foldl (fun s r => r.answer s asid c (.returned true (s.orderAddr r))) s
/-- A fence takes effect (R346, R333, R347, R348): FENCED is set, the core is held in reset, requests that wait at it are returned, and a proxy vote
is entered while the attempt is undecided (R281); in probation PERM is set. A ticket says which of two positions was fenced first (R352). -/
def State.fence (s : State) (c : CoreId) : State :=
  let p := s.patch c
  if p.fenced then s
  else
    let lapse := (s.pos c).probation != 0
    let (t, s) := (s.setPatch c { p with fenced := true, perm := p.perm || lapse }).fresh
    let s := (s.modPos c fun p => { p with fencedAt := t }).forgetMisses c
    let s := (s.modDie (coreDie c) fun d => { d with lastPos := c % 256 }).count (coreModule c) 3 1
    let s := if lapse then s.event (coreModule c) (eventWord 3 (coreDie c) (coreRow c) (coreCol c) 0) 0 else s
    let s := s.cutMessage c
    match s.core? c with
    | none => s
    | some k =>
      let s := (s.returnOrders k.asid c).modCore c fun k => { k with dead := true }
      let s := s.watchRolling k.asid
      if ((s.job? k.asid).map fun j => j.verdict.isSome || j.held).getD true then s
      else s.post c k.asid (.further { index := k.index, abort := true, cause := cLINK, op := 0, val := 0 })
/-- The standing accusations that a neighbour holds reach the threshold (R345). -/
def State.tryFence (s : State) (c suspect : CoreId) : State :=
  let by_ := ((s.pos c).accused.filter fun a => a.1 = suspect && decide (s.clock < a.2.2)).map fun a => a.2.1
  if (s.present suspect).contains c && s.thresholdMet suspect by_ then s.fence suspect else s
/-- The position is readmitted now, when no job's boundary is to be waited for (R99, R348). -/
def State.tryAccept (s : State) (c suspect : CoreId) : State :=
  let by_ := ((s.pos c).accepted.filter fun a => a.1 = suspect).map Prod.snd
  if (s.patch suspect).perm || !s.thresholdMet suspect by_ then s
  else (s.modPos suspect fun p => { p with readmit := true }).readmit suspect

/-- The position's core is able to send: it holds a position and has not stopped, or appeals its fence (R344, R348). -/
def State.beats (s : State) (c : CoreId) : Bool :=
  if (s.patch c).fenced && (s.patch c).slot != 4 then (s.pos c).appealing else !((s.core? c).map Core.dead).getD false
/-- The number of the period of the heartbeat clock in which a position stands (R344). -/
def State.beatOf (s : State) (c : CoreId) : Nat := (s.clock - ((s.module? (coreModule c)).map Module.resetClock).getD 0) / (s.pos c).period
/-- A heartbeat sets out; it has no answer, and takes no ticket. -/
def State.postBeat (s : State) (c d : CoreId) : State :=
  s.inject { src := c, ctx := 0, asid := noJob, uid := 0, seq := 0, cmd := none, kind := .heartbeat d }
/-- HEARTBEAT_SEND: once at each multiple of PERIOD (R344); an appeal begins with its first heartbeat (R348). -/
def heartbeatSend (c : CoreId) (s : State) : State :=
  let t := s.beatOf c
  if t = (s.pos c).lastBeat then s
  else
    let s := s.modPos c fun p => { p with lastBeat := t, firstBeat := if p.appealing then some (p.firstBeat.getD t) else none }
    if s.beats c then (s.present c).foldl (fun s d => s.postBeat c d) s else s
def execHeartbeatSend (c : CoreId) (s : State) : Result := .next (heartbeatSend c s)
/-- FLIT_CRC_FAILURE (R344). -/
def flitCrcFailure (c : CoreId) (dir : Nat) (s : State) : State :=
  s.modPos c fun p => { p with crcs := dset p.crcs dir (dgetD p.crcs dir 0 + 1) }
def execFlitCrcFailure (c : CoreId) (dir : Nat) (s : State) : Result := .next (flitCrcFailure c dir s)

/-- The neighbour of a direction misbehaved in the period: a miss, or babble. -/
def Pos.missed (p : Pos) (i : Nat) : Bool := !p.heard.contains i
def Pos.babble (p : Pos) (i : Nat) : Bool := decide (p.crcMax < dgetD p.crcs i 0) || decide (p.headerMax < dgetD p.headers i 0)
/-- A neighbour is judged silent or babbling: accusations go to the other present neighbours of the suspect (R345). -/
def State.accuse (s : State) (c d : CoreId) : State :=
  let stands := s.clock + 4 * (s.pos c).period
  let s := s.modPos c fun p => { p with accused := (d, c, stands) :: p.accused.filter fun a => a.1 ≠ d || a.2.1 ≠ c }
  let s := ((s.present d).filter (· ≠ c)).foldl (fun s x => s.post c noJob (.accuse x d)) s
  s.tryFence c d
/-- A neighbour of an appealing position counts its clean periods; at sixteen it accepts, and a miss or babble rejects the appeal (R348). -/
def State.judgeAppeal (s : State) (c d : CoreId) (i : Nat) (bad : Bool) : State :=
  if bad then
    let n := (s.pos d).rejections + 1
    let s := s.modPos c fun p => { p with clean := derase p.clean i }
    let s := (s.modPos d fun p => { p with appealing := false, firstBeat := none, rejections := n }).forgetAppeal d
    if n < 3 then s
    else s.fenceForGood d
  else
    let n := dgetD (s.pos c).clean i 0 + 1
    if n < 16 then s.modPos c fun p => { p with clean := dset p.clean i n }
    else
      let s := s.modPos c fun p => { p with clean := derase p.clean i, accepted := (d, c) :: p.accepted.filter (· ≠ (d, c)) }
      let s := ((s.present d).filter (· ≠ c)).foldl (fun s x => s.post c noJob (.accept x d)) s
      s.tryAccept c d
/-- The neighbour has sent heartbeats of an appeal since the multiple before (R348). -/
def State.appealBeats (s : State) (c d : CoreId) : Bool := ((s.pos d).firstBeat.map fun b => decide (b < s.beatOf c)).getD false
/-- The check of one direction at a multiple of PERIOD. -/
def State.checkDir (s : State) (p : Pos) (c : CoreId) (i : Nat) : State :=
  match neighbour c i with
  | none => s
  | some d =>
    let s := if (s.pos d).appealing && s.appealBeats c d then s.judgeAppeal c d i (p.missed i || p.babble i) else s
    if (s.patch d).fenced then s
    else
      let n := if p.missed i then dgetD p.misses i 0 + 1 else 0
      let s := s.modPos c fun p => { p with misses := dset p.misses i n }
      if decide (p.missMax ≤ n) || p.babble i then s.accuse c d else s
/-- The headers of a link in the period that ends. Which of the other messages it delivered depends on routes that the spec leaves open: a free
number, at most as many as can have been on their way in the period, drawn where it can matter (R18, R344; log entry 19). -/
def State.countHeaders (s : State) (p : Pos) (i : Nat) : State × Pos :=
  let most := s.tickets - p.seen
  let beats := dgetD p.headers i 0
  if beats + most ≤ p.headerMax then (s, p) else (s.draw.2, { p with headers := dset p.headers i (beats + s.draw.1 % (most + 1)) })
/-- MISS_CHECK: once at each multiple of PERIOD (R344, R345). -/
def missCheck (c : CoreId) (s : State) : State :=
  let t := s.beatOf c
  if t = (s.pos c).lastCheck then s
  else
    let (s, p) := (List.range 4).foldl (fun (r : State × Pos) i => r.1.countHeaders r.2 i) (s, s.pos c)
    let s := s.modPos c fun p => { p with heard := [], crcs := [], headers := [], lastCheck := t, seen := s.tickets - s.net.length }
    if s.beats c && !(s.patch c).fenced then (List.range 4).foldl (fun s i => s.checkDir p c i) s else s
def execMissCheck (c : CoreId) (s : State) : Result := .next (missCheck c s)
/-- HEARTBEAT_ARRIVAL: heard when its CRC is good; a bad one counts as a failed flit. A check of the receiver that is due comes first: it is for the
time before its multiple, at which this heartbeat was sent (R344). -/
def heartbeatArrival (n : Nat) (crcOk : Bool) (s : State) : State :=
  match s.net[n]? with
  | none => s
  | some m =>
    match m.kind with
    | .heartbeat d =>
      let s := missCheck d (s.dropMsg n)
      match directionOf d m.src with
      | none => s
      | some i =>
        s.modPos d fun p =>
          let p := { p with headers := dset p.headers i (dgetD p.headers i 0 + 1) }
          if crcOk then { p with heard := i :: p.heard.filter (· ≠ i) } else { p with crcs := dset p.crcs i (dgetD p.crcs i 0 + 1) }
    | _ => s
def execHeartbeatArrival (n : Nat) (crcOk : Bool) (s : State) : Result := .next (heartbeatArrival n crcOk s)
/-- ACCUSATION (R345). -/
def accusation (n : Nat) (s : State) : State :=
  match s.net[n]? with
  | none => s
  | some m =>
    match m.kind with
    | .accuse d suspect =>
      let stands := s.clock + 4 * (s.pos d).period
      let s := (s.dropMsg n).modPos d fun p => { p with accused := (suspect, m.src, stands) :: p.accused.filter fun a => a.1 ≠ suspect || a.2.1 ≠ m.src }
      s.tryFence d suspect
    | _ => s
def execAccusation (n : Nat) (s : State) : Result := .next (accusation n s)
/-- ACCUSATION_EXPIRY (R345). -/
def accusationExpiry (c : CoreId) (s : State) : State := s.modPos c fun p => { p with accused := p.accused.filter fun a => decide (s.clock < a.2.2) }
def execAccusationExpiry (c : CoreId) (s : State) : Result := .next (accusationExpiry c s)
/-- SELF_TEST of a fenced core: it appeals, or PERM is set (R348). -/
def selfTest (c : CoreId) (pass : Bool) (s : State) : State :=
  let p := s.patch c
  if !(p.fenced || p.slot == 4) || p.perm then s
  else if pass then s.modPos c fun p => { p with appealing := true, firstBeat := none }
  else s.fenceForGood c
def execSelfTest (c : CoreId) (pass : Bool) (s : State) : Result := .next (selfTest c pass s)
/-- ACCEPTANCE (R348). -/
def acceptance (n : Nat) (s : State) : State :=
  match s.net[n]? with
  | none => s
  | some m =>
    match m.kind with
    | .accept d suspect => ((s.dropMsg n).modPos d fun p => { p with accepted := (suspect, m.src) :: p.accepted.filter (· ≠ (suspect, m.src)) }).tryAccept d suspect
    | _ => s
def execAcceptance (n : Nat) (s : State) : Result := .next (acceptance n s)

-- soft errors
/-- The spare-position core of a quad fails while it is not patched in: its role passes as R23 gives, and no position can be patched onto it any more
(R344). -/
def State.failSpare (s : State) (c : CoreId) : State :=
  match dgetD (s.die (coreDie c)).roles (quadIn c) .patched with
  | .patched | .failed => s
  | r => (s.modDie (coreDie c) fun y => { y with roles := dset y.roles (quadIn c) .failed }).passRole (coreDie c) (quadIn c) r
/-- CONTROL_STATE_ERROR: the core stops without a vote (R331); where an abort has been decided, the wait for its fence counts (R337). A pod
has 2^20 positions; a number c of 2^20 and more is the spare-position core of the quad of c - 2^20, which fails in its role (R344; log entry 81). -/
def controlStateError (c : CoreId) (s : State) : State :=
  if 2 ^ 20 ≤ c then s.failSpare (c - 2 ^ 20)
  else
  match s.core? c with
  | none => s
  | some k => (s.modCore c fun k => { k with dead := true }).watchRolling k.asid
def execControlStateError (c : CoreId) (s : State) : Result := .next (controlStateError c s)
/-- A hardware fault strikes the command at the head of a queue, which reports it when it comes to it; a firing faults at once (R237, R276, R310). -/
def State.strikeHead (s : State) (c : CoreId) (q : Nat) (m : Cmd) (cause : Nat) : State :=
  s.modCore c fun k => k.putHead q (if m.firing.isSome then (m.strike cause).perform 0 0 0 0 else m.strike cause)
/-- The first queue of a list whose head, still at work, satisfies a condition. -/
def Core.firstHead (k : Core) (qs : List Nat) (p : Cmd → Bool) : Option (Nat × Cmd) :=
  firstSome (qs.map fun q => (k.headOf q).bind fun m => if p m then some (q, m) else none)
/-- PARITY: a soft error in lane, array or engine state, in an operation that a context numbered `k` dispatched, be it no longer live. It arrives late
with that operation's sequence number; a command reports it in its place (R11, R194, R237, R276, R321). Of several operations under way the
oldest in the lanes is struck, else the head of the first of q0 to q3 that the context pushed, else core state that no dispatch owns: the spec
names none (log entry 69). -/
def parity (c : CoreId) (k : Nat) (s : State) : State :=
  match s.core? c with
  | none => s
  | some core =>
    match core.lanes.find? fun l => l.ctx == k with
    | some l => s.lateTrap c { cause := cPARITY, seq := l.seq, tval := 0, ctx := k, orphan := l.gone }
    | none =>
      match core.firstHead [0, 1, 2, 3] fun m => m.ctx == k with
      | some (q, m) => s.strikeHead c q m cPARITY
      | none => s.lateTrap c { cause := cPARITY, seq := 0, tval := 0, ctx := k, orphan := false }
def execParity (c : CoreId) (k : Nat) (s : State) : Result := .next (parity c k s)

-- link failures (R399, R359)
/-- LINK at the sender of a lost message, with its sequence number; a module's hub takes no trap. -/
def State.linkAt (s : State) (m : Msg) : State :=
  if m.ctx = hubCtx then s else s.lateTrap m.src { cause := cLINK, seq := m.seq, tval := 0, ctx := m.ctx, orphan := false }
/-- The sender of a message can take a late trap: a core that has not stopped. -/
def State.takesLink (s : State) (m : Msg) : Bool := m.ctx != hubCtx && !((s.core? m.src).map Core.dead).getD true
/-- A lost message for the closing barrier, or from its root, is entered again with new contents, so that every core votes and gets the outcome (R281,
R282, R391; log entry 22). -/
def State.sendAgain (s : State) (m : Msg) (kind : MsgKind) : State := (s.send m.src m.ctx m.asid m.seq m.cmd kind).2
/-- A write of a command, lost: the command faults with LINK once its other atoms are back (R276, R399). -/
def Core.atomLost (k : Core) (uid : Nat) : Core :=
  let cmd := (k.eager.find? fun e => e.uid == uid).bind EagerOut.cmd
  let k := { k with eager := k.eager.filter fun e => e.uid != uid }
  match cmd with
  | some u => k.modQueue 3 fun l => l.map fun m => if m.uid == u then ({ m with outstanding := m.outstanding - 1 }).blame cLINK 0 else m
  | none => k
/-- The module at which an address of a command lies: its home's, or the lender's of its lease window. -/
def State.moduleAt (s : State) (v : Mover) (a : Word) : Option Nat :=
  if addrForm a = 8 then
    match s.walk (coreModule v.c) v.k.asid v.j.root (a.toNat % 2 ^ 52) with
    | .leaf e _ => (s.leased (coreModule v.c) (e.pa + (a.toNat % 2 ^ 52 - e.va))).map Prod.fst
    | .fault _ _ => none
  else (locate v.c a).map fun d => coreModule d.core
/-- The first addresses of the rows of a command. -/
def State.rowAddrs (s : State) (v : Mover) : List Word :=
  let d3 := v.m.d3.toNat
  match dKind v.m.d0 with
  | 0x21 => (List.range v.rows1).filterMap fun i => match s.fetchAt v i with
    | .ok f => some f.va
    | .error _ => none
  | 0x30 => (List.range (d3 / 2 ^ 22 % 2 ^ 10 + 1)).map fun i =>
    Mover.at_ v.m.a1 ((s.rd v.k.asid { core := v.c, space := .tcm, off := d3 / 2 ^ 32 % 2 ^ 17 + 4 * i } 4 + tRows v.m.d1) * 32 * tStride v.m.d1)
  | _ => (List.range v.rows1).map (fun i => Mover.at_ v.m.a1 (v.off1 i)) ++ (List.range (max v.rows1 (tRows v.m.d2 + 1))).map fun i => Mover.at_ v.m.a2 (v.off2 i)
/-- The other modules that a command's rows reach. -/
def State.farModules (s : State) (v : Mover) : List Nat := (((s.rowAddrs v).filterMap (s.moduleAt v)).filter (· ≠ coreModule v.c)).dedup
/-- The first copy, gather or network command of a core loses its traffic and faults with LINK (R120, R276). Which of its links failed is open: one to a
module that its rows reach, whose rounds are voted down (R314), or another. -/
def State.failCommand (s : State) (c : CoreId) : State :=
  match s.core? c with
  | none => s
  | some k =>
    match k.firstHead [1, 2, 3] fun m => m.firing.isNone && decide (0x20 ≤ dKind m.d0) && dKind m.d0 != 0x23, s.job? k.asid with
    | some (q, m), some j =>
      match s.farModules { c := c, k := k, j := j, m := m } with
      | [] => s.strikeHead c q m cLINK
      | l =>
        let t := s.draw.2.strikeHead c q m cLINK
        match l[s.draw.1 % (l.length + 1)]? with
        | some x => t.linkVotes (coreModule c) x
        | none => t
    | _, _ => s
/-- The module at the other end of a message: where it goes, or where an answer comes from; of one for the closing barrier, the module of the
dispatcher that decides it (R279), as for a group barrier of the whole job (log entry 99). -/
def State.farModule (s : State) (m : Msg) : Option Nat :=
  match m.kind with
  | .eager d _ _ _ | .loadReq d _ _ | .check d _ | .atomic d _ _ _ _ | .order d _ _ _ => some (coreModule d.core)
  | .post c _ _ => some (coreModule c)
  | .response _ | .poisoned _ | .orderBad | .returned _ _ | .eagerAck => m.home.map coreModule
  | .vote _ _ | .further _ | .urgent _ _ _ | .doom | .outcome _ => (s.job? m.asid).map Job.home
  | .arrival sc _ _ _ _ => if 5 ≤ sc then (s.job? m.asid).map Job.home else none
  | .revoke _ | .revokeAck _ => m.cmd
  | .lease _ pa _ _ => (s.leased (coreModule m.src) pa).map Prod.fst
  | _ => none
/-- A lost record of a round: its module and the root of the round stand on the two sides of the link (R314). -/
def State.roundLost (s : State) (asid tile x : Nat) : State :=
  match (s.job? asid).bind fun j => (j.rounds.find? fun r => r.tile == tile).map fun r => j.roundRoot r.entry with
  | some r => s.linkVotes x r
  | none => s
/-- What the loss of message `m` does, `lost` being the state without it; a write may have performed first (`applied`). -/
def State.loseMsg (s lost : State) (m : Msg) (applied : Bool) : State :=
  match m.kind with
  | .eager d l v _ =>
    let s1 := match s.target m.asid d with
      | some t => if applied then lost.wrNow m.asid t l v else lost
      | none => lost
    let s2 := s1.modCore m.src fun k => k.atomLost m.uid
    if m.cmd.isSome then s2 else s2.linkAt m
  | .atomic d op a b _ =>
    let s1 := match s.target m.asid d with
      | some t => if applied then (lost.performAtomic m.asid t op a b).2 else lost
      | none => lost
    s1.linkAt m
  | .eagerAck | .returned false _ =>
    let s2 := lost.modCore m.src fun k => k.atomLost m.uid
    if m.cmd.isSome then s2 else s2.linkAt m
  | .loadReq _ _ _ | .response _ | .poisoned _ | .returned true _ | .order _ _ _ _ | .orderBad | .check _ _ | .post _ _ _ | .late _ => lost.linkAt m
  | .vote v ssn =>
    if lost.takesLink m then (lost.linkAt m).sendAgain m (.vote { v with abort := true, cause := if v.abort then v.cause else cLINK } ssn) else lost
  | .further v => if lost.takesLink m then lost.linkAt m else lost.sendAgain m (.further v)
  | .arrival _ _ _ _ _ => lost.linkAt m
  | .urgent _ _ origin => if origin = 1 then lost.linkAt m else lost.sendAgain m m.kind
  | .doom | .outcome _ => lost.sendAgain m m.kind
  | .fire _ _ _ _ =>
    lost.modCore m.src fun k => k.modQueue 3 fun l => l.map fun x => if x.firing.isSome && some x.uid == m.cmd then x.perform cLINK 0 0 0 else x
  | .partial_ t x | .result t x => lost.roundLost m.asid t x
  | .heartbeat _ | .accuse _ _ | .accept _ _ | .revoke _ | .revokeAck _ => lost
  | .lease write pa l v =>
    let s1 := if write && applied && !lost.bankBusyOver (coreModule m.src) pa l none then lost.wrPa (coreModule m.src) pa l v else lost
    match s.core? m.src with
    | none => s1
    | some k => (s1.modJob k.asid fun j => if j.stage == .retiring then { j with endCause := some (j.endCause.getD cLINK) } else j).journalCommit k.asid
/-- LINK_FAILURE: an unrecovered failure loses message `n`; where it went to another module, the link's rounds are voted down too (R314, R399). A
number past the messages is a core's position, whose command traffic is lost: position `n - s.net.length` (log entries 22, 80). -/
def linkFailure (n : Nat) (applied : Bool) (s : State) : State :=
  match s.net[n]? with
  | none => s.failCommand (n - s.net.length)
  | some m =>
    let t := s.loseMsg (s.dropMsg n) m applied
    match s.farModule m with
    | some x => t.linkVotes (coreModule m.src) x
    | none => t
def execLinkFailure (n : Nat) (applied : Bool) (s : State) : Result := .next (linkFailure n applied s)

end Sys2Proof.Machine
end

