-- ==== Sys2Proof/Machine/Fp.lean ====
section
/-! DEFINITION. The scalar F instructions (R45, R128): `frm` honoured, `fflags` written, `qflags` never touched. -/

namespace Sys2Proof.Machine

def numF (p : Half32) : Num := fp32.decode p.toNat
def nanF : Half32 := 0x7FC00000
/-- NV for a signalling NaN operand. -/
def snanFlag (ps : List Half32) : BitVec 8 := if ps.any isSignalling then ffNV else 0

/-- A value rounded to FP32 with the flags met on the way. -/
def roundF (rm : Rm) (r : Num × Flags) (extra : BitVec 8) : Half32 × BitVec 8 :=
  let (p, fl) := fp32.round rm r.1
  (BitVec.ofNat 32 p, toFflags (r.2 ||| fl) ||| extra)

def addF (rm : Rm) (a b : Half32) : Half32 × BitVec 8 := roundF rm (Num.add rm (numF a) (numF b)) (snanFlag [a, b])
def subF (rm : Rm) (a b : Half32) : Half32 × BitVec 8 := roundF rm (Num.add rm (numF a) (numF b).neg) (snanFlag [a, b])
def mulF (rm : Rm) (a b : Half32) : Half32 × BitVec 8 := roundF rm (Num.mul (numF a) (numF b)) (snanFlag [a, b])
/-- ±(a × b) ± c with one rounding. -/
def fmaF (rm : Rm) (negP negC : Bool) (a b c : Half32) : Half32 × BitVec 8 :=
  let p := if negP then (numF a).neg else numF a
  let z := if negC then (numF c).neg else numF c
  roundF rm (Num.fma rm p (numF b) z) (snanFlag [a, b, c])
/-- The quotient: 0/0 and Inf/Inf are invalid, a finite nonzero value over zero sets DZ. -/
def divF (rm : Rm) (a b : Half32) : Half32 × BitVec 8 :=
  let extra := snanFlag [a, b]
  match numF a, numF b with
  | .nan, _ | .nar, _ | _, .nan | _, .nar => (nanF, extra)
  | .inf _, .inf _ => (nanF, extra ||| ffNV)
  | .inf x, .fin y _ _ => roundF rm (.inf (x != y), 0) extra
  | .fin x _ _, .inf y => roundF rm (.fin (x != y) 0 0, 0) extra
  | .fin x m e, .fin y n g =>
    if n = 0 then
      if m = 0 then (nanF, extra ||| ffNV) else roundF rm (.inf (x != y), 0) (extra ||| ffDZ)
    else if m = 0 then roundF rm (.fin (x != y) 0 0, 0) extra
    else
      let (q, h) := divSticky m e n g
      roundF rm (.fin (x != y) q h, 0) extra
def sqrtF (rm : Rm) (a : Half32) : Half32 × BitVec 8 :=
  let extra := snanFlag [a]
  match numF a with
  | .nan | .nar => (nanF, extra)
  | .inf true => (nanF, extra ||| ffNV)
  | .inf false => roundF rm (.inf false, 0) extra
  | .fin neg m e =>
    if m = 0 then roundF rm (.fin neg 0 0, 0) extra
    else if neg then (nanF, extra ||| ffNV)
    else
      let (r, h) := sqrtSticky m e
      roundF rm (.fin false r h, 0) extra

def signBit : Half32 := 0x80000000
def isNanF (a : Half32) : Bool := (numF a).isNaN
/-- minimumNumber and maximumNumber of F 2.2: one NaN gives the other operand, and -0 is below +0. -/
def minMaxF (max : Bool) (a b : Half32) : Half32 × BitVec 8 :=
  let fl := snanFlag [a, b]
  if isNanF a && isNanF b then (nanF, fl)
  else if isNanF a then (b, fl)
  else if isNanF b then (a, fl)
  else
    let aBelow := match Num.cmp (numF a) (numF b) with
      | some c => c < 0 || (c == 0 && a.getLsbD 31)
      | none => false
    (if aBelow == max then b else a, fl)
/-- A comparison: the quiet one is invalid for a signalling NaN only, the others for any NaN. -/
def cmpF (quiet : Bool) (f : Int → Bool) (a b : Half32) : Word × BitVec 8 :=
  match Num.cmp (numF a) (numF b) with
  | some c => (if f c then 1 else 0, 0)
  | none => (0, if quiet then snanFlag [a, b] else ffNV)
/-- FCLASS: the ten classes of F 2.2, one bit each. -/
def classF (a : Half32) : Word :=
  let neg := a.getLsbD 31
  let expo := a.toNat / 2 ^ 23 % 256
  let frac := a.toNat % 2 ^ 23
  if expo = 255 ∧ frac ≠ 0 then (if isSignalling a then 0x100 else 0x200)
  else if expo = 255 then (if neg then 0x001 else 0x080)
  else if expo = 0 ∧ frac = 0 then (if neg then 0x008 else 0x010)
  else if expo = 0 then (if neg then 0x004 else 0x020)
  else (if neg then 0x002 else 0x040)
/-- FCVT to an integer range: out of range is invalid and gives the nearer end; NaN gives the upper end. -/
def toIntF (rm : Rm) (lo hi : Int) (a : Half32) : Int × BitVec 8 :=
  match numF a with
  | .nan | .nar => (hi, ffNV)
  | .inf neg => (if neg then lo else hi, ffNV)
  | .fin neg m e =>
    let (v, nx) := roundInt rm neg m e
    if v < lo then (lo, ffNV) else if v > hi then (hi, ffNV) else (v, if nx then 1 else 0)
/-- FCVT from an integer. -/
def ofIntF (rm : Rm) (v : Int) : Half32 × BitVec 8 := roundF rm (Num.ofInt v, 0) 0

/-- A scalar F instruction with a result in f and a rounding mode; a reserved dynamic mode traps ILLEGAL (F 2.2). -/
def fpRound (s : State) (fd : R5) (rm : R3) (f : Ctx → Rm → Half32 × BitVec 8) : Result :=
  issue s fun i =>
    match i.ctx.rounding rm with
    | none => s.trapW i cILLEGAL
    | some m =>
      let r := f i.ctx m
      s.finish i ((i.ctx.setF fd r.1).orFflags r.2)
/-- The same with a result in x. -/
def fpRoundX (s : State) (rd : R5) (rm : R3) (f : Ctx → Rm → Word × BitVec 8) : Result :=
  issue s fun i =>
    match i.ctx.rounding rm with
    | none => s.trapW i cILLEGAL
    | some m =>
      let r := f i.ctx m
      s.finish i ((i.ctx.setX rd r.1).orFflags r.2)
/-- A scalar F instruction that does not round, with a result in f, or in x. -/
def fpF (s : State) (fd : R5) (f : Ctx → Half32 × BitVec 8) : Result :=
  issue s fun i => s.finish i ((i.ctx.setF fd (f i.ctx).1).orFflags (f i.ctx).2)
def fpX (s : State) (rd : R5) (f : Ctx → Word × BitVec 8) : Result :=
  issue s fun i => s.finish i ((i.ctx.setX rd (f i.ctx).1).orFflags (f i.ctx).2)

/-- FMADD.S (R128). -/
def execFmaddS (fd f1 f2 f3 : R5) (rm : R3) (s : State) : Result :=
  fpRound s fd rm fun k m => fmaF m false false (k.getF f1) (k.getF f2) (k.getF f3)
/-- FMSUB.S (R128). -/
def execFmsubS (fd f1 f2 f3 : R5) (rm : R3) (s : State) : Result :=
  fpRound s fd rm fun k m => fmaF m false true (k.getF f1) (k.getF f2) (k.getF f3)
/-- FNMSUB.S (R128). -/
def execFnmsubS (fd f1 f2 f3 : R5) (rm : R3) (s : State) : Result :=
  fpRound s fd rm fun k m => fmaF m true false (k.getF f1) (k.getF f2) (k.getF f3)
/-- FNMADD.S (R128). -/
def execFnmaddS (fd f1 f2 f3 : R5) (rm : R3) (s : State) : Result :=
  fpRound s fd rm fun k m => fmaF m true true (k.getF f1) (k.getF f2) (k.getF f3)
/-- FADD.S (R128). -/
def execFaddS (fd f1 f2 : R5) (rm : R3) (s : State) : Result := fpRound s fd rm fun k m => addF m (k.getF f1) (k.getF f2)
/-- FSUB.S (R128). -/
def execFsubS (fd f1 f2 : R5) (rm : R3) (s : State) : Result := fpRound s fd rm fun k m => subF m (k.getF f1) (k.getF f2)
/-- FMUL.S (R128). -/
def execFmulS (fd f1 f2 : R5) (rm : R3) (s : State) : Result := fpRound s fd rm fun k m => mulF m (k.getF f1) (k.getF f2)
/-- FDIV.S (R128). -/
def execFdivS (fd f1 f2 : R5) (rm : R3) (s : State) : Result := fpRound s fd rm fun k m => divF m (k.getF f1) (k.getF f2)
/-- FSQRT.S (R128). -/
def execFsqrtS (fd f1 : R5) (rm : R3) (s : State) : Result := fpRound s fd rm fun k m => sqrtF m (k.getF f1)
/-- FSGNJ.S (R128). -/
def execFsgnjS (fd f1 f2 : R5) (s : State) : Result :=
  fpF s fd fun k => ((k.getF f1 &&& ~~~signBit) ||| (k.getF f2 &&& signBit), 0)
/-- FSGNJN.S (R128). -/
def execFsgnjnS (fd f1 f2 : R5) (s : State) : Result :=
  fpF s fd fun k => ((k.getF f1 &&& ~~~signBit) ||| (~~~(k.getF f2) &&& signBit), 0)
/-- FSGNJX.S (R128). -/
def execFsgnjxS (fd f1 f2 : R5) (s : State) : Result := fpF s fd fun k => (k.getF f1 ^^^ (k.getF f2 &&& signBit), 0)
/-- FMIN.S (R128). -/
def execFminS (fd f1 f2 : R5) (s : State) : Result := fpF s fd fun k => minMaxF false (k.getF f1) (k.getF f2)
/-- FMAX.S (R128). -/
def execFmaxS (fd f1 f2 : R5) (s : State) : Result := fpF s fd fun k => minMaxF true (k.getF f1) (k.getF f2)
/-- FEQ.S (R128). -/
def execFeqS (rd f1 f2 : R5) (s : State) : Result := fpX s rd fun k => cmpF true (· == 0) (k.getF f1) (k.getF f2)
/-- FLT.S (R128). -/
def execFltS (rd f1 f2 : R5) (s : State) : Result := fpX s rd fun k => cmpF false (· < 0) (k.getF f1) (k.getF f2)
/-- FLE.S (R128). -/
def execFleS (rd f1 f2 : R5) (s : State) : Result := fpX s rd fun k => cmpF false (· ≤ 0) (k.getF f1) (k.getF f2)
/-- FCLASS.S (R128). -/
def execFclassS (rd f1 : R5) (s : State) : Result := fpX s rd fun k => (classF (k.getF f1), 0)
/-- FCVT.W.S (R128). -/
def execFcvtWS (rd f1 : R5) (rm : R3) (s : State) : Result :=
  fpRoundX s rd rm fun k m => let r := toIntF m (-(2 ^ 31 : Nat)) (2 ^ 31 - 1 : Nat) (k.getF f1); (BitVec.ofInt 64 r.1, r.2)
/-- FCVT.WU.S: the 32-bit result is sign-extended (R128). -/
def execFcvtWuS (rd f1 : R5) (rm : R3) (s : State) : Result :=
  fpRoundX s rd rm fun k m => let r := toIntF m 0 (2 ^ 32 - 1 : Nat) (k.getF f1); (sextW (BitVec.ofInt 32 r.1), r.2)
/-- FCVT.L.S (R128). -/
def execFcvtLS (rd f1 : R5) (rm : R3) (s : State) : Result :=
  fpRoundX s rd rm fun k m => let r := toIntF m (-(2 ^ 63 : Nat)) (2 ^ 63 - 1 : Nat) (k.getF f1); (BitVec.ofInt 64 r.1, r.2)
/-- FCVT.LU.S (R128). -/
def execFcvtLuS (rd f1 : R5) (rm : R3) (s : State) : Result :=
  fpRoundX s rd rm fun k m => let r := toIntF m 0 (2 ^ 64 - 1 : Nat) (k.getF f1); (BitVec.ofInt 64 r.1, r.2)
/-- FCVT.S.W (R128). -/
def execFcvtSW (fd r1 : R5) (rm : R3) (s : State) : Result := fpRound s fd rm fun k m => ofIntF m (low32 (k.getX r1)).toInt
/-- FCVT.S.WU (R128). -/
def execFcvtSWu (fd r1 : R5) (rm : R3) (s : State) : Result := fpRound s fd rm fun k m => ofIntF m ((low32 (k.getX r1)).toNat : Int)
/-- FCVT.S.L (R128). -/
def execFcvtSL (fd r1 : R5) (rm : R3) (s : State) : Result := fpRound s fd rm fun k m => ofIntF m (k.getX r1).toInt
/-- FCVT.S.LU (R128). -/
def execFcvtSLu (fd r1 : R5) (rm : R3) (s : State) : Result := fpRound s fd rm fun k m => ofIntF m ((k.getX r1).toNat : Int)
/-- FMV.X.W (R128). -/
def execFmvXW (rd f1 : R5) (s : State) : Result := fpX s rd fun k => (sextW (k.getF f1), 0)
/-- FMV.W.X (R128). -/
def execFmvWX (fd r1 : R5) (s : State) : Result := fpF s fd fun k => (low32 (k.getX r1), 0)

end Sys2Proof.Machine
end

