-- ==== Sys2Proof/Machine/Leases.lean ====
section
/-! DEFINITION. Leases: the LEASE operations (R117), revocation (R118), accesses to lease windows at the lender (R119), extents of CXL devices
(R121); and the memory controllers: row closing (R125), sparing (R126) and scrubbing (R123). -/

namespace Sys2Proof.Machine

-- the LEASE command (R117)
def lsSlot (b : Nat) : Nat := field b 136 8
def lsPeer (b : Nat) : Nat := field b 144 10
/-- Fields that every operation leaves zero: ASID, the reserved bits of ARG0, ARG3. -/
def lsReserved (b : Nat) : Bool := cmdReserved b || cmdAsid b != 0 || field b 132 4 != 0 || field b 154 38 != 0 || cmdArg b 3 != 0
def lsOp (b : Nat) : Nat := field b 128 4
/-- Base and length of an OFFER or TAKE are in range (R117). -/
def lsRangeOk (base len : Nat) : Bool :=
  base % 0x200000 == 0 && len % 0x200000 == 0 && decide (0x200000 ≤ len) && decide (len ≤ windowSpan) && decide (base + len ≤ hbmEnd)
def Module.lease? (d : Module) (slot : Nat) : Option Lease := dget? d.leases slot
def State.lease? (s : State) (m slot : Nat) : Option Lease := (s.module? m).bind fun d => d.lease? slot
def State.setLease (s : State) (m slot : Nat) (l : Lease) : State := s.modModule m fun d => { d with leases := dset d.leases slot l }
def State.freeLease (s : State) (m slot : Nat) : State := s.modModule m fun d => { d with leases := derase d.leases slot }
/-- A LEASE command of one operation. -/
def onLease (m jsn op : Nat) (f : State → Nat → State) (s : State) : State :=
  onCommand m jsn 5 (fun s c => if lsOp c.bytes = op then (if lsReserved c.bytes then s.cmdFault m jsn cBADFIELD else f s c.bytes) else s) s

/-- OFFER (R117). -/
def offer (m jsn : Nat) (s : State) : State :=
  onLease m jsn 1 (fun s b =>
    let base := cmdArg b 1
    let len := cmdArg b 2
    let clash := ((s.module? m).map fun d => d.leases.any fun e => e.2.lender && overlaps e.2.base e.2.len base len).getD false
    if !lsRangeOk base len || (s.lease? m (lsSlot b)).isSome || clash then s.cmdFault m jsn cBADFIELD
    else
      (s.setLease m (lsSlot b) { state := .offered, lender := true, peer := lsPeer b, base := base, len := len, refused := false, waiting := [], since := 0, jsn := 0 }).cmdDone m jsn) s
def execOffer (m jsn : Nat) (s : State) : Result := .next (offer m jsn s)
/-- TAKE (R117). -/
def take (m jsn : Nat) (s : State) : State :=
  onLease m jsn 3 (fun s b =>
    let base := cmdArg b 1
    let len := cmdArg b 2
    let offered := ((s.module? (lsPeer b)).map fun d => d.leases.any fun e =>
      e.2.lender && e.2.state == .offered && e.2.peer == m && decide (e.2.base ≤ base) && decide (base + len ≤ e.2.base + e.2.len)).getD false
    if !lsRangeOk base len || (s.lease? m (lsSlot b)).isSome || !offered then s.cmdFault m jsn cBADFIELD
    else
      (s.setLease m (lsSlot b) { state := .taken, lender := false, peer := lsPeer b, base := base, len := len, refused := false, waiting := [], since := 0, jsn := 0 }).cmdDone m jsn) s
def execTake (m jsn : Nat) (s : State) : Result := .next (take m jsn s)

/-- The windows of a borrower onto a lender's range. -/
def State.windowsOn (s : State) (m : Nat) (l : Lease) : List (Nat × Nat) :=
  ((s.module? l.peer).map fun d => (d.leases.filter fun e => !e.2.lender && e.2.peer == m && overlaps e.2.base e.2.len l.base l.len).map fun e => (l.peer, e.1)).getD []
/-- WITHDRAW: the lender asks every borrower of the offer to revoke its window (R117, R118). -/
def withdraw (m jsn : Nat) (s : State) : State :=
  onLease m jsn 2 (fun s b =>
    match s.lease? m (lsSlot b) with
    | some l =>
      if !l.lender || l.state != .offered || cmdArg b 1 != 0 || cmdArg b 2 != 0 then s.cmdFault m jsn cBADFIELD
      else
        let ws := s.windowsOn m l
        if ws.isEmpty then (s.freeLease m (lsSlot b)).cmdDone m jsn
        else
          let s := (s.takeCmd m jsn).setLease m (lsSlot b) { l with state := .revoking, waiting := ws, since := s.clock, jsn := jsn }
          ws.foldl (fun s w => (s.send (w.1 * 1024) (lsSlot b) noJob 0 (some m) (.revoke w.2)).2) s
    | none => s.cmdFault m jsn cBADFIELD) s
def execWithdraw (m jsn : Nat) (s : State) : Result := .next (withdraw m jsn s)
/-- RELEASE: the borrower revokes its own window (R117, R118). -/
def release (m jsn : Nat) (s : State) : State :=
  onLease m jsn 4 (fun s b =>
    match s.lease? m (lsSlot b) with
    | some l =>
      if l.lender || l.state != .taken || cmdArg b 1 != 0 || cmdArg b 2 != 0 then s.cmdFault m jsn cBADFIELD
      else (s.takeCmd m jsn).setLease m (lsSlot b) { l with state := .revoking, since := s.clock, jsn := jsn }
    | none => s.cmdFault m jsn cBADFIELD) s
def execRelease (m jsn : Nat) (s : State) : Result := .next (release m jsn s)

-- revocation of a range of physical addresses on a module (R118, R121)
/-- Where the page that a waiting write goes to is backed: for a frame of the job's pool its backing address, else the address itself (R115). -/
def State.backingAt (s : State) (m root pa : Nat) : Nat :=
  match s.poolOf m root with
  | none => pa
  | some p => if p.frame 0 ≤ pa ∧ pa < p.base + p.size ∧ !s.recPoisoned m p ((pa - p.frame 0) / 4096) then (s.frameRec m p ((pa - p.frame 0) / 4096)).1 + pa % 4096 else pa
/-- The write goes to the range, directly or, by the model's choice, to a frame backed there (R118; log entry 95). -/
def State.writeMeets (s : State) (m base len root : Nat) (w : WriteOut) : Bool := overlaps (s.backingAt m root w.pa) w.n base len
/-- A core of the module has a write to the range waiting: before commit, or committed and not yet performed. -/
def State.writersTo (s : State) (m base len : Nat) : List (CoreId × Core) :=
  s.cores.filter fun e => coreModule e.1 == m && e.2.writeOuts.any (s.writeMeets m base len (((s.job? e.2.asid).map Job.root).getD 0))
def State.committedWriter (s : State) (k : Core) : Bool :=
  k.phase == .applying || k.phase == .applied || ((s.job? k.asid).map fun j => j.stage == .retiring || ((j.verdict.map Verdict.commit).getD false)).getD false
/-- A core takes LEASE for its waiting writes once: while it can still record an abort condition and has recorded none. -/
def Core.takesLease (k : Core) : Bool := k.abort.isNone && !k.dead && (k.open_ || k.phase == .voted)
/-- Steps 2 and 3: uncommitted writes make their cores vote abort with LEASE. -/
def State.revokeWrites (s : State) (m base len : Nat) : State :=
  (s.writersTo m base len).foldl (fun s e =>
    if s.committedWriter e.2 || !e.2.takesLease then s else (s.recordTrap e.1 0 0 cLEASE).abortCondition e.1 cLEASE) s
/-- Writes to the range are waiting or on their way: committed ones are to perform, and the frame of any other is pinned until its attempt is
rolled back (R115, R118). -/
def State.stillWriting (s : State) (m base len : Nat) : Bool :=
  !(s.writersTo m base len).isEmpty || s.net.any fun x => match x.kind with
    | .lease _ pa n _ => coreModule x.src == m && overlaps pa n base len
    | _ => false
/-- A pool on the module whose pages may be backed in the range has a reserved bank (R125). -/
def State.poolsBusy (s : State) (m : Nat) : Bool := s.jobs.any fun e => e.2.modules.contains m && s.poolBusy m e.2.root none
/-- Step 4: the pager writes back and evicts every frame backed in the range: the jobs placed on the module have pools there (R108, R114). -/
def State.evictBacked (s : State) (m base len : Nat) : State :=
  (s.jobs.filter fun e => e.2.modules.contains m).foldl (fun s e =>
    match s.poolOf m e.2.root with
    | none => s
    | some p => (List.range p.frames).foldl (fun s f =>
        if s.frameFree m p f || s.recPoisoned m p f || !overlaps (s.frameRec m p f).1 4096 base len then s else s.evict m e.1 p f) s) s
def windowBase (slot : Nat) : Nat := leaseBase + slot * windowSpan
/-- REVOCATION of window `slot` on its borrower (R118): it waits for committed write-outs, then evicts, frees the slot and acknowledges, or
completes the RELEASE. -/
def revocation (m slot : Nat) (s : State) : State :=
  match s.lease? m slot with
  | none => s
  | some l =>
    let asked := s.net.findIdx? fun x => coreModule x.src == m && match x.kind with
      | .revoke w => w == slot
      | _ => false
    if l.lender || (l.state != .revoking && asked.isNone) then s
    else
      let base := windowBase slot
      let s := if l.state = .revoking then s else s.setLease m slot { l with state := .revoking, since := s.clock }
      let s := s.revokeWrites m base l.len
      if s.stillWriting m base l.len || s.poolsBusy m then s
      else
        let s := (s.evictBacked m base l.len).freeLease m slot
        let s := if l.jsn = 0 then s else s.finishCmd m l.jsn jCOMPLETED 0
        match asked with
        | none => s
        | some i => match s.net[i]? with
          | some x => ((s.dropMsg i).send (x.cmd.getD 0 * 1024) x.ctx noJob 0 (some m) (.revokeAck slot)).2
          | none => s
def execRevocation (m slot : Nat) (s : State) : Result := .next (revocation m slot s)
/-- REVOCATION_ACK at the lender: the slot is free once every borrower has acknowledged (R118). -/
def revocationAck (n : Nat) (s : State) : State :=
  match s.net[n]? with
  | none => s
  | some x =>
    match x.kind with
    | .revokeAck w =>
      let s := s.dropMsg n
      let m := coreModule x.src
      match s.lease? m x.ctx with
      | none => s
      | some l =>
        if !l.lender || l.state != .revoking then s
        else
          let left := l.waiting.filter fun e => e ≠ (x.cmd.getD 0, w)
          if left.isEmpty then (s.freeLease m x.ctx).finishCmd m l.jsn jCOMPLETED 0 else s.setLease m x.ctx { l with waiting := left }
    | _ => s
def execRevocationAck (n : Nat) (s : State) : Result := .next (revocationAck n s)
/-- LEASE_ACK_TIMEOUT: after 1 ms (1,250,000 cycles) the accesses of a borrower that has not acknowledged are refused (R118). -/
def leaseAckTimeout (m slot : Nat) (s : State) : State :=
  match s.lease? m slot with
  | none => s
  | some l =>
    if l.lender && l.state == .revoking && decide (l.since + 1250000 ≤ s.clock) then
      l.waiting.foldl (fun s w => s.modModule w.1 fun d => { d with leases := dmod d.leases w.2 fun x => if x.lender then x else { x with refused := true } }) s
    else s
def execLeaseAckTimeout (m slot : Nat) (s : State) : Result := .next (leaseAckTimeout m slot s)
/-- A range taken out of the decoders' ranges. -/
def cutRange (base len : Nat) (r : Nat × Nat) : List (Nat × Nat) :=
  if overlaps r.1 r.2 base len then
    (if r.1 < base then [(r.1, base - r.1)] else []) ++ (if base + len < r.1 + r.2 then [(base + len, r.1 + r.2 - (base + len))] else [])
  else [r]
/-- A Dynamic Capacity Device adds an extent: its range, in the CXL tier and not being released, is claimed like those of the bring-up (R121). -/
def State.addExtent (s : State) (m base len : Nat) : State :=
  s.modModule m fun d =>
    if tierOf base == .cxl && decide (base + len ≤ hostBase) && !(d.releasing.any fun r => overlaps r.1 r.2 base len) then
      { d with hdm := d.hdm.flatMap (cutRange base len) ++ [(base, len)] }
    else d
/-- DCD_EXTENT_RELEASE: the extent's range is a revoked window from now on, and is released once no write to it is left and its pages are evicted
(R118, R121). A physical address has 48 bits (R107); a base of 2^48 and more names an extent at base - 2^48 that the device adds (R121; log entry 63). -/
def dcdExtentRelease (m base len : Nat) (s : State) : State :=
  if 2 ^ 48 ≤ base then s.addExtent m (base - 2 ^ 48) len
  else
  let s := s.modModule m fun d => { d with releasing := if d.releasing.contains (base, len) then d.releasing else d.releasing ++ [(base, len)] }
  let s := s.revokeWrites m base len
  if s.stillWriting m base len || s.poolsBusy m then s
  else (s.evictBacked m base len).modModule m fun d => { d with
    hdm := d.hdm.flatMap (cutRange base len), releasing := d.releasing.filter (· ≠ (base, len)) }
def execDcdExtentRelease (m base len : Nat) (s : State) : Result := .next (dcdExtentRelease m base len s)
/-- The lender refuses the window of a borrower that has not acknowledged its revocation (R118). -/
def State.refusedAt (s : State) (m pa : Nat) : Bool :=
  tierOf pa == .lease && ((s.lease? m ((pa - leaseBase) / windowSpan)).map Lease.refused).getD true
/-- LEASE_WINDOW_ACCESS: a borrower's access arrives at the lender and is served from its tier 0, unless it is refused; a reserved bank is waited
for there. The last write-out of a commit lets the journal record it (R118, R119, R125, R306). A write-out to a CXL device or to host memory
arrives in the same way. -/
def leaseWindowAccess (n : Nat) (s : State) : State :=
  match s.net[n]? with
  | none => s
  | some x =>
    match x.kind with
    | .lease write pa l v =>
      if s.bankBusyOver (coreModule x.src) pa l none then s
      else
      let refused := s.refusedAt (coreModule x.src) pa
      let s := s.dropMsg n
      let s := if write && !refused then s.wrPa (coreModule x.src) pa l v else s
      match s.core? x.src with
      | some k => s.journalCommit k.asid
      | none => s
    | _ => s
def execLeaseWindowAccess (n : Nat) (s : State) : Result := .next (leaseWindowAccess n s)

-- the memory controllers (R123, R125, R126): a row of a bank as bank + 2^13 × row
def rowKey (pa : Nat) : Nat := bankOf pa + 2 ^ 13 * rowOf pa
def rowBank (k : Nat) : Nat := k % 2 ^ 13
/-- The lowest address of a row. -/
def rowPa (k : Nat) : Nat := k / 2 ^ 13 * 2 ^ 23 + rowBank k * 1024
def Module.bankHeld (d : Module) (b : Nat) : Bool := ((dget? d.banks b).map fun x => x.holder.isSome).getD false
/-- ROW_SPARING_COMPLETE: the row is remapped to a spare; a reserved bank is waited for (R125, R126). -/
def rowSparingComplete (m row : Nat) (s : State) : State :=
  s.modModule m fun d =>
    if d.sparing.contains row && !d.bankHeld (rowBank row) then
      { d with sparing := d.sparing.filter (· ≠ row), corrected := derase d.corrected row, spares := dset d.spares (rowBank row) (dgetD d.spares (rowBank row) 0 + 1) }
    else d
def execRowSparingComplete (m row : Nat) (s : State) : Result := .next (rowSparingComplete m row s)
/-- ROW_CLOSE: an open row that no core holds closes (R125). -/
def rowClose (m bank : Nat) (s : State) : State :=
  s.modModule m fun d => if d.bankHeld bank then d else { d with banks := derase d.banks bank }
def execRowClose (m bank : Nat) (s : State) : Result := .next (rowClose m bank s)
/-- BANK_FORCED_CLOSE: 5,000 cycles after the reservation (R125). -/
def bankForcedClose (m bank : Nat) (s : State) : State :=
  match (s.module? m).bind fun d => dget? d.banks bank with
  | none => s
  | some b =>
    match b.holder with
    | none => s
    | some c =>
      if b.since + 5000 ≤ s.clock then
        (s.modModule m fun d => { d with banks := derase d.banks bank }).modCore c fun k => if k.reserved = some bank then { k with reserved := none, kept := false } else k
      else s
def execBankForcedClose (m bank : Nat) (s : State) : Result := .next (bankForcedClose m bank s)
/-- A page is poisoned or not. -/
def setPoison (pages : List Nat) (page : Nat) (on : Bool) : List Nat := if on then page :: pages.filter (· ≠ page) else pages.filter (· ≠ page)
/-- SCRUBBING: an uncorrectable error poisons the page (R123); a corrected one counts, and at sixteen the row is spared, or reported when its
bank has no spare row left (R126), in mappable and hardware-reserved HBM alike. At a CXL or host address the row stands for the owner of the
page, which reports it poisoned (`uncorrectable`), or no longer (R120, R123; log entry 55). -/
def scrubbing (m pa : Nat) (uncorrectable : Bool) (s : State) : State :=
  if tierOf pa == .host then { s with hostPoison := setPoison s.hostPoison (pa / 4096) uncorrectable }
  else if tierOf pa == .cxl then
    let k := Config.cxlStore m (pa / 4096)
    { s with cxlPoison := dset s.cxlPoison k (setPoison (dgetD s.cxlPoison k []) (pa / 4096) uncorrectable) }
  else if tierOf pa != .hbm && tierOf pa != .hw then s
  else if uncorrectable then s.modModule m fun d => { d with poison := setPoison d.poison (pa / 4096) true }
  else
    match s.module? m with
    | none => s
    | some d =>
      let r := rowKey pa
      let n := dgetD d.corrected r 0 + 1
      let s := (s.modModule m fun d => { d with corrected := dset d.corrected r n }).count m 5 1
      if n ≠ 16 then s
      else if dgetD d.spares (rowBank r) 0 + (d.sparing.filter fun x => rowBank x = rowBank r).length < 4 then s.modModule m fun d => { d with sparing := d.sparing ++ [r] }
      else s.event m (eventWord 4 0 0 0 0) (BitVec.ofNat 64 (rowPa r))
def execScrubbing (m pa : Nat) (uncorrectable : Bool) (s : State) : Result := .next (scrubbing m pa uncorrectable s)

end Sys2Proof.Machine
end

