-- ==== Sys2Proof/Machine/Management.lean ====
section
/-! DEFINITION. The register windows (R71 to R75, R360 to R365), the host window (R303), the management service (R362), attestation (R365),
resets (R366 to R368) and power (R369 to R371). -/

namespace Sys2Proof.Machine

-- resets (R363, R366, R368)
/-- The code with which the boot ROM leaves one slot (R363). -/
def slotCode (image : Memory) : Nat :=
  if !Config.keyDigestOk image then 0x12
  else if !Config.signatureOk image then 0x10
  else if Config.imageSvn image < Config.minSvn then 0x11
  else 0x01
/-- The image of a flash slot: 0 is A, 1 is B. -/
def Module.slot (d : Module) (i : Nat) : Memory := dgetD d.flash i []
/-- The code for two refused slots: 0x10 only when neither is signed validly; otherwise that of a slot that is, either of two by free choice
(R363, log entry 3). -/
def refusedCode (a b : Nat) (shown : Bool) : Nat := if a = 0x10 then b else if b = 0x10 then a else if shown then a else b
/-- The firmware verification of a reset: slot A, then slot B (R363). -/
def Module.verify (d : Module) (selfTest shown : Bool) : Module :=
  let a := slotCode (d.slot 0)
  let b := slotCode (d.slot 1)
  let load := fun (i : Memory) => { d with bootCode := 1, ready := true, running := i, svn := Config.imageSvn i }
  if !selfTest then { d with bootCode := 0x13, ready := false }
  else if a = 1 then load (d.slot 0)
  else if b = 1 then load (d.slot 1)
  else { d with bootCode := refusedCode a b shown, ready := false }
/-- The patch tables after a reset: positions in flash, and those that fail its self-test, stay fenced for good (R368). -/
def resetDies (perm : List CoreId) : Dict Die :=
  let patches := fun (i : Nat) => (List.range 256).filterMap fun p =>
    if perm.any (fun c => c % 1024 == i * 256 + p) then some (p, ({ fenced := true, perm := true, slot := p / 16 % 2 * 2 + p % 2 } : Patch))
    else none
  (List.range 4).map fun i => (i, { Die.reset i with patches := patches i })
/-- The positions of a module that are permanently fenced. -/
def Module.permPositions (d : Module) (m : Nat) : List CoreId :=
  d.dies.flatMap fun x => (x.2.patches.filter fun p => p.2.perm).map fun p => (m * 4 + x.1) * 256 + p.1
/-- Every job of the module is removed, without a journal update (R368); a job of another home module ends there with LINK, and no frame is written
back (log entries 66, 84). -/
def State.dropJobs (s : State) (m : Nat) : State :=
  s.jobs.foldl (fun s e =>
    if e.2.home = m ∨ e.2.modules.contains m then
      let s1 := e.2.places.foldl (fun s c => (s.releaseBank c).dropClaims c) s
      let s1 := { s1 with
        cores := s1.cores.filter fun k => k.2.asid != e.1, net := s1.net.filter fun x => x.asid != e.1, jobs := derase s1.jobs e.1
        modules := dmap s1.modules fun _ d => { d with dies := dmap d.dies fun _ y => { y with forwards := y.forwards.filter fun f => f.asid != e.1 } } }
      let s1 := s1.dropTlbAsid e.1
      if e.2.home = m then s1 else s1.finishCmd e.2.home e.2.jsn jFAULTED cLINK
    else s) s
/-- IDCERT: the length of the chain in its first four bytes, then the chain (R364). -/
def idCert (m : Nat) : Memory :=
  let chain := Config.idChain m
  ((chain.take 4092).zipIdx.foldl (fun c x => writeByte c (4 + x.2) (BitVec.ofNat 8 x.1)) (writeMem [] 0 4 chain.length))
/-- A reset of a module (R366 to R368): what it keeps, and everything else at its reset value; firmware is verified. -/
def State.resetModule (s : State) (m : Nat) (cold : Bool) : State :=
  match s.module? m with
  | none => s
  | some d =>
    let s := s.dropJobs m
    let failed := (Config.failedPositions s.free).map fun p => m * 1024 + p % 1024
    let test := Config.selfTestOk s.free
    let shown := s.drawBool.1
    let s := s.drawBool.2
    let perm := (d.flashPerm ++ d.permPositions m ++ failed).dedup
    let n := { Module.reset with
      resetClock := s.clock, cntFrom := s.clock, hbm := if cold then [] else d.hbm, poison := if cold then [] else d.poison, hdm := Config.hdmRanges m
      dies := resetDies perm, flash := d.flash, flashPerm := perm, idcert := idCert m }
    let peers := fun (i : Nat) (x : Module) => if i = m then n.verify test shown else { x with leases := dmap x.leases fun _ l => if !l.lender && l.peer == m then { l with refused := true } else l }
    { s with
      modules := dmap s.modules peers
      positions := s.positions.filter fun e => coreModule e.1 != m
      net := s.net.filter fun x => coreModule x.src != m }
/-- WARM_RESET: RESETCTL, Function Level Reset, or the return from D3hot (R366, R367, R369). -/
def warmReset (m : Nat) (s : State) : State := s.resetModule m false
def execWarmReset (m : Nat) (s : State) : Result := .next (warmReset m s)
/-- COLD_RESET: power-on or fundamental reset (R366). -/
def coldReset (m : Nat) (s : State) : State := s.resetModule m true
def execColdReset (m : Nat) (s : State) : Result := .next (coldReset m s)

-- CTLWIN (R71 to R75)
def Queue.cfg (q : Queue) : Nat :=
  (if q.enabled then 1 else 0) + q.prio * 2 ^ 8 + q.size * 2 ^ 16 + (if q.irq then 2 ^ 20 else 0) + (if q.abortok then 2 ^ 21 else 0) + q.vec * 2 ^ 32
/-- The fields of QCFG in a value (R74): SIZE only while the queue is disabled, EN only with a SIZE from 4 to 16. -/
def Queue.withCfg (q : Queue) (v : Nat) : Queue :=
  let size := if q.enabled then q.size else field v 16 4
  { q with
    enabled := v.testBit 0 && decide (4 ≤ size) && decide (size ≤ 16), prio := field v 8 8, size := size, irq := v.testBit 20
    abortok := v.testBit 21, vec := field v 32 11 }
def Module.devstat (d : Module) : Nat :=
  (if d.ready then 1 else 0) + (if d.accerr then 2 else 0) + (if d.orderr then 4 else 0) + (if d.jmerr then 8 else 0)
def Module.devctl (d : Module) : Nat := (if d.hostord then 1 else 0) + (if d.jmen then 2 else 0)
/-- QBASE, CBASE and JMBASE hold 4 KiB aligned addresses (R71, R73); that a write of another address drops its low 12 bits is the model's choice (log
entry 85). -/
def pageAligned (v : Nat) : Nat := v / 4096 * 4096
/-- A doubleword of the MSI-X table: address, then data and mask. -/
def Module.msixWord (d : Module) (i : Nat) : Nat :=
  let e := dgetD d.msix (i / 2) { addr := 0, data := 0, masked := true }
  if i % 2 = 0 then e.addr else e.data + if e.masked then 2 ^ 32 else 0
/-- The 64-bit register of CTLWIN at a multiple of 8 (R71 to R73); write-only and reserved places read zero. -/
def Module.ctlReg (d : Module) (off : Nat) : Nat :=
  if off = 0 then 0x40201
  else if off = 8 then d.devstat
  else if off = 0x10 then d.devctl
  else if off = 0x18 then d.jmbase
  else if off = 0x20 then d.jhead
  else if off = 0x28 then d.oldest
  else if 0x1000 ≤ off ∧ off < 0x2000 then
    let q := d.queue ((off - 0x1000) / 64)
    match off % 64 / 8 with
    | 0 => q.base
    | 1 => q.cfg
    | 3 => q.head
    | 4 => q.cbase
    | 5 => q.chead
    | 6 => q.qexp
    | 7 => q.qdline
    | _ => 0
  else if 0x100000 ≤ off ∧ off < 0x108000 then d.msixWord ((off - 0x100000) / 8)
  else if 0x108000 ≤ off ∧ off < 0x108100 then
    (List.range 64).foldl (fun a i => if d.pba.contains ((off - 0x108000) * 8 + i) then a + 2 ^ i else a) 0
  else 0

-- MGMTWIN (R360 to R365, R370)
def Module.svcstat (d : Module) : Nat :=
  (if d.svcBusy then 1 else 0) + (if d.svcDone then 2 else 0) + (if d.events.isEmpty then 0 else 4) + d.svcErr * 2 ^ 8
def Module.attctl (d : Module) : Nat := (if d.attDone then 2 else 0) + (if d.attBusy then 4 else 0) + (if d.attErr then 8 else 0)
/-- Counter `i` as it reads; counter 0 counts cycles (R361). -/
def Module.counter (d : Module) (clock i : Nat) : Word :=
  if i = 0 ∧ !d.freeze then sget d.cnt 0 + BitVec.ofNat 64 (clock - d.cntFrom) else sget d.cnt i
/-- The 64-bit register of MGMTWIN at a multiple of 8 (R360). -/
def Module.mgmtReg (d : Module) (clock off : Nat) : Nat :=
  if off = 0 then (if d.freeze then 1 else 0)
  else if off = 8 then d.bootCode + d.svn % 2 ^ 32 * 2 ^ 32
  else if off = 0x18 then d.pwrlim
  else if off = 0x20 then d.watts % 2 ^ 16 + d.tjmax % 2 ^ 16 * 2 ^ 32 + (if d.throttled then 2 ^ 48 else 0)
  else if off = 0x28 then d.attctl
  else if 0x100 ≤ off ∧ off < 0x180 then (d.counter clock ((off - 0x100) / 8)).toNat
  else if 0x180 ≤ off ∧ off < 0x1A0 then readMem d.nonce (off - 0x180) 8
  else if 0x200 ≤ off ∧ off < 0x2E0 then readMem d.report (off - 0x200) 8
  else if off = 0x408 then d.svcstat
  else if 0x410 ≤ off ∧ off < 0x430 then (sget d.svcarg ((off - 0x410) / 8)).toNat
  else if 0x1000 ≤ off ∧ off < 0x2000 then readMem d.idcert (off - 0x1000) 8
  else if 0x2000 ≤ off ∧ off < 0x3000 then readMem d.svcbuf (off - 0x2000) 8
  else 0
def Module.reg (d : Module) (clock : Nat) (win : Window) (off : Nat) : Nat :=
  match win with
  | .ctl => d.ctlReg off
  | .mgmt => d.mgmtReg clock off

/-- The read-only windows of CTLWIN: 8 to 64 bytes at a time (R71). -/
def journalPlace (win : Window) (off : Nat) : Bool := win == .ctl && decide (0x200000 ≤ off) && decide (off < 0x800000)
/-- An access of a size and alignment that the windows accept (R71, R360); of the journal and held windows those of 8, 16, 32 and 64 bytes (log entry
70). -/
def accessOk (win : Window) (off size : Nat) (write : Bool) : Bool :=
  if journalPlace win off then write || ((size == 8 || size == 16 || size == 32 || size == 64) && off % size == 0)
  else (size == 4 || size == 8) && off % size == 0
/-- The bytes of the journal and held windows (R71, R83). -/
def Module.journalRead (d : Module) (off size : Nat) : Nat :=
  let e := if off < 0x400000 then dget? d.heldTab ((off - 0x200000) / 64) else dget? d.slots ((off - 0x400000) / 64)
  (e.map Entry.toNat).getD 0 / 2 ^ (8 * (off % 64)) % 2 ^ (8 * size)
/-- What a host read of a register window returns (R71): all ones for an access that the window does not accept. -/
def State.readWindow (s : State) (m : Nat) (win : Window) (off size : Nat) : Nat :=
  match s.module? m with
  | none => 0
  | some d =>
    if !accessOk win off size false then 2 ^ (8 * size) - 1
    else if journalPlace win off then d.journalRead off size
    else d.reg s.clock win (off / 8 * 8) / 2 ^ (8 * (off % 8)) % 2 ^ (8 * size)
/-- ACCERR: an access of a size or alignment that is not accepted; a read returns all ones (R71, R72). -/
def accerr (m : Nat) (win : Window) (off size : Nat) (write : Bool) (s : State) : State :=
  if accessOk win off size write then s
  else
    let s := s.modModule m fun d => { d with accerr := true }
    if write then s else { s with replies := some (2 ^ (8 * size) - 1) :: s.replies }
def execAccerr (m : Nat) (win : Window) (off size : Nat) (write : Bool) (s : State) : Result := .next (accerr m win off size write s)

/-- QTAIL: the doorbell of a queue (R73, R75). -/
def qtail (m q : Nat) (v : Word) (s : State) : State := s.modQ m q fun x => { x with tail := v.toNat }
def execQtail (m q : Nat) (v : Word) (s : State) : Result := .next (qtail m q v s)
/-- QCFG_WRITE (R74). -/
def qcfgWrite (m q : Nat) (v : Word) (s : State) : State := s.modQ m q fun x => x.withCfg v.toNat
def execQcfgWrite (m q : Nat) (v : Word) (s : State) : Result := .next (qcfgWrite m q v s)
/-- CHEAD: completions consumed by the host (R75). -/
def chead (m q : Nat) (v : Word) (s : State) : State := s.modQ m q fun x => { x with chead := v.toNat }
def execChead (m q : Nat) (v : Word) (s : State) : Result := .next (chead m q v s)
/-- The JMEN field of a DEVCTL write: from 0 to 1 every held entry goes to the mirror first (R72). -/
def jmen (m : Nat) (v : Word) (s : State) : State :=
  match s.module? m with
  | none => s
  | some d =>
    let on := v.getLsbD 1
    let s := s.modModule m fun d => { d with jmen := on }
    if on && !d.jmen then s.mirrorAll m else s
def execJmen (m : Nat) (v : Word) (s : State) : Result := .next (jmen m v s)
/-- The HOSTORD field of a DEVCTL write: taken only while no job is placed, which is to say on this module (log entry 71); ORDERR when a change is
refused (R72). -/
def hostord (m : Nat) (v : Word) (s : State) : State :=
  let placed := s.jobs.any fun e => e.2.modules.contains m
  s.modModule m fun d =>
    if v.getLsbD 0 == d.hostord then d
    else if placed then { d with orderr := true }
    else { d with hostord := v.getLsbD 0 }
def execHostord (m : Nat) (v : Word) (s : State) : Result := .next (hostord m v s)
/-- JMERR: a mirror write failed; mirroring stops until JMEN is set again (R72). -/
def jmerr (m : Nat) (s : State) : State := s.modModule m fun d => if d.jmen then { d with jmerr := true, jmen := false } else d
def execJmerr (m : Nat) (s : State) : Result := .next (jmerr m s)

/-- COUNTER_CLEAR (R361). -/
def counterClear (m : Nat) (s : State) : State := s.modModule m fun d => { d with cnt := [], cntFrom := s.clock }
def execCounterClear (m : Nat) (s : State) : Result := .next (counterClear m s)
/-- COUNTER_FREEZE (R361). -/
def counterFreeze (m : Nat) (freeze : Bool) (s : State) : State :=
  s.modModule m fun d =>
    if freeze == d.freeze then d
    else if freeze then { d with freeze := true, cnt := sset d.cnt 0 (d.counter s.clock 0) }
    else { d with freeze := false, cntFrom := s.clock }
def execCounterFreeze (m : Nat) (freeze : Bool) (s : State) : Result := .next (counterFreeze m freeze s)

/-- The MSI-X entry with a doubleword written; a vector that is unmasked while pending sends its message. -/
def State.putMsix (s : State) (m i v : Nat) : State :=
  let s := s.modModule m fun d =>
    let e := dgetD d.msix (i / 2) { addr := 0, data := 0, masked := true }
    { d with msix := dset d.msix (i / 2) (if i % 2 = 0 then { e with addr := v } else { e with data := v % 2 ^ 32, masked := v.testBit 32 }) }
  let due := ((s.module? m).map fun d => d.pba.contains (i / 2) && !(dgetD d.msix (i / 2) { addr := 0, data := 0, masked := true }).masked).getD false
  if due then (s.modModule m fun d => { d with pba := d.pba.filter (· ≠ i / 2) }).msix m (i / 2) else s
/-- A register of CTLWIN takes a 64-bit value (R71 to R75); read-only places discard it. -/
def State.putCtl (s : State) (m off : Nat) (v : Word) : State :=
  if off = 8 then s.modModule m fun d => { d with accerr := d.accerr && !v.getLsbD 1, orderr := d.orderr && !v.getLsbD 2, jmerr := d.jmerr && !v.getLsbD 3 }
  else if off = 0x10 then jmen m v (hostord m v s)
  else if off = 0x18 then s.modModule m fun d => if d.jmen then d else { d with jmbase := pageAligned v.toNat }
  else if 0x1000 ≤ off ∧ off < 0x2000 then
    let q := (off - 0x1000) / 64
    match off % 64 / 8 with
    | 0 => s.modQ m q fun x => if x.enabled then x else { x with base := pageAligned v.toNat }
    | 1 => qcfgWrite m q v s
    | 2 => qtail m q v s
    | 4 => s.modQ m q fun x => if x.enabled then x else { x with cbase := pageAligned v.toNat }
    | 5 => chead m q v s
    | 7 => s.modQ m q fun x => { x with qdline := v.toNat }
    | _ => s
  else if 0x100000 ≤ off ∧ off < 0x108000 then s.putMsix m ((off - 0x100000) / 8) v.toNat
  else s
/-- A register of MGMTWIN takes a 64-bit value (R360 to R367, R370). -/
def State.putMgmt (s : State) (m off : Nat) (v : Word) : State :=
  if off = 0 then
    let s := counterFreeze m (v.getLsbD 0) s
    if v.getLsbD 1 then counterClear m s else s
  else if off = 0x10 then (if v.toNat % 2 ^ 16 = 0x5752 then warmReset m s else s)
  else if off = 0x18 then s.modModule m fun d => { d with pwrlim := v.toNat % 2 ^ 16 }
  else s.modModule m fun d =>
    if off = 0x28 then (if v.getLsbD 0 && !d.attBusy then { d with attBusy := true, attDone := false } else d)
    else if 0x180 ≤ off ∧ off < 0x1A0 then (if d.attBusy then d else { d with nonce := writeMem d.nonce (off - 0x180) 8 v.toNat })
    else if off = 0x400 then (if d.svcBusy || !d.ready then d else { d with svcBusy := true, svcDone := false, svcop := v.toNat % 256 })
    else if 0x410 ≤ off ∧ off < 0x430 then (if d.svcBusy then d else { d with svcarg := sset d.svcarg ((off - 0x410) / 8) v })
    else if 0x2000 ≤ off ∧ off < 0x3000 then (if d.svcBusy then d else { d with svcbuf := writeMem d.svcbuf (off - 0x2000) 8 v.toNat })
    else d
/-- The places whose other half a 4-byte write leaves as it stands; it writes zeros into the other half of a field that acts on ones. -/
def halfBase (win : Window) (off old : Nat) : Nat :=
  match win with
  | .ctl => if off = 8 then 0 else old
  | .mgmt => if off = 0 then old % 2 else if off = 0x28 then 0 else old
/-- REGISTER_WRITE of 4 or 8 bytes (R71, R360). -/
def registerWrite (m : Nat) (win : Window) (off size : Nat) (v : Word) (s : State) : State :=
  match s.module? m with
  | none => s
  | some d =>
    if d.power != .d0 then s
    else if !accessOk win off size true then accerr m win off size true s
    else if journalPlace win off then s
    else
      let at_ := off / 8 * 8
      let old := halfBase win at_ (if win = .ctl ∧ 0x1000 ≤ off ∧ off < 0x2000 ∧ off % 64 / 8 = 2 then (d.queue ((off - 0x1000) / 64)).tail else d.reg s.clock win at_)
      let new := if size = 8 then v else BitVec.ofNat 64 (setField old (8 * (off % 8)) 32 v.toNat)
      match win with
      | .ctl => s.putCtl m at_ new
      | .mgmt => s.putMgmt m at_ new
def execRegisterWrite (m : Nat) (win : Window) (off size : Nat) (v : Word) (s : State) : Result := .next (registerWrite m win off size v s)

-- the host window (R303)
/-- The position and location that an offset of the window names. -/
def hostPlace (m off : Nat) : Option Dest :=
  let c := m * 1024 + off / 2 ^ 29 % 2 ^ 10
  (spaceOf (off / 2 ^ 27 % 4)).map fun sp => { core := c, space := sp, off := off % 2 ^ 27 }
/-- The job and location that take a host access. -/
def State.hostTarget (s : State) (m off size : Nat) : Option (Nat × Dest) :=
  match hostPlace m off with
  | none => none
  | some d =>
    match (s.core? d.core).bind fun k => (s.job? k.asid).map fun j => (k.asid, j) with
    | none => none
    | some (asid, j) =>
      let bad := decide (j.limitOf d.space < d.off + size) || (d.space == .dss && (decide (j.limit < d.off + size) || j.inCode d.off size))
      if ((size == 4 || size == 8) && off % size == 0) && !bad && ((s.module? m).map fun x => x.power == .d0).getD false then some (asid, d) else none
/-- A host write at its home: in the darn image too and in no version log; a write that no job takes is discarded (R303). -/
def State.hostStore (s : State) (m off size : Nat) (v : Word) : State :=
  match s.hostTarget m off size with
  | some (asid, d) => s.wrBoth asid d size (v.toNat % 2 ^ (8 * size))
  | none => s
/-- A host read: the contents at the home, or Unsupported Request (R303). A read of a poisoned page returns no data (R123): the model answers it with
Unsupported Request too (log entry 96). -/
def State.hostLoad (s : State) (m off size : Nat) : State :=
  { s with replies := ((s.hostTarget m off size).bind fun x => if (s.spillPoison x.1 x.2 size).isSome then none else some (s.rd x.1 x.2 size)) :: s.replies }
/-- The service core that handles a host request in Mode S: the die and die quadrant of its target position (R22, R305). -/
def serviceOf (off : Nat) : Nat := off / 2 ^ 37 % 4 * 4 + off / 2 ^ 36 % 2 * 2 + off / 2 ^ 32 % 2
def Module.requestsOf (d : Module) (q : Nat) : List HostReq := dgetD d.requests q []
/-- A host request in Mode S waits behind the earlier ones of its service core (R305). -/
def State.hostRequest (s : State) (m : Nat) (r : HostReq) : State :=
  s.modModule m fun d => { d with requests := dset d.requests (serviceOf r.off) (d.requestsOf (serviceOf r.off) ++ [r]) }
def State.modeS (s : State) (m : Nat) : Bool := ((s.module? m).map Module.hostord).getD false
/-- HOST_WRITE: performed on arrival in Mode P, handed to the service core of the target's die quadrant in Mode S (R303 to R305). -/
def hostWrite (m off size : Nat) (v : Word) (s : State) : State :=
  if s.modeS m then s.hostRequest m { write := true, off := off, size := size, val := v } else s.hostStore m off size v
def execHostWrite (m off size : Nat) (v : Word) (s : State) : Result := .next (hostWrite m off size v s)
/-- HOST_READ: likewise (R303 to R305). -/
def hostRead (m off size : Nat) (s : State) : State :=
  if s.modeS m then s.hostRequest m { write := false, off := off, size := size, val := 0 } else s.hostLoad m off size
def execHostRead (m off size : Nat) (s : State) : Result := .next (hostRead m off size s)
/-- A service core performs its oldest host request (R305). -/
def State.serveHost (s : State) (m q : Nat) : State :=
  match (s.module? m).map fun d => d.requestsOf q with
  | some (r :: t) =>
    let s := s.modModule m fun d => { d with requests := if t = [] then derase d.requests q else dset d.requests q t }
    if r.write then s.hostStore m r.off r.size r.val else s.hostLoad m r.off r.size
  | _ => s
/-- Which of the service cores of a module performs a request next is open: a free choice (R305, log entry 56). -/
def State.serveHosts (s : State) (m : Nat) : State :=
  match (s.module? m).map Module.requests with
  | none | some [] => s
  | some l => match l[s.draw.1 % l.length]? with
    | some e => s.draw.2.serveHost m e.1
    | none => s

-- the management service (R362)
def svcBADOP : Nat := 1
def svcBADARG : Nat := 2
def svcNOTPLACED : Nat := 3
def svcBADIMAGE : Nat := 4
def svcNOEVENT : Nat := 5
def Module.arg (d : Module) (i : Nat) : Nat := (sget d.svcarg i).toNat
/-- The request ends. -/
def State.svcEnd (s : State) (m err : Nat) : State := s.modModule m fun d => { d with svcErr := err, svcBusy := false, svcDone := true }
/-- A request in progress, at its event. -/
def service_ (m op : Nat) (f : State → Module → State) (s : State) : State :=
  match s.module? m with
  | some d => if d.svcBusy && d.svcop == op then f s d else s
  | none => s
/-- CODEWRITE: the bytes go into the job's code on every die (R133, R362). -/
def codewrite (m : Nat) (s : State) : State :=
  service_ m 1 (fun s d =>
    let asid := d.arg 0 % 2 ^ 14
    let off := d.arg 1
    let n := d.arg 2
    if off % 4 != 0 || n % 4 != 0 || decide (n < 4) || decide (4096 < n) then s.svcEnd m svcBADARG
    else
      match s.job? asid with
      | none => s.svcEnd m svcNOTPLACED
      | some j =>
        if j.rects.isEmpty then s.svcEnd m svcNOTPLACED
        else if !j.allCode off n then s.svcEnd m svcBADARG
        else
          let one := fun (s : State) (r : Rect) =>
            let at_ : Dest := { core := r.die * 256, space := .dss, off := off }
            (s.noteCode asid at_ n).modHome asid at_ fun x => { cur := copyMem d.svcbuf 0 x.cur off n, base := copyMem d.svcbuf 0 x.base off n }
          (j.rects.foldl one s).svcEnd m 0) s
def execCodewrite (m : Nat) (s : State) : Result := .next (codewrite m s)
/-- The page of a POISONSET or POISONCLEAR is in range. -/
def Module.pageArg (d : Module) : Option Nat := if d.arg 0 % 4096 = 0 ∧ d.arg 0 < hbmEnd then some (d.arg 0 / 4096) else none
/-- POISONSET (R123, R362). -/
def poisonset (m : Nat) (s : State) : State :=
  service_ m 2 (fun s d =>
    match d.pageArg with
    | some p => (s.modModule m fun d => { d with poison := p :: d.poison.filter (· ≠ p) }).svcEnd m 0
    | none => s.svcEnd m svcBADARG) s
def execPoisonset (m : Nat) (s : State) : Result := .next (poisonset m s)
/-- POISONCLEAR (R123, R362). -/
def poisonclear (m : Nat) (s : State) : State :=
  service_ m 3 (fun s d =>
    match d.pageArg with
    | some p => (s.modModule m fun d => { d with poison := d.poison.filter (· ≠ p) }).svcEnd m 0
    | none => s.svcEnd m svcBADARG) s
def execPoisonclear (m : Nat) (s : State) : Result := .next (poisonclear m s)
/-- FWWRITE (R362). -/
def fwwrite (m : Nat) (s : State) : State :=
  service_ m 4 (fun s d =>
    let slot := d.arg 0 % 2
    if d.arg 1 % 4096 != 0 || decide (0x1000000 ≤ d.arg 1) || d.arg 2 != 4096 then s.svcEnd m svcBADARG
    else (s.modModule m fun d => { d with flash := dset d.flash slot (copyMem d.svcbuf 0 (d.slot slot) (d.arg 1) 4096) }).svcEnd m 0) s
def execFwwrite (m : Nat) (s : State) : Result := .next (fwwrite m s)
/-- FWCOMMIT (R362, R363). -/
def fwcommit (m : Nat) (s : State) : State :=
  service_ m 5 (fun s d =>
    if 0x1000000 < d.arg 1 then s.svcEnd m svcBADARG
    else s.svcEnd m (if slotCode (d.slot (d.arg 0 % 2)) = 1 then 0 else svcBADIMAGE)) s
def execFwcommit (m : Nat) (s : State) : Result := .next (fwcommit m s)
/-- EVENTREAD: the oldest event is returned; with space again, lost events are reported (R362). -/
def eventread (m : Nat) (s : State) : State :=
  service_ m 6 (fun s d =>
    match d.events with
    | [] => s.svcEnd m svcNOEVENT
    | (w, a) :: t =>
      let s := s.modModule m fun d =>
        let d := { d with svcarg := sset (sset d.svcarg 0 w) 1 a, events := t }
        if d.lost = 0 then d else { d with events := t ++ [(eventWord 5 0 0 0 0, BitVec.ofNat 64 d.lost)], lost := 0 }
      s.svcEnd m 0) s
def execEventread (m : Nat) (s : State) : Result := .next (eventread m s)
/-- BADOP: a reserved request code ends with BADOP (R362). -/
def badop (m : Nat) (op : BitVec 8) (s : State) : State :=
  if 1 ≤ op.toNat ∧ op.toNat ≤ 6 then s else service_ m op.toNat (fun s _ => s.svcEnd m svcBADOP) s
def execBadop (m : Nat) (op : BitVec 8) (s : State) : Result := .next (badop m op s)

/-- CFGDIG: SM3 of the bring-up configuration (R365). -/
def State.configDigest (s : State) (m : Nat) (d : Module) : Nat :=
  sm3 (Config.configBytes d.hdm ((List.range 1024).map fun i => (s.pos (m * 1024 + i)).hbperiod.toNat) d.hostord (d.permPositions m))
/-- FWDIG: SM3 of the running image (R365). -/
def Module.imageDigest (d : Module) : Nat := sm3 (bytesAt d.running 0 (Config.imageSize d.running))
/-- ATTESTATION: the firmware composes and signs a report over the nonce (R365). -/
def attestation (m : Nat) (s : State) : State :=
  s.modModule m fun d =>
    if !d.attBusy || !d.ready then d
    else
      let body := 0x52415451 + d.svn % 2 ^ 32 * 2 ^ 96 + 0x40201 * 2 ^ 128 + Config.serial m % 2 ^ 64 * 2 ^ 192 + s.configDigest m d % 2 ^ 256 * 2 ^ 256
        + Config.romDigest % 2 ^ 256 * 2 ^ 512 + d.imageDigest % 2 ^ 256 * 2 ^ 768 + readMem d.nonce 0 32 * 2 ^ 1024
      { d with attBusy := false, attDone := true, attErr := false, report := writeMem [] 0 224 (body + Config.signature body % 2 ^ 512 * 2 ^ 1280) }
def execAttestation (m : Nat) (s : State) : Result := .next (attestation m s)

-- power (R369 to R371)
/-- Removal of a job as by a CANCEL at once that has no command of its own, behind the requests that are pending (R85). -/
def State.cancelNow (s : State) (asid : Nat) (j : Job) : State :=
  if j.stage == .retiring then s
  else if j.idle then s.endJob asid jCANCELLED 0 none
  else (s.setJob asid { j with pending := j.pending ++ [{ jsn := 0, cancel := true }], removeAt := true }).postHub j.home asid (.urgent 0 0 2)
/-- A LAUNCH that has been accepted and not carried out ends as by a CANCEL (R85, R369). -/
def State.cancelLaunch (s : State) (m : Nat) (c : Command) : State :=
  if cmdKind c.bytes = 1 then (s.takeCmd m c.jsn).finishCmd m c.jsn jCANCELLED 0 else s
/-- D3HOT_ENTRY: every job is removed, a LAUNCH that waits among the commands included (R369); write-backs that meet a reserved bank are waited for
(R125). -/
def d3hotEntry (m : Nat) (s : State) : State :=
  if s.jobs.any fun e => (decide (e.2.home = m) || e.2.modules.contains m) && e.2.idle && e.2.stage != .retiring && s.endBusy e.2 then s
  else
  let s := s.jobs.foldl (fun s e => if e.2.home = m ∨ e.2.modules.contains m then s.cancelNow e.1 e.2 else s) s
  let s := (((s.module? m).map Module.commands).getD []).foldl (fun s c => s.cancelLaunch m c) s
  s.modModule m fun d => { d with power := .d3hot }
def execD3hotEntry (m : Nat) (s : State) : Result := .next (d3hotEntry m s)
/-- The power limit in force (R370). -/
def Module.limit (d : Module) : Nat := min 2800 (max 1200 d.pwrlim)
def Module.throttle (d : Module) : Module := { d with throttled := decide (d.limit ≤ d.watts) || decide (105 < d.tjmax) }
/-- POWER_WINDOW: the average of the last 1 ms; issue is withheld to stay at or below the limit (R370). -/
def powerWindow (m watts : Nat) (s : State) : State := s.modModule m fun d => { d with watts := watts }.throttle
def execPowerWindow (m watts : Nat) (s : State) : Result := .next (powerWindow m watts s)
/-- POWER_LOSS: only flash and what lies outside the module survive (R371). -/
def powerLoss (m : Nat) (s : State) : State :=
  let s := s.dropJobs m
  { s with
    modules := dmap s.modules fun i d =>
      if i = m then { Module.reset with power := .off, flash := d.flash, flashPerm := (d.flashPerm ++ d.permPositions m).dedup }
      else { d with leases := dmap d.leases fun _ l => if !l.lender && l.peer == m then { l with refused := true } else l }
    positions := s.positions.filter fun e => coreModule e.1 != m
    net := s.net.filter fun x => coreModule x.src != m }
def execPowerLoss (m : Nat) (s : State) : Result := .next (powerLoss m s)
/-- The temperature at which the module deasserts its supply-enable output (R370). -/
def shutdownAt : Nat := 115
/-- THERMAL_THROTTLE: the hottest junction temperature as measured. Above 105 °C the module throttles; at 115 °C its supply goes (R370). -/
def thermalThrottle (m temp : Nat) (s : State) : State :=
  if shutdownAt ≤ temp then powerLoss m s else s.modModule m fun d => { d with tjmax := temp }.throttle
def execThermalThrottle (m temp : Nat) (s : State) : Result := .next (thermalThrottle m temp s)
/-- THERMAL_SHUTDOWN: the temperature has reached 115 °C: the effect of a power loss (R370). -/
def thermalShutdown (m : Nat) (s : State) : State := powerLoss m s
def execThermalShutdown (m : Nat) (s : State) : Result := .next (thermalShutdown m s)

end Sys2Proof.Machine
end

