-- ==== Sys2Proof/Machine/Dispatch.lean ====
section
/-! DEFINITION. The meaning of every instruction and step: one arm per constructor of Instr, in the order of the opcode table. -/

namespace Sys2Proof.Machine

def exec (i : Instr) (s : State) : Host.Outcome State Fault Refusal :=
  match i with
  | .lui rd imm => Sys2Proof.Machine.execLui rd imm s
  | .auipc rd imm => Sys2Proof.Machine.execAuipc rd imm s
  | .addi rd rs1 imm => Sys2Proof.Machine.execAddi rd rs1 imm s
  | .slti rd rs1 imm => Sys2Proof.Machine.execSlti rd rs1 imm s
  | .sltiu rd rs1 imm => Sys2Proof.Machine.execSltiu rd rs1 imm s
  | .xori rd rs1 imm => Sys2Proof.Machine.execXori rd rs1 imm s
  | .ori rd rs1 imm => Sys2Proof.Machine.execOri rd rs1 imm s
  | .andi rd rs1 imm => Sys2Proof.Machine.execAndi rd rs1 imm s
  | .slli rd rs1 sh => Sys2Proof.Machine.execSlli rd rs1 sh s
  | .srli rd rs1 sh => Sys2Proof.Machine.execSrli rd rs1 sh s
  | .srai rd rs1 sh => Sys2Proof.Machine.execSrai rd rs1 sh s
  | .add rd rs1 rs2 => Sys2Proof.Machine.execAdd rd rs1 rs2 s
  | .sub rd rs1 rs2 => Sys2Proof.Machine.execSub rd rs1 rs2 s
  | .sll rd rs1 rs2 => Sys2Proof.Machine.execSll rd rs1 rs2 s
  | .slt rd rs1 rs2 => Sys2Proof.Machine.execSlt rd rs1 rs2 s
  | .sltu rd rs1 rs2 => Sys2Proof.Machine.execSltu rd rs1 rs2 s
  | .xor rd rs1 rs2 => Sys2Proof.Machine.execXor rd rs1 rs2 s
  | .srl rd rs1 rs2 => Sys2Proof.Machine.execSrl rd rs1 rs2 s
  | .sra rd rs1 rs2 => Sys2Proof.Machine.execSra rd rs1 rs2 s
  | .or rd rs1 rs2 => Sys2Proof.Machine.execOr rd rs1 rs2 s
  | .and rd rs1 rs2 => Sys2Proof.Machine.execAnd rd rs1 rs2 s
  | .addiw rd rs1 imm => Sys2Proof.Machine.execAddiw rd rs1 imm s
  | .slliw rd rs1 sh => Sys2Proof.Machine.execSlliw rd rs1 sh s
  | .srliw rd rs1 sh => Sys2Proof.Machine.execSrliw rd rs1 sh s
  | .sraiw rd rs1 sh => Sys2Proof.Machine.execSraiw rd rs1 sh s
  | .addw rd rs1 rs2 => Sys2Proof.Machine.execAddw rd rs1 rs2 s
  | .subw rd rs1 rs2 => Sys2Proof.Machine.execSubw rd rs1 rs2 s
  | .sllw rd rs1 rs2 => Sys2Proof.Machine.execSllw rd rs1 rs2 s
  | .srlw rd rs1 rs2 => Sys2Proof.Machine.execSrlw rd rs1 rs2 s
  | .sraw rd rs1 rs2 => Sys2Proof.Machine.execSraw rd rs1 rs2 s
  | .mul rd rs1 rs2 => Sys2Proof.Machine.execMul rd rs1 rs2 s
  | .mulh rd rs1 rs2 => Sys2Proof.Machine.execMulh rd rs1 rs2 s
  | .mulhsu rd rs1 rs2 => Sys2Proof.Machine.execMulhsu rd rs1 rs2 s
  | .mulhu rd rs1 rs2 => Sys2Proof.Machine.execMulhu rd rs1 rs2 s
  | .div rd rs1 rs2 => Sys2Proof.Machine.execDiv rd rs1 rs2 s
  | .divu rd rs1 rs2 => Sys2Proof.Machine.execDivu rd rs1 rs2 s
  | .rem rd rs1 rs2 => Sys2Proof.Machine.execRem rd rs1 rs2 s
  | .remu rd rs1 rs2 => Sys2Proof.Machine.execRemu rd rs1 rs2 s
  | .mulw rd rs1 rs2 => Sys2Proof.Machine.execMulw rd rs1 rs2 s
  | .divw rd rs1 rs2 => Sys2Proof.Machine.execDivw rd rs1 rs2 s
  | .divuw rd rs1 rs2 => Sys2Proof.Machine.execDivuw rd rs1 rs2 s
  | .remw rd rs1 rs2 => Sys2Proof.Machine.execRemw rd rs1 rs2 s
  | .remuw rd rs1 rs2 => Sys2Proof.Machine.execRemuw rd rs1 rs2 s
  | .jal rd imm => Sys2Proof.Machine.execJal rd imm s
  | .jalr rd rs1 imm => Sys2Proof.Machine.execJalr rd rs1 imm s
  | .beq rs1 rs2 imm => Sys2Proof.Machine.execBeq rs1 rs2 imm s
  | .bne rs1 rs2 imm => Sys2Proof.Machine.execBne rs1 rs2 imm s
  | .blt rs1 rs2 imm => Sys2Proof.Machine.execBlt rs1 rs2 imm s
  | .bge rs1 rs2 imm => Sys2Proof.Machine.execBge rs1 rs2 imm s
  | .bltu rs1 rs2 imm => Sys2Proof.Machine.execBltu rs1 rs2 imm s
  | .bgeu rs1 rs2 imm => Sys2Proof.Machine.execBgeu rs1 rs2 imm s
  | .lb rd rs1 imm => Sys2Proof.Machine.execLb rd rs1 imm s
  | .lh rd rs1 imm => Sys2Proof.Machine.execLh rd rs1 imm s
  | .lw rd rs1 imm => Sys2Proof.Machine.execLw rd rs1 imm s
  | .ld rd rs1 imm => Sys2Proof.Machine.execLd rd rs1 imm s
  | .lbu rd rs1 imm => Sys2Proof.Machine.execLbu rd rs1 imm s
  | .lhu rd rs1 imm => Sys2Proof.Machine.execLhu rd rs1 imm s
  | .lwu rd rs1 imm => Sys2Proof.Machine.execLwu rd rs1 imm s
  | .sb rs2 rs1 imm => Sys2Proof.Machine.execSb rs2 rs1 imm s
  | .sh rs2 rs1 imm => Sys2Proof.Machine.execSh rs2 rs1 imm s
  | .sw rs2 rs1 imm => Sys2Proof.Machine.execSw rs2 rs1 imm s
  | .sd rs2 rs1 imm => Sys2Proof.Machine.execSd rs2 rs1 imm s
  | .flw fd rs1 imm => Sys2Proof.Machine.execFlw fd rs1 imm s
  | .fsw fs2 rs1 imm => Sys2Proof.Machine.execFsw fs2 rs1 imm s
  | .fmaddS fd fs1 fs2 fs3 rm => Sys2Proof.Machine.execFmaddS fd fs1 fs2 fs3 rm s
  | .fmsubS fd fs1 fs2 fs3 rm => Sys2Proof.Machine.execFmsubS fd fs1 fs2 fs3 rm s
  | .fnmsubS fd fs1 fs2 fs3 rm => Sys2Proof.Machine.execFnmsubS fd fs1 fs2 fs3 rm s
  | .fnmaddS fd fs1 fs2 fs3 rm => Sys2Proof.Machine.execFnmaddS fd fs1 fs2 fs3 rm s
  | .faddS fd fs1 fs2 rm => Sys2Proof.Machine.execFaddS fd fs1 fs2 rm s
  | .fsubS fd fs1 fs2 rm => Sys2Proof.Machine.execFsubS fd fs1 fs2 rm s
  | .fmulS fd fs1 fs2 rm => Sys2Proof.Machine.execFmulS fd fs1 fs2 rm s
  | .fdivS fd fs1 fs2 rm => Sys2Proof.Machine.execFdivS fd fs1 fs2 rm s
  | .fsqrtS fd fs1 rm => Sys2Proof.Machine.execFsqrtS fd fs1 rm s
  | .fsgnjS fd fs1 fs2 => Sys2Proof.Machine.execFsgnjS fd fs1 fs2 s
  | .fsgnjnS fd fs1 fs2 => Sys2Proof.Machine.execFsgnjnS fd fs1 fs2 s
  | .fsgnjxS fd fs1 fs2 => Sys2Proof.Machine.execFsgnjxS fd fs1 fs2 s
  | .fminS fd fs1 fs2 => Sys2Proof.Machine.execFminS fd fs1 fs2 s
  | .fmaxS fd fs1 fs2 => Sys2Proof.Machine.execFmaxS fd fs1 fs2 s
  | .feqS rd fs1 fs2 => Sys2Proof.Machine.execFeqS rd fs1 fs2 s
  | .fltS rd fs1 fs2 => Sys2Proof.Machine.execFltS rd fs1 fs2 s
  | .fleS rd fs1 fs2 => Sys2Proof.Machine.execFleS rd fs1 fs2 s
  | .fclassS rd fs1 => Sys2Proof.Machine.execFclassS rd fs1 s
  | .fcvtWS rd fs1 rm => Sys2Proof.Machine.execFcvtWS rd fs1 rm s
  | .fcvtWuS rd fs1 rm => Sys2Proof.Machine.execFcvtWuS rd fs1 rm s
  | .fcvtLS rd fs1 rm => Sys2Proof.Machine.execFcvtLS rd fs1 rm s
  | .fcvtLuS rd fs1 rm => Sys2Proof.Machine.execFcvtLuS rd fs1 rm s
  | .fcvtSW fd rs1 rm => Sys2Proof.Machine.execFcvtSW fd rs1 rm s
  | .fcvtSWu fd rs1 rm => Sys2Proof.Machine.execFcvtSWu fd rs1 rm s
  | .fcvtSL fd rs1 rm => Sys2Proof.Machine.execFcvtSL fd rs1 rm s
  | .fcvtSLu fd rs1 rm => Sys2Proof.Machine.execFcvtSLu fd rs1 rm s
  | .fmvXW rd fs1 => Sys2Proof.Machine.execFmvXW rd fs1 s
  | .fmvWX fd rs1 => Sys2Proof.Machine.execFmvWX fd rs1 s
  | .fence pred succ => Sys2Proof.Machine.execFence pred succ s
  | .fenceTso => Sys2Proof.Machine.execFenceTso s
  | .fenceI => Sys2Proof.Machine.execFenceI s
  | .ecall => Sys2Proof.Machine.execEcall s
  | .ebreak => Sys2Proof.Machine.execEbreak s
  | .wfi => Sys2Proof.Machine.execWfi s
  | .csrrw rd rs1 csr => Sys2Proof.Machine.execCsrrw rd rs1 csr s
  | .csrrs rd rs1 csr => Sys2Proof.Machine.execCsrrs rd rs1 csr s
  | .csrrc rd rs1 csr => Sys2Proof.Machine.execCsrrc rd rs1 csr s
  | .csrrwi rd uimm csr => Sys2Proof.Machine.execCsrrwi rd uimm csr s
  | .csrrsi rd uimm csr => Sys2Proof.Machine.execCsrrsi rd uimm csr s
  | .csrrci rd uimm csr => Sys2Proof.Machine.execCsrrci rd uimm csr s
  | .reservedEncoding w => Sys2Proof.Machine.execReservedEncoding w s
  | .spawn rd rs1 rs2 => Sys2Proof.Machine.execSpawn rd rs1 rs2 s
  | .hexit => Sys2Proof.Machine.execHexit s
  | .cpush rs1 => Sys2Proof.Machine.execCpush rs1 s
  | .cjoin rs1 => Sys2Proof.Machine.execCjoin rs1 s
  | .yield => Sys2Proof.Machine.execYield s
  | .follow => Sys2Proof.Machine.execFollow s
  | .solo => Sys2Proof.Machine.execSolo s
  | .ssclose op rd rs1 => Sys2Proof.Machine.execSsclose op rd rs1 s
  | .ssabort => Sys2Proof.Machine.execSsabort s
  | .barv sc op rs1 => Sys2Proof.Machine.execBarv sc op rs1 s
  | .barw sc rd => Sys2Proof.Machine.execBarw sc rd s
  | .baraw sc op rd rs1 => Sys2Proof.Machine.execBaraw sc op rd rs1 s
  | .gang rs1 rs2 => Sys2Proof.Machine.execGang rs1 rs2 s
  | .vclaim rd rs1 => Sys2Proof.Machine.execVclaim rd rs1 s
  | .vyield => Sys2Proof.Machine.execVyield s
  | .lcset lc rs1 => Sys2Proof.Machine.execLcset lc rs1 s
  | .lcget rd lc => Sys2Proof.Machine.execLcget rd lc s
  | .trapret => Sys2Proof.Machine.execTrapret s
  | .trig rs1 => Sys2Proof.Machine.execTrig rs1 s
  | .sbwait slot => Sys2Proof.Machine.execSbwait slot s
  | .rsteW rs2 rs1 slot => Sys2Proof.Machine.execRsteW rs2 rs1 slot s
  | .rsteD rs2 rs1 slot => Sys2Proof.Machine.execRsteD rs2 rs1 slot s
  | .rredAddW rs2 rs1 => Sys2Proof.Machine.execRredAddW rs2 rs1 s
  | .rredAddD rs2 rs1 => Sys2Proof.Machine.execRredAddD rs2 rs1 s
  | .rredMin rs2 rs1 => Sys2Proof.Machine.execRredMin rs2 rs1 s
  | .rredMax rs2 rs1 => Sys2Proof.Machine.execRredMax rs2 rs1 s
  | .rredOr rs2 rs1 => Sys2Proof.Machine.execRredOr rs2 rs1 s
  | .rredFadd fs2 rs1 => Sys2Proof.Machine.execRredFadd fs2 rs1 s
  | .rfaa rd rs2 rs1 => Sys2Proof.Machine.execRfaa rd rs2 rs1 s
  | .rcas rd rs2 rs3 rs1 => Sys2Proof.Machine.execRcas rd rs2 rs3 rs1 s
  | .rswp rd rs2 rs1 => Sys2Proof.Machine.execRswp rd rs2 rs1 s
  | .rfaao rd rs2 rs3 rs1 => Sys2Proof.Machine.execRfaao rd rs2 rs3 rs1 s
  | .fenceS sc ord => Sys2Proof.Machine.execFenceS sc ord s
  | .ffence sc rs2 rs1 => Sys2Proof.Machine.execFfence sc rs2 rs1 s
  | .npost mb rs1 => Sys2Proof.Machine.execNpost mb rs1 s
  | .nget rd mb pk => Sys2Proof.Machine.execNget rd mb pk s
  | .enq q rs1 => Sys2Proof.Machine.execEnq q rs1 s
  | .enqp q rs1 rs2 => Sys2Proof.Machine.execEnqp q rs1 rs2 s
  | .deq rd q => Sys2Proof.Machine.execDeq rd q s
  | .hmarm rs2 rs1 => Sys2Proof.Machine.execHmarm rs2 rs1 s
  | .hmadd rs2 rs1 => Sys2Proof.Machine.execHmadd rs2 rs1 s
  | .hmwait rs2 rs1 => Sys2Proof.Machine.execHmwait rs2 rs1 s
  | .rget rd rs1 => Sys2Proof.Machine.execRget rd rs1 s
  | .rput rs2 rs1 => Sys2Proof.Machine.execRput rs2 rs1 s
  | .waitf rs2 rs1 => Sys2Proof.Machine.execWaitf rs2 rs1 s
  | .ctready rs1 rs2 => Sys2Proof.Machine.execCtready rs1 rs2 s
  | .vadd ty vd vs1 vs2 pg => Sys2Proof.Machine.execVadd ty vd vs1 vs2 pg s
  | .vsub ty vd vs1 vs2 pg => Sys2Proof.Machine.execVsub ty vd vs1 vs2 pg s
  | .vmul ty vd vs1 vs2 pg => Sys2Proof.Machine.execVmul ty vd vs1 vs2 pg s
  | .vmax ty vd vs1 vs2 pg => Sys2Proof.Machine.execVmax ty vd vs1 vs2 pg s
  | .vmin ty vd vs1 vs2 pg => Sys2Proof.Machine.execVmin ty vd vs1 vs2 pg s
  | .vabs ty vd vs1 pg => Sys2Proof.Machine.execVabs ty vd vs1 pg s
  | .vneg ty vd vs1 pg => Sys2Proof.Machine.execVneg ty vd vs1 pg s
  | .vrelu ty vd vs1 pg => Sys2Proof.Machine.execVrelu ty vd vs1 pg s
  | .vfmaF32 vd vs1 vs2 vs3 => Sys2Proof.Machine.execVfmaF32 vd vs1 vs2 vs3 s
  | .vfmaBf16 vd vs1 vs2 vs3 => Sys2Proof.Machine.execVfmaBf16 vd vs1 vs2 vs3 s
  | .vfmsF32 vd vs1 vs2 vs3 => Sys2Proof.Machine.execVfmsF32 vd vs1 vs2 vs3 s
  | .vfmsBf16 vd vs1 vs2 vs3 => Sys2Proof.Machine.execVfmsBf16 vd vs1 vs2 vs3 s
  | .vsclF32 vd vs1 fn => Sys2Proof.Machine.execVsclF32 vd vs1 fn s
  | .vsclBf16 vd vs1 fn => Sys2Proof.Machine.execVsclBf16 vd vs1 fn s
  | .baddrq vd vs1 vs2 fn => Sys2Proof.Machine.execBaddrq vd vs1 vs2 fn s
  | .vand ty vd vs1 vs2 pg => Sys2Proof.Machine.execVand ty vd vs1 vs2 pg s
  | .vor ty vd vs1 vs2 pg => Sys2Proof.Machine.execVor ty vd vs1 vs2 pg s
  | .vxor ty vd vs1 vs2 pg => Sys2Proof.Machine.execVxor ty vd vs1 vs2 pg s
  | .vshl ty vd vs1 vs2 pg => Sys2Proof.Machine.execVshl ty vd vs1 vs2 pg s
  | .vshr ty vd vs1 vs2 pg => Sys2Proof.Machine.execVshr ty vd vs1 vs2 pg s
  | .vsra ty vd vs1 vs2 pg => Sys2Proof.Machine.execVsra ty vd vs1 vs2 pg s
  | .vrsq ty vd vs1 pg => Sys2Proof.Machine.execVrsq ty vd vs1 pg s
  | .vsel ty vd vs1 vs2 pg => Sys2Proof.Machine.execVsel ty vd vs1 vs2 pg s
  | .vcmpEq ty pd vs1 vs2 pg => Sys2Proof.Machine.execVcmpEq ty pd vs1 vs2 pg s
  | .vcmpLt ty pd vs1 vs2 pg => Sys2Proof.Machine.execVcmpLt ty pd vs1 vs2 pg s
  | .vcmpLe ty pd vs1 vs2 pg => Sys2Proof.Machine.execVcmpLe ty pd vs1 vs2 pg s
  | .vcvt src dst vd vs1 pg => Sys2Proof.Machine.execVcvt src dst vd vs1 pg s
  | .vld vd rs1 pg => Sys2Proof.Machine.execVld vd rs1 pg s
  | .vst vs rs1 pg => Sys2Proof.Machine.execVst vs rs1 pg s
  | .vlds vd rs1 rs2 pg => Sys2Proof.Machine.execVlds vd rs1 rs2 pg s
  | .vsts vs rs1 rs2 pg => Sys2Proof.Machine.execVsts vs rs1 rs2 pg s
  | .vldx vd rs1 vs2 pg => Sys2Proof.Machine.execVldx vd rs1 vs2 pg s
  | .vstx vs rs1 vs2 pg => Sys2Proof.Machine.execVstx vs rs1 vs2 pg s
  | .vpld pd rs1 => Sys2Proof.Machine.execVpld pd rs1 s
  | .vpst ps rs1 => Sys2Proof.Machine.execVpst ps rs1 s
  | .vredSum ty vd vs1 pg => Sys2Proof.Machine.execVredSum ty vd vs1 pg s
  | .vredMax ty vd vs1 pg => Sys2Proof.Machine.execVredMax ty vd vs1 pg s
  | .vredMin ty vd vs1 pg => Sys2Proof.Machine.execVredMin ty vd vs1 pg s
  | .vbcast vd rs1 pg => Sys2Proof.Machine.execVbcast vd rs1 pg s
  | .vmvx rd vs1 rs2 => Sys2Proof.Machine.execVmvx rd vs1 rs2 s
  | .pand pd ps1 ps2 => Sys2Proof.Machine.execPand pd ps1 ps2 s
  | .por pd ps1 ps2 => Sys2Proof.Machine.execPor pd ps1 ps2 s
  | .pxor pd ps1 ps2 => Sys2Proof.Machine.execPxor pd ps1 ps2 s
  | .pnot pd ps1 => Sys2Proof.Machine.execPnot pd ps1 s
  | .pmov pd ps1 => Sys2Proof.Machine.execPmov pd ps1 s
  | .pset pd rs1 => Sys2Proof.Machine.execPset pd rs1 s
  | .pcnt rd ps1 => Sys2Proof.Machine.execPcnt rd ps1 s
  | .mxiBf16Bf16 rs1 rs2 n => Sys2Proof.Machine.execMxiBf16Bf16 rs1 rs2 n s
  | .mxiBf16Qt16 rs1 rs2 n => Sys2Proof.Machine.execMxiBf16Qt16 rs1 rs2 n s
  | .mxiQt16Qt16 rs1 rs2 n => Sys2Proof.Machine.execMxiQt16Qt16 rs1 rs2 n s
  | .mxiQt8Qt8 rs1 rs2 n => Sys2Proof.Machine.execMxiQt8Qt8 rs1 rs2 n s
  | .mxiI8I8 rs1 rs2 n => Sys2Proof.Machine.execMxiI8I8 rs1 rs2 n s
  | .mxiI8Tern rs1 rs2 n => Sys2Proof.Machine.execMxiI8Tern rs1 rs2 n s
  | .lut3 rd rs1 rs2 table => Sys2Proof.Machine.execLut3 rd rs1 rs2 table s
  | .fshl rd rs1 rs2 rs3 => Sys2Proof.Machine.execFshl rd rs1 rs2 rs3 s
  | .fshr rd rs1 rs2 rs3 => Sys2Proof.Machine.execFshr rd rs1 rs2 rs3 s
  | .popc rd rs1 => Sys2Proof.Machine.execPopc rd rs1 s
  | .clz rd rs1 => Sys2Proof.Machine.execClz rd rs1 s
  | .ctz rd rs1 => Sys2Proof.Machine.execCtz rd rs1 s
  | .fcvtQt8S rd fs1 => Sys2Proof.Machine.execFcvtQt8S rd fs1 s
  | .fcvtSQt8 fd rs1 => Sys2Proof.Machine.execFcvtSQt8 fd rs1 s
  | .fcvtQt16S rd fs1 => Sys2Proof.Machine.execFcvtQt16S rd fs1 s
  | .fcvtSQt16 fd rs1 => Sys2Proof.Machine.execFcvtSQt16 fd rs1 s
  | .fcvtQt32S rd fs1 => Sys2Proof.Machine.execFcvtQt32S rd fs1 s
  | .fcvtSQt32 fd rs1 => Sys2Proof.Machine.execFcvtSQt32 fd rs1 s
  | .svactFault cause => Sys2Proof.Machine.execSvactFault cause s
  | .svactAbort cause => Sys2Proof.Machine.execSvactAbort cause s
  | .svactClear page => Sys2Proof.Machine.execSvactClear page s
  | .trread rd => Sys2Proof.Machine.execTrread rd s
  | .qtail m q v => Sys2Proof.Machine.execQtail m q v s
  | .qcfgWrite m q v => Sys2Proof.Machine.execQcfgWrite m q v s
  | .jmen m v => Sys2Proof.Machine.execJmen m v s
  | .hostord m v => Sys2Proof.Machine.execHostord m v s
  | .registerWrite m win off size v => Sys2Proof.Machine.execRegisterWrite m win off size v s
  | .accerr m win off size write => Sys2Proof.Machine.execAccerr m win off size write s
  | .commandFetch m => Sys2Proof.Machine.execCommandFetch m s
  | .completionWrite m q => Sys2Proof.Machine.execCompletionWrite m q s
  | .launch m jsn => Sys2Proof.Machine.execLaunch m jsn s
  | .cancel m jsn => Sys2Proof.Machine.execCancel m jsn s
  | .pauseAtBoundary m jsn => Sys2Proof.Machine.execPauseAtBoundary m jsn s
  | .resume m jsn => Sys2Proof.Machine.execResume m jsn s
  | .offer m jsn => Sys2Proof.Machine.execOffer m jsn s
  | .withdraw m jsn => Sys2Proof.Machine.execWithdraw m jsn s
  | .take m jsn => Sys2Proof.Machine.execTake m jsn s
  | .release m jsn => Sys2Proof.Machine.execRelease m jsn s
  | .readJournal m jsn => Sys2Proof.Machine.execReadJournal m jsn s
  | .sync m jsn => Sys2Proof.Machine.execSync m jsn s
  | .placeJob m jsn => Sys2Proof.Machine.execPlaceJob m jsn s
  | .stagingComplete m jsn => Sys2Proof.Machine.execStagingComplete m jsn s
  | .runpflComplete m jsn => Sys2Proof.Machine.execRunpflComplete m jsn s
  | .migrateRectangle asid rect die row col => Sys2Proof.Machine.execMigrateRectangle asid rect die row col s
  | .pageWalk c va write => Sys2Proof.Machine.execPageWalk c va write s
  | .pagerPromotion c va => Sys2Proof.Machine.execPagerPromotion c va s
  | .revocation m slot => Sys2Proof.Machine.execRevocation m slot s
  | .revocationAck n => Sys2Proof.Machine.execRevocationAck n s
  | .leaseAckTimeout m slot => Sys2Proof.Machine.execLeaseAckTimeout m slot s
  | .dcdExtentRelease m base len => Sys2Proof.Machine.execDcdExtentRelease m base len s
  | .rowSparingComplete m row => Sys2Proof.Machine.execRowSparingComplete m row s
  | .rowClose m bank => Sys2Proof.Machine.execRowClose m bank s
  | .bankForcedClose m bank => Sys2Proof.Machine.execBankForcedClose m bank s
  | .linkFailure n applied => Sys2Proof.Machine.execLinkFailure n applied s
  | .poolPop c => Sys2Proof.Machine.execPoolPop c s
  | .taskSteal c => Sys2Proof.Machine.execTaskSteal c s
  | .recordAging c => Sys2Proof.Machine.execRecordAging c s
  | .vclaimGrant quad => Sys2Proof.Machine.execVclaimGrant quad s
  | .vectorCompletion c seq => Sys2Proof.Machine.execVectorCompletion c seq s
  | .gangRelease c => Sys2Proof.Machine.execGangRelease c s
  | .barrierRelease c k => Sys2Proof.Machine.execBarrierRelease c k s
  | .mma c upset => Sys2Proof.Machine.execMma c upset s
  | .mmag c upset => Sys2Proof.Machine.execMmag c upset s
  | .accld c => Sys2Proof.Machine.execAccld c s
  | .accst c => Sys2Proof.Machine.execAccst c s
  | .accz c => Sys2Proof.Machine.execAccz c s
  | .accxr c => Sys2Proof.Machine.execAccxr c s
  | .qfence c q => Sys2Proof.Machine.execQfence c q s
  | .signal c q => Sys2Proof.Machine.execSignal c q s
  | .cpbox c => Sys2Proof.Machine.execCpbox c s
  | .cppfl c => Sys2Proof.Machine.execCppfl c s
  | .cpstrm c => Sys2Proof.Machine.execCpstrm c s
  | .cpclose c => Sys2Proof.Machine.execCpclose c s
  | .cpfill c => Sys2Proof.Machine.execCpfill c s
  | .cpring c => Sys2Proof.Machine.execCpring c s
  | .gtrows c => Sys2Proof.Machine.execGtrows c s
  | .nxput c => Sys2Proof.Machine.execNxput c s
  | .nxred c => Sys2Proof.Machine.execNxred c s
  | .firing c => Sys2Proof.Machine.execFiring c s
  | .commandCompletion c q => Sys2Proof.Machine.execCommandCompletion c q s
  | .statusEntry c q => Sys2Proof.Machine.execStatusEntry c q s
  | .eagerWriteArrival n => Sys2Proof.Machine.execEagerWriteArrival n s
  | .eagerAckArrival n => Sys2Proof.Machine.execEagerAckArrival n s
  | .remoteRequestArrival n => Sys2Proof.Machine.execRemoteRequestArrival n s
  | .responseArrival n => Sys2Proof.Machine.execResponseArrival n s
  | .returned n => Sys2Proof.Machine.execReturned n s
  | .atomicArrival n => Sys2Proof.Machine.execAtomicArrival n s
  | .orderGroupArrival n => Sys2Proof.Machine.execOrderGroupArrival n s
  | .mailboxPostArrival n => Sys2Proof.Machine.execMailboxPostArrival n s
  | .ngetTimeout c k => Sys2Proof.Machine.execNgetTimeout c k s
  | .lateTrapArrival n => Sys2Proof.Machine.execLateTrapArrival n s
  | .handlerEntry c k => Sys2Proof.Machine.execHandlerEntry c k s
  | .hostWrite m off size v => Sys2Proof.Machine.execHostWrite m off size v s
  | .hostRead m off size => Sys2Proof.Machine.execHostRead m off size s
  | .barrierMessage n => Sys2Proof.Machine.execBarrierMessage n s
  | .furtherAbortMessage n => Sys2Proof.Machine.execFurtherAbortMessage n s
  | .urgentAbort n => Sys2Proof.Machine.execUrgentAbort n s
  | .doomNotice n => Sys2Proof.Machine.execDoomNotice n s
  | .outcomeArrival n => Sys2Proof.Machine.execOutcomeArrival n s
  | .commitApply c => Sys2Proof.Machine.execCommitApply c s
  | .rollback c => Sys2Proof.Machine.execRollback c s
  | .superstepStart asid => Sys2Proof.Machine.execSuperstepStart asid s
  | .retirement asid => Sys2Proof.Machine.execRetirement asid s
  | .watchdog asid => Sys2Proof.Machine.execWatchdog asid s
  | .qdead c => Sys2Proof.Machine.execQdead c s
  | .preemptionRequest m jsn => Sys2Proof.Machine.execPreemptionRequest m jsn s
  | .preemptionDeadline asid => Sys2Proof.Machine.execPreemptionDeadline asid s
  | .park asid => Sys2Proof.Machine.execPark asid s
  | .heartbeatSend c => Sys2Proof.Machine.execHeartbeatSend c s
  | .heartbeatArrival n crcOk => Sys2Proof.Machine.execHeartbeatArrival n crcOk s
  | .missCheck c => Sys2Proof.Machine.execMissCheck c s
  | .accusation n => Sys2Proof.Machine.execAccusation n s
  | .accusationExpiry c => Sys2Proof.Machine.execAccusationExpiry c s
  | .selfTest c pass => Sys2Proof.Machine.execSelfTest c pass s
  | .acceptance n => Sys2Proof.Machine.execAcceptance n s
  | .controlStateError c => Sys2Proof.Machine.execControlStateError c s
  | .parity c k => Sys2Proof.Machine.execParity c k s
  | .mangleArrival n => Sys2Proof.Machine.execMangleArrival n s
  | .manglePartialArrival n => Sys2Proof.Machine.execManglePartialArrival n s
  | .mangleResultArrival n => Sys2Proof.Machine.execMangleResultArrival n s
  | .blockQueueHandout m asid tile => Sys2Proof.Machine.execBlockQueueHandout m asid tile s
  | .mangleFailure m => Sys2Proof.Machine.execMangleFailure m s
  | .codewrite m => Sys2Proof.Machine.execCodewrite m s
  | .poisonset m => Sys2Proof.Machine.execPoisonset m s
  | .poisonclear m => Sys2Proof.Machine.execPoisonclear m s
  | .fwwrite m => Sys2Proof.Machine.execFwwrite m s
  | .fwcommit m => Sys2Proof.Machine.execFwcommit m s
  | .eventread m => Sys2Proof.Machine.execEventread m s
  | .counterClear m => Sys2Proof.Machine.execCounterClear m s
  | .counterFreeze m freeze => Sys2Proof.Machine.execCounterFreeze m freeze s
  | .attestation m => Sys2Proof.Machine.execAttestation m s
  | .warmReset m => Sys2Proof.Machine.execWarmReset m s
  | .coldReset m => Sys2Proof.Machine.execColdReset m s
  | .d3hotEntry m => Sys2Proof.Machine.execD3hotEntry m s
  | .powerWindow m watts => Sys2Proof.Machine.execPowerWindow m watts s
  | .thermalShutdown m => Sys2Proof.Machine.execThermalShutdown m s
  | .powerLoss m => Sys2Proof.Machine.execPowerLoss m s
  | .stagingReadComplete asid n => Sys2Proof.Machine.execStagingReadComplete asid n s
  | .thermalThrottle m temp => Sys2Proof.Machine.execThermalThrottle m temp s
  | .scrubbing m pa uncorrectable => Sys2Proof.Machine.execScrubbing m pa uncorrectable s
  | .flitCrcFailure c dir => Sys2Proof.Machine.execFlitCrcFailure c dir s
  | .chead m q v => Sys2Proof.Machine.execChead m q v s
  | .badop m op => Sys2Proof.Machine.execBadop m op s
  | .jmerr m => Sys2Proof.Machine.execJmerr m s
  | .leaseWindowAccess n => Sys2Proof.Machine.execLeaseWindowAccess n s

end Sys2Proof.Machine
end

