-- ==== Sys2Proof/Machine/Schedule.lean ====
section
/-! DEFINITION. What `step` does around `exec`: waits that end (R38), time (R14), which context of a core issues and what it fetches
(R37, R132, R133), which of the machine's own steps comes next, and the placing of a word where `step` fetches it. -/

namespace Sys2Proof.Machine

-- waits (R37, R38)
/-- A context of a core completes its wait: the core changes by `f`, the context advances. -/
def State.goOn (s : State) (c : CoreId) (k : Nat) (f : Ctx → Ctx) : State := s.modCtx c k fun x => (f x).advance
/-- The wait of a context ends if its event has occurred; waits that end with a message or a step of their own stand (R38). -/
def State.retryWait (s : State) (c : CoreId) (core : Core) (k : Nat) (w : Wait) : State :=
  match w with
  | .wfi => if (core.ctx k).woken.isSome then s.goOn c k (fun x => { x with woken := none }) else s
  | .ring => if core.ringFree then s.modCtx c k fun x => { x with wait := none } else s
  | .bank _ => if s.mapBusy (coreModule c) (((s.job? core.asid).map Job.root).getD 0) c then s else s.modCtx c k fun x => { x with wait := none }
  | .spawn rd pc arg => match core.idle.getLast? with
    | some h => s.spawnOn c k rd pc arg h
    | none => s
  | .hexit => if core.slotsPending k then s else s.hexit c k
  | .cpush r => if core.tasks.length < taskDepth then (s.modCore c fun x => x.enterTask r s.clock).goOn c k id else s
  | .cjoin d => s.reading c k core.asid d 4 (if s.rd core.asid d 4 = 0 then s.goOn c k id else s)
  | .follow => match s.job? core.asid with
    | some j =>
      let off := addrOff (core.ctx k).pc
      if s.followMet j c core off then (s.modCore c fun x => x.followed off).goOn c k id else s
    | none => s
  | .ssclose _ _ _ => s.tryVote c
  | .barv sc op v => if s.fencePending core c k sc.toNat then s else ((s.arrive c k sc.toNat op.toNat v).map fun t => t.goOn c k id).getD s
  | .baraw sc op rd v false =>
    if s.fencePending core c k sc.toNat then s
    else ((s.arrive c k sc.toNat op.toNat v).map fun t => (t.collect c k sc rd).getD (t.modCtx c k fun x => { x with wait := some (.baraw sc op rd v true) })).getD s
  | .gang t w f false _ =>
    if core.gangedPending then s
    else ((s.offerGang c t w f).modCtx c k fun x => { x with wait := some (.gang t w f true none) }).tryWired c
  | .gang _ _ _ true none => s.tryWired c
  | .vyield => if core.inLanes k then s else s.goOn c k fun x => { x with grant := 0 }
  | .sbwait slot => if core.eager.any fun e => e.ctx == k && e.slot == some slot then s else s.goOn c k id
  | .fence sc => if s.fencePending core c k sc.toNat then s else s.goOn c k id
  | .fenceI => if s.fencePending core c k 1 then s else (s.modJob core.asid fun j => j.discard (coreQuad c)).goOn c k id
  | .ffence sc d v => if s.ffencePending core c k sc.toNat then s else (s.sendFlag c k core.asid d v).goOn c k id
  | .nget rd mb pk _ => if core.present.contains mb.toNat then s.takeMail c k rd mb.toNat pk else s
  | .push q cmd _ =>
    if (core.queue q).length < queueDepth q then (s.fresh.2.modCore c fun x => x.enterCmd q s.fresh.1 cmd).goOn c k id else s
  | .ringPush q cmd lc =>
    -- the wait for queue space that may follow counts for QDEAD only from now on (R338)
    if core.ringFree then ((s.modCtx c k fun x => { x with wait := none }).dispatchCmd c k q cmd lc).progress c else s
  | .deq rd q => if (dgetD core.status q []).isEmpty then s else s.takeStatus c k rd q
  | .hmwait d phase => s.reading c k core.asid d 16 (if hmPhase (s.rd core.asid d 16) == phase then s.goOn c k id else s)
  | .rget rd d => s.reading c k core.asid d 32 (if rgFilled (s.rd core.asid d 32) = 0 then s else s.takeSlot c k core.asid rd d)
  | .waitf d v => s.reading c k core.asid d 8 (if v.toNat ≤ s.rd core.asid d 8 then s.goOn c k id else s)
  | .yielded | .stopped | .barw _ _ | .baraw _ _ _ _ true | .gang _ _ _ true (some _) | .vclaim _ _ | .load _ _ _ _ _ | .atomic _ _
  | .rfaao _ _ | .npost _ => s
def State.retry (s : State) (c : CoreId) (k : Nat) : State :=
  match s.core? c with
  | none => s
  | some core =>
    match core.active, (core.ctx k).wait with
    | true, some w => s.retryWait c core k w
    | _, _ => s
/-- The waiting contexts of the pod with their tickets. -/
def State.waiters (s : State) : List (Nat × CoreId × Nat) :=
  s.cores.flatMap fun e => e.2.ctxs.filterMap fun x => if x.2.wait.isSome then some (x.2.ticket, e.1, x.1) else none
/-- A retried wait has changed nothing. No retry moves the clock, so it is left out, and the test can be evaluated whatever the time is. -/
def State.unmoved (s t : State) : Bool := decide ({ t with clock := 0 } = { s with clock := 0 })
/-- The first wait in a list whose event has occurred ends. -/
def State.endFirst (s : State) : List (Nat × CoreId × Nat) → Option State
  | [] => none
  | w :: t => if s.unmoved (s.retry w.2.1 w.2.2) then s.endFirst t else some (s.retry w.2.1 w.2.2)
/-- Waits end one at a time, the oldest whose event has occurred first, at most `n` of them: what one does can be another's event. -/
def State.settleFor (s : State) : Nat → State
  | 0 => s
  | n + 1 =>
    match (s.jobs.foldl (fun s e => s.completeEpisodes e.1) s).endFirst (sortBy Prod.fst (s.jobs.foldl (fun s e => s.completeEpisodes e.1) s).waiters) with
    | some t => t.settleFor n
    | none => s.jobs.foldl (fun s e => s.completeEpisodes e.1) s
/-- Every wait whose event has occurred ends, in the order in which the waits were entered (R38). Each wait changes its core at most a few times
before it ends. -/
def State.settle (s : State) : State := s.settleFor (4 * s.waiters.length + 4)

-- time (R14, log entry 8)
/-- Time passes: at least `n` cycles, how many more is open. -/
def State.tick (s : State) (n : Nat) : State := { s with clock := s.clock + n + Config.elapsed s.ticks, ticks := s.ticks + 1 }
/-- What follows a meaning: time passes and waits end. -/
def after (n : Nat) (r : Result) : Result :=
  match r with
  | .next s => .next (s.tick n).settle
  | .fault f => .fault f
  | .refused f => .refused f

-- who issues (R37)
/-- A context that is ready, a `YIELD` apart (R37, R173, R325). -/
def Ctx.mayIssue (x : Ctx) : Bool := x.live && x.entry.isNone && (x.wait.isNone || x.wait == some .yielded)
/-- The first context after the one that issued last, among those for which `p` holds (R37). -/
def Core.nextWhere (k : Core) (p : Ctx → Bool) : Option Nat :=
  ((List.range 11).map fun i => (k.lastIssued + 1 + i) % 11).find? fun n => p (k.ctx n)
/-- The context that issues next: a context that yielded is passed over once in favour of another (R37, R173). -/
def Core.chosen (k : Core) : Option Nat :=
  if k.active then
    match k.nextWhere fun x => x.mayIssue && x.wait.isNone with
    | some n => some n
    | none => k.nextWhere Ctx.mayIssue
  else none
/-- The words that a fetch may return before the quad has discarded its buffer: the old ones (R133). -/
def Job.oldWords (j : Job) (c : CoreId) (off : Nat) : List Half32 :=
  (j.stale.filter fun w => w.die == coreDie c && w.off == off && !w.seen.contains (coreQuad c)).map StaleWord.word
/-- The word at a code offset of a core's die. -/
def State.newWord (s : State) (c : CoreId) (asid off : Nat) : Half32 := BitVec.ofNat 32 (s.rd asid { core := c, space := .dss, off := off } 4)
/-- The fetch at a context's pc: the word, one of several by free choice where an old one may still come (R133, log entry 3). -/
def State.fetch (s : State) (c : CoreId) (j : Job) (asid off : Nat) : Half32 × State :=
  match j.oldWords c off with
  | [] => (s.newWord c asid off, s)
  | olds => (((s.newWord c asid off :: olds)[s.draw.1 % (olds.length + 1)]?).getD 0, s.draw.2)
/-- The core is issuing from context `k`: yields are over, the choice is noted. -/
def Core.issuing (core : Core) (k clock : Nat) : Core :=
  { core with
    lastIssued := k, lastProgress := clock
    ctxs := dmap core.ctxs fun _ x => if x.wait == some .yielded then { x with wait := none } else x }
/-- The state in which an instruction word of context `k` of core `c` has its effect. -/
def State.begin (s : State) (c : CoreId) (k : Nat) (w : Half32) : State :=
  { s.modCore c fun core => core.issuing k s.clock with cur := (c, k), ir := w }
/-- Context `k` of core `c` issues: its oldest late trap first, else the instruction at its pc (R132, R323). A sequential fetch that runs from one
CODE section into an adjacent one goes on, as one address of either is a legal pc (DESIGN CHOICE, log entry 57). -/
def State.issueFrom (s : State) (c : CoreId) (core : Core) (j : Job) (k : Nat) : Result :=
  match core.lateReady k with
  | some t => .next (s.takeLate c k t)
  | none =>
    let pc := (core.ctx k).pc
    if inCodeAt j pc then
      let r := s.fetch c j core.asid (addrOff pc)
      exec (decode r.1) (r.2.begin c k r.1)
    else .next ((s.begin c k 0).trap c k cBOUNDS pc)
/-- A core takes its issue slot of one cycle (R37); with no ready context nothing issues. -/
def State.issueOn (s : State) (c : CoreId) : Result :=
  match s.core? c with
  | none => .next s
  | some core =>
    match s.job? core.asid, core.chosen with
    | some j, some k => s.issueFrom c core j k
    | _, _ => .next s

-- the machine's own steps in the order that the model gives them (log entry 9)
/-- The step that the arrival of message `n` is. -/
def Msg.arrival (x : Msg) (n : Nat) : State → State :=
  match x.kind with
  | .eager _ _ _ _ => eagerWriteArrival n
  | .eagerAck => eagerAckArrival n
  | .loadReq _ _ _ | .check _ _ => remoteRequestArrival n
  | .response _ | .poisoned _ | .orderBad => responseArrival n
  | .returned _ _ => returned n
  | .atomic _ _ _ _ _ => atomicArrival n
  | .order _ _ _ _ => orderGroupArrival n
  | .post _ _ _ => mailboxPostArrival n
  | .late _ => lateTrapArrival n
  | .vote _ _ | .arrival _ _ _ _ _ => barrierMessage n
  | .further _ => furtherAbortMessage n
  | .urgent _ _ _ => urgentAbort n
  | .doom => doomNotice n
  | .outcome _ => outcomeArrival n
  | .fire _ _ _ _ => mangleArrival n
  | .partial_ _ _ => manglePartialArrival n
  | .result _ _ => mangleResultArrival n
  | .heartbeat _ => heartbeatArrival n true
  | .accuse _ _ => accusation n
  | .accept _ _ => acceptance n
  | .revoke slot => revocation (coreModule x.src) slot
  | .revokeAck _ => revocationAck n
  | .lease _ _ _ _ => leaseWindowAccess n
/-- The step that starts or advances a command (R150). -/
def Cmd.work (m : Cmd) (c : CoreId) (q : Nat) : State → State :=
  if m.firing.isSome then Sys2Proof.Machine.firing c
  else
    match dKind m.d0 with
    | 0x01 => mma c false
    | 0x02 => mmag c false
    | 0x03 => accld c
    | 0x04 => accst c
    | 0x05 => accz c
    | 0x06 => accxr c
    | 0x07 => qfence c q
    | 0x08 => signal c q
    | 0x20 => cpbox c
    | 0x21 => cppfl c
    | 0x22 => cpstrm c
    | 0x23 => cpclose c
    | 0x24 => cpfill c
    | 0x25 => cpring c
    | 0x30 => gtrows c
    | 0x40 => nxput c
    | 0x41 => nxred c
    | _ => id
/-- The steps that may be due at a core. -/
def Core.steps (k : Core) (c : CoreId) : List (State → State) :=
  (List.range 11).flatMap (fun n => [handlerEntry c n, ngetTimeout c n, barrierRelease c n])
    ++ ([0, 1, 2, 3] : List Nat).flatMap (fun q => ((k.queue q).take 1).map (fun m => m.work c q) ++ [commandCompletion c q, statusEntry c q])
    ++ (k.lanes.take 1).map (fun l => vectorCompletion c l.seq)
    ++ [poolPop c, taskSteal c, recordAging c, gangRelease c, commitApply c, rollback c, qdead c]
/-- The steps that may be due for a job. -/
def Job.steps (j : Job) (asid : Nat) : List (State → State) :=
  (List.range j.staged.length).map (stagingReadComplete asid)
    ++ j.modules.flatMap (fun m => j.rounds.map fun r => blockQueueHandout m asid r.tile)
    ++ [superstepStart asid, retirement asid, preemptionDeadline asid, park asid, placeJob j.home j.jsn,
        stagingComplete j.home j.jsn, runpflComplete j.home j.jsn, preemptionRequest j.home j.jsn]
/-- The steps that may carry out an accepted command (R77). -/
def Command.steps (x : Command) (m : Nat) : List (State → State) :=
  match cmdKind x.bytes with
  | 1 => [launch m x.jsn]
  | 2 => [cancel m x.jsn]
  | 3 => [pauseAtBoundary m x.jsn]
  | 4 => [resume m x.jsn]
  | 5 => [offer m x.jsn, withdraw m x.jsn, take m x.jsn, release m x.jsn]
  | 6 => [readJournal m x.jsn]
  | _ => [sync m x.jsn]
/-- The step that carries out a request of the management service (R362). -/
def serviceStep (m op : Nat) : State → State :=
  match op with
  | 1 => codewrite m
  | 2 => poisonset m
  | 3 => poisonclear m
  | 4 => fwwrite m
  | 5 => fwcommit m
  | 6 => eventread m
  | n => badop m (BitVec.ofNat 8 n)
/-- The steps that may be due at a module; a module at power-on starts with its cold reset (R363, R366). -/
def Module.steps (d : Module) (m : Nat) : List (State → State) :=
  if d.power == .d0 && d.bootCode == 0 then [coldReset m]
  else
    d.queues.map (fun e => completionWrite m e.1) ++ d.commands.flatMap (fun x => x.steps m) ++ [commandFetch m]
      ++ d.leases.flatMap (fun e => [revocation m e.1, leaseAckTimeout m e.1]) ++ d.banks.map (fun e => bankForcedClose m e.1)
      ++ d.sparing.map (fun r => rowSparingComplete m r) ++ d.quads.map (fun e => vclaimGrant e.1)
      ++ d.releasing.map (fun r => dcdExtentRelease m r.1 r.2) ++ (if d.svcBusy then [serviceStep m d.svcop] else []) ++ [attestation m]
      ++ (if d.requests.isEmpty then [] else [fun s => s.serveHosts m])
/-- The heartbeat steps of a module's positions whose period has come: checks first, for the period that ends (R344). -/
def State.beatSteps (s : State) (m : Nat) : List (State → State) :=
  let at_ := (List.range 1024).map (m * 1024 + ·)
  (at_.filter fun c => s.beatOf c != (s.pos c).lastCheck).map missCheck
    ++ (at_.filter fun c => s.beatOf c != (s.pos c).lastBeat).map heartbeatSend
    ++ (at_.filter fun c => (s.pos c).accused.any fun a => decide (a.2.2 ≤ s.clock)).map accusationExpiry
/-- The steps that may be due now, in the order in which the model takes them. -/
def State.steps (s : State) : List (State → State) :=
  s.jobs.map (fun e => watchdog e.1) ++ s.net.zipIdx.map (fun x => x.1.arrival x.2) ++ s.cores.flatMap (fun e => e.2.steps e.1) ++ s.jobs.flatMap (fun e => e.2.steps e.1)
    ++ s.modules.flatMap (fun e => e.2.steps e.1)
/-- The first step of a list that changes the state. -/
def State.firstStep (s : State) : List (State → State) → Option State
  | [] => none
  | f :: t => if f s = s then s.firstStep t else some (f s)
/-- The step that is due now. -/
def State.due (s : State) : Option State :=
  match s.firstStep s.steps with
  | some t => some t
  | none => s.firstStep (s.modules.flatMap fun e => if e.2.power == .d0 then s.beatSteps e.1 else [])
/-- The cores that may issue, those after the last first. -/
def State.issuers (s : State) : List CoreId :=
  let l := (s.cores.filter fun e => e.2.chosen.isSome && (s.job? e.2.asid).isSome).map Prod.fst
  l.filter (fun c => s.cur.1 < c) ++ l.filter (fun c => c ≤ s.cur.1)

-- the agenda
/-- The row is an instruction, or a part of one: a program issues it, never the agenda. -/
def issuedRow (i : Instr) : Bool :=
  hasWord i || match i with
    | .svactFault _ | .svactAbort _ | .svactClear _ | .trread _ => true
    | _ => false
/-- The turn at the head of the agenda is taken. -/
def State.takeTurn (s : State) (t : Turn) : Result :=
  match t with
  | .event i => if issuedRow i then .next s else after 0 (exec i s)
  | .issue c => after 1 (s.issueOn c)

-- where a word is placed for the next fetch (log entry 10)
/-- The first offset of the one-core program that stands for a load. -/
def loadPc : Word := 0x2000000000000000
/-- A job of one core whose only section is its code. -/
def loadedJob (c : CoreId) (w : Nat) : Job :=
  { Job.blank with
    n := 1, entry := loadPc, ssentry := loadPc, limit := 65536, stage := .running
    sections := [{ type := 1, space := 2, runpfl := false, addr := 0, off := 0, size := 32, body := [] }]
    rects := [{ die := coreDie c, row := coreRow c, col := coreCol c }]
    dss := [(coreDie c, { cur := writeMem [] 0 4 w, base := writeMem [] 0 4 w })] }
def loadedCore (asid : Nat) : Core :=
  { Core.blank asid 0 0 with phase := .run, ctxs := [(0, { Ctx.reset with life := .control, pc := loadPc })], lastIssued := 10 }
/-- The first key past all of a store. -/
def pastKeys {α : Type} (d : Dict α) : Nat := (d.map fun e => e.1 + 1).foldl max 0
/-- A one-core job with the word at its pc, on a position and an ASID of its own. -/
def State.loadJob (s : State) (w : Nat) : State :=
  let c := pastKeys s.cores
  let a := pastKeys s.jobs
  { s with agenda := .issue c :: s.agenda, cores := dset s.cores c (loadedCore a), jobs := dset s.jobs a (loadedJob c w) }
/-- The context that issues next on a core, where it fetches an instruction: its job and the code offset. -/
def State.fetchPlace (s : State) (c : CoreId) : Option (Nat × Job × Nat) :=
  match s.core? c with
  | none => none
  | some core =>
    match s.job? core.asid, core.chosen with
    | some j, some k =>
      if (core.lateReady k).isNone && inCodeAt j (core.ctx k).pc then some (core.asid, j, addrOff (core.ctx k).pc) else none
    | _, _ => none
/-- The word stored at a code offset of the core's die, with no old word of it left in a buffer. -/
def State.placeWord (s : State) (c : CoreId) (asid : Nat) (j : Job) (off w : Nat) : State :=
  let die := coreDie c
  let m := dgetD j.dss die Mem.empty
  { s with
    agenda := .issue c :: s.agenda
    jobs := dset s.jobs asid { j with dss := dset j.dss die (m.putBoth off 4 w), stale := j.stale.filter fun x => x.die != die || x.off != off } }

end Sys2Proof.Machine
end

