-- ==== Sys2Proof/Machine/Step.lean ====
section
/-! DEFINITION. One step of the pod: the turn at the head of the agenda; with an empty agenda the machine's own step that is due,
else an issue by the next core that can, else time passes. -/

namespace Sys2Proof.Machine

/-- One step. -/
def step (s : State) : Host.Outcome State Fault Refusal :=
  match s.agenda with
  | t :: rest => ({ s with agenda := rest }).takeTurn t
  | [] =>
    match s.due with
    | some t => after 0 (.next t)
    | none =>
      match s.issuers with
      | c :: _ => after 1 (s.issueOn c)
      | [] => after 1 (.next s)

/-- `s` with the word where the next step fetches it: at the pc of the context that issues next, or, where no core can issue, as the
program of a one-core job that stands for a launch and a load (log entry 10). An instruction has 32 bits. -/
def State.withFetchWord (s : State) (_ w : Nat) : State :=
  match firstSome (s.issuers.map fun c => (s.fetchPlace c).map fun p => (c, p)) with
  | some (c, asid, j, off) => s.placeWord c asid j off w
  | none => s.loadJob w

end Sys2Proof.Machine
end

