-- ==== Sys2Proof/Safety.lean ====
section
/-! DEFINITION. The terms of claims: what a step may leave unchanged, how a step of a context ends, and which memories are canonical. -/

namespace Sys2Proof.Machine

/-- Context `k` of core `c`: a core that is not placed reads as out of reset. -/
def State.ctxOf (s : State) (c : CoreId) (k : Nat) : Ctx := ((s.core? c).map fun x => x.ctx k).getD Ctx.reset

/-- The byte at an offset of a local space, as a load from the position `d.core` reads it (R240). -/
def State.byteAt (s : State) (asid : Nat) (d : Dest) : Byte := readByte (s.home asid d).cur d.off

/-- Nothing outside the cores of the pod differs: jobs with their scratchpads and shares, modules with tier 0, their registers and
journals, positions with the service CSRs, messages, host and CXL memory. -/
structure SameOutside (s t : State) : Prop where
  jobs : t.jobs = s.jobs
  modules : t.modules = s.modules
  positions : t.positions = s.positions
  net : t.net = s.net
  host : t.host = s.host
  hostPoison : t.hostPoison = s.hostPoison
  cxl : t.cxl = s.cxl
  cxlPoison : t.cxlPoison = s.cxlPoison
  replies : t.replies = s.replies

/-- Two states differ in nothing but context `k` of core `c`. -/
structure OnlyCtx (c : CoreId) (k : Nat) (s t : State) : Prop where
  outside : SameOutside s t
  others : ∀ d, d ≠ c → t.core? d = s.core? d
  core : t.core? c = (s.core? c).map fun x => x.setCtx k (t.ctxOf c k)

/-- Two states differ in nothing but core `c`. -/
structure OnlyCore (c : CoreId) (s t : State) : Prop where
  outside : SameOutside s t
  others : ∀ d, d ≠ c → t.core? d = s.core? d

/-- The registers and other state of a context that an instruction may write. -/
inductive CtxPart where
  | x (r : R5)
  | f (r : R5)
  | p (r : R3)
  | v
  | lc (n : Nat)
  | fcsr
  | flags
  | wait
  deriving DecidableEq, Repr

/-- Every part of a context outside `w` is unchanged, and so are its life, level, grant, marks, enables and pending traps. The pc, the
count of retired instructions and the wait's place in the order of waits may differ. -/
structure CtxFrame (w : List CtxPart) (a b : Ctx) : Prop where
  x : ∀ r, CtxPart.x r ∉ w → b.getX r = a.getX r
  f : ∀ r, CtxPart.f r ∉ w → b.getF r = a.getF r
  p : ∀ r, CtxPart.p r ∉ w → b.getP r = a.getP r
  v : CtxPart.v ∉ w → b.v = a.v ∧ b.grant = a.grant
  lc : ∀ n, CtxPart.lc n ∉ w → b.getLc n = a.getLc n
  fcsr : CtxPart.fcsr ∉ w → b.fcsr = a.fcsr
  flags : CtxPart.flags ∉ w → b.flags = a.flags
  enables : b.enables = a.enables
  life : b.life = a.life
  level : b.level = a.level
  marks : b.marks = a.marks
  late : b.late = a.late
  entry : b.entry = a.entry
  fwEpc : b.fwEpc = a.fwEpc

/-- The step of the issuer completes at the next instruction and changes nothing but the parts `w` of the issuing context. -/
def RegistersOnly (i : Issuer) (w : List CtxPart) (s t : State) : Prop :=
  OnlyCtx i.c i.k s t ∧ CtxFrame w i.ctx (t.ctxOf i.c i.k)

/-- The issuing context has completed its instruction: the pc is past it and nothing is waited for (R131). -/
def Completed (i : Issuer) (t : State) : Prop :=
  (t.ctxOf i.c i.k).pc = i.ctx.pc + 4 ∧ (t.ctxOf i.c i.k).instret = i.ctx.instret + 1 ∧ (t.ctxOf i.c i.k).wait = none

/-- The instruction completes with the value in `x[rd]` (in x0 nothing is written) and changes nothing else. -/
def WritesX (s : State) (i : Issuer) (rd : R5) (v : Word) (r : Result) : Prop :=
  ∃ t, r = .next t ∧ Completed i t ∧ (t.ctxOf i.c i.k).getX rd = (if rd = 0 then 0 else v) ∧ RegistersOnly i [.x rd] s t
/-- The instruction completes with the pattern in `f[fd]`, its exceptions added to `fflags`, and changes nothing else. -/
def WritesF (s : State) (i : Issuer) (fd : R5) (v : Half32) (flags : BitVec 8) (r : Result) : Prop :=
  ∃ t, r = .next t ∧ Completed i t ∧ (t.ctxOf i.c i.k).getF fd = v ∧ (t.ctxOf i.c i.k).fcsr = i.ctx.fcsr ||| flags
    ∧ RegistersOnly i [.f fd, .fcsr] s t
/-- The same with the result in `x[rd]`. -/
def WritesXFlags (s : State) (i : Issuer) (rd : R5) (v : Word) (flags : BitVec 8) (r : Result) : Prop :=
  ∃ t, r = .next t ∧ Completed i t ∧ (t.ctxOf i.c i.k).getX rd = (if rd = 0 then 0 else v) ∧ (t.ctxOf i.c i.k).fcsr = i.ctx.fcsr ||| flags
    ∧ RegistersOnly i [.x rd, .fcsr] s t
/-- The instruction completes and changes nothing but the pc and the count of retired instructions. -/
def OnlyAdvances (s : State) (i : Issuer) (r : Result) : Prop := ∃ t, r = .next t ∧ Completed i t ∧ RegistersOnly i [] s t

/-- The trace unit of the issuing core records nothing (R355). -/
def Issuer.untraced (i : Issuer) : Prop := i.core.tracectl = 0

/-- A trap of the issuing context enters the handler at once: job level, a handler, no other context of the core at service level or on its
way there (R322, R325, R326). -/
def Issuer.mayEnter (i : Issuer) : Prop := i.ctx.level = .job ∧ i.job.handler ≠ 0 ∧ i.core.serviceTaken = false
/-- The precise handler entry of R325: the service CSRs hold cause, pc and value, the context runs the handler at service level; no x, f,
p or v register has changed, nor any other context, core, memory or message. -/
def EntersHandler (s : State) (i : Issuer) (cause : Nat) (tval : Word) (r : Result) : Prop :=
  ∃ t, r = .next t
    ∧ (t.pos i.c).svcause = BitVec.ofNat 64 (i.k * 2 ^ 40 + cause) ∧ (t.pos i.c).svepc = i.ctx.pc ∧ (t.pos i.c).svtval = tval
    ∧ (t.ctxOf i.c i.k).level = .service ∧ (t.ctxOf i.c i.k).pc = i.job.handler ∧ (t.ctxOf i.c i.k).wait = none
    ∧ (t.ctxOf i.c i.k).instret = i.ctx.instret
    ∧ (∀ x, (t.ctxOf i.c i.k).getX x = i.ctx.getX x) ∧ (∀ f, (t.ctxOf i.c i.k).getF f = i.ctx.getF f)
    ∧ (∀ p, (t.ctxOf i.c i.k).getP p = i.ctx.getP p) ∧ (t.ctxOf i.c i.k).v = i.ctx.v
    ∧ (∀ c, c ≠ i.c → t.core? c = s.core? c) ∧ (∀ n, n ≠ i.k → t.ctxOf i.c n = s.ctxOf i.c n)
    ∧ t.jobs = s.jobs ∧ t.modules = s.modules ∧ t.net = s.net ∧ t.host = s.host ∧ t.hostPoison = s.hostPoison
    ∧ t.cxl = s.cxl ∧ t.cxlPoison = s.cxlPoison ∧ (∀ a d, t.byteAt a d = s.byteAt a d)

/-- The parts of the pod's state that hold architectural state. -/
inductive Part where
  | cores | jobs | modules | positions | net | host | cxl | replies
  deriving DecidableEq, Repr
/-- Every part outside `w` is unchanged. -/
structure Keeps (w : List Part) (s t : State) : Prop where
  cores : Part.cores ∉ w → t.cores = s.cores
  jobs : Part.jobs ∉ w → t.jobs = s.jobs
  modules : Part.modules ∉ w → t.modules = s.modules
  positions : Part.positions ∉ w → t.positions = s.positions
  net : Part.net ∉ w → t.net = s.net
  host : Part.host ∉ w → t.host = s.host ∧ t.hostPoison = s.hostPoison
  cxl : Part.cxl ∉ w → t.cxl = s.cxl ∧ t.cxlPoison = s.cxlPoison
  replies : Part.replies ∉ w → t.replies = s.replies
/-- Every core but `c`, every job but `a`, every module but `m`, every position but `c` is as before. -/
def OtherCores (c : CoreId) (s t : State) : Prop := ∀ d, d ≠ c → t.core? d = s.core? d
def OtherJobs (a : Nat) (s t : State) : Prop := ∀ b, b ≠ a → t.job? b = s.job? b
def OtherModules (m : Nat) (s t : State) : Prop := ∀ n, n ≠ m → t.module? n = s.module? n
def OtherPositions (c : CoreId) (s t : State) : Prop := ∀ d, d ≠ c → t.pos d = s.pos d
/-- Nothing changes but core `c`, job `a`, module `m` or position `c`, which is `x` afterwards. -/
def CoreIs (c : CoreId) (x : Core) (s t : State) : Prop := Keeps [.cores] s t ∧ OtherCores c s t ∧ t.core? c = some x
def JobIs (a : Nat) (x : Job) (s t : State) : Prop := Keeps [.jobs] s t ∧ OtherJobs a s t ∧ t.job? a = some x
def ModuleIs (m : Nat) (x : Module) (s t : State) : Prop := Keeps [.modules] s t ∧ OtherModules m s t ∧ t.module? m = some x
def PosIs (c : CoreId) (x : Pos) (s t : State) : Prop := Keeps [.positions] s t ∧ OtherPositions c s t ∧ t.pos c = x
/-- A module but for its event counters (R361). -/
def Module.uncounted (d : Module) : Module := { d with cnt := [] }
/-- Nothing changes but event counters (R361). -/
def OnlyCounts (s t : State) : Prop := Keeps [.modules] s t ∧ ∀ m, (t.module? m).map Module.uncounted = (s.module? m).map Module.uncounted
/-- Every part outside `w` is unchanged, but that data which crosses between the modules of two positions moves event counters (R361). -/
def KeepsButCounts (w : List Part) (a b : CoreId) (s t : State) : Prop :=
  Keeps (.modules :: w) s t ∧ (a / 1024 = b / 1024 → t.modules = s.modules) ∧ ∀ m, (t.module? m).map Module.uncounted = (s.module? m).map Module.uncounted
/-- `exec` answers a next state of which `P` holds. -/
def Does (e : Instr) (s : State) (P : State → Prop) : Prop := ∃ t, exec e s = .next t ∧ P t
/-- Nothing changes but core `c`, job `a`, module `m` or position `c`, and `P` relates what it was to what it becomes. -/
def CoreTo (c : CoreId) (s t : State) (P : Core → Core → Prop) : Prop :=
  ∃ x y, s.core? c = some x ∧ t.core? c = some y ∧ P x y ∧ Keeps [.cores] s t ∧ OtherCores c s t
def JobTo (a : Nat) (s t : State) (P : Job → Job → Prop) : Prop :=
  ∃ x y, s.job? a = some x ∧ t.job? a = some y ∧ P x y ∧ Keeps [.jobs] s t ∧ OtherJobs a s t
def ModuleTo (m : Nat) (s t : State) (P : Module → Module → Prop) : Prop :=
  ∃ x y, s.module? m = some x ∧ t.module? m = some y ∧ P x y ∧ Keeps [.modules] s t ∧ OtherModules m s t
def PosTo (c : CoreId) (s t : State) (P : Pos → Pos → Prop) : Prop := P (s.pos c) (t.pos c) ∧ Keeps [.positions] s t ∧ OtherPositions c s t
/-- The registers of every context are unchanged. -/
def SameRegisters (s t : State) : Prop :=
  ∀ c k, (∀ r, (t.ctxOf c k).getX r = (s.ctxOf c k).getX r) ∧ (∀ r, (t.ctxOf c k).getF r = (s.ctxOf c k).getF r)
    ∧ (∀ r, (t.ctxOf c k).getP r = (s.ctxOf c k).getP r) ∧ (t.ctxOf c k).v = (s.ctxOf c k).v ∧ (t.ctxOf c k).fcsr = (s.ctxOf c k).fcsr
/-- Every byte of local memory is unchanged. -/
def SameMemory (s t : State) : Prop := ∀ a d, t.byteAt a d = s.byteAt a d
/-- The bytes of a location, as a number with the byte at the lowest address lowest (R10). -/
def State.bytesAt (s : State) (asid : Nat) (d : Dest) (n : Nat) : Nat :=
  ((List.range n).map fun i => (s.byteAt asid { d with off := d.off + i }).toNat * 256 ^ i).sum
/-- The byte `d'` of job `a` is one of the `n` bytes stored at `d` of job `asid`. -/
def Stored (asid : Nat) (d : Dest) (n : Nat) (a : Nat) (d' : Dest) : Prop :=
  (d.space = .tcm ∨ a = asid) ∧ sameHome d d' = true ∧ d.off ≤ d'.off ∧ d'.off < d.off + n
/-- The `n` bytes at `d` of job `asid` become `v` and every other byte of local memory is unchanged. -/
def StoresBytes (s t : State) (asid : Nat) (d : Dest) (n v : Nat) : Prop :=
  t.bytesAt asid d n = v % 256 ^ n ∧ ∀ a d', ¬ Stored asid d n a d' → t.byteAt a d' = s.byteAt a d'
/-- The message that a context sends. -/
def Issuer.message (i : Issuer) (uid seq : Nat) (cmd : Option Nat) (kind : MsgKind) : Msg :=
  { src := i.c, ctx := i.k, asid := i.core.asid, uid := uid, seq := seq, cmd := cmd, kind := kind }
/-- No eager write of the issuing context to these bytes is in flight (R292). -/
def NoEagerOver (s : State) (i : Issuer) (d : Dest) (n : Nat) : Prop := ∀ m ∈ s.net, s.eagerOver m i.c i.k d n = false
/-- The issuing context waits for `w`, its registers and pc as they were. -/
def WaitsFor (i : Issuer) (w : Wait) (t : State) : Prop :=
  (t.ctxOf i.c i.k).wait = some w ∧ (t.ctxOf i.c i.k).pc = i.ctx.pc ∧ (t.ctxOf i.c i.k).instret = i.ctx.instret
    ∧ CtxFrame [] i.ctx (t.ctxOf i.c i.k)
/-- The instruction waits and nothing else changes. -/
def OnlyWaits (s : State) (i : Issuer) (w : Wait) (r : Result) : Prop := ∃ t, r = .next t ∧ WaitsFor i w t ∧ OnlyCtx i.c i.k s t
/-- An address of a local form with its space and offset (R102), inside the space, aligned for `n` bytes (R103, R106). -/
def LocalAt (i : Issuer) (a : Word) (n : Nat) (d : Dest) : Prop :=
  d.core = i.c ∧ a.toNat = (match d.space with | .tcm => 0 | .qsp => 1 | .dss => 2) * 2 ^ 60 + d.off ∧ d.off < 2 ^ 36 ∧ d.off % n = 0
    ∧ d.off + n ≤ i.job.limitOf d.space
/-- An address of a mesh form with the position it names (R104): absolute, or relative to the issuer's; rows and columns in range. -/
def MeshAt (i : Issuer) (a : Word) (n : Nat) (d : Dest) : Prop :=
  (addrForm a = 4 ∨ addrForm a = 5 ∧ a.toNat / 2 ^ 50 % 2 ^ 10 = 0) ∧ locate i.c a = some d ∧ a.toNat % n = 0
    ∧ d.off + n ≤ i.job.limitOf d.space

/-- The low 32 bits of an integer, sign-extended (the W forms of R128). -/
def wrapW (v : Int) : Word := BitVec.ofInt 64 (Int.bmod v (2 ^ 32))
/-- A truth value as a register result. -/
def truth (p : Prop) [Decidable p] : Word := if p then 1 else 0
/-- Bit `n` of a result by a rule over positions. -/
def bitwise (f : Nat → Bool) : Word := BitVec.ofNat 64 (((List.range 64).map fun n => if f n then 2 ^ n else 0).sum)

/-- The integer instructions of RV64I and M with the value each writes, over exact integers (R128): register, then value. `low` is the
signed value of a low word, `lowU` its unsigned value. -/
def integerResult (ins : Instr) (k : Ctx) : Option (R5 × Word) :=
  let reg := fun (rd rs1 rs2 : R5) (f : Word → Word → Word) => some (rd, f (k.getX rs1) (k.getX rs2))
  let imm := fun (rd rs1 : R5) (i : BitVec 12) (f : Word → Int → Word) => some (rd, f (k.getX rs1) i.toInt)
  let low : Word → Int := fun a => Int.bmod a.toInt (2 ^ 32)
  let lowU : Word → Nat := fun a => a.toNat % 2 ^ 32
  match ins with
  | .lui rd i => some (rd, BitVec.ofInt 64 (i.toInt * 4096))
  | .auipc rd i => some (rd, BitVec.ofInt 64 (k.pc.toInt + i.toInt * 4096))
  | .addi rd rs1 i => imm rd rs1 i fun a b => BitVec.ofInt 64 (a.toInt + b)
  | .slti rd rs1 i => imm rd rs1 i fun a b => truth (a.toInt < b)
  | .sltiu rd rs1 i => imm rd rs1 i fun a b => truth (a.toNat < (BitVec.ofInt 64 b).toNat)
  | .xori rd rs1 i => imm rd rs1 i fun a b => bitwise fun n => a.getLsbD n != (BitVec.ofInt 64 b).getLsbD n
  | .ori rd rs1 i => imm rd rs1 i fun a b => bitwise fun n => a.getLsbD n || (BitVec.ofInt 64 b).getLsbD n
  | .andi rd rs1 i => imm rd rs1 i fun a b => bitwise fun n => a.getLsbD n && (BitVec.ofInt 64 b).getLsbD n
  | .slli rd rs1 sh => some (rd, BitVec.ofNat 64 ((k.getX rs1).toNat * 2 ^ sh.toNat))
  | .srli rd rs1 sh => some (rd, BitVec.ofNat 64 ((k.getX rs1).toNat / 2 ^ sh.toNat))
  | .srai rd rs1 sh => some (rd, BitVec.ofInt 64 ((k.getX rs1).toInt / 2 ^ sh.toNat))
  | .add rd rs1 rs2 => reg rd rs1 rs2 fun a b => BitVec.ofNat 64 (a.toNat + b.toNat)
  | .sub rd rs1 rs2 => reg rd rs1 rs2 fun a b => BitVec.ofInt 64 (a.toInt - b.toInt)
  | .sll rd rs1 rs2 => reg rd rs1 rs2 fun a b => BitVec.ofNat 64 (a.toNat * 2 ^ (b.toNat % 64))
  | .slt rd rs1 rs2 => reg rd rs1 rs2 fun a b => truth (a.toInt < b.toInt)
  | .sltu rd rs1 rs2 => reg rd rs1 rs2 fun a b => truth (a.toNat < b.toNat)
  | .xor rd rs1 rs2 => reg rd rs1 rs2 fun a b => bitwise fun n => a.getLsbD n != b.getLsbD n
  | .srl rd rs1 rs2 => reg rd rs1 rs2 fun a b => BitVec.ofNat 64 (a.toNat / 2 ^ (b.toNat % 64))
  | .sra rd rs1 rs2 => reg rd rs1 rs2 fun a b => BitVec.ofInt 64 (a.toInt / 2 ^ (b.toNat % 64))
  | .or rd rs1 rs2 => reg rd rs1 rs2 fun a b => bitwise fun n => a.getLsbD n || b.getLsbD n
  | .and rd rs1 rs2 => reg rd rs1 rs2 fun a b => bitwise fun n => a.getLsbD n && b.getLsbD n
  | .addiw rd rs1 i => imm rd rs1 i fun a b => wrapW (a.toInt + b)
  | .slliw rd rs1 sh => some (rd, wrapW (lowU (k.getX rs1) * 2 ^ sh.toNat))
  | .srliw rd rs1 sh => some (rd, wrapW (lowU (k.getX rs1) / 2 ^ sh.toNat))
  | .sraiw rd rs1 sh => some (rd, BitVec.ofInt 64 (low (k.getX rs1) / 2 ^ sh.toNat))
  | .addw rd rs1 rs2 => reg rd rs1 rs2 fun a b => wrapW (low a + low b)
  | .subw rd rs1 rs2 => reg rd rs1 rs2 fun a b => wrapW (low a - low b)
  | .sllw rd rs1 rs2 => reg rd rs1 rs2 fun a b => wrapW (lowU a * 2 ^ (b.toNat % 32))
  | .srlw rd rs1 rs2 => reg rd rs1 rs2 fun a b => wrapW (lowU a / 2 ^ (b.toNat % 32))
  | .sraw rd rs1 rs2 => reg rd rs1 rs2 fun a b => BitVec.ofInt 64 (low a / 2 ^ (b.toNat % 32))
  | .mul rd rs1 rs2 => reg rd rs1 rs2 fun a b => BitVec.ofInt 64 (a.toInt * b.toInt)
  | .mulh rd rs1 rs2 => reg rd rs1 rs2 fun a b => BitVec.ofInt 64 (a.toInt * b.toInt / 2 ^ 64)
  | .mulhsu rd rs1 rs2 => reg rd rs1 rs2 fun a b => BitVec.ofInt 64 (a.toInt * b.toNat / 2 ^ 64)
  | .mulhu rd rs1 rs2 => reg rd rs1 rs2 fun a b => BitVec.ofNat 64 (a.toNat * b.toNat / 2 ^ 64)
  | .div rd rs1 rs2 => reg rd rs1 rs2 fun a b => if b.toInt = 0 then BitVec.ofInt 64 (-1) else BitVec.ofInt 64 (a.toInt.tdiv b.toInt)
  | .divu rd rs1 rs2 => reg rd rs1 rs2 fun a b => if b.toNat = 0 then BitVec.ofInt 64 (-1) else BitVec.ofNat 64 (a.toNat / b.toNat)
  | .rem rd rs1 rs2 => reg rd rs1 rs2 fun a b => if b.toInt = 0 then a else BitVec.ofInt 64 (a.toInt.tmod b.toInt)
  | .remu rd rs1 rs2 => reg rd rs1 rs2 fun a b => if b.toNat = 0 then a else BitVec.ofNat 64 (a.toNat % b.toNat)
  | .mulw rd rs1 rs2 => reg rd rs1 rs2 fun a b => wrapW (low a * low b)
  | .divw rd rs1 rs2 => reg rd rs1 rs2 fun a b => if low b = 0 then BitVec.ofInt 64 (-1) else wrapW ((low a).tdiv (low b))
  | .divuw rd rs1 rs2 => reg rd rs1 rs2 fun a b => if lowU b = 0 then BitVec.ofInt 64 (-1) else wrapW (lowU a / lowU b : Nat)
  | .remw rd rs1 rs2 => reg rd rs1 rs2 fun a b => if low b = 0 then BitVec.ofInt 64 (low a) else wrapW ((low a).tmod (low b))
  | .remuw rd rs1 rs2 => reg rd rs1 rs2 fun a b => if lowU b = 0 then wrapW (lowU a : Nat) else wrapW (lowU a % lowU b : Nat)
  | _ => none

/-- The bit operations of R180 to R182, predicate counts and loop-counter reads with the value each writes (R175, R184). -/
def bitResult (ins : Instr) (k : Ctx) : Option (R5 × Word) :=
  let count := fun (a : Word) => ((List.range 64).filter fun n => a.getLsbD n).length
  match ins with
  | .lut3 rd rs1 rs2 t =>
    some (rd, bitwise fun n => t.getLsbD ((if (k.getX rs1).getLsbD n then 4 else 0) + (if (k.getX rs2).getLsbD n then 2 else 0)
      + (if (k.getX rd).getLsbD n then 1 else 0)))
  | .fshl rd rs1 rs2 rs3 =>
    some (rd, BitVec.ofNat 64 (((k.getX rs1).toNat * 2 ^ 64 + (k.getX rs2).toNat) * 2 ^ ((k.getX rs3).toNat % 64) / 2 ^ 64))
  | .fshr rd rs1 rs2 rs3 =>
    some (rd, BitVec.ofNat 64 (((k.getX rs1).toNat * 2 ^ 64 + (k.getX rs2).toNat) / 2 ^ ((k.getX rs3).toNat % 64)))
  | .popc rd rs1 => some (rd, BitVec.ofNat 64 (count (k.getX rs1)))
  | .clz rd rs1 => some (rd, BitVec.ofNat 64 (((List.range 64).takeWhile fun n => !(k.getX rs1).getLsbD (63 - n)).length))
  | .ctz rd rs1 => some (rd, BitVec.ofNat 64 (((List.range 64).takeWhile fun n => !(k.getX rs1).getLsbD n).length))
  | .pcnt rd p => some (rd, BitVec.ofNat 64 (count (k.getP p)))
  | .lcget rd lc => some (rd, k.getLc lc.toNat)
  | _ => none

/-- What a scalar F instruction writes. -/
inductive FpResult where
  | f (fd : R5) (v : Half32) (flags : BitVec 8)
  | x (rd : R5) (v : Word) (flags : BitVec 8)
/-- The scalar F instructions with a rounding mode: their rm field, and the result in a mode. Each is the exact value rounded once (R45,
R128). -/
def fpRounded (ins : Instr) (k : Ctx) : Option (R3 × (Rm → FpResult)) :=
  let n := fun (r : R5) => fp32.decode (k.getF r).toNat
  let out := fun (fd : R5) (r : Half32 × BitVec 8) => FpResult.f fd r.1 r.2
  let toX := fun (rd : R5) (rm : R3) (lo hi : Int) (r : R5) (w : Int → Word) =>
    some (rm, fun m => FpResult.x rd (w (toIntF m lo hi (k.getF r)).1) (toIntF m lo hi (k.getF r)).2)
  let ofX := fun (fd : R5) (rm : R3) (v : Int) => some (rm, fun m => out fd (roundF m (Num.ofInt v, 0) 0))
  match ins with
  | .fmaddS fd a b c rm => some (rm, fun m => out fd (roundF m (Num.fma m (n a) (n b) (n c)) (snanFlag [k.getF a, k.getF b, k.getF c])))
  | .fmsubS fd a b c rm => some (rm, fun m => out fd (roundF m (Num.fma m (n a) (n b) (n c).neg) (snanFlag [k.getF a, k.getF b, k.getF c])))
  | .fnmsubS fd a b c rm => some (rm, fun m => out fd (roundF m (Num.fma m (n a).neg (n b) (n c)) (snanFlag [k.getF a, k.getF b, k.getF c])))
  | .fnmaddS fd a b c rm => some (rm, fun m => out fd (roundF m (Num.fma m (n a).neg (n b) (n c).neg) (snanFlag [k.getF a, k.getF b, k.getF c])))
  | .faddS fd a b rm => some (rm, fun m => out fd (roundF m (Num.add m (n a) (n b)) (snanFlag [k.getF a, k.getF b])))
  | .fsubS fd a b rm => some (rm, fun m => out fd (roundF m (Num.add m (n a) (n b).neg) (snanFlag [k.getF a, k.getF b])))
  | .fmulS fd a b rm => some (rm, fun m => out fd (roundF m (Num.mul (n a) (n b)) (snanFlag [k.getF a, k.getF b])))
  | .fdivS fd a b rm => some (rm, fun m => out fd (divF m (k.getF a) (k.getF b)))
  | .fsqrtS fd a rm => some (rm, fun m => out fd (sqrtF m (k.getF a)))
  | .fcvtWS rd a rm => toX rd rm (-2147483648) 2147483647 a fun v => BitVec.ofInt 64 v
  | .fcvtWuS rd a rm => toX rd rm 0 4294967295 a wrapW
  | .fcvtLS rd a rm => toX rd rm (-9223372036854775808) 9223372036854775807 a fun v => BitVec.ofInt 64 v
  | .fcvtLuS rd a rm => toX rd rm 0 18446744073709551615 a fun v => BitVec.ofInt 64 v
  | .fcvtSW fd r rm => ofX fd rm (Int.bmod (k.getX r).toInt (2 ^ 32))
  | .fcvtSWu fd r rm => ofX fd rm ((k.getX r).toNat % 2 ^ 32 : Nat)
  | .fcvtSL fd r rm => ofX fd rm (k.getX r).toInt
  | .fcvtSLu fd r rm => ofX fd rm (k.getX r).toNat
  | _ => none
/-- The scalar F instructions that do not round, with their results (R45, R128). -/
def fpExact (ins : Instr) (k : Ctx) : Option FpResult :=
  let mag := fun (r : R5) => (k.getF r).toNat % 2 ^ 31
  let neg := fun (r : R5) => (k.getF r).getLsbD 31
  let put := fun (fd : R5) (m : Nat) (s : Bool) => some (FpResult.f fd (BitVec.ofNat 32 (m + if s then 2 ^ 31 else 0)) 0)
  let cmp := fun (rd a b : R5) (quiet : Bool) (f : Int → Bool) =>
    match Num.cmp (numF (k.getF a)) (numF (k.getF b)) with
    | some c => some (FpResult.x rd (truth (f c = true)) 0)
    | none => some (.x rd 0 (if quiet && !(isSignalling (k.getF a) || isSignalling (k.getF b)) then 0 else ffNV))
  match ins with
  | .fsgnjS fd a b => put fd (mag a) (neg b)
  | .fsgnjnS fd a b => put fd (mag a) (!neg b)
  | .fsgnjxS fd a b => put fd (mag a) (neg a != neg b)
  | .fminS fd a b => some (.f fd (minMaxF false (k.getF a) (k.getF b)).1 (minMaxF false (k.getF a) (k.getF b)).2)
  | .fmaxS fd a b => some (.f fd (minMaxF true (k.getF a) (k.getF b)).1 (minMaxF true (k.getF a) (k.getF b)).2)
  | .feqS rd a b => cmp rd a b true (· == 0)
  | .fltS rd a b => cmp rd a b false (· < 0)
  | .fleS rd a b => cmp rd a b false (· ≤ 0)
  | .fclassS rd a => some (.x rd (classF (k.getF a)) 0)
  | .fmvXW rd a => some (.x rd (BitVec.ofInt 64 (k.getF a).toInt) 0)
  | .fmvWX fd r => some (.f fd (BitVec.ofNat 32 (k.getX r).toNat) 0)
  | _ => none
/-- The result arrives and nothing else changes. -/
def FpWrites (s : State) (i : Issuer) (o : FpResult) (r : Result) : Prop :=
  match o with
  | .f fd v fl => WritesF s i fd v fl r
  | .x rd v fl => WritesXFlags s i rd v fl r

/-- Memory in canonical form wherever the pod keeps host memory or memory of its modules' CXL devices. -/
def State.hostWf (s : State) : Prop := memWf s.host = true ∧ ∀ e ∈ s.cxl, memWf e.2 = true

/-- A run of the machine is safe while it answers a next state: no step of the pod ends in a fault or a refusal. -/
def SafeFor : Nat → State → Prop
  | 0, _ => True
  | n + 1, s => ∃ t, step s = .next t ∧ SafeFor n t

end Sys2Proof.Machine
end

