-- ==== Sys2Proof/WellFormed.lean ====
section
/-! DEFINITION. Which terms of `Instr` the tables admit: listed codes in every sub-field (R138 to R145) and, for the machine's own
steps, operands within the counts of R16, R19, R73 and R242. -/

namespace Sys2Proof

/-- A position of the pod exists in the address forms (R25). -/
def coreOk (c : CoreId) : Bool := c < 1024 * 1024
/-- A module number of the pod (R119). -/
def modOk (m : Nat) : Bool := m < 1024

/-- The term is one the opcode table admits. -/
def Instr.wellFormed : Instr → Bool
  | .fmaddS _ _ _ _ rm | .fmsubS _ _ _ _ rm | .fnmsubS _ _ _ _ rm | .fnmaddS _ _ _ _ rm => rmOk rm
  | .faddS _ _ _ rm | .fsubS _ _ _ rm | .fmulS _ _ _ rm | .fdivS _ _ _ rm => rmOk rm
  | .fsqrtS _ _ rm | .fcvtWS _ _ rm | .fcvtWuS _ _ rm | .fcvtLS _ _ rm | .fcvtLuS _ _ rm => rmOk rm
  | .fcvtSW _ _ rm | .fcvtSWu _ _ rm | .fcvtSL _ _ rm | .fcvtSLu _ _ rm => rmOk rm
  | .reservedEncoding w => (classify w).isOk == false
  | .barv sc _ _ => scOk sc
  | .barw sc _ => scOk sc
  | .baraw sc _ _ _ => scOk sc
  | .fenceS sc ord => ord != 3 && scOk sc
  | .ffence sc _ _ => scOk sc
  | .nget _ _ pk => pk != 0
  | .enq q _ => q < 4
  | .enqp q _ _ => q < 4
  | .deq _ q => q == 4 || q == 5 || q == 6
  | .vshl ty _ _ _ _ | .vshr ty _ _ _ _ | .vsra ty _ _ _ _ => tyInt ty
  | .vrsq ty _ _ _ => tyFp ty
  | .qtail m q _ | .qcfgWrite m q _ | .chead m q _ | .completionWrite m q => modOk m && q < 64
  | .registerWrite m _ _ size _ => modOk m && (size == 4 || size == 8)
  | .handlerEntry c k | .ngetTimeout c k | .barrierRelease c k | .parity c k => coreOk c && k ≤ 10
  | .qfence c q | .signal c q | .commandCompletion c q | .statusEntry c q => coreOk c && q < 4
  | .flitCrcFailure c dir => coreOk c && dir < 4
  | .scrubbing m pa _ => modOk m && pa < 2 ^ 48
  | .hostWrite m off size _ => modOk m && off < 2 ^ 39 && (size == 4 || size == 8)
  | .hostRead m off size => modOk m && off < 2 ^ 39 && (size == 4 || size == 8)
  | _ => true

end Sys2Proof
end

