-- ==== Sys2Proof/Certificates/Slice0/Obligations.lean ====
section
/-! DEFINITION. The statements for the provers, from the numbered rules of spec/. `i` is always the issuing context: its core, its
registers and its job as `s` holds them. -/

open Sys2Proof Sys2Proof.Machine

-- encoding, fetch, reset

/-- Words written out from the encoding tables decode to the instructions they stand for: one or more for each major opcode and each custom
family (R128, R138 to R145). -/
def Obligations.WordsDecode : Prop :=
  decode 0x12345537 = .lui 10 0x12345 ∧ decode 0xFFF50593 = .addi 11 10 0xFFF ∧ decode 0x40C58533 = .sub 10 11 12 ∧
  decode 0x02C5D53B = .divuw 10 11 12 ∧ decode 0xFE000EE3 = .beq 0 0 0xFFE ∧ decode 0x008000EF = .jal 1 4 ∧ decode 0x00053503 = .ld 10 10 0 ∧
  decode 0x00C52427 = .fsw 12 10 8 ∧ decode 0x68C58553 = .reservedEncoding 0x68C58553 ∧ decode 0x00C5F553 = .faddS 10 11 12 7 ∧
  decode 0x80052573 = .csrrs 10 10 0x800 ∧ decode 0x00000073 = .ecall ∧ decode 0x00000000 = .reservedEncoding 0 ∧
  decode 0x0000_700B = .reservedEncoding 0x0000700B ∧ decode 0x00C5_D53B = .srlw 10 11 12 ∧
  decode 0x12345597 = .auipc 11 0x12345 ∧ decode 0x008500E7 = .jalr 1 10 8 ∧ decode 0x00C53823 = .sd 12 10 16 ∧ decode 0x00852507 = .flw 10 10 8 ∧
  decode 0x68C5F543 = .fmaddS 10 11 12 13 7 ∧ decode 0x68C5F547 = .fmsubS 10 11 12 13 7 ∧ decode 0x68C5F54B = .fnmsubS 10 11 12 13 7 ∧
  decode 0x68C5F54F = .fnmaddS 10 11 12 13 7 ∧ decode 0xFFF5851B = .addiw 10 11 0xFFF ∧ decode 0x0330000F = .fence 3 3 ∧
  decode 0x0005A50B = .vclaim 10 11 ∧ decode 0x0000300B = .trapret ∧ decode 0x0000100B = .ssclose 0 0 0 ∧
  decode 0x0130302B = .fenceS 3 2 ∧ decode 0x02C505AB = .rsteD 12 10 (some 3) ∧ decode 0x0005512B = .enq 2 10 ∧
  decode 0x402081DB = .vadd 0 3 1 2 2 ∧ decode 0x400571DB = .vld 3 10 2 ∧
  decode 0x20B5017B = .mxiBf16Qt16 10 11 4 ∧ decode 0x0005D57B = .popc 10 11 ∧ decode 0xD0C5B57B = .lut3 10 11 12 0xE8

/-- Decoding inverts encoding: for every well-formed instruction that has a word, its word decodes to it, so no bit of any field at any value
is dropped (R138). -/
def Obligations.DecodeEncode : Prop := ∀ i : Instr, i.wellFormed = true → hasWord i = true → decode (encode i) = i

/-- Every word decodes to an instruction that the tables admit, and that instruction's encoding is the word: no field of a word is ignored and no
two words stand for one instruction (R137, R138). -/
def Obligations.DecodeIsExact : Prop := ∀ w : Half32, (decode w).wellFormed = true ∧ hasWord (decode w) = true ∧ encode (decode w) = w

/-- The major opcodes that R137 marks ILLEGAL, by bits [6:2] of the word. -/
def illegalMajor : List Nat := [0b00111, 0b01011, 0b01111, 0b10101, 0b10111, 0b11010, 0b11101, 0b11111]
/-- A word with two low bits other than 11, the all-zero word among them, or with a major opcode that R137 marks ILLEGAL is no instruction; a
word that is no instruction traps ILLEGAL and `svtval` carries the word (R137, R325). -/
def ReservedWordsTrapRule : Prop :=
  (∀ w : Half32, w.toNat % 4 ≠ 3 → decode w = .reservedEncoding w) ∧
  (∀ w : Half32, w.toNat / 4 % 32 ∈ illegalMajor → decode w = .reservedEncoding w) ∧
  (∀ (s : State) (i : Issuer) (w : Half32), s.issuer? = some i → i.mayEnter →
    EntersHandler s i 0x01 (BitVec.ofNat 64 w.toNat) (exec (.reservedEncoding w) s))

/-- The state in which core `c` issues: the agenda's turn is taken. -/
def issueState (s : State) (rest : List Turn) : State := { s with agenda := rest }
/-- A step that lets a core issue runs the instruction that the word at the chosen context's pc decodes to, in the state that names the core, the
context and the word; one cycle and then every wait that has been met follow (R37, R38, R132). Two cases: the environment's agenda names the core;
the agenda is empty, no step of the machine's own is due and the core is the next that can issue. That one issue takes a cycle, and that the
agenda goes before the machine's own steps and these before an issue, are the model's choices (log entries 8 and 9). -/
def Obligations.StepRunsDecoded : Prop :=
  ∀ (s s0 : State) (c : CoreId) (core : Core) (j : Job) (k : Nat) (w : Half32) (i : Instr),
    ((∃ rest, s.agenda = .issue c :: rest ∧ s0 = issueState s rest) ∨ (s.agenda = [] ∧ s.due = none ∧ s.issuers.head? = some c ∧ s0 = s)) →
    s0.core? c = some core → s0.job? core.asid = some j → core.chosen = some k → core.lateReady k = none →
    inCodeAt j (core.ctx k).pc = true → j.oldWords c (addrOff (core.ctx k).pc) = [] →
    w.toNat = s0.bytesAt core.asid { core := c, space := .dss, off := addrOff (core.ctx k).pc } 4 → decode w = i →
    step s = after 1 (exec i (s0.begin c k w)) ∧
      (s0.begin c k w).cur = (c, k) ∧ (s0.begin c k w).ir = w ∧ Keeps [.cores] s0 (s0.begin c k w) ∧ OtherCores c s0 (s0.begin c k w)

/-- A fetch outside every CODE section of the job runs nothing: the context traps BOUNDS with `svtval` and `svepc` its pc (R132). -/
def FetchOutsideCodeRule : Prop :=
  ∀ (s : State) (rest : List Turn) (c : CoreId) (core : Core) (j : Job) (k : Nat),
    s.agenda = .issue c :: rest → s.core? c = some core → s.job? core.asid = some j → core.chosen = some k →
    core.lateReady k = none → j.inCode (addrOff (core.ctx k).pc) 1 = false →
    (core.ctx k).level = .job → j.handler ≠ 0 → core.serviceTaken = false →
    ∃ t, step s = .next (t.tick 1).settle ∧ (t.pos c).svcause = BitVec.ofNat 64 (k * 2 ^ 40 + 0x04) ∧ (t.pos c).svepc = (core.ctx k).pc
      ∧ (t.pos c).svtval = (core.ctx k).pc ∧ (t.ctxOf c k).pc = j.handler ∧ (t.ctxOf c k).level = .service
      ∧ Keeps [.cores, .positions] s t ∧ OtherCores c s t

/-- The context that a core issues from is ready and is the first ready one after the context that issued last, wrapping from 10 to 0; a ready
context means that some context issues (R37). A context that has yielded gives way to every other (R173). -/
def Obligations.RoundRobin : Prop :=
  ∀ core : Core, core.active = true → core.lastIssued ≤ 10 →
    (∀ m, core.chosen = some m → m ≤ 10 ∧ (core.ctx m).mayIssue = true ∧
      ∀ n, n ≤ 10 → (core.ctx n).mayIssue = true → (core.ctx n).wait = none →
        (core.ctx m).wait = none ∧ (m + 10 - core.lastIssued) % 11 ≤ (n + 10 - core.lastIssued) % 11) ∧
    ((∃ n, n ≤ 10 ∧ (core.ctx n).mayIssue = true) → core.chosen.isSome = true)

/-- What reset leaves: no job is placed, nothing is in flight, JHEAD is 1, every queue has QEXP 1 and is disabled, the power
limit is 0x0AF0, every position is on its own slot and not fenced, `hbperiod` is 0x40330400, `svcause`, `svepc` and `svscratch` are 0
(R73, R327, R343, R366, R368). That a context that no job has started reads as idle at job level with every register zero and no grant is the
model's choice (log entry 1), and so is that unwritten memory reads as zero (log entry 2). -/
def Obligations.ResetLeaves : Prop :=
  State.reset.jobs = [] ∧ State.reset.cores = [] ∧ State.reset.net = [] ∧
  (∀ m d, State.reset.module? m = some d → d.jhead = 1 ∧ d.pwrlim = 0x0AF0 ∧ d.ready = false ∧ d.jmen = false ∧ d.hostord = false
    ∧ d.accerr = false ∧ d.orderr = false ∧ d.jmerr = false ∧ d.freeze = false ∧ d.lost = 0 ∧ d.leases = [] ∧ d.poison = []
    ∧ ∀ q, (d.queue q).qexp = 1 ∧ (d.queue q).enabled = false) ∧
  (∀ c, (State.reset.patch c).fenced = false ∧ (State.reset.patch c).perm = false ∧ (State.reset.patch c).slot = coreSlot c) ∧
  (∀ c, (State.reset.pos c).hbperiod = 0x40330400 ∧ (State.reset.pos c).svcause = 0 ∧ (State.reset.pos c).svepc = 0
    ∧ (State.reset.pos c).svscratch = 0 ∧ (State.reset.pos c).cpsel = 0) ∧
  (∀ c k r q, (State.reset.ctxOf c k).getX r = 0 ∧ (State.reset.ctxOf c k).getF r = 0 ∧ (State.reset.ctxOf c k).live = false
    ∧ (State.reset.ctxOf c k).level = .job ∧ (State.reset.ctxOf c k).grant = 0 ∧ ((State.reset.ctxOf c k).getP q = if q = 0 then BitVec.allOnes 64 else 0)) ∧
  (∀ a d, State.reset.byteAt a d = 0) ∧ State.reset.hostWf

-- traps (R321 to R328)

/-- The issuing core has recorded an abort condition with a cause: it votes to abort, every wait of it ends and it issues no more in the attempt;
no register and no memory changes and no other core does (R331). -/
def AbortsAttempt (s : State) (i : Issuer) (cause : Nat) (r : Result) : Prop :=
  ∃ t core', r = .next t ∧ t.core? i.c = some core' ∧ core'.abort = some (i.core.abort.getD cause) ∧ core'.phase = .voted ∧ core'.stopped = true
    ∧ core'.active = false ∧ (∀ k, (core'.ctx k).wait = none) ∧ (t.ctxOf i.c i.k).pc = i.ctx.pc ∧ (t.ctxOf i.c i.k).level = i.ctx.level
    ∧ (∃ u, t.net = s.net ++ [{ src := i.c, ctx := 0, asid := i.core.asid, uid := u, seq := 0, cmd := none
                                kind := .vote { index := i.core.index, abort := true, cause := cause, op := 0, val := 0 } i.core.ssn }])
    ∧ OtherCores i.c s t ∧ SameRegisters s t ∧ SameMemory s t ∧ Keeps [.cores, .net, .modules, .positions] s t
/-- A trap that has to wait for the handler: the context is not ready until it enters. -/
def WaitsForHandler (s : State) (i : Issuer) (cause : Nat) (tval : Word) (r : Result) : Prop :=
  ∃ t, r = .next t ∧ (t.ctxOf i.c i.k).mayIssue = false ∧ (t.ctxOf i.c i.k).pc = i.ctx.pc ∧ (t.ctxOf i.c i.k).level = .job
    ∧ (t.ctxOf i.c i.k).entry = some { cause := cause, seq := none, late := false, orphan := false, reason := 0, ctx := i.k, epc := i.ctx.pc, tval := tval }
    ∧ (t.pos i.c).svcause = (s.pos i.c).svcause ∧ OtherCores i.c s t ∧ SameRegisters s t ∧ SameMemory s t ∧ Keeps [.cores, .positions] s t
/-- Every precise trap is one operation with the dispositions of R322: the handler entry of R325; the wait for it while another context of the
core is at service level or waits to enter (R326); an abort condition with the trap's cause where HANDLER is 0, the context is at service level or
the cause is POISON, whose class is Abort; at firmware level the firmware's own handler. -/
def TrapDispositionRule : Prop :=
  ∀ (s : State) (i : Issuer) (cause : Nat) (tval : Word), s.issuer? = some i → i.k ≤ 10 → cause < 256 →
    (i.mayEnter → cause ≠ 0x0A → EntersHandler s i cause tval (.next (s.trapI i cause tval))) ∧
    (i.ctx.level = .job → i.job.handler ≠ 0 → i.core.serviceTaken = true → cause ≠ 0x0A → WaitsForHandler s i cause tval (.next (s.trapI i cause tval))) ∧
    (i.core.active = true → i.ctx.level = .service ∨ i.ctx.level = .job ∧ (i.job.handler = 0 ∨ cause = 0x0A) →
      AbortsAttempt s i cause (.next (s.trapI i cause tval))) ∧
    (i.ctx.level = .firmware → ((s.trapI i cause tval).ctxOf i.c i.k).fwEpc = i.ctx.pc ∧
      ((s.trapI i cause tval).ctxOf i.c i.k).pc = Config.firmwareHandler ∧ SameRegisters s (s.trapI i cause tval) ∧ SameMemory s (s.trapI i cause tval)) ∧
    s.trapW i cause = s.trapI i cause (s.ir.setWidth 64)

/-- ECALL traps ECALL (0x12) and EBREAK traps EBREAK (0x13): both are precise, with `svepc` at the instruction and `svtval` 0; with no handler
they are abort conditions (R128, R322, R325). -/
def SoftwareTrapsRule : Prop :=
  ∀ (s : State) (i : Issuer) (ins : Instr) (cause : Nat), s.issuer? = some i → (ins, cause) ∈ [(Instr.ecall, 0x12), (.ebreak, 0x13)] → i.k ≤ 10 →
    (i.mayEnter → EntersHandler s i cause 0 (exec ins s)) ∧
    (i.core.active = true → i.ctx.level = .job → i.job.handler = 0 → AbortsAttempt s i cause (exec ins s)) ∧
    exec ins s = .next (s.trapI i cause 0)

/-- TRAPRET at service level, with `svepc` a legal target, returns to job level at `svepc` and resets `svcause`; the registers, the other service
CSRs and memory are as before (R177, R328). At firmware level it returns to where the firmware's handler was entered. -/
def Obligations.TrapReturn : Prop :=
  (∀ (s : State) (i : Issuer), s.issuer? = some i → i.ctx.level = .service → branchCause i.job (s.pos i.c).svepc = none →
    ∃ t, exec .trapret s = .next t ∧ (t.ctxOf i.c i.k).pc = (s.pos i.c).svepc ∧ (t.ctxOf i.c i.k).level = .job
      ∧ (t.ctxOf i.c i.k).instret = i.ctx.instret + 1 ∧ (t.pos i.c) = { s.pos i.c with svcause := 0 } ∧ OtherPositions i.c s t
      ∧ OtherCores i.c s t ∧ (∀ n, n ≠ i.k → t.ctxOf i.c n = s.ctxOf i.c n) ∧ SameRegisters s t ∧ SameMemory s t ∧ Keeps [.cores, .positions] s t) ∧
  (∀ (s : State) (i : Issuer), s.issuer? = some i → i.ctx.level = .firmware →
    ∃ t, exec .trapret s = .next t ∧ (t.ctxOf i.c i.k).pc = i.ctx.fwEpc ∧ OnlyCtx i.c i.k s t ∧ SameRegisters s t) ∧
  (∀ (s : State) (i : Issuer) (cause : Nat), s.issuer? = some i → i.ctx.level = .service → branchCause i.job (s.pos i.c).svepc = some cause →
    exec .trapret s = .next (s.trapI i cause (s.pos i.c).svepc))

/-- At job level TRAPRET, every service CSR and every firmware CSR trap PRIV and change nothing but what the trap changes; an instruction that
does no more than the write of `svact` or the read of `trread` does the same (R130, R177). -/
def PrivilegedTrapsRule : Prop :=
  ∀ (s : State) (i : Issuer), s.issuer? = some i →
    (i.ctx.level = .job → ∀ ins : Instr, (ins = .trapret ∨ (∃ v, ins = .svactFault v) ∨ (∃ v, ins = .svactAbort v) ∨ (∃ v, ins = .svactClear v)
        ∨ ∃ rd, ins = .trread rd) → exec ins s = .next (s.trapI i 0x15 (s.ir.setWidth 64))) ∧
    (∀ (rd rs : R5) (csr : BitVec 12) (ins : Instr),
      ins ∈ [Instr.csrrw rd rs csr, .csrrs rd rs csr, .csrrc rd rs csr, .csrrwi rd rs csr, .csrrsi rd rs csr, .csrrci rd rs csr] →
      (i.ctx.level = .job ∧ 0x5C0 ≤ csr.toNat ∧ csr.toNat ≤ 0x5C7 ∨ i.ctx.level ≠ .firmware ∧ 0x7C0 ≤ csr.toNat ∧ csr.toNat ≤ 0x7FF) →
      exec ins s = .next (s.trapI i 0x15 (s.ir.setWidth 64)))

-- integer instructions, bits, control transfer

/-- The integer and multiply-divide instructions LUI, AUIPC, ADDI, SLTI, SLTIU, XORI, ORI, ANDI, SLLI, SRLI, SRAI, ADD, SUB, SLL, SLT, SLTU, XOR,
SRL, SRA, OR, AND, ADDIW, SLLIW, SRLIW, SRAIW, ADDW, SUBW, SLLW, SRLW, SRAW, MUL, MULH, MULHSU, MULHU, DIV, DIVU, REM, REMU, MULW, DIVW, DIVUW,
REMW and REMUW complete for all operands with the value of `integerResult` in rd, nothing in x0, and change nothing else but the pc and
`instret` (R127, R128, R131). -/
def IntegerResultsRule : Prop :=
  ∀ (s : State) (i : Issuer) (ins : Instr) (rd : R5) (v : Word), s.issuer? = some i → integerResult ins i.ctx = some (rd, v) →
    WritesX s i rd v (exec ins s)

/-- LUT3, FSHL, FSHR, POPC, CLZ, CTZ, PCNT and LCGET complete for all operands with the value of `bitResult` in rd and change nothing else: the
truth table bit by bit, the funnel shifts by x[rs3][5:0], the bit counts over 64 bits (R175, R180 to R182, R184). -/
def BitResultsRule : Prop :=
  ∀ (s : State) (i : Issuer) (ins : Instr) (rd : R5) (v : Word), s.issuer? = some i → bitResult ins i.ctx = some (rd, v) →
    WritesX s i rd v (exec ins s)

/-- A jump or taken branch to `target`: `x[rd]` gets the address of the next instruction, the pc is the target, nothing else changes but the
trace of the branch. -/
def JumpsTo (s : State) (i : Issuer) (rd : R5) (target : Word) (r : Result) : Prop :=
  ∃ t, r = .next t ∧ (t.ctxOf i.c i.k).pc = target ∧ (t.ctxOf i.c i.k).wait = none ∧ (t.ctxOf i.c i.k).instret = i.ctx.instret + 1
    ∧ (t.ctxOf i.c i.k).getX rd = (if rd = 0 then 0 else i.ctx.pc + 4) ∧ RegistersOnly i [.x rd] (s.recordBranch i.c i.k target) t
/-- The target of a control transfer is a multiple of 4, of form 0x2 with no reserved bit, and in a CODE section of the job. -/
def GoodTarget (j : Job) (a : Word) : Prop :=
  a.toNat % 4 = 0 ∧ a.toNat / 2 ^ 36 = 2 * 2 ^ 24 ∧ ∃ r ∈ j.codes, r.1 ≤ a.toNat % 2 ^ 36 ∧ a.toNat % 2 ^ 36 < r.1 + r.2
/-- A bad target traps before the pc or rd changes: not a multiple of 4 ALIGN, then another form or a reserved bit FORM, then outside every CODE
section BOUNDS; the trap carries the target. -/
def TargetTraps (s : State) (i : Issuer) (a : Word) (r : Result) : Prop :=
  (a.toNat % 4 ≠ 0 → r = .next (s.trapI i 0x02 a)) ∧
  (a.toNat % 4 = 0 → a.toNat / 2 ^ 36 ≠ 2 * 2 ^ 24 → r = .next (s.trapI i 0x03 a)) ∧
  (a.toNat % 4 = 0 → a.toNat / 2 ^ 36 = 2 * 2 ^ 24 → (∀ c ∈ i.job.codes, ¬ (c.1 ≤ a.toNat % 2 ^ 36 ∧ a.toNat % 2 ^ 36 < c.1 + c.2)) →
    r = .next (s.trapI i 0x04 a))
/-- JAL and JALR write the address of the next instruction and go to their target; JALR adds its signed immediate to x[rs1], read before rd is
written, and clears bit 0. A bad target traps ALIGN, FORM or BOUNDS in this order and neither pc nor rd changes (R128, R132). -/
def JumpsRule : Prop :=
  ∀ (s : State) (i : Issuer) (ins : Instr) (rd : R5) (a : Word), s.issuer? = some i →
    ((∃ imm, ins = .jal rd imm ∧ a = BitVec.ofInt 64 (i.ctx.pc.toInt + 2 * imm.toInt)) ∨
     (∃ rs1 imm, ins = .jalr rd rs1 imm ∧ a.toNat = (BitVec.ofInt 64 ((i.ctx.getX rs1).toInt + imm.toInt)).toNat / 2 * 2)) →
    (GoodTarget i.job a → JumpsTo s i rd a (exec ins s)) ∧ TargetTraps s i a (exec ins s)

/-- The condition of a branch over exact integers. -/
def branchTaken (ins : Instr) (k : Ctx) : Option (BitVec 12 × Bool) :=
  match ins with
  | .beq a b imm => some (imm, (k.getX a).toNat == (k.getX b).toNat)
  | .bne a b imm => some (imm, (k.getX a).toNat != (k.getX b).toNat)
  | .blt a b imm => some (imm, decide ((k.getX a).toInt < (k.getX b).toInt))
  | .bge a b imm => some (imm, decide ((k.getX b).toInt ≤ (k.getX a).toInt))
  | .bltu a b imm => some (imm, decide ((k.getX a).toNat < (k.getX b).toNat))
  | .bgeu a b imm => some (imm, decide ((k.getX b).toNat ≤ (k.getX a).toNat))
  | _ => none
/-- BEQ, BNE, BLT, BGE, BLTU and BGEU: taken, they go to the pc plus twice the signed immediate, which is checked as in R132; not taken, they
complete at the next instruction and check nothing. They write no register (R128, R132). -/
def BranchesRule : Prop :=
  ∀ (s : State) (i : Issuer) (ins : Instr) (imm : BitVec 12) (taken : Bool), s.issuer? = some i → branchTaken ins i.ctx = some (imm, taken) →
    (taken = false → OnlyAdvances s i (exec ins s)) ∧
    (taken = true → (GoodTarget i.job (BitVec.ofInt 64 (i.ctx.pc.toInt + 2 * imm.toInt)) →
        JumpsTo s i 0 (BitVec.ofInt 64 (i.ctx.pc.toInt + 2 * imm.toInt)) (exec ins s)) ∧
      TargetTraps s i (BitVec.ofInt 64 (i.ctx.pc.toInt + 2 * imm.toInt)) (exec ins s))

-- base loads and stores

/-- A base load: rd or fd, rs1, immediate, bytes, sign extension, f register. -/
def loadForm : Instr → Option (R5 × R5 × BitVec 12 × Nat × Bool × Bool)
  | .lb rd rs1 imm => some (rd, rs1, imm, 1, true, false)
  | .lh rd rs1 imm => some (rd, rs1, imm, 2, true, false)
  | .lw rd rs1 imm => some (rd, rs1, imm, 4, true, false)
  | .ld rd rs1 imm => some (rd, rs1, imm, 8, false, false)
  | .lbu rd rs1 imm => some (rd, rs1, imm, 1, false, false)
  | .lhu rd rs1 imm => some (rd, rs1, imm, 2, false, false)
  | .lwu rd rs1 imm => some (rd, rs1, imm, 4, false, false)
  | .flw fd rs1 imm => some (fd, rs1, imm, 4, false, true)
  | _ => none
/-- A base store: rs1, immediate, bytes, the value. -/
def storeForm (k : Ctx) : Instr → Option (R5 × BitVec 12 × Nat × Nat)
  | .sb rs2 rs1 imm => some (rs1, imm, 1, (k.getX rs2).toNat)
  | .sh rs2 rs1 imm => some (rs1, imm, 2, (k.getX rs2).toNat)
  | .sw rs2 rs1 imm => some (rs1, imm, 4, (k.getX rs2).toNat)
  | .sd rs2 rs1 imm => some (rs1, imm, 8, (k.getX rs2).toNat)
  | .fsw fs2 rs1 imm => some (rs1, imm, 4, (k.getF fs2).toNat)
  | _ => none
/-- The address of a base load or store. -/
def baseAddr (k : Ctx) (rs1 : R5) (imm : BitVec 12) : Word := BitVec.ofInt 64 ((k.getX rs1).toInt + imm.toInt)
/-- A number of 8n bits as the x register gets it. -/
def extended (n v : Nat) (signed : Bool) : Word := if signed then BitVec.ofInt 64 (Int.bmod v (2 ^ (8 * n))) else BitVec.ofNat 64 v
/-- The instruction takes POISON, an abort condition, and the page is kept (R106, R123, R322, R336). -/
def MeetsPoison (s : State) (i : Issuer) (pa : Nat) (r : Result) : Prop :=
  i.ctx.level ≠ .firmware → i.core.active = true → AbortsAttempt s i 0x0A r ∧
    ∃ t core', r = .next t ∧ t.core? i.c = some core' ∧ core'.poisonMet = some (pa / 4096 * 4096)
/-- What instructions that read `n` bytes at `d` do: `P`, or they meet poison where the bytes are spilled to a poisoned page (R20, R123). -/
def Reads (s : State) (i : Issuer) (d : Dest) (n : Nat) (l : List Instr) (P : Prop) : Prop :=
  match s.spillPoison i.core.asid d n with
  | none => P
  | some pa => ∀ e ∈ l, MeetsPoison s i pa (exec e s)
/-- A core has recorded POISON as an abort condition: it has voted, every wait of it has ended, the page is kept, and no register and no memory has changed
(R331, R336). -/
def PoisonStops (s : State) (c : CoreId) (core : Core) (pa : Nat) (t : State) : Prop :=
  ∃ core', t.core? c = some core' ∧ core'.abort = some (core.abort.getD 0x0A) ∧ core'.phase = .voted ∧ core'.stopped = true ∧
    (∀ k, (core'.ctx k).wait = none) ∧ core'.poisonMet = some (pa / 4096 * 4096) ∧ SameRegisters s t ∧ SameMemory s t
/-- LB, LH, LW, LD, LBU, LHU, LWU and FLW by a local form complete with the little-endian bytes at their home, extended as the base ISA says, in rd or
fd; no memory and no other register changes (R10, R128, R240). The context has no eager write of its own to these bytes in flight. Where the
bytes are spilled to a poisoned page, the load takes POISON, an abort condition, and the page is kept (R106, R322, R336). -/
def Obligations.LocalLoads : Prop :=
  ∀ (s : State) (i : Issuer) (ins : Instr) (rd rs1 : R5) (imm : BitVec 12) (n : Nat) (signed float : Bool) (d : Dest), s.issuer? = some i →
    loadForm ins = some (rd, rs1, imm, n, signed, float) → LocalAt i (baseAddr i.ctx rs1 imm) n d → NoEagerOver s i d n →
    let s0 := s.recordMem i.c i.k false (baseAddr i.ctx rs1 imm)
    Reads s i d n [ins]
      ((float = false → WritesX s0 i rd (extended n (s.bytesAt i.core.asid d n) signed) (exec ins s)) ∧
      (float = true → WritesF s0 i rd (BitVec.ofNat 32 (s.bytesAt i.core.asid d n)) 0 (exec ins s)))

/-- The instruction sends one message of the context and waits; nothing else changes. -/
def SendsAndWaits (s : State) (i : Issuer) (w : Wait) (kind : MsgKind) (r : Result) : Prop :=
  ∃ t, r = .next t ∧ t.net = s.net ++ [i.message s.tickets 0 none kind] ∧ WaitsFor i w t ∧ Keeps [.cores, .net] s t ∧ OtherCores i.c s t
    ∧ t.core? i.c = (s.core? i.c).map fun x => x.setCtx i.k (t.ctxOf i.c i.k)
/-- A base load by a mesh form goes to the position its address names as a request and the context waits for the answer (R103 to R105). The
request is served at its home, where the position belongs to the job, with the bytes there; the answer completes the load, in rd or fd, a returned request
traps RETURNED with the address, precisely, and the answer that the bytes are spilled to a poisoned page is an abort condition with POISON (R106). -/
def Obligations.MeshLoads : Prop :=
  (∀ (s : State) (i : Issuer) (ins : Instr) (rd rs1 : R5) (imm : BitVec 12) (n : Nat) (signed float : Bool) (d : Dest), s.issuer? = some i →
    loadForm ins = some (rd, rs1, imm, n, signed, float) → MeshAt i (baseAddr i.ctx rs1 imm) n d →
    SendsAndWaits (s.recordMem i.c i.k false (baseAddr i.ctx rs1 imm)) i (.load (baseAddr i.ctx rs1 imm) rd n signed float)
      (.loadReq d n (baseAddr i.ctx rs1 imm)) (exec ins s)) ∧
  (∀ (s : State) (p : Nat) (m : Msg) (d t : Dest) (n : Nat) (a : Word), s.net[p]? = some m → m.kind = .loadReq d n a →
    s.overtaken p m d n = false → s.target m.asid d = some t → s.silentHome t = false →
    ∃ u, exec (.remoteRequestArrival p) s = .next u ∧ u.net = s.net.eraseIdx p ++ [{ m with home := some (s.forwarded m.asid d.core), kind := match s.spillPoison m.asid t n with
        | none => .response (s.bytesAt m.asid t n)
        | some pa => .poisoned pa }] ∧
      KeepsButCounts [.net] m.src d.core s u) ∧
  (∀ (s : State) (p : Nat) (m : Msg) (core : Core) (pa n : Nat) (a : Word) (rd : R5) (signed float : Bool), s.net[p]? = some m → m.kind = .poisoned pa →
    s.core? m.src = some core → (core.ctx m.ctx).wait = some (.load a rd n signed float) → (core.ctx m.ctx).level ≠ .firmware → core.active = true →
    Does (.responseArrival p) s (PoisonStops s m.src core pa)) ∧
  (∀ (s : State) (p : Nat) (m : Msg) (d : Dest) (n : Nat) (a : Word), s.net[p]? = some m → m.kind = .loadReq d n a →
    s.overtaken p m d n = false → s.target m.asid d = none →
    ∃ u, exec (.remoteRequestArrival p) s = .next u ∧ u.net = s.net.eraseIdx p ++ [{ m with kind := .returned true a, home := some (s.forwarded m.asid d.core) }] ∧ KeepsButCounts [.net] m.src d.core s u) ∧
  (∀ (s : State) (p : Nat) (m : Msg) (core : Core) (v n : Nat) (a : Word) (rd : R5) (signed : Bool), s.net[p]? = some m → m.kind = .response v →
    s.core? m.src = some core → (core.ctx m.ctx).wait = some (.load a rd n signed false) → v < 256 ^ n → n = 1 ∨ n = 2 ∨ n = 4 ∨ n = 8 →
    ∃ u, exec (.responseArrival p) s = .next u ∧ (u.ctxOf m.src m.ctx).getX rd = (if rd = 0 then 0 else extended n v signed) ∧
      (u.ctxOf m.src m.ctx).pc = (core.ctx m.ctx).pc + 4 ∧ (u.ctxOf m.src m.ctx).wait = none ∧ u.net = s.net.eraseIdx p ∧
      CtxFrame [.x rd] (core.ctx m.ctx) (u.ctxOf m.src m.ctx) ∧ SameMemory s u ∧ OtherCores m.src s u) ∧
  (∀ (s : State) (p : Nat) (m : Msg) (core : Core) (v : Nat) (a : Word) (fd : R5) (signed : Bool), s.net[p]? = some m → m.kind = .response v →
    s.core? m.src = some core → (core.ctx m.ctx).wait = some (.load a fd 4 signed true) →
    ∃ u, exec (.responseArrival p) s = .next u ∧ (u.ctxOf m.src m.ctx).getF fd = BitVec.ofNat 32 v ∧
      (u.ctxOf m.src m.ctx).pc = (core.ctx m.ctx).pc + 4 ∧ (u.ctxOf m.src m.ctx).wait = none ∧ u.net = s.net.eraseIdx p ∧
      CtxFrame [.f fd] (core.ctx m.ctx) (u.ctxOf m.src m.ctx) ∧ SameMemory s u ∧ OtherCores m.src s u) ∧
  (∀ (s : State) (p : Nat) (m : Msg) (core : Core) (n : Nat) (a a' : Word) (rd : R5) (signed float : Bool), s.net[p]? = some m → m.kind = .returned true a →
    s.core? m.src = some core → (core.ctx m.ctx).wait = some (.load a' rd n signed float) → (core.ctx m.ctx).level = .job →
    core.serviceTaken = false → (∃ j, s.job? core.asid = some j ∧ j.handler ≠ 0) → m.ctx ≤ 10 →
    ∃ u, exec (.returned p) s = .next u ∧ (u.pos m.src).svcause = BitVec.ofNat 64 (m.ctx * 2 ^ 40 + 0x0D) ∧ (u.pos m.src).svtval = a ∧
      (u.pos m.src).svepc = (core.ctx m.ctx).pc ∧ (u.ctxOf m.src m.ctx).wait = none ∧ u.net = s.net.eraseIdx p ∧ SameRegisters s u ∧ SameMemory s u)

/-- The store may touch these bytes: not the placement map, and below service level no CODE range (R97, R106, R326). -/
def MayStore (i : Issuer) (d : Dest) (n : Nat) : Prop :=
  d.space = .dss → d.off + n ≤ i.job.limit ∧ (i.ctx.level = .job → ∀ r ∈ i.job.codes, d.off + n ≤ r.1 ∨ r.1 + r.2 ≤ d.off)
/-- SB, SH, SW, SD and FSW to the own TCM or quad scratchpad by a local form: the low bytes of the register are stored at once at the address, every
other byte of memory and every register is as before (R10, R128, R239). -/
def ImmediateStoresRule : Prop :=
  ∀ (s : State) (i : Issuer) (ins : Instr) (rs1 : R5) (imm : BitVec 12) (n v : Nat) (d : Dest), s.issuer? = some i →
    storeForm i.ctx ins = some (rs1, imm, n, v) → LocalAt i (baseAddr i.ctx rs1 imm) n d → d.space ≠ .dss → NoEagerOver s i d n →
    ∃ t, exec ins s = .next t ∧ Completed i t ∧ CtxFrame [] i.ctx (t.ctxOf i.c i.k) ∧ StoresBytes s t i.core.asid d n v ∧
      Keeps [.cores, .jobs] (s.recordMem i.c i.k true (baseAddr i.ctx rs1 imm)) t ∧ OtherCores i.c s t ∧ OtherJobs i.core.asid s t ∧
      (∀ k, k ≠ i.k → t.ctxOf i.c k = s.ctxOf i.c k) ∧ (t.core? i.c).map Core.deferred = some i.core.deferred ∧
      (t.core? i.c).map Core.ac = some i.core.ac
/-- A base store to die shared SRAM or by a mesh form changes no memory in the superstep: it is added to the core's deferred writes, and by a mesh
form a check of membership travels to the position (R105, R239). -/
def DeferredStoresRule : Prop :=
  ∀ (s : State) (i : Issuer) (ins : Instr) (rs1 : R5) (imm : BitVec 12) (n v : Nat) (d : Dest) (mesh : Bool), s.issuer? = some i →
    storeForm i.ctx ins = some (rs1, imm, n, v) → (mesh = true ∧ MeshAt i (baseAddr i.ctx rs1 imm) n d) ∨
      (mesh = false ∧ LocalAt i (baseAddr i.ctx rs1 imm) n d ∧ d.space = .dss) → MayStore i d n →
    ∃ t core', exec ins s = .next t ∧ Completed i t ∧ CtxFrame [] i.ctx (t.ctxOf i.c i.k) ∧ SameMemory s t ∧ t.core? i.c = some core' ∧
      core'.deferred = i.core.deferred ++ [{ dest := d, op := .write n (v % 256 ^ n) }] ∧
      t.net = s.net ++ (if mesh then [i.message s.tickets 0 none (.check d (baseAddr i.ctx rs1 imm))] else []) ∧
      Keeps [.cores, .net] (s.recordMem i.c i.k true (baseAddr i.ctx rs1 imm)) t ∧ OtherCores i.c s t ∧
      (∀ k, k ≠ i.k → t.ctxOf i.c k = s.ctxOf i.c k) ∧ core'.eager = i.core.eager ∧ core'.q = i.core.q

/-- An access to memory from a register address: address, alignment, bytes, whether it writes. -/
def accessForm (k : Ctx) (ins : Instr) : Option (Word × Nat × Nat × Bool) :=
  match ins with
  | .lb _ rs1 imm | .lbu _ rs1 imm => some (baseAddr k rs1 imm, 1, 1, false)
  | .lh _ rs1 imm | .lhu _ rs1 imm => some (baseAddr k rs1 imm, 2, 2, false)
  | .lw _ rs1 imm | .lwu _ rs1 imm | .flw _ rs1 imm => some (baseAddr k rs1 imm, 4, 4, false)
  | .ld _ rs1 imm => some (baseAddr k rs1 imm, 8, 8, false)
  | .sb _ rs1 imm => some (baseAddr k rs1 imm, 1, 1, true)
  | .sh _ rs1 imm => some (baseAddr k rs1 imm, 2, 2, true)
  | .sw _ rs1 imm | .fsw _ rs1 imm => some (baseAddr k rs1 imm, 4, 4, true)
  | .sd _ rs1 imm => some (baseAddr k rs1 imm, 8, 8, true)
  | .rsteW _ rs1 _ | .rredAddW _ rs1 => some (k.getX rs1, 4, 4, true)
  | .rsteD _ rs1 _ | .rredAddD _ rs1 | .rredMin _ rs1 | .rredMax _ rs1 | .rredOr _ rs1 => some (k.getX rs1, 8, 8, true)
  | .rredFadd _ rs1 => some (k.getX rs1, 16, 48, true)
  | .rfaa _ _ rs1 | .rcas _ _ _ rs1 | .rswp _ _ rs1 | .rfaao _ _ _ rs1 | .ffence _ _ rs1 => some (k.getX rs1, 8, 8, true)
  | _ => none
/-- The address has a form of R102 that a base access takes, with no reserved bit set. -/
def BaseForm (a : Word) : Prop :=
  (a.toNat / 2 ^ 60 ≤ 2 ∧ a.toNat / 2 ^ 36 % 2 ^ 24 = 0) ∨ a.toNat / 2 ^ 60 = 4 ∨ (a.toNat / 2 ^ 60 = 5 ∧ a.toNat / 2 ^ 50 % 2 ^ 10 = 0)
/-- Base loads and stores, eager stores, reduce-deltas, atomics and FFENCE check their address in this order: another form or a reserved bit traps
FORM; an address that is not a multiple of the width traps ALIGN; a row, column or space that is not there, bytes beyond the limit of the space, a
store to the placement map or, at job level, to CODE traps BOUNDS. The trap carries the address and nothing has changed (R102, R106, R249, R299,
R300, R302). -/
def Obligations.AccessTraps : Prop :=
  ∀ (s : State) (i : Issuer) (ins : Instr) (a : Word) (al n : Nat) (store : Bool), s.issuer? = some i →
    accessForm i.ctx ins = some (a, al, n, store) →
    (¬ BaseForm a → exec ins s = .next (s.trapI i 0x03 a)) ∧
    (BaseForm a → a.toNat % al ≠ 0 → exec ins s = .next (s.trapI i 0x02 a)) ∧
    (BaseForm a → a.toNat % al = 0 → (locate i.c a = none ∨ ∃ d, locate i.c a = some d ∧ (i.job.limitOf d.space < d.off + n ∨
        store = true ∧ d.space = .dss ∧ (i.job.limit < d.off + n ∨ i.ctx.level = .job ∧ ∃ r ∈ i.job.codes, d.off < r.1 + r.2 ∧ r.1 < d.off + n))) →
      exec ins s = .next (s.trapI i 0x04 a))

/-- The locations that addresses name: the local forms the issuer's own spaces; the absolute mesh form a module, die, row and column of the pod; the
relative form a die of the issuer's module modulo 4 and a row and column by signed deltas. A row or column outside 0 to 15 and the space code 0b10
name nothing (R102 to R104). -/
def Obligations.AddressForms : Prop :=
  (∀ (c off : Nat), off < 2 ^ 36 → locate c (BitVec.ofNat 64 off) = some { core := c, space := .tcm, off := off } ∧
    locate c (BitVec.ofNat 64 (2 ^ 60 + off)) = some { core := c, space := .qsp, off := off } ∧
    locate c (BitVec.ofNat 64 (2 ^ 61 + off)) = some { core := c, space := .dss, off := off }) ∧
  (∀ (c m d row col off sp : Nat), m < 1024 → d < 4 → row < 32 → col < 32 → off < 2 ^ 36 → sp < 4 →
    locate c (BitVec.ofNat 64 (4 * 2 ^ 60 + m * 2 ^ 50 + d * 2 ^ 48 + row * 2 ^ 43 + col * 2 ^ 38 + sp * 2 ^ 36 + off)) =
      if row < 16 ∧ col < 16 ∧ sp ≠ 2 then
        some { core := ((m * 4 + d) * 16 + row) * 16 + col, space := (if sp = 0 then .tcm else if sp = 1 then .qsp else .dss), off := off }
      else none) ∧
  (∀ (m d row col off sp dd : Nat) (dr dc : Int), m < 1024 → d < 4 → row < 16 → col < 16 → off < 2 ^ 36 → sp < 4 → dd < 4 → -16 ≤ dr → dr ≤ 15 →
    -16 ≤ dc → dc ≤ 15 →
    locate (((m * 4 + d) * 16 + row) * 16 + col)
      (BitVec.ofNat 64 (5 * 2 ^ 60 + dd * 2 ^ 48 + (dr % 32).toNat * 2 ^ 43 + (dc % 32).toNat * 2 ^ 38 + sp * 2 ^ 36 + off)) =
      if 0 ≤ row + dr ∧ row + dr < 16 ∧ 0 ≤ col + dc ∧ col + dc < 16 ∧ sp ≠ 2 then
        some { core := ((m * 4 + (d + dd) % 4) * 16 + (row + dr).toNat) * 16 + (col + dc).toNat
               space := (if sp = 0 then .tcm else if sp = 1 then .qsp else .dss), off := off }
      else none)

-- floating point

/-- FMADD.S, FMSUB.S, FNMSUB.S, FNMADD.S, FADD.S, FSUB.S, FMUL.S, FDIV.S, FSQRT.S and the conversions FCVT.{W,WU,L,LU}.S and FCVT.S.{W,WU,L,LU} complete
with the exact result rounded once in the mode of the rm field, or of `frm` for rm = 7, their exceptions ORed into `fflags`; nothing else changes,
`qflags` included. A reserved mode traps ILLEGAL (R45, R128, R131). -/
def FpRoundedRule : Prop :=
  ∀ (s : State) (i : Issuer) (ins : Instr) (rm : R3) (out : Rm → FpResult), s.issuer? = some i → fpRounded ins i.ctx = some (rm, out) →
    (∀ m, (if rm = 7 then i.ctx.fcsr.toNat / 32 else rm.toNat, m) ∈ [(0, Rm.rne), (1, .rtz), (2, .rdn), (3, .rup), (4, .rmm)] →
      FpWrites s i (out m) (exec ins s)) ∧
    (5 ≤ (if rm = 7 then i.ctx.fcsr.toNat / 32 else rm.toNat) → exec ins s = .next (s.trapI i 0x01 (s.ir.setWidth 64)))

/-- FSGNJ.S, FSGNJN.S, FSGNJX.S, FMIN.S, FMAX.S, FEQ.S, FLT.S, FLE.S, FCLASS.S, FMV.X.W and FMV.W.X complete with the results of `fpExact`: the sign
operations on the pattern, quiet and signalling comparisons of the values, the other operand of a NaN for FMIN and FMAX; nothing else changes but
`fflags` (R45, R128). -/
def FpExactRule : Prop :=
  ∀ (s : State) (i : Issuer) (ins : Instr) (o : FpResult), s.issuer? = some i → fpExact ins i.ctx = some o → FpWrites s i o (exec ins s)

/-- The pattern is a NaN; it is a signalling one. -/
def isNaN32 (v : Half32) : Prop := 0x7F800000 < v.toNat % 2 ^ 31
def isSNaN32 (v : Half32) : Prop := 0x7F800000 < v.toNat % 2 ^ 31 ∧ v.toNat % 2 ^ 31 < 0x7FC00000
/-- With a NaN operand FADD.S, FSUB.S, FMUL.S, FDIV.S and FMADD.S give the canonical NaN 0x7FC00000 whatever NaN it is; a signalling operand sets NV,
and without one the first four leave `fcsr` as it was (R45). -/
def Obligations.FpNaN : Prop :=
  ∀ (s : State) (i : Issuer) (fd a b c : R5) (ins : Instr) (ops : List R5), s.issuer? = some i →
    (ins, ops) ∈ [(Instr.faddS fd a b 0, [a, b]), (.fsubS fd a b 0, [a, b]), (.fmulS fd a b 0, [a, b]), (.fdivS fd a b 0, [a, b]),
      (.fmaddS fd a b c 0, [a, b, c])] → (∃ r ∈ ops, isNaN32 (i.ctx.getF r)) →
    ∃ t, exec ins s = .next t ∧ (t.ctxOf i.c i.k).getF fd = 0x7FC00000 ∧
      ((∃ r ∈ ops, isSNaN32 (i.ctx.getF r)) → (t.ctxOf i.c i.k).fcsr.getLsbD 4 = true) ∧
      (ops.length = 2 → (∀ r ∈ ops, ¬ isSNaN32 (i.ctx.getF r)) → (t.ctxOf i.c i.k).fcsr = i.ctx.fcsr)

-- control and status registers

/-- The address is allocated (R136). -/
def csrAllocated (a : Nat) : Bool :=
  [0x001, 0x002, 0x003, 0xC00, 0xC01, 0xC02, 0x8FF].contains a || (0x800 ≤ a && a ≤ 0x80C) || (0x5C0 ≤ a && a ≤ 0x5C7) || (0x7C0 ≤ a && a ≤ 0x7FF)
/-- The value of a user CSR for the issuing context, by its field map. -/
def csrValue (s : State) (i : Issuer) (a : Nat) : Option Nat :=
  match a with
  | 0x001 => some (i.ctx.fcsr.toNat % 32)
  | 0x002 => some (i.ctx.fcsr.toNat / 32)
  | 0x003 => some i.ctx.fcsr.toNat
  | 0xC00 => some (s.clock - i.core.ssStart)
  | 0xC02 => some i.ctx.instret
  | 0x800 => some ((i.job.n - 1) * 2 ^ 32 + i.core.index)
  | 0x801 => some (i.c / 1024 * 2 ^ 22 + i.c / 256 % 4 * 2 ^ 20 + i.c / 16 % 16 * 2 ^ 15 + i.c % 16 * 2 ^ 10)
  | 0x802 => some (i.ctx.enables.toNat * 2 ^ 32 + i.ctx.flags.toNat)
  | 0x804 => some i.job.limit
  | 0x805 => if i.k = 0 then some i.core.ssentry.toNat else none
  | 0x806 => some i.core.ssn
  | 0x807 => some i.core.sscause.toNat
  | 0x808 => some (i.core.pool * 2 ^ 32 + i.core.age)
  | 0x809 => some i.core.nbwait
  | 0x80A => some i.core.stagger
  | 0x80B => some i.ctx.grant
  | 0x80C => some i.core.tracectl.toNat
  | 0x803 => (i.job.rects[i.core.rect]?).map fun r =>
      (i.job.rects.length - 1) * 2 ^ 48 + i.core.rect * 2 ^ 32 + (i.job.rr - 1) * 2 ^ 20 + (i.job.cc - 1) * 2 ^ 16 + r.row * 2 ^ 4 + r.col
  | 0xC01 => (s.module? (i.c / 1024)).map fun d => (s.clock - d.resetClock) / 10
  | 0x8FF => some 0x40201
  | _ => none
/-- The value of a service CSR of the issuing core, and of the firmware CSRs `hbperiod` and `patchst`, by its field map, with the lowest level that
reads it (R327, R330, R343, R351). A freed entry of the coprocessor ring reads with its old fields (DEDUCED, log 35). -/
def serviceCsr (s : State) (i : Issuer) (a : Nat) : Option (Nat × Level) :=
  match a with
  | 0x5C0 => some (match dget? i.core.ring (s.pos i.c).cpsel with
      | none => 0
      | some e => e.seq * 2 ^ 48 + e.ctx * 2 ^ 44 + i.core.asid * 2 ^ 30 + (if e.valid then 2 ^ 29 else 0) + (if e.done then 2 ^ 28 else 0) + e.pcoff, .service)
  | 0x5C1 => some ((s.pos i.c).cpsel, .service)
  | 0x5C2 => some ((s.pos i.c).svcause.toNat, .service)
  | 0x5C3 => some ((s.pos i.c).svepc.toNat, .service)
  | 0x5C4 => some ((s.pos i.c).svtval.toNat, .service)
  | 0x5C6 => some ((s.pos i.c).svscratch.toNat, .service)
  | 0x7C0 => some ((s.pos i.c).hbperiod.toNat, .firmware)
  | 0x7C1 =>
    let d := s.die (i.c / 256)
    some (d.lastPos * 2 ^ 32 + d.patches.countP (fun e => e.2.slot == 4) * 2 ^ 24 + d.patches.countP (fun e => e.2.fenced) * 2 ^ 16
      + d.patches.countP (fun e => e.2.perm) * 2 ^ 8 + d.roles.countP (fun e => e.2 == .standby), .firmware)
  | _ => none
/-- The writable service CSRs and `hbperiod`: the position's state after a write of a value, reserved bits dropped (R3, R327, R330, R343). -/
def serviceCsrSet (a : Nat) (v : Word) (p : Pos) : Option Pos :=
  match a with
  | 0x5C1 => some { p with cpsel := v.toNat % 64 }
  | 0x5C3 => some { p with svepc := v }
  | 0x5C6 => some { p with svscratch := v }
  | 0x7C0 => some { p with hbperiod := BitVec.ofNat 64 (v.toNat % 2 ^ 32) }
  | _ => none
/-- A CSR instruction that reads and does not write: its rd and CSR. -/
def csrRead (ins : Instr) : Option (R5 × Nat) :=
  match ins with
  | .csrrs rd rs1 csr | .csrrc rd rs1 csr => if rs1 = 0 then some (rd, csr.toNat) else none
  | .csrrsi rd u csr | .csrrci rd u csr => if u = 0 then some (rd, csr.toNat) else none
  | _ => none
/-- A CSR instruction that writes: its rd, its CSR, and the value it writes over an old one. -/
def csrWrite (k : Ctx) (ins : Instr) : Option (R5 × Nat × (Word → Word)) :=
  match ins with
  | .csrrw rd rs1 csr => some (rd, csr.toNat, fun _ => k.getX rs1)
  | .csrrs rd rs1 csr => if rs1 = 0 then none else some (rd, csr.toNat, fun v => v ||| k.getX rs1)
  | .csrrc rd rs1 csr => if rs1 = 0 then none else some (rd, csr.toNat, fun v => v &&& ~~~ k.getX rs1)
  | .csrrwi rd u csr => some (rd, csr.toNat, fun _ => BitVec.ofNat 64 u.toNat)
  | .csrrsi rd u csr => if u = 0 then none else some (rd, csr.toNat, fun v => v ||| BitVec.ofNat 64 u.toNat)
  | .csrrci rd u csr => if u = 0 then none else some (rd, csr.toNat, fun v => v &&& ~~~ BitVec.ofNat 64 u.toNat)
  | _ => none
/-- The bits of a writable user CSR that keep what is written (R3). -/
def csrMask (a : Nat) : Option Word :=
  match a with
  | 0x001 => some 0x1F
  | 0x002 => some 0x7
  | 0x003 => some 0xFF
  | 0x802 => some 0x7F0000007F
  | 0x808 => some 0xFFFFFFFFF
  | 0x809 => some 0xFFFFFFFF
  | 0x80A => some 0xFF
  | 0x80C => some 0x03FF0F0F
  | _ => none
/-- CSRRS, CSRRC, CSRRSI and CSRRCI with rs1 = x0 or uimm = 0 read a user CSR into rd and change nothing: `fflags`, `frm` and `fcsr` the context's,
`cycle` from the start of the superstep, `instret`, `lcidx`, `lcoord`, `qflags`, `lmap`, `ssentry`, `ssn`, `sscause`, `qage`, `nbwait`,
`mxstagger`, `vgrant`, `tracectl`, `lshape`, `time` and `qstep` by their field maps. At service level and above they read `cpring`, `cpsel`, `svcause`,
`svepc`, `svtval` and `svscratch` so, and at firmware level `hbperiod` and `patchst` (R25, R54, R95, R130, R131, R136, R327, R330, R343, R351). That
`cpring` reads a freed entry with its old SEQ, CTX, DONE and PCOFF is the model's reading (DEDUCED, log 35). -/
def Obligations.CsrReads : Prop :=
  ∀ (s : State) (i : Issuer) (ins : Instr) (rd : R5) (a v : Nat), s.issuer? = some i → csrRead ins = some (rd, a) →
    (csrValue s i a = some v ∨ serviceCsr s i a = some (v, .service) ∧ i.ctx.level ≠ .job ∨ serviceCsr s i a = some (v, .firmware) ∧ i.ctx.level = .firmware) →
    WritesX s i rd (BitVec.ofNat 64 v) (exec ins s)

/-- CSRRW, CSRRS, CSRRC, CSRRWI, CSRRSI and CSRRCI on a writable user CSR complete: rd gets the old value and the CSR the new one in the bits that
are not reserved; `fflags` and `frm` are views of `fcsr`. No other register, no memory and no other context or core changes. A write of
`ssentry` from context 0 takes a legal start address and traps FORM, ALIGN or BOUNDS on another. At service level and above `cpsel`, `svepc` and
`svscratch` are written so, and at firmware level `hbperiod`; a write of `cpring`, `svcause`, `svtval` or `trread` traps ILLEGAL (R3, R54, R130, R131,
R136, R278, R327, R330, R343). -/
def Obligations.CsrWrites : Prop :=
  (∀ (s : State) (i : Issuer) (ins : Instr) (rd : R5) (a v : Nat) (f : Word → Word) (mask : Word), s.issuer? = some i →
    csrWrite i.ctx ins = some (rd, a, f) → csrValue s i a = some v → csrMask a = some mask →
    ∃ t i', exec ins s = .next t ∧ t.issuer? = some i' ∧ i'.c = i.c ∧ i'.k = i.k ∧ Completed i t ∧
      csrValue t i' a = some (f (BitVec.ofNat 64 v) &&& mask).toNat ∧
      i'.ctx.getX rd = (if rd = 0 then 0 else BitVec.ofNat 64 v) ∧ (∀ r, r ≠ rd → i'.ctx.getX r = i.ctx.getX r) ∧
      (∀ r, i'.ctx.getF r = i.ctx.getF r) ∧ (∀ p, i'.ctx.getP p = i.ctx.getP p) ∧ i'.ctx.v = i.ctx.v ∧
      (a = 0x001 → i'.ctx.fcsr.toNat / 32 = i.ctx.fcsr.toNat / 32) ∧ (a = 0x002 → i'.ctx.fcsr.toNat % 32 = i.ctx.fcsr.toNat % 32) ∧
      (a ≠ 0x001 → a ≠ 0x002 → a ≠ 0x003 → i'.ctx.fcsr = i.ctx.fcsr) ∧ (a ≠ 0x802 → i'.ctx.flags = i.ctx.flags ∧ i'.ctx.enables = i.ctx.enables) ∧
      (a ≠ 0x808 → i'.core.age = i.core.age ∧ i'.core.pool = i.core.pool) ∧ (a ≠ 0x809 → i'.core.nbwait = i.core.nbwait) ∧
      (a ≠ 0x80A → i'.core.stagger = i.core.stagger) ∧ (a ≠ 0x80C → i'.core.tracectl = i.core.tracectl) ∧ i'.core.ssentry = i.core.ssentry ∧
      Keeps [.cores, .positions] s t ∧ OtherCores i.c s t ∧ (∀ n, n ≠ i.k → t.ctxOf i.c n = s.ctxOf i.c n) ∧ SameMemory s t) ∧
  (∀ (s : State) (i : Issuer) (ins : Instr) (rd : R5) (f : Word → Word), s.issuer? = some i → i.k = 0 → csrWrite i.ctx ins = some (rd, 0x805, f) →
    let new := f i.core.ssentry
    (GoodTarget i.job new →
      ∃ t i', exec ins s = .next t ∧ t.issuer? = some i' ∧ Completed i t ∧ i'.core.ssentry = new ∧
        i'.ctx.getX rd = (if rd = 0 then 0 else i.core.ssentry) ∧ CtxFrame [.x rd] i.ctx i'.ctx ∧ Keeps [.cores] s t ∧ OtherCores i.c s t) ∧
    (new.toNat / 2 ^ 36 ≠ 2 * 2 ^ 24 → exec ins s = .next (s.trapI i 0x03 new)) ∧
    (new.toNat / 2 ^ 36 = 2 * 2 ^ 24 → new.toNat % 4 ≠ 0 → exec ins s = .next (s.trapI i 0x02 new)) ∧
    (new.toNat / 2 ^ 36 = 2 * 2 ^ 24 → new.toNat % 4 = 0 → (∀ r ∈ i.job.codes, ¬ (r.1 ≤ new.toNat % 2 ^ 36 ∧ new.toNat % 2 ^ 36 < r.1 + r.2)) →
      exec ins s = .next (s.trapI i 0x04 new))) ∧
  (∀ (s : State) (i : Issuer) (ins : Instr) (rd : R5) (a v : Nat) (f : Word → Word) (l : Level) (p : Pos), s.issuer? = some i →
    csrWrite i.ctx ins = some (rd, a, f) → serviceCsr s i a = some (v, l) → i.ctx.level = .firmware ∨ i.ctx.level = .service ∧ l = .service →
    serviceCsrSet a (f (BitVec.ofNat 64 v)) (s.pos i.c) = some p →
    ∃ t, exec ins s = .next t ∧ Completed i t ∧ (t.ctxOf i.c i.k).getX rd = (if rd = 0 then 0 else BitVec.ofNat 64 v) ∧
      CtxFrame [.x rd] i.ctx (t.ctxOf i.c i.k) ∧ t.pos i.c = p ∧ OtherPositions i.c s t ∧ Keeps [.cores, .positions] s t ∧ OtherCores i.c s t ∧
      (∀ n, n ≠ i.k → t.ctxOf i.c n = s.ctxOf i.c n)) ∧
  (∀ (s : State) (i : Issuer) (ins : Instr) (rd : R5) (a : Nat) (f : Word → Word), s.issuer? = some i → csrWrite i.ctx ins = some (rd, a, f) →
    i.ctx.level ≠ .job → a ∈ [0x5C0, 0x5C2, 0x5C4, 0x5C7] → exec ins s = .next (s.trapI i 0x01 (s.ir.setWidth 64)))

/-- A CSR instruction checks its CSR in order: an address that is not allocated, and `ssentry` from a helper, trap ILLEGAL; too low a level traps
PRIV; a write to a read-only CSR traps ILLEGAL. The traps carry the instruction word and nothing has changed (R130, R136). -/
def CsrTrapsRule : Prop :=
  ∀ (s : State) (i : Issuer) (ins : Instr) (rd : R5) (a : Nat), s.issuer? = some i →
    (csrRead ins = some (rd, a) ∨ ∃ f, csrWrite i.ctx ins = some (rd, a, f)) →
    (csrAllocated a = false ∨ a = 0x805 ∧ i.k ≠ 0 → exec ins s = .next (s.trapI i 0x01 (s.ir.setWidth 64))) ∧
    ((∃ f, csrWrite i.ctx ins = some (rd, a, f)) → a ∈ [0xC00, 0xC01, 0xC02, 0x800, 0x801, 0x803, 0x804, 0x806, 0x807, 0x80B, 0x8FF] →
      exec ins s = .next (s.trapI i 0x01 (s.ir.setWidth 64)))

/-- An instruction that writes ACTION and the field above it into `svact`: its own row of the table, or CSRRW with rd = x0 (R329). -/
def WritesSvact (i : Issuer) (row ins : Instr) (action low width v : Nat) : Prop :=
  ins = row ∨ ∃ rs1, ins = .csrrw 0 rs1 0x5C5 ∧ (i.ctx.getX rs1).toNat % 4 = action ∧ (i.ctx.getX rs1).toNat / 2 ^ low % 2 ^ width = v
/-- At service level a write of `svact` takes effect before the next instruction: FAULT and ABORT record an abort condition with their cause (a code
outside 0x01 to 0x15 acts as 0x0F), FAULT makes the job end with it, and CLEAR clears the poison of a tier-0 page that a leaf of the job maps,
usable or not (DESIGN CHOICE, log 89), and nothing else; it waits while its page tables lie in a reserved bank (R125). `trread` gives the next doubleword of a frozen trace, oldest entry first and low doubleword first, and 0 while FROZEN is clear
(R125, R329, R331, R356). -/
def Obligations.ServiceActions : Prop :=
  ∀ (s : State) (i : Issuer), s.issuer? = some i → i.ctx.level = .service →
    (∀ (cause : BitVec 8) (ins : Instr) (fault : Bool), i.core.active = true → i.job.verdict = none →
      WritesSvact i (if fault then .svactFault cause else .svactAbort cause) ins (if fault then 1 else 2) 4 8 cause.toNat →
      ∃ t core', exec ins s = .next t ∧ t.core? i.c = some core' ∧ core'.phase = .voted ∧ core'.stopped = true ∧
        core'.abort = some (i.core.abort.getD (if 1 ≤ cause.toNat ∧ cause.toNat ≤ 0x15 then cause.toNat else 0x0F)) ∧
        (t.ctxOf i.c i.k).pc = i.ctx.pc + 4 ∧ (t.job? i.core.asid).map Job.endCause = some (if fault then
          some (i.job.endCause.getD (if 1 ≤ cause.toNat ∧ cause.toNat ≤ 0x15 then cause.toNat else 0x0F)) else i.job.endCause) ∧
        SameRegisters s t ∧ SameMemory s t ∧ OtherCores i.c s t) ∧
    (∀ (page : BitVec 36) (ins : Instr), WritesSvact i (.svactClear page) ins 3 12 36 page.toNat → s.clearBusy i page.toNat = false →
      ∃ t, exec ins s = .next t ∧ Completed i t ∧ CtxFrame [] i.ctx (t.ctxOf i.c i.k) ∧ SameMemory s t ∧
      OtherModules (i.c / 1024) s t ∧ Keeps [.cores, .modules] s t ∧
      (t.module? (i.c / 1024)).map Module.poison = (s.module? (i.c / 1024)).map fun d =>
        if page.toNat * 4096 < 2 ^ 39 ∧ (s.mapsPage (i.c / 1024) i.job.root (page.toNat * 4096)) = true then d.poison.filter (· ≠ page.toNat) else d.poison) ∧
    (∀ (page : BitVec 36) (ins : Instr), WritesSvact i (.svactClear page) ins 3 12 36 page.toNat → s.clearBusy i page.toNat = true →
      OnlyWaits s i (.bank page.toNat) (exec ins s)) ∧
    (∀ rd : R5, i.core.tracectl.getLsbD 11 = false → WritesX s i rd 0 (exec (.trread rd) s)) ∧
    (∀ (rd : R5) (e : Nat × Nat), i.core.tracectl.getLsbD 11 = true → (s.pos i.c).tracePos < 2 * (s.pos i.c).trace.length →
      (s.pos i.c).trace.reverse[(s.pos i.c).tracePos / 2]? = some e →
      ∃ t, exec (.trread rd) s = .next t ∧ Completed i t ∧ CtxFrame [.x rd] i.ctx (t.ctxOf i.c i.k) ∧
        (t.ctxOf i.c i.k).getX rd = (if rd = 0 then 0 else BitVec.ofNat 64 (if (s.pos i.c).tracePos % 2 = 0 then e.2 else e.1)) ∧
        t.pos i.c = { s.pos i.c with tracePos := (s.pos i.c).tracePos + 1 } ∧ Keeps [.cores, .positions] s t ∧ OtherCores i.c s t)

/-- Tracing (R355, R356): with EN clear, FROZEN set or the kind not enabled nothing is recorded; otherwise a taken branch, a predicate write or a memory
access adds one entry with cycle, context, kind, direction and payload in front of the newest of the 1,024. A record changes only the position's trace
and FROZEN. -/
def TraceRecordsRule : Prop :=
  ∀ (s : State) (c : CoreId) (core : Core) (k : Nat) (v : Word) (rec : State) (bit kind : Nat) (w : Bool), s.core? c = some core →
    (bit, kind, w, rec) ∈ [(1, 1, false, s.recordBranch c k v), (2, 2, false, s.recordPred c k v), (3, 3, false, s.recordMem c k false v),
      (3, 3, true, s.recordMem c k true v)] →
    ((core.tracectl.getLsbD 0 = false ∨ core.tracectl.getLsbD 11 = true ∨ core.tracectl.getLsbD bit = false) → rec = s) ∧
    (core.tracectl.getLsbD 0 = true → core.tracectl.getLsbD 11 = false → core.tracectl.getLsbD bit = true →
      (rec.pos c).trace = (((s.clock - core.ssStart) % 2 ^ 32 * 2 ^ 32 + k * 2 ^ 28 + kind * 2 ^ 24 + (if w then 1 else 0), v.toNat) :: (s.pos c).trace).take 1024) ∧
    Keeps [.cores, .positions] s rec ∧ OtherCores c s rec ∧ OtherPositions c s rec ∧ SameRegisters s rec ∧ SameMemory s rec ∧
    ∃ core', rec.core? c = some core' ∧ { core' with tracectl := core.tracectl } = core ∧ (core'.tracectl = core.tracectl ∨ core'.tracectl = core.tracectl ||| 0x800)

/-- TRIG completes; with EN and SWTRIG it records its value and triggers; with EN and TRAPEN it then traps TRIGGER at the next instruction with the
value, and without TRAPEN it changes no register and no memory (R178, R355, R356). -/
def TriggersRule : Prop :=
  ∀ (s : State) (i : Issuer) (rs1 : R5), s.issuer? = some i →
    (i.core.tracectl.getLsbD 0 = false ∨ i.core.tracectl.getLsbD 10 = false →
      ∃ t, exec (.trig rs1) s = .next t ∧ Completed i t ∧ CtxFrame [] i.ctx (t.ctxOf i.c i.k) ∧ SameMemory s t ∧ Keeps [.cores, .positions] s t ∧
        OtherCores i.c s t) ∧
    (i.core.tracectl.getLsbD 0 = true → i.core.tracectl.getLsbD 9 = true → i.core.tracectl.getLsbD 10 = false → i.core.tracectl.getLsbD 11 = false →
      ∃ t, exec (.trig rs1) s = .next t ∧
        (t.pos i.c).trace.head? = some ((s.clock - i.core.ssStart) % 2 ^ 32 * 2 ^ 32 + i.k * 2 ^ 28 + 4 * 2 ^ 24, (i.ctx.getX rs1).toNat)) ∧
    (i.core.tracectl.getLsbD 0 = true → i.core.tracectl.getLsbD 10 = true → i.mayEnter →
      ∃ t, exec (.trig rs1) s = .next t ∧ (t.pos i.c).svcause = BitVec.ofNat 64 (i.k * 2 ^ 40 + 0x14) ∧ (t.pos i.c).svepc = i.ctx.pc + 4 ∧
        (t.pos i.c).svtval = i.ctx.getX rs1 ∧ (t.ctxOf i.c i.k).pc = i.job.handler ∧ (t.ctxOf i.c i.k).level = .service ∧ SameRegisters s t ∧ SameMemory s t)

-- waits and instructions that only advance

/-- An eager write of the context that is not an engine's, to a home in the extent of the scope, has not performed (R298). -/
def EagerOpen (s : State) (i : Issuer) (sc : Nat) : Prop :=
  ∃ e ∈ i.core.eager, e.ctx = i.k ∧ e.cmd = none ∧ s.homeIn i.core.asid sc i.c e.dest = true
/-- FENCE, FENCE.TSO (at core scope, whatever pred and succ hold), FENCE.S and FENCE.I wait while an earlier eager write of the context to a home in the
extent of the scope has not performed, and otherwise complete with no other effect, but that FENCE.I discards the quad's buffered words of the job;
FENCE.S with order acquire never waits (R128, R133, R298). -/
def FencesRule : Prop :=
  ∀ (s : State) (i : Issuer), s.issuer? = some i →
    (∀ (ins : Instr) (sc : R3), (ins = .fenceTso ∧ sc = 1 ∨ (∃ p q, ins = .fence p q) ∧ sc = 1 ∨ ∃ ord, ins = .fenceS sc ord ∧ ord ≠ 1) →
      (¬ EagerOpen s i sc.toNat → OnlyAdvances s i (exec ins s)) ∧ (EagerOpen s i sc.toNat → OnlyWaits s i (.fence sc) (exec ins s))) ∧
    (∀ sc, OnlyAdvances s i (exec (.fenceS sc 1) s)) ∧
    (EagerOpen s i 1 → OnlyWaits s i .fenceI (exec .fenceI s)) ∧
    (¬ EagerOpen s i 1 → ∃ t j', exec .fenceI s = .next t ∧ Completed i t ∧ CtxFrame [] i.ctx (t.ctxOf i.c i.k) ∧ Keeps [.cores, .jobs] s t ∧
      OtherCores i.c s t ∧ OtherJobs i.core.asid s t ∧ t.job? i.core.asid = some j' ∧ { j' with stale := i.job.stale } = i.job ∧
      (∀ c off, coreQuad c = coreQuad i.c → j'.oldWords c off = []) ∧ (∀ c off, coreQuad c ≠ coreQuad i.c → j'.oldWords c off = i.job.oldWords c off))

/-- SBWAIT completes at once with no other effect when every access tied to the slot has performed, and else waits; SOLO, a FOLLOW of the quad's leader
and a FOLLOW whose pair the leader has executed complete and change no register and no memory, a FOLLOW without its leader's waits, and in a helper
both trap ILLEGAL (that a FOLLOW which the follower executes counts towards its next pairing is the model's choice, log entry 68; that neither has a
further effect is its reading, log entry 40); LCSET writes one loop counter of the context and nothing else; YIELD completes and passes over one turn (R134, R173 to R175, R179). -/
def QuietControlRule : Prop :=
  ∀ (s : State) (i : Issuer), s.issuer? = some i →
    (∀ slot, ((∀ e ∈ i.core.eager, ¬ (e.ctx = i.k ∧ e.slot = some slot)) → OnlyAdvances s i (exec (.sbwait slot) s)) ∧
      ((∃ e ∈ i.core.eager, e.ctx = i.k ∧ e.slot = some slot) → OnlyWaits s i (.sbwait slot) (exec (.sbwait slot) s))) ∧
    (i.k = 0 → OnlyAdvances s i (exec .solo s)) ∧
    (i.k ≠ 0 → exec .solo s = .next (s.trapI i 0x01 (s.ir.setWidth 64)) ∧ exec .follow s = .next (s.trapI i 0x01 (s.ir.setWidth 64))) ∧
    (i.k = 0 → ((∀ d ∈ i.job.places, coreQuad d = coreQuad i.c → d = i.c) ∨ (i.job.inQuad (coreQuad i.c)).head? = some i.c ∨
        ∃ lead l, (i.job.inQuad (coreQuad i.c)).head? = some lead ∧ s.core? lead = some l ∧
          dgetD i.core.follows (i.ctx.pc.toNat % 2 ^ 36) 0 < dgetD l.follows (i.ctx.pc.toNat % 2 ^ 36) 0) →
      ∃ t core', exec .follow s = .next t ∧ Completed i t ∧ CtxFrame [] i.ctx (t.ctxOf i.c i.k) ∧ Keeps [.cores] s t ∧ OtherCores i.c s t ∧
        t.core? i.c = some core' ∧ { core' with ctxs := i.core.ctxs, follows := i.core.follows } = i.core) ∧
    (∀ lead l, i.k = 0 → (i.job.inQuad (coreQuad i.c)).head? = some lead → lead ≠ i.c → s.core? lead = some l →
      dgetD l.follows (i.ctx.pc.toNat % 2 ^ 36) 0 ≤ dgetD i.core.follows (i.ctx.pc.toNat % 2 ^ 36) 0 → OnlyWaits s i .follow (exec .follow s)) ∧
    (∀ lc rs1, ∃ t, exec (.lcset lc rs1) s = .next t ∧ Completed i t ∧ (t.ctxOf i.c i.k).getLc lc.toNat = i.ctx.getX rs1 ∧
      RegistersOnly i [.lc lc.toNat] s t) ∧
    (∃ t, exec .yield s = .next t ∧ (t.ctxOf i.c i.k).pc = i.ctx.pc + 4 ∧ (t.ctxOf i.c i.k).instret = i.ctx.instret + 1 ∧
      (t.ctxOf i.c i.k).wait = some .yielded ∧ (t.ctxOf i.c i.k).mayIssue = i.ctx.entry.isNone ∧ RegistersOnly i [] s t)

/-- WFI leaves the ready set and forgets the wake events of earlier cycles; the first wake event at or after it ends the wait: a post delivered to one of the core's
mailboxes is one, and the completion of a hamper in its TCM, which flips the hamper's phase, is another. The waits of WFI, FENCE.S, SBWAIT, CJOIN, HMWAIT and WAITF end as soon as their event has occurred and not before, and the context then completes at the
next instruction with its registers as they were; WFI uses its event up (R38, R128, R129). CJOIN, HMWAIT, WAITF and RGET meet poison where their bytes
are spilled to a poisoned page meanwhile (R20, R123). -/
def Obligations.Waits : Prop :=
  (∀ (s : State) (i : Issuer), s.issuer? = some i →
    ∃ t, exec .wfi s = .next t ∧ WaitsFor i .wfi t ∧ OnlyCtx i.c i.k s t ∧
      (t.ctxOf i.c i.k).woken = (if i.ctx.woken = some s.clock then some s.clock else none)) ∧
  (∀ (s : State) (c : CoreId) (core : Core) (k : Nat) (w : Wait) (ended : Prop), s.core? c = some core → core.active = true → (core.ctx k).wait = some w →
    (w = .wfi ∧ (ended ↔ (core.ctx k).woken ≠ none)) ∨
      (∃ sc, w = .fence sc ∧ (ended ↔ ∀ e ∈ core.eager, e.ctx = k → e.cmd = none → s.homeIn core.asid sc.toNat c e.dest = false)) ∨
      (∃ slot, w = .sbwait slot ∧ (ended ↔ ∀ e ∈ core.eager, e.ctx = k → e.slot ≠ some slot)) ∨
      (∃ d, w = .cjoin d ∧ s.spillPoison core.asid d 4 = none ∧ (ended ↔ s.bytesAt core.asid d 4 = 0)) ∨
      (∃ d v, w = .waitf d v ∧ s.spillPoison core.asid d 8 = none ∧ (ended ↔ v.toNat ≤ s.bytesAt core.asid d 8)) ∨
      (∃ d ph, w = .hmwait d ph ∧ s.spillPoison core.asid d 16 = none ∧ (ended ↔ (s.bytesAt core.asid d 16 / 2 ^ 64 % 2 == 1) = ph)) →
    (ended → { (s.retry c k).ctxOf c k with woken := (core.ctx k).woken } = (core.ctx k).advance ∧ OnlyCtx c k s (s.retry c k) ∧
      ((s.retry c k).ctxOf c k).woken = if w = .wfi then none else (core.ctx k).woken) ∧ (¬ ended → s.retry c k = s)) ∧
  (∀ (s : State) (c : CoreId) (core : Core) (k : Nat) (w : Wait) (d : Dest) (n pa : Nat), s.core? c = some core → core.active = true →
    (core.ctx k).wait = some w → (core.ctx k).level ≠ .firmware →
    w = .cjoin d ∧ n = 4 ∨ (∃ v, w = .waitf d v ∧ n = 8) ∨ (∃ ph, w = .hmwait d ph ∧ n = 16) ∨ (∃ rd, w = .rget rd d ∧ n = 32) →
    s.spillPoison core.asid d n = some pa → PoisonStops s c core pa (s.retry c k)) ∧
  (∀ (s : State) (p : Nat) (m : Msg) (dst : CoreId) (mb : Nat) (v : Word) (core : Core), s.net[p]? = some m → m.kind = .post dst mb v →
    (∀ e ∈ s.net.take p, ¬ (e.src = m.src ∧ ∃ w, e.kind = .post dst mb w)) → s.belongs m.asid (s.forwarded m.asid dst) = true →
    s.core? (s.forwarded m.asid dst) = some core → core.dead = false → mb ∉ core.present →
    ∃ u, exec (.mailboxPostArrival p) s = .next u ∧ ∀ n, (core.ctx n).live = true → (u.ctxOf (s.forwarded m.asid dst) n).woken = some s.clock) ∧
  (∀ (s t : State) (i : Issuer) (rs2 rs1 : R5) (d : Dest), s.issuer? = some i → LocalAt i (i.ctx.getX rs1) 16 d → d.space = .tcm → NoEagerOver s i d 16 →
    exec (.hmadd rs2 rs1) s = .next t → t.bytesAt i.core.asid d 16 / 2 ^ 64 % 2 ≠ s.bytesAt i.core.asid d 16 / 2 ^ 64 % 2 →
    ∀ n, (s.ctxOf i.c n).live = true → (t.ctxOf i.c n).woken = some s.clock)

-- helpers, tasks, closing a superstep, barriers

/-- Nothing in core `c` changes but its contexts and what `f` puts back. -/
def CoreKeeps (c : CoreId) (s t : State) (f : Core → Core → Core) : Prop :=
  ∃ k k', s.core? c = some k ∧ t.core? c = some k' ∧ { f k k' with ctxs := k.ctxs } = k
/-- Checks of a start address (R169): form and reserved bits, then alignment, then a CODE section. -/
def StartTraps (s : State) (i : Issuer) (a : Word) (r : Result) : Prop :=
  (a.toNat / 2 ^ 36 ≠ 2 * 2 ^ 24 → r = .next (s.trapI i 0x03 a)) ∧
  (a.toNat / 2 ^ 36 = 2 * 2 ^ 24 → a.toNat % 4 ≠ 0 → r = .next (s.trapI i 0x02 a)) ∧
  (a.toNat / 2 ^ 36 = 2 * 2 ^ 24 → a.toNat % 4 = 0 → (∀ c ∈ i.job.codes, ¬ (c.1 ≤ a.toNat % 2 ^ 36 ∧ a.toNat % 2 ^ 36 < c.1 + c.2)) →
    r = .next (s.trapI i 0x04 a))
/-- SPAWN starts the highest-numbered idle helper at x[rs1] with x[rs2] in x10, 0 in x11 and every other register 0, `frm` and the enables of context 0,
and puts its number into rd; with no idle helper it waits; in a helper it traps ILLEGAL; a bad start address traps FORM, ALIGN or BOUNDS. No memory and
no other context changes (R56, R131, R158, R160, R169). -/
def SpawnRule : Prop :=
  ∀ (s : State) (i : Issuer) (rd rs1 rs2 : R5), s.issuer? = some i →
    (i.k ≠ 0 → exec (.spawn rd rs1 rs2) s = .next (s.trapI i 0x01 (s.ir.setWidth 64))) ∧
    (i.k = 0 → StartTraps s i (i.ctx.getX rs1) (exec (.spawn rd rs1 rs2) s)) ∧
    (∀ h, i.k = 0 → GoodTarget i.job (i.ctx.getX rs1) → 1 ≤ h → h ≤ 10 → (i.core.ctx h).live = false →
      (∀ n, h < n → n ≤ 10 → (i.core.ctx n).live = true) →
      ∃ t, exec (.spawn rd rs1 rs2) s = .next t ∧ Completed i t ∧ (t.ctxOf i.c 0).getX rd = (if rd = 0 then 0 else BitVec.ofNat 64 h) ∧
        CtxFrame [.x rd] i.ctx (t.ctxOf i.c 0) ∧ (t.ctxOf i.c h).life = .direct ∧ (t.ctxOf i.c h).pc = i.ctx.getX rs1 ∧
        (∀ r, (t.ctxOf i.c h).getX r = if r = 10 then i.ctx.getX rs2 else 0) ∧ (∀ r, (t.ctxOf i.c h).getF r = 0) ∧
        (t.ctxOf i.c h).fcsr = i.ctx.fcsr &&& 0xE0 ∧ (t.ctxOf i.c h).flags = 0 ∧ (t.ctxOf i.c h).enables = i.ctx.enables ∧
        (t.ctxOf i.c h).level = .job ∧ (t.ctxOf i.c h).wait = none ∧ (∀ n, n ≠ 0 → n ≠ h → t.ctxOf i.c n = s.ctxOf i.c n) ∧
        Keeps [.cores] s t ∧ OtherCores i.c s t ∧ CoreKeeps i.c s t fun _ k' => k') ∧
    (i.k = 0 → GoodTarget i.job (i.ctx.getX rs1) → (∀ n, 1 ≤ n → n ≤ 10 → (i.core.ctx n).live = true) →
      OnlyWaits s i (.spawn rd (i.ctx.getX rs1) (i.ctx.getX rs2)) (exec (.spawn rd rs1 rs2) s))

/-- The helper has become idle and its flags are merged into context 0; the other contexts are as before (R56, R131, R170). -/
def HelperEnds (s : State) (i : Issuer) (t : State) : Prop :=
  (t.ctxOf i.c i.k).live = false ∧ (∀ r, (t.ctxOf i.c i.k).getX r = 0) ∧ (t.ctxOf i.c 0).flags = (s.ctxOf i.c 0).flags ||| i.ctx.flags ∧
  (t.ctxOf i.c 0).fcsr = (s.ctxOf i.c 0).fcsr ||| (i.ctx.fcsr &&& 0x1F) ∧ (t.ctxOf i.c 0).pc = (s.ctxOf i.c 0).pc ∧
  (∀ r, (t.ctxOf i.c 0).getX r = (s.ctxOf i.c 0).getX r) ∧ (∀ n, n ≠ 0 → n ≠ i.k → t.ctxOf i.c n = s.ctxOf i.c n)
/-- HEXIT ends the issuing helper, once every access tied to its slots has performed; a task whose record names a join counter decrements the counter
by one, a counter at zero traps HAMPER and is left unchanged; in context 0 it traps ILLEGAL (R166, R170). Late traps of the helper that are in
flight become orphans, and nothing else of the messages and of another job changes (R163). -/
def HelperExitRule : Prop :=
  ∀ (s : State) (i : Issuer), s.issuer? = some i →
    (i.k = 0 → exec .hexit s = .next (s.trapI i 0x01 (s.ir.setWidth 64))) ∧
    (i.k ≠ 0 → (∃ e ∈ i.core.eager, e.ctx = i.k ∧ e.slot.isSome = true) → OnlyWaits s i .hexit (exec .hexit s)) ∧
    (i.k ≠ 0 → (∀ e ∈ i.core.eager, e.ctx = i.k → e.slot = none) → (i.ctx.life = .direct ∨ ∃ o q, i.ctx.life = .task o q 0) →
      ∃ t, exec .hexit s = .next t ∧ HelperEnds s i t ∧ SameMemory s t ∧ Keeps [.cores, .jobs, .net] s t ∧ OtherJobs i.core.asid s t ∧
        t.net = s.net.map fun m => m.orphaned i.c i.k) ∧
    (∀ (o q : Nat) (join : Word) (d : Dest) (n : Nat), i.k ≠ 0 → (∀ e ∈ i.core.eager, e.ctx = i.k → e.slot = none) → i.ctx.life = .task o q join →
      LocalAt i join 16 d → join ≠ 0 → d.space ≠ .dss → NoEagerOver s i d 4 →
      Reads s i d 4 [.hexit]
        ((s.bytesAt i.core.asid d 4 = n + 1 → ∃ t, exec .hexit s = .next t ∧ HelperEnds s i t ∧ StoresBytes s t i.core.asid d 4 n ∧
          Keeps [.cores, .jobs, .net] (s.recordMem i.c i.k true join) t ∧ OtherJobs i.core.asid s t ∧ t.net = s.net.map fun m => m.orphaned i.c i.k) ∧
        (s.bytesAt i.core.asid d 4 = 0 → exec .hexit s = .next (s.trapI i 0x07 0))))

/-- The record that 256 bits hold (R164) as it enters a queue. -/
def recordAt (b : Nat) (core : Core) (clock : Nat) : TaskRec :=
  { code := BitVec.ofNat 64 (b % 2 ^ 64), frame := BitVec.ofNat 64 (b / 2 ^ 64 % 2 ^ 64), join := BitVec.ofNat 64 (b / 2 ^ 128 % 2 ^ 64)
    prio := b / 2 ^ 192 % 256, ceil := max (b / 2 ^ 192 % 256) (b / 2 ^ 200 % 256), ordered := b / 2 ^ 208 % 2 == 1, nosteal := b / 2 ^ 209 % 2 == 1
    level := b / 2 ^ 192 % 256, seq := core.taskNext, lseq := core.taskNext, since := clock }
/-- An address of an instruction that reaches only local spaces, by the forms it takes: another form or a reserved bit traps FORM, a misaligned address
ALIGN, bytes past the space BOUNDS; the trap carries the address. -/
def LocalAddressTraps (s : State) (i : Issuer) (a : Word) (forms : List Nat) (n : Nat) (r : Result) : Prop :=
  ((∀ f ∈ forms, a.toNat / 2 ^ 36 ≠ f * 2 ^ 24) → r = .next (s.trapI i 0x03 a)) ∧
  (∀ f ∈ forms, a.toNat / 2 ^ 36 = f * 2 ^ 24 → a.toNat % n ≠ 0 → r = .next (s.trapI i 0x02 a)) ∧
  (∀ f ∈ forms, a.toNat / 2 ^ 36 = f * 2 ^ 24 → a.toNat % n = 0 →
    i.job.limitOf (if f = 0 then .tcm else if f = 1 then .qsp else .dss) < a.toNat % 2 ^ 36 + n → r = .next (s.trapI i 0x04 a))
/-- The instructions of tasks, hampers, flags, rings, pushes and whole predicates with the register of their address, its forms and its size, which is
also its alignment (R151, R171, R172, R208, R209, R253, R255, R257, R258). -/
def localAccess : Instr → Option (R5 × List Nat × Nat)
  | .cpush rs1 => some (rs1, [0, 1], 32)
  | .cjoin rs1 => some (rs1, [0, 1], 16)
  | .hmarm _ rs1 | .hmadd _ rs1 | .hmwait _ rs1 => some (rs1, [0, 1], 16)
  | .waitf _ rs1 => some (rs1, [0, 1], 8)
  | .rget _ rs1 | .rput _ rs1 => some (rs1, [0, 1], 32)
  | .enq _ rs1 | .enqp _ rs1 _ => some (rs1, [0], 32)
  | .mxiBf16Bf16 rs1 _ n | .mxiBf16Qt16 rs1 _ n | .mxiQt16Qt16 rs1 _ n | .mxiQt8Qt8 rs1 _ n | .mxiI8I8 rs1 _ n | .mxiI8Tern rs1 _ n =>
    if n = 31 then none else some (rs1, [0], 32)
  | .vpld _ rs1 | .vpst _ rs1 => some (rs1, [0, 1, 2], 8)
  | _ => none
/-- Each of them checks its address before it has any effect. -/
def LocalAccessRule : Prop :=
  ∀ (s : State) (i : Issuer) (ins : Instr) (rs1 : R5) (forms : List Nat) (n : Nat), s.issuer? = some i → localAccess ins = some (rs1, forms, n) →
    LocalAddressTraps s i (i.ctx.getX rs1) forms n (exec ins s)
/-- CPUSH enters a copy of the 32-byte record at x[rs1] at level PRIO of the core's task queue, behind the records there, with no waiting time; with 4,096
records it waits. A CODE that is no start address traps FORM, ALIGN or BOUNDS with the CODE, and a JOIN that is not 0 is then checked as CJOIN checks
its address. CJOIN completes at once with no effect when its counter reads zero and else waits until it does. Neither writes memory or a register, and the trace unit records their accesses (R356); a
bad address traps FORM, ALIGN or BOUNDS (R164, R165, R171, R172), as it does for the hamper, flag and ring instructions, the template of a push, VPLD
and VPST (R151, R209, R253, R255, R257, R258). A record or counter spilled to a poisoned page gives POISON (R20, R123). No eager write of the context to the record or counter is in flight. -/
def Obligations.TaskInstructions : Prop :=
  LocalAccessRule ∧
  ∀ (s : State) (i : Issuer) (rs1 : R5) (d : Dest), s.issuer? = some i →
    let s0 := s.recordMem i.c i.k false (i.ctx.getX rs1)
    (LocalAt i (i.ctx.getX rs1) 32 d → d.space ≠ .dss → NoEagerOver s i d 32 → Reads s i d 32 [.cpush rs1]
      (StartTraps s0 i (recordAt (s.bytesAt i.core.asid d 32) i.core s.clock).code (exec (.cpush rs1) s) ∧
      (GoodTarget i.job (recordAt (s.bytesAt i.core.asid d 32) i.core s.clock).code → (recordAt (s.bytesAt i.core.asid d 32) i.core s.clock).join ≠ 0 →
        LocalAddressTraps s0 i (recordAt (s.bytesAt i.core.asid d 32) i.core s.clock).join [0, 1] 16 (exec (.cpush rs1) s)))) ∧
    (LocalAt i (i.ctx.getX rs1) 32 d → d.space ≠ .dss → NoEagerOver s i d 32 → s.spillPoison i.core.asid d 32 = none →
      GoodTarget i.job (recordAt (s.bytesAt i.core.asid d 32) i.core s.clock).code →
      ((recordAt (s.bytesAt i.core.asid d 32) i.core s.clock).join = 0 ∨
        ∃ j, LocalAt i (recordAt (s.bytesAt i.core.asid d 32) i.core s.clock).join 16 j ∧ j.space ≠ .dss) →
      (i.core.tasks.length < 4096 →
        ∃ t core', exec (.cpush rs1) s = .next t ∧ Completed i t ∧ CtxFrame [] i.ctx (t.ctxOf i.c i.k) ∧ Keeps [.cores] s0 t ∧ OtherCores i.c s t ∧
          (∀ n, n ≠ i.k → t.ctxOf i.c n = s.ctxOf i.c n) ∧ t.core? i.c = some core' ∧
          core'.tasks = i.core.tasks ++ [recordAt (s.bytesAt i.core.asid d 32) i.core s.clock] ∧ core'.taskNext = i.core.taskNext + 1 ∧
          s0.core? i.c = some { core' with ctxs := i.core.ctxs, tasks := i.core.tasks, taskNext := i.core.taskNext }) ∧
      (4096 ≤ i.core.tasks.length → ∃ r, OnlyWaits s0 i (.cpush r) (exec (.cpush rs1) s))) ∧
    (LocalAt i (i.ctx.getX rs1) 16 d → d.space ≠ .dss → NoEagerOver s i d 4 → Reads s i d 4 [.cjoin rs1]
      ((s.bytesAt i.core.asid d 4 = 0 → OnlyAdvances s0 i (exec (.cjoin rs1) s)) ∧
      (s.bytesAt i.core.asid d 4 ≠ 0 → OnlyWaits s0 i (.cjoin d) (exec (.cjoin rs1) s))))

/-- What R34 waits for: the command queues and the task queue are empty, the helpers idle, no eager write, post or vector instruction outstanding, no trap
pending, no message of the core in flight. -/
def CoreQuiet (s : State) (i : Issuer) : Prop :=
  (∀ e ∈ i.core.q, e.1 < 4 → e.2 = []) ∧ i.core.tasks = [] ∧ (∀ n, 1 ≤ n → n ≤ 10 → (i.core.ctx n).live = false) ∧ i.core.eager = [] ∧ i.core.posts = []
    ∧ i.core.lanes = [] ∧ i.ctx.late = [] ∧ i.ctx.entry = none ∧ ∀ m ∈ s.net, ¬ (m.src = i.c ∧ m.asid = i.core.asid)
/-- SSCLOSE, from context 0 only, takes its core to CLOSING and waits; once the core is quiet it enters its vote, with the value of x[rs1] read at issue
and the SSN, and is VOTED; a fault of R310 that the core met makes it an abort vote with that cause (log entry 32). SSABORT, from any context, sends an urgent abort with cause 0 and issues nothing more. No register and no memory changes (R34,
R279, R283, R287, R288). -/
def Obligations.ClosingInstructions : Prop :=
  ∀ (s : State) (i : Issuer), s.issuer? = some i →
    (∀ op rd rs1, i.k ≠ 0 → exec (.ssclose op rd rs1) s = .next (s.trapI i 0x01 (s.ir.setWidth 64))) ∧
    (∀ op rd rs1, i.k = 0 → i.core.active = true → CoreQuiet s i →
      ∃ t core' u, exec (.ssclose op rd rs1) s = .next t ∧ WaitsFor i (.ssclose op rd (i.ctx.getX rs1)) t ∧ t.core? i.c = some core' ∧ core'.phase = .voted ∧
        { core' with ctxs := i.core.ctxs, phase := i.core.phase } = i.core ∧ Keeps [.cores, .net] s t ∧ OtherCores i.c s t ∧
        t.net = s.net ++ [{ src := i.c, ctx := 0, asid := i.core.asid, uid := u, seq := 0, cmd := none
                            kind := .vote { index := i.core.index, abort := i.core.voteFault.isSome, cause := i.core.voteFault.getD 0, op := op.toNat, val := i.ctx.getX rs1 } i.core.ssn }]) ∧
    (∀ op rd rs1, i.k = 0 → i.core.active = true → ¬ CoreQuiet s i →
      ∃ t core', exec (.ssclose op rd rs1) s = .next t ∧ WaitsFor i (.ssclose op rd (i.ctx.getX rs1)) t ∧ t.core? i.c = some core' ∧ core'.phase = .closing ∧
        { core' with ctxs := i.core.ctxs, phase := i.core.phase } = i.core ∧ Keeps [.cores] s t ∧ OtherCores i.c s t) ∧
    (∃ t u, exec .ssabort s = .next t ∧ WaitsFor i .stopped t ∧ Keeps [.cores, .net] s t ∧ OtherCores i.c s t ∧ (CoreKeeps i.c s t fun _ k' => k') ∧
      t.net = s.net ++ [{ src := i.c, ctx := 0, asid := i.core.asid, uid := u, seq := 0, cmd := none, kind := .urgent 0 i.core.index 1 }])

/-- An arrival of the issuer's core at the scope is on its way through the barrier tree. -/
def ArrivalSent (s : State) (i : Issuer) (sc : Nat) : Prop :=
  ∃ m ∈ s.net, m.asid = i.core.asid ∧ ∃ n a ssn, m.kind = .arrival sc (extentOf sc i.c) n a ssn ∧ a.index = i.core.index
/-- The issuer's core has no arrival standing at an open episode of the scope, nor one on its way; at core scope every context arrives for itself. -/
def MayArrive (s : State) (i : Issuer) (sc : Nat) : Prop :=
  sc = 1 ∨ ¬ ArrivalSent s i sc ∧ ∀ e ∈ i.job.episodes, e.scope = sc → e.extent = extentOf sc i.c → e.done = none → ∀ a ∈ e.arrivals, a.index ≠ i.core.index
/-- The context holds a mark of an episode of its extent, and its arrival there, with op and value, stands at core scope and is otherwise a message of the
barrier tree that carries the SSN (R18, R289). -/
def HasArrived (s : State) (i : Issuer) (sc op : Nat) (v : Word) (t : State) : Prop :=
  ∃ j e u, t.job? i.core.asid = some j ∧ e ∈ j.episodes ∧ e.scope = sc ∧ e.extent = extentOf sc i.c ∧ { scope := sc, episode := e.number } ∈ (t.ctxOf i.c i.k).marks ∧
    let a : Arrival := { index := i.core.index, ctx := i.k, op := op, val := v }
    if sc = 1 then a ∈ e.arrivals ∧ t.net = s.net
    else e.done = none ∧ t.net = s.net ++ [i.message u 0 none (.arrival sc (extentOf sc i.c) e.number a i.core.ssn)]
/-- BARV, BARW and BARAW (R289, R290): BARV and BARAW trap ILLEGAL in a context that holds a mark of the scope, wait for its eager writes to homes in the
extent, and arrive, by a message of the barrier tree above core scope; BARV completes then, and it waits while another arrival of the core stands or is
on its way. That an arrival at core scope is no message is the model's choice (log entry 99). BARW without a mark traps ILLEGAL, waits while the episode is open, and else puts the combined value into rd and
clears the mark, or traps ILLEGAL when the ops differed. A BARAW at core scope, on a core that is not fenced, with every other context idle completes at once with its own value. -/
def Obligations.GroupBarriers : Prop :=
  ∀ (s : State) (i : Issuer) (sc : R3) (op : BitVec 2) (rd rs1 : R5), s.issuer? = some i →
    ((∃ m ∈ i.ctx.marks, m.scope = sc.toNat) → exec (.barv sc op rs1) s = .next (s.trapI i 0x01 (s.ir.setWidth 64)) ∧
      exec (.baraw sc op rd rs1) s = .next (s.trapI i 0x01 (s.ir.setWidth 64))) ∧
    ((∀ m ∈ i.ctx.marks, m.scope ≠ sc.toNat) → exec (.barw sc rd) s = .next (s.trapI i 0x01 (s.ir.setWidth 64))) ∧
    ((∀ m ∈ i.ctx.marks, m.scope ≠ sc.toNat) → EagerOpen s i sc.toNat → OnlyWaits s i (.barv sc op (i.ctx.getX rs1)) (exec (.barv sc op rs1) s) ∧
      OnlyWaits s i (.baraw sc op rd (i.ctx.getX rs1) false) (exec (.baraw sc op rd rs1) s)) ∧
    ((∀ m ∈ i.ctx.marks, m.scope ≠ sc.toNat) → ¬ EagerOpen s i sc.toNat → MayArrive s i sc.toNat →
      ∃ t, exec (.barv sc op rs1) s = .next t ∧ Completed i t ∧ HasArrived s i sc.toNat op.toNat (i.ctx.getX rs1) t ∧ SameRegisters s t ∧ SameMemory s t ∧
        Keeps [.cores, .jobs, .net] s t ∧ OtherJobs i.core.asid s t) ∧
    ((∀ m ∈ i.ctx.marks, m.scope ≠ sc.toNat) → ¬ EagerOpen s i sc.toNat → sc ≠ 1 →
      (∃ e, i.job.episodes.find? (fun e => e.scope == sc.toNat && e.extent == extentOf sc.toNat i.c && e.done.isNone) = some e ∧
        (ArrivalSent s i sc.toNat ∨ ∃ a ∈ e.arrivals, a.index = i.core.index)) →
      OnlyWaits s i (.barv sc op (i.ctx.getX rs1)) (exec (.barv sc op rs1) s)) ∧
    (∀ (m : Mark) (e : Episode), i.ctx.marks.find? (fun x => x.scope == sc.toNat) = some m →
      i.job.episodes.find? (fun x => x.scope == m.scope && x.extent == extentOf m.scope i.c && x.number == m.episode) = some e →
      (e.done = none → OnlyWaits s i (.barw sc rd) (exec (.barw sc rd) s)) ∧
      (∀ d, e.done = some d → d + (if sc = 1 then 0 else (i.c / 16 % 16 + i.c % 16) * i.core.stagger) ≤ s.clock → e.mixed = false →
        ∃ t, exec (.barw sc rd) s = .next t ∧ Completed i t ∧ (t.ctxOf i.c i.k).getX rd = (if rd = 0 then 0 else e.value) ∧
          (∀ x ∈ (t.ctxOf i.c i.k).marks, x.scope ≠ sc.toNat) ∧ OnlyCtx i.c i.k s t ∧
          CtxFrame [.x rd] { i.ctx with marks := (t.ctxOf i.c i.k).marks } (t.ctxOf i.c i.k)) ∧
      (∀ d, e.done = some d → d + (if sc = 1 then 0 else (i.c / 16 % 16 + i.c % 16) * i.core.stagger) ≤ s.clock → e.mixed = true → i.mayEnter →
        ∃ t, exec (.barw sc rd) s = .next t ∧ (t.pos i.c).svcause = BitVec.ofNat 64 (i.k * 2 ^ 40 + 0x01) ∧ (t.ctxOf i.c i.k).pc = i.job.handler ∧
          (∀ x ∈ (t.ctxOf i.c i.k).marks, x.scope ≠ sc.toNat) ∧ SameRegisters s t ∧ SameMemory s t)) ∧
    (sc = 1 → (s.patch i.c).fenced = false → (∀ m ∈ i.ctx.marks, m.scope ≠ 1) → ¬ EagerOpen s i 1 → (∀ n, n ≤ 10 → n ≠ i.k → (i.core.ctx n).live = false) → i.k ≤ 10 →
      (∀ e ∈ i.job.episodes, e.scope = 1 → e.extent = i.c → e.done.isSome = true ∧
        e.number < (i.job.episodes.filter fun x => x.scope == 1 && x.extent == i.c).length) →
      ∃ t, exec (.baraw sc op rd rs1) s = .next t ∧ Completed i t ∧ (t.ctxOf i.c i.k).getX rd = (if rd = 0 then 0 else i.ctx.getX rs1) ∧
        (∀ r, r ≠ rd → (t.ctxOf i.c i.k).getX r = i.ctx.getX r) ∧ SameMemory s t ∧ Keeps [.cores, .jobs] s t)

/-- How the values of a barrier combine: the sum modulo 2^64, bitwise OR, the unsigned maximum, the unsigned minimum (R279). -/
def Combined (op : Nat) (vs : List Word) (v : Word) : Prop :=
  (op = 0 → v.toNat = (vs.map BitVec.toNat).sum % 2 ^ 64) ∧ (op = 1 → ∀ n, v.getLsbD n = vs.any fun x => x.getLsbD n) ∧
  (op = 2 → v.toNat = (vs.map BitVec.toNat).foldl max 0) ∧ (op = 3 → v.toNat = (vs.map BitVec.toNat).foldl min (2 ^ 64 - 1))
/-- An episode whose participants have all arrived completes with the combination of their values by their op, and is marked when the ops differ; with
a participant that is fenced it stays open, though that one had arrived. The combination does not depend on the order of arrival. A context that waits at BARW, or at BARAW after its arrival, completes with the value once the episode is complete
and its core's stagger has passed (R218, R279, R289, R290). A message of the barrier tree makes its arrival at the open episode of its number; one with
another SSN than the job's is not combined, and the tree votes abort with LINK (R18, R280, R289). -/
def Obligations.EpisodesCombine : Prop :=
  (∀ (op : Nat) (vs : List Word), op < 4 → Combined op vs (combineAll op vs)) ∧
  (∀ (op : Nat) (vs ws : List Word), op < 4 → vs.Perm ws → combineAll op vs = combineAll op ws) ∧
  (∀ (s : State) (asid : Nat) (j : Job) (e : Episode) (a : Arrival) (rest : List Arrival), s.job? asid = some j → e ∈ j.episodes → e.done = none →
    e.arrivals = a :: rest → s.episodeFull j e = true →
    ∃ j' e', (s.completeEpisodes asid).job? asid = some j' ∧ e' ∈ j'.episodes ∧ e'.scope = e.scope ∧ e'.extent = e.extent ∧ e'.number = e.number ∧
      e'.done = some s.clock ∧ (e'.mixed = true ↔ ∃ b ∈ rest, b.op ≠ a.op) ∧ e'.value = combineAll a.op (e.arrivals.map Arrival.val)) ∧
  (∀ (s : State) (asid : Nat) (j : Job) (e : Episode) (c : CoreId), s.job? asid = some j → e ∈ j.episodes → e.done = none → (s.patch c).fenced = true →
    (e.scope = 1 ∧ e.extent = c ∨ e.scope ≠ 1 ∧ c ∈ j.places ∧ extentOf e.scope c = e.extent) →
    ∃ j', (s.completeEpisodes asid).job? asid = some j' ∧ e ∈ j'.episodes) ∧
  (∀ (s : State) (p : Nat) (m : Msg) (j : Job) (sc ext num ssn : Nat) (a : Arrival), s.net[p]? = some m → m.kind = .arrival sc ext num a ssn →
    s.job? m.asid = some j → j.verdict = none → j.held = false →
    (∀ e, e ∈ j.episodes → e.scope = sc → e.extent = ext → e.number = num → e.done = none → ssn = s.ssnOf j → Does (.barrierMessage p) s fun t =>
      t.net = s.net.eraseIdx p ∧ ∃ j' e', t.job? m.asid = some j' ∧ e' ∈ j'.episodes ∧ e'.scope = sc ∧ e'.extent = ext ∧ e'.number = num ∧
        e'.arrivals = e.arrivals ++ [a] ∧ (e'.done = none ∨ e'.done = some s.clock) ∧ SameRegisters s t ∧ SameMemory s t) ∧
    (ssn ≠ s.ssnOf j → Does (.barrierMessage p) s fun t => ∃ j', t.job? m.asid = some j' ∧ j'.episodes = j.episodes ∧ j'.doomed = true ∧
      ({ index := a.index, abort := true, cause := 0x0E, op := 0, val := 0 } : Vote) ∈ j'.proxies ∧ SameRegisters s t ∧ SameMemory s t)) ∧
  (∀ (s : State) (c : CoreId) (k : Nat) (core : Core) (j : Job) (sc : R3) (rd : R5) (m : Mark) (e : Episode), s.core? c = some core → s.job? core.asid = some j →
    ((core.ctx k).wait = some (.barw sc rd) ∨ ∃ op v, (core.ctx k).wait = some (.baraw sc op rd v true)) → (core.ctx k).marks.find? (fun x => x.scope == sc.toNat) = some m →
    j.episodes.find? (fun x => x.scope == m.scope && x.extent == extentOf m.scope c && x.number == m.episode) = some e →
    let due := fun (d : Nat) => d + (if sc = 1 then 0 else (c / 16 % 16 + c % 16) * core.stagger) ≤ s.clock
    ((∀ d, e.done = some d → ¬ due d) → exec (.barrierRelease c k) s = .next s) ∧
    (∀ d, e.done = some d → due d → e.mixed = false → Does (.barrierRelease c k) s fun t => OnlyCtx c k s t ∧
      (t.ctxOf c k).getX rd = (if rd = 0 then 0 else e.value) ∧ (∀ r, r ≠ rd → (t.ctxOf c k).getX r = (core.ctx k).getX r) ∧
      (t.ctxOf c k).pc = (core.ctx k).pc + 4 ∧ (t.ctxOf c k).wait = none ∧ ∀ x ∈ (t.ctxOf c k).marks, x.scope ≠ sc.toNat))

-- eager stores, deltas, atomics

/-- The dispatch takes the next coprocessor sequence number: its ring entry holds number, context and pc, and is valid and not done (R330). -/
def Dispatched (i : Issuer) (t : State) : Prop :=
  ∃ core' e, t.core? i.c = some core' ∧ core'.seqNext = i.core.seqNext + 1 ∧ dget? core'.ring (i.core.seqNext % 65536 % 64) = some e ∧
    e.seq = i.core.seqNext % 65536 ∧ e.ctx = i.k ∧ e.valid = true ∧ e.done = false ∧ e.pcoff = i.ctx.pc.toNat % 2 ^ 28
/-- RSTE.W and RSTE.D take a sequence number and send an eager write of the low 4 or 8 bytes to their home, tied to their slot; it performs at the home on
arrival and is acknowledged. No memory has changed when the instruction completes, and no register. FFENCE waits for the eager writes of its context to
homes in the extent of its scope and then sends its flag eagerly; a flag outside the extent traps BOUNDS (R248, R249, R299). That the flag's message carries address
0, so that a returned flag's trap does, is the model's reading (log entry 34). -/
def Obligations.EagerStores : Prop :=
  (∀ (s : State) (i : Issuer) (ins : Instr) (rs2 rs1 : R5) (slot : Option R3) (n : Nat) (d : Dest), s.issuer? = some i →
    (ins, n) ∈ [(Instr.rsteW rs2 rs1 slot, 4), (.rsteD rs2 rs1 slot, 8)] → (LocalAt i (i.ctx.getX rs1) n d ∨ MeshAt i (i.ctx.getX rs1) n d) →
    MayStore i d n →
    (i.core.ringFree = true →
      ∃ t core', exec ins s = .next t ∧ Completed i t ∧ CtxFrame [] i.ctx (t.ctxOf i.c i.k) ∧ Dispatched i t ∧ SameMemory s t ∧
        t.net = s.net ++ [i.message s.tickets (i.core.seqNext % 65536) none (.eager d n ((i.ctx.getX rs2).toNat % 256 ^ n) (i.ctx.getX rs1))] ∧
        t.core? i.c = some core' ∧ core'.eager = i.core.eager ++ [{ uid := s.tickets, ctx := i.k, seq := i.core.seqNext % 65536, slot := slot, cmd := none
                                                                    dest := d, addr := i.ctx.getX rs1 }] ∧
        Keeps [.cores, .net] (s.recordMem i.c i.k true (i.ctx.getX rs1)) t ∧ OtherCores i.c s t ∧ (∀ k, k ≠ i.k → t.ctxOf i.c k = s.ctxOf i.c k)) ∧
    (i.core.ringFree = false → OnlyWaits s i .ring (exec ins s))) ∧
  (∀ (s : State) (p : Nat) (m : Msg) (d t : Dest) (n v : Nat) (a : Word), s.net[p]? = some m → m.kind = .eager d n v a → s.overtaken p m d n = false →
    s.target m.asid d = some t → s.silentHome t = false → (∃ j, s.job? m.asid = some j) →
    ∃ u, exec (.eagerWriteArrival p) s = .next u ∧ StoresBytes s u m.asid t n v ∧ u.net = s.net.eraseIdx p ++ [{ m with kind := .eagerAck, home := some (s.forwarded m.asid d.core) }] ∧
      SameRegisters s u ∧ KeepsButCounts [.cores, .jobs, .net] m.src d.core s u) ∧
  (∀ (s : State) (p : Nat) (m : Msg) (d : Dest) (n v : Nat) (a : Word), s.net[p]? = some m → m.kind = .eager d n v a → s.overtaken p m d n = false →
    s.target m.asid d = none →
    ∃ u, exec (.eagerWriteArrival p) s = .next u ∧ u.net = s.net.eraseIdx p ++ [{ m with kind := .returned false a, home := some (s.forwarded m.asid d.core) }] ∧ KeepsButCounts [.net] m.src d.core s u) ∧
  (∀ (s : State) (p : Nat) (m : Msg) (core : Core), s.net[p]? = some m → m.kind = .eagerAck → s.core? m.src = some core →
    (∀ e ∈ core.eager, e.uid = m.uid → e.cmd = none) →
    ∃ u core', exec (.eagerAckArrival p) s = .next u ∧ u.net = s.net.eraseIdx p ∧ u.core? m.src = some core' ∧
      core'.eager = core.eager.filter (fun e => e.uid != m.uid) ∧ core'.q = core.q ∧ core'.ctxs = core.ctxs ∧ SameMemory s u ∧ OtherCores m.src s u ∧
      Keeps [.cores, .net] s u) ∧
  (∀ (s : State) (i : Issuer) (sc : R3) (rs2 rs1 : R5) (d : Dest), s.issuer? = some i →
    (LocalAt i (i.ctx.getX rs1) 8 d ∨ MeshAt i (i.ctx.getX rs1) 8 d) → MayStore i d 8 →
    (s.homeIn i.core.asid sc.toNat i.c d = false → exec (.ffence sc rs2 rs1) s = .next (s.trapI i 0x04 (i.ctx.getX rs1))) ∧
    (s.homeIn i.core.asid sc.toNat i.c d = true → (∀ e ∈ i.core.eager, e.ctx = i.k → s.homeIn i.core.asid sc.toNat i.c e.dest = false) → i.core.queue 3 = [] →
      ∃ t core', exec (.ffence sc rs2 rs1) s = .next t ∧ Completed i t ∧ CtxFrame [] i.ctx (t.ctxOf i.c i.k) ∧ SameMemory s t ∧
        t.net = s.net ++ [i.message s.tickets 0 none (.eager d 8 (i.ctx.getX rs2).toNat 0)] ∧ t.core? i.c = some core' ∧
        core'.eager = i.core.eager ++ [{ uid := s.tickets, ctx := i.k, seq := 0, slot := none, cmd := none, dest := d, addr := 0 }] ∧
        Keeps [.cores, .net] (s.recordMem i.c i.k true (i.ctx.getX rs1)) t ∧ OtherCores i.c s t) ∧
    (s.homeIn i.core.asid sc.toNat i.c d = true → (∃ e ∈ i.core.eager, e.ctx = i.k ∧ s.homeIn i.core.asid sc.toNat i.c e.dest = true) →
      OnlyWaits (s.recordMem i.c i.k true (i.ctx.getX rs1)) i (.ffence sc d (i.ctx.getX rs2)) (exec (.ffence sc rs2 rs1) s)))

/-- A reduce-delta: address, operation, alignment, bytes, operand. -/
def deltaForm (k : Ctx) : Instr → Option (Word × DeltaOp × Nat × Nat × Word)
  | .rredAddW rs2 rs1 => some (k.getX rs1, .addW, 4, 4, k.getX rs2)
  | .rredAddD rs2 rs1 => some (k.getX rs1, .addD, 8, 8, k.getX rs2)
  | .rredMin rs2 rs1 => some (k.getX rs1, .min, 8, 8, k.getX rs2)
  | .rredMax rs2 rs1 => some (k.getX rs1, .max, 8, 8, k.getX rs2)
  | .rredOr rs2 rs1 => some (k.getX rs1, .or, 8, 8, k.getX rs2)
  | .rredFadd fs2 rs1 => some (k.getX rs1, .fadd, 16, 48, BitVec.ofNat 64 (k.getF fs2).toNat)
  | _ => none
/-- RRED.ADD.W, RRED.ADD.D, RRED.MIN, RRED.MAX, RRED.OR and RRED.FADD are deferred to commit whatever their target: the delta joins the core's deferred
effects, by a mesh form a check of membership travels, and no memory and no register changes (R302). -/
def Obligations.ReduceDeltas : Prop :=
  ∀ (s : State) (i : Issuer) (ins : Instr) (a v : Word) (op : DeltaOp) (al n : Nat) (d : Dest) (mesh : Bool), s.issuer? = some i →
    deltaForm i.ctx ins = some (a, op, al, n, v) → a.toNat % al = 0 → d.off + n ≤ i.job.limitOf d.space →
    (mesh = true ∧ MeshAt i a 1 d ∨ mesh = false ∧ LocalAt i a 1 d) → MayStore i d n →
    ∃ t core', exec ins s = .next t ∧ Completed i t ∧ CtxFrame [] i.ctx (t.ctxOf i.c i.k) ∧ SameMemory s t ∧ t.core? i.c = some core' ∧
      core'.deferred = i.core.deferred ++ [{ dest := d, op := .delta op v }] ∧
      t.net = s.net ++ (if mesh then [i.message s.tickets 0 none (.check d a)] else []) ∧
      Keeps [.cores, .net] (s.recordMem i.c i.k true a) t ∧ OtherCores i.c s t ∧ (∀ k, k ≠ i.k → t.ctxOf i.c k = s.ctxOf i.c k)

/-- What an atomic writes at its home over `old`, if it writes: RFAA the sum modulo 2^64, RCAS x[rs2] when the old value is x[rs3], RSWP x[rs2]. -/
def atomicForm (k : Ctx) (old : Nat) : Instr → Option (R5 × R5 × Nat × Word × Word × Option Nat)
  | .rfaa rd rs2 rs1 => some (rd, rs1, 0, k.getX rs2, 0, some ((old + (k.getX rs2).toNat) % 2 ^ 64))
  | .rcas rd rs2 rs3 rs1 => some (rd, rs1, 1, k.getX rs2, k.getX rs3, if old = (k.getX rs3).toNat then some (k.getX rs2).toNat else none)
  | .rswp rd rs2 rs1 => some (rd, rs1, 2, k.getX rs2, 0, some (k.getX rs2).toNat)
  | _ => none
/-- The request of an order group and the answer to one (R301). -/
def orderReqOf (k : Core) (x : Msg) (add : Word) (count : Nat) : OrderReq :=
  { index := k.index, core := x.src, ctx := x.ctx, uid := x.uid, addend := add, count := count }
def orderAnswer (asid : Nat) (r : OrderReq) (home : CoreId) (kind : MsgKind) : Msg :=
  { src := r.core, ctx := r.ctx, asid := asid, uid := r.uid, seq := 0, cmd := none, kind := kind, home := some home }
/-- RFAA, RCAS and RSWP by a local form perform at once: rd gets the old doubleword and the new one is stored; RCAS stores only on equality. By a mesh form
they go to their home and wait for the old value, as RFAAO does with any form; the operation is one access at the home. An order group performs once full, in
ascending index, each member receiving the value before its own addend; a member whose count differs is refused (R300, R301). A location spilled to a
poisoned page gives POISON, to every member of a full group (R20, R123). -/
def Obligations.Atomics : Prop :=
  (∀ (s : State) (i : Issuer) (ins : Instr) (rd rs1 : R5) (op : Nat) (a b : Word) (new : Option Nat) (d : Dest), s.issuer? = some i →
    atomicForm i.ctx (s.bytesAt i.core.asid d 8) ins = some (rd, rs1, op, a, b, new) → LocalAt i (i.ctx.getX rs1) 8 d → MayStore i d 8 →
    NoEagerOver s i d 8 → Reads s i d 8 [ins]
    (∃ t, exec ins s = .next t ∧ Completed i t ∧ (t.ctxOf i.c i.k).getX rd = (if rd = 0 then 0 else BitVec.ofNat 64 (s.bytesAt i.core.asid d 8)) ∧
      CtxFrame [.x rd] i.ctx (t.ctxOf i.c i.k) ∧ StoresBytes s t i.core.asid d 8 (new.getD (s.bytesAt i.core.asid d 8)) ∧
      Keeps [.cores, .jobs] (s.recordMem i.c i.k true (i.ctx.getX rs1)) t ∧ (∀ k, k ≠ i.k → t.ctxOf i.c k = s.ctxOf i.c k) ∧ OtherJobs i.core.asid s t)) ∧
  (∀ (s : State) (i : Issuer) (ins : Instr) (rd rs1 : R5) (op : Nat) (a b : Word) (new : Option Nat) (d : Dest), s.issuer? = some i →
    atomicForm i.ctx 0 ins = some (rd, rs1, op, a, b, new) → MeshAt i (i.ctx.getX rs1) 8 d → MayStore i d 8 →
    SendsAndWaits (s.recordMem i.c i.k true (i.ctx.getX rs1)) i (.atomic (i.ctx.getX rs1) rd) (.atomic d op a b (i.ctx.getX rs1)) (exec ins s)) ∧
  (∀ (s : State) (i : Issuer) (rd rs2 rs3 rs1 : R5) (d : Dest), s.issuer? = some i →
    (LocalAt i (i.ctx.getX rs1) 8 d ∨ MeshAt i (i.ctx.getX rs1) 8 d) → MayStore i d 8 →
    (1 ≤ (i.ctx.getX rs3).toNat → (i.ctx.getX rs3).toNat ≤ i.job.n →
      SendsAndWaits (s.recordMem i.c i.k true (i.ctx.getX rs1)) i (.rfaao (i.ctx.getX rs1) rd)
        (.order d (i.ctx.getX rs2) (i.ctx.getX rs3).toNat (i.ctx.getX rs1)) (exec (.rfaao rd rs2 rs3 rs1) s)) ∧
    ((i.ctx.getX rs3).toNat = 0 ∨ i.job.n < (i.ctx.getX rs3).toNat →
      exec (.rfaao rd rs2 rs3 rs1) s = .next (s.trapI i 0x01 (s.ir.setWidth 64)))) ∧
  (∀ (s : State) (n : Nat) (x : Msg) (d d' : Dest) (op : Nat) (a b addr : Word), s.net[n]? = some x → x.kind = .atomic d op a b addr → s.overtaken n x d 8 = false →
    (s.target x.asid d = none → Does (.atomicArrival n) s fun t => t.net = s.net.eraseIdx n ++ [{ x with kind := .returned true addr, home := some (s.forwarded x.asid d.core) }] ∧ KeepsButCounts [.net] x.src d.core s t) ∧
    (∀ pa, s.target x.asid d = some d' → s.silentHome d' = false → s.spillPoison x.asid d' 8 = some pa → Does (.atomicArrival n) s fun t =>
      t.net = s.net.eraseIdx n ++ [{ x with kind := .poisoned pa, home := some (s.forwarded x.asid d.core) }] ∧ KeepsButCounts [.net] x.src d.core s t) ∧
    (s.target x.asid d = some d' → s.silentHome d' = false → s.spillPoison x.asid d' 8 = none → (s.job? x.asid).isSome = true → Does (.atomicArrival n) s fun t =>
      let old := s.bytesAt x.asid d' 8
      StoresBytes s t x.asid d' 8 (if op = 0 then old + a.toNat else if op = 1 then (if old = b.toNat then a.toNat else old) else a.toNat) ∧
        t.net = s.net.eraseIdx n ++ [{ x with kind := .response old, home := some (s.forwarded x.asid d.core) }] ∧ SameRegisters s t)) ∧
  (∀ (s : State) (n : Nat) (x : Msg) (d d' : Dest) (add : Word) (count : Nat) (addr : Word) (k : Core) (j : Job), s.net[n]? = some x → x.kind = .order d add count addr →
    s.overtaken n x d 8 = false → s.target x.asid d = some d' → s.silentHome d' = false → s.core? x.src = some k → s.job? x.asid = some j →
    let r : OrderReq := orderReqOf k x add count
    let here := fun (g : OrderGroup) => sameHome g.dest d' && g.dest.off == d'.off
    (j.groups.find? here = none → 1 < count → Does (.orderGroupArrival n) s fun t => t.net = s.net.eraseIdx n ∧ SameMemory s t ∧ KeepsButCounts [.jobs, .net] x.src d.core s t ∧
      OtherJobs x.asid s t ∧ ∃ y g, t.job? x.asid = some y ∧ g ∈ y.groups ∧ g.dest = d' ∧ g.count = count ∧ g.members = [r]) ∧
    (∀ g, j.groups.find? here = some g → g.count ≠ count → Does (.orderGroupArrival n) s fun t => KeepsButCounts [.net] x.src d.core s t ∧
      t.net = s.net.eraseIdx n ++ [orderAnswer x.asid r d'.core .orderBad]) ∧
    (∀ g, j.groups.find? here = some g → g.count = count → (∀ q ∈ g.members, q.index ≠ k.index) → g.members.length + 1 = count → g.held = [] →
      (g.members.map OrderReq.index).Nodup → g.dest = d' → s.spillPoison x.asid d' 8 = none → Does (.orderGroupArrival n) s fun t =>
        let old := s.bytesAt x.asid d' 8
        let before := fun (i : Nat) => (((g.members ++ [r]).filter fun q => q.index < i).map fun q => q.addend.toNat).sum
        StoresBytes s t x.asid d' 8 (old + ((g.members ++ [r]).map fun q => q.addend.toNat).sum) ∧ SameRegisters s t ∧
          ∀ q ∈ g.members ++ [r], orderAnswer x.asid q d'.core (.response ((old + before q.index) % 2 ^ 64)) ∈ t.net) ∧
    (∀ g pa, j.groups.find? here = some g → g.count = count → (∀ q ∈ g.members, q.index ≠ k.index) → g.members.length + 1 = count → g.held = [] →
      g.dest = d' → s.spillPoison x.asid d' 8 = some pa → Does (.orderGroupArrival n) s fun t =>
        SameMemory s t ∧ SameRegisters s t ∧ ∀ q ∈ g.members ++ [r], orderAnswer x.asid q d'.core (.poisoned pa) ∈ t.net)) ∧
  (∀ (s : State) (p : Nat) (m : Msg) (core : Core) (pa : Nat) (a : Word) (rd : R5), s.net[p]? = some m → m.kind = .poisoned pa → s.core? m.src = some core →
    (core.ctx m.ctx).wait = some (.atomic a rd) ∨ (core.ctx m.ctx).wait = some (.rfaao a rd) → (core.ctx m.ctx).level ≠ .firmware → core.active = true →
    Does (.responseArrival p) s (PoisonStops s m.src core pa))

-- mailboxes, queues, hampers, rings, flags

/-- The neighbour of a position: 0 north, 1 east, 2 south, 3 west, on its die (R140). -/
def Beside (c : CoreId) (dir : Nat) (d : CoreId) : Prop :=
  (dir = 0 ∧ d + 16 = c ∧ 16 ≤ c % 256) ∨ (dir = 1 ∧ d = c + 1 ∧ c % 16 ≠ 15) ∨ (dir = 2 ∧ d = c + 16 ∧ c % 256 < 240) ∨ (dir = 3 ∧ d + 1 = c ∧ c % 16 ≠ 0)
/-- NPOST sends its value to the neighbour's mailbox of the same index in the opposite group and waits; outward at the die's edge it traps BOUNDS with
`svtval` 0. The post is delivered once the presence bit is clear: value and bit are set and the poster completes. NGET takes the value and clears the bit,
or ends with 0 and a clear predicate after `nbwait` cycles, at once when it is 0; no time-out comes once the commit watchdog is due (R140, R259 to R261,
R376). -/
def Obligations.Mailboxes : Prop :=
  (∀ (s : State) (i : Issuer) (mb : BitVec 4) (rs1 : R5) (d : CoreId), s.issuer? = some i → Beside i.c (mb.toNat / 4) d →
    ∃ t core', exec (.npost mb rs1) s = .next t ∧ WaitsFor i (.npost s.tickets) t ∧
      t.net = s.net ++ [i.message s.tickets 0 none (.post d ((mb.toNat + 8) % 16) (i.ctx.getX rs1))] ∧ t.core? i.c = some core' ∧
      { core' with ctxs := i.core.ctxs, posts := i.core.posts } = i.core ∧ core'.posts = s.tickets :: i.core.posts ∧ Keeps [.cores, .net] s t ∧ OtherCores i.c s t) ∧
  (∀ (s : State) (i : Issuer) (mb : BitVec 4) (rs1 : R5), s.issuer? = some i → (∀ d, ¬ Beside i.c (mb.toNat / 4) d) →
    exec (.npost mb rs1) s = .next (s.trapI i 0x04 0)) ∧
  (∀ (s : State) (p : Nat) (m : Msg) (target : CoreId) (mb : Nat) (v : Word) (core : Core), s.net[p]? = some m → m.kind = .post target mb v →
    s.forwarded m.asid target = target → s.belongs m.asid target = true → s.core? target = some core → core.dead = false → mb ∉ core.present →
    (∀ e ∈ s.net.take p, e.src ≠ m.src) → target ≠ m.src →
    ∃ u core', exec (.mailboxPostArrival p) s = .next u ∧ u.net = s.net.eraseIdx p ∧ u.core? target = some core' ∧ sget core'.mb mb = v ∧
      core'.present = mb :: core.present ∧ (∀ n, n ≠ mb → sget core'.mb n = sget core.mb n) ∧ SameRegisters s u ∧ SameMemory s u ∧
      ((u.ctxOf m.src m.ctx).wait = if (s.ctxOf m.src m.ctx).wait = some (.npost m.uid) then none else (s.ctxOf m.src m.ctx).wait)) ∧
  (∀ (s : State) (i : Issuer) (rd : R5) (mb : BitVec 4) (pk : R3), s.issuer? = some i → pk ≠ 0 →
    (mb.toNat ∈ i.core.present →
      ∃ t core', exec (.nget rd mb pk) s = .next t ∧ Completed i t ∧ (t.ctxOf i.c i.k).getX rd = (if rd = 0 then 0 else sget i.core.mb mb.toNat) ∧
        (t.ctxOf i.c i.k).getP pk = BitVec.allOnes 64 ∧ CtxFrame [.x rd, .p pk] i.ctx (t.ctxOf i.c i.k) ∧ t.core? i.c = some core' ∧
        core'.present = i.core.present.filter (· ≠ mb.toNat) ∧ SameMemory s t ∧ Keeps [.cores] (s.recordPred i.c i.k (BitVec.allOnes 64)) t ∧ OtherCores i.c s t) ∧
    (mb.toNat ∉ i.core.present → i.core.nbwait = 0 →
      ∃ t, exec (.nget rd mb pk) s = .next t ∧ Completed i t ∧ (t.ctxOf i.c i.k).getX rd = 0 ∧ (t.ctxOf i.c i.k).getP pk = 0 ∧
        RegistersOnly i [.x rd, .p pk] (s.recordPred i.c i.k 0) t) ∧
    (mb.toNat ∉ i.core.present → i.core.nbwait ≠ 0 → OnlyWaits s i (.nget rd mb pk (s.clock + i.core.nbwait)) (exec (.nget rd mb pk) s))) ∧
  (∀ (s : State) (c : CoreId) (core : Core) (k : Nat) (rd : R5) (mb : BitVec 4) (pk : R3) (until_ : Nat), s.core? c = some core →
    (core.ctx k).wait = some (.nget rd mb pk until_) → until_ ≤ s.clock → mb.toNat ∉ core.present → pk ≠ 0 →
    (∀ j, s.job? core.asid = some j → j.ran s.clock ≤ j.wdog) →
    ∃ t, exec (.ngetTimeout c k) s = .next t ∧ (t.ctxOf c k).getX rd = 0 ∧ (t.ctxOf c k).getP pk = 0 ∧ (t.ctxOf c k).wait = none ∧
      (t.ctxOf c k).pc = (core.ctx k).pc + 4 ∧ CtxFrame [.x rd, .p pk] (core.ctx k) (t.ctxOf c k) ∧ SameMemory s t) ∧
  (∀ (s : State) (c : CoreId) (core : Core) (j : Job) (k : Nat), s.core? c = some core → s.job? core.asid = some j → j.wdog < j.ran s.clock →
    exec (.ngetTimeout c k) s = .next s)

/-- The fields of a hamper of 16 bytes (R251). -/
structure HamperFields where
  expected : Nat
  arrived : Nat
  phase : Bool
  armed : Bool
  arrivals : Nat
/-- The bytes hold a hamper; their reserved bits are `r`. -/
def HamperIs (h : HamperFields) (r : Nat) (b : Nat) : Prop :=
  h.expected = b % 2 ^ 32 ∧ h.arrived = b / 2 ^ 32 % 2 ^ 32 ∧ h.phase = (b / 2 ^ 64 % 2 == 1) ∧ h.armed = (b / 2 ^ 65 % 2 == 1) ∧ h.arrivals = b / 2 ^ 80 % 2 ^ 16
    ∧ r = b / 2 ^ 66 % 2 ^ 14 + b / 2 ^ 96 % 2 ^ 32 * 2 ^ 14
/-- A hamper after the test that follows an arrival or an arming: armed with enough bytes it completes (R252). -/
def HamperFields.tested (h : HamperFields) : HamperFields :=
  if h.armed = true ∧ h.expected ≤ h.arrived then { h with arrived := h.arrived - h.expected, phase := !h.phase, armed := false } else h
/-- The instruction changes the 16 bytes at `d` to a hamper, and no register and no other byte. -/
def HamperBecomes (s : State) (i : Issuer) (d : Dest) (h : HamperFields) (r : Nat) (res : Result) : Prop :=
  ∃ t, res = .next t ∧ Completed i t ∧ HamperIs h r (t.bytesAt i.core.asid d 16) ∧ (∀ a d', ¬ Stored i.core.asid d 16 a d' → t.byteAt a d' = s.byteAt a d') ∧
    SameRegisters s t ∧ Keeps [.cores, .jobs] s t
/-- HMARM arms an unarmed hamper with a nonzero count and clears ARRIVALS, or traps HAMPER and changes nothing; HMADD is one arrival of x[rs2][31:0] bytes,
saturating, also of 0 bytes; both complete the hamper when the bytes suffice. HMWAIT completes at once in the phase it names, traps HAMPER when nothing can
flip the phase, and else waits; WAITF completes at once when the doubleword is at least x[rs2] and else waits; the trace unit records the access (R251 to R253, R255, R356). Bytes spilled to a poisoned page give POISON (R20, R123). -/
def Obligations.Hampers : Prop :=
  ∀ (s : State) (i : Issuer) (rs2 rs1 : R5) (d : Dest) (h : HamperFields) (r : Nat), s.issuer? = some i → d.space ≠ .dss →
    (LocalAt i (i.ctx.getX rs1) 16 d → NoEagerOver s i d 16 → HamperIs h r (s.bytesAt i.core.asid d 16) →
      Reads s i d 16 [.hmarm rs2 rs1, .hmadd rs2 rs1, .hmwait rs2 rs1] (
      let e := (i.ctx.getX rs2).toNat % 2 ^ 32
      let s0 := s.recordMem i.c i.k true (i.ctx.getX rs1)
      let s1 := s.recordMem i.c i.k false (i.ctx.getX rs1)
      (h.armed = false → e ≠ 0 → HamperBecomes s0 i d (HamperFields.tested { h with expected := e, arrivals := 0, armed := true }) r (exec (.hmarm rs2 rs1) s)) ∧
      (h.armed = true ∨ e = 0 → exec (.hmarm rs2 rs1) s = .next (s0.trapI i 0x07 0)) ∧
      HamperBecomes s0 i d (HamperFields.tested { h with arrived := min (h.arrived + e) (2 ^ 32 - 1), arrivals := (h.arrivals + 1) % 2 ^ 16 }) r
        (exec (.hmadd rs2 rs1) s) ∧
      (h.phase = (i.ctx.getX rs2).getLsbD 0 → OnlyAdvances s1 i (exec (.hmwait rs2 rs1) s)) ∧
      (h.phase ≠ (i.ctx.getX rs2).getLsbD 0 → h.armed = false → exec (.hmwait rs2 rs1) s = .next (s1.trapI i 0x07 0)) ∧
      (h.phase ≠ (i.ctx.getX rs2).getLsbD 0 → h.armed = true → OnlyWaits s1 i (.hmwait d ((i.ctx.getX rs2).getLsbD 0)) (exec (.hmwait rs2 rs1) s)))) ∧
    (LocalAt i (i.ctx.getX rs1) 8 d → NoEagerOver s i d 8 → Reads s i d 8 [.waitf rs2 rs1] (
      ((i.ctx.getX rs2).toNat ≤ s.bytesAt i.core.asid d 8 → OnlyAdvances (s.recordMem i.c i.k false (i.ctx.getX rs1)) i (exec (.waitf rs2 rs1) s)) ∧
      (s.bytesAt i.core.asid d 8 < (i.ctx.getX rs2).toNat → OnlyWaits (s.recordMem i.c i.k false (i.ctx.getX rs1)) i (.waitf d (i.ctx.getX rs2)) (exec (.waitf rs2 rs1) s))))

/-- The fields of a ring control block (R256). -/
structure RingFields where
  base : Nat
  slotSize : Nat
  nslot : Nat
  free : Nat
  filled : Nat
  put : Nat
  get : Nat
/-- The bytes hold a ring block with the reserved bits `r`. -/
def RingIs (g : RingFields) (r : Nat) (b : Nat) : Prop :=
  g.base = b % 2 ^ 64 ∧ g.slotSize = b / 2 ^ 64 % 2 ^ 32 ∧ g.nslot = b / 2 ^ 96 % 2 ^ 16 ∧ g.free = b / 2 ^ 128 % 2 ^ 32 ∧ g.filled = b / 2 ^ 160 % 2 ^ 32 ∧
    g.put = b / 2 ^ 192 % 2 ^ 16 ∧ g.get = b / 2 ^ 208 % 2 ^ 16 ∧ r = b / 2 ^ 112 % 2 ^ 16 + b / 2 ^ 224 % 2 ^ 32 * 2 ^ 16
/-- The block is valid (R256). -/
def RingFields.Valid (g : RingFields) (i : Issuer) : Prop :=
  g.slotSize % 32 = 0 ∧ 32 ≤ g.slotSize ∧ g.slotSize ≤ 0x100000 ∧ g.get ≤ g.nslot ∧ g.put ≤ g.nslot ∧ g.free + g.filled ≤ g.nslot + 1 ∧
    ∃ d, LocalAt i (BitVec.ofNat 64 g.base) 32 d ∧ d.space ≠ .dss ∧ d.off + (g.nslot + 1) * g.slotSize ≤ i.job.limitOf d.space
/-- RGET takes the slot at GETIX of a valid ring with a filled slot: its address goes to rd, FILLED falls by one and GETIX moves on, in one access; with none it
waits. RPUT adds its count to FREE, or traps RING when that would exceed the slots. An invalid block traps RING and nothing changes (R256 to R258). The trace
unit records the access (R356). A block spilled to a poisoned page gives POISON (R20, R123). No
eager write of the context to the block is in flight, and for the RPUT that completes none to a slot. -/
def Obligations.Rings : Prop :=
  ∀ (s : State) (i : Issuer) (rd rs2 rs1 : R5) (d : Dest) (g : RingFields) (r : Nat), s.issuer? = some i → LocalAt i (i.ctx.getX rs1) 32 d → d.space ≠ .dss →
    NoEagerOver s i d 32 → RingIs g r (s.bytesAt i.core.asid d 32) →
    Reads s i d 32 [.rget rd rs1, .rput rs2 rs1] (
    let s0 := s.recordMem i.c i.k true (i.ctx.getX rs1)
    (¬ g.Valid i → exec (.rget rd rs1) s = .next (s0.trapI i 0x06 0) ∧ exec (.rput rs2 rs1) s = .next (s0.trapI i 0x06 0)) ∧
    (g.Valid i → g.filled = 0 → OnlyWaits s0 i (.rget rd d) (exec (.rget rd rs1) s)) ∧
    (g.Valid i → 0 < g.filled →
      ∃ t, exec (.rget rd rs1) s = .next t ∧ Completed i t ∧ CtxFrame [.x rd] i.ctx (t.ctxOf i.c i.k) ∧
        (t.ctxOf i.c i.k).getX rd = (if rd = 0 then 0 else BitVec.ofNat 64 (g.base + g.get * g.slotSize)) ∧
        RingIs { g with filled := g.filled - 1, get := (g.get + 1) % (g.nslot + 1) } r (t.bytesAt i.core.asid d 32) ∧
        (∀ a d', ¬ Stored i.core.asid d 32 a d' → t.byteAt a d' = s.byteAt a d') ∧ Keeps [.cores, .jobs] s0 t) ∧
    (g.Valid i → g.free + g.filled + (i.ctx.getX rs2).toNat ≤ g.nslot + 1 →
      (∀ b, locate i.c (BitVec.ofNat 64 g.base) = some b → NoEagerOver s i b ((g.nslot + 1) * g.slotSize)) →
      ∃ t, exec (.rput rs2 rs1) s = .next t ∧ Completed i t ∧ CtxFrame [] i.ctx (t.ctxOf i.c i.k) ∧
        RingIs { g with free := g.free + (i.ctx.getX rs2).toNat } r (t.bytesAt i.core.asid d 32) ∧
        (∀ a d', ¬ Stored i.core.asid d 32 a d' → t.byteAt a d' = s.byteAt a d') ∧ Keeps [.cores, .jobs] s0 t) ∧
    (g.Valid i → g.nslot + 1 < g.free + g.filled + (i.ctx.getX rs2).toNat → exec (.rput rs2 rs1) s = .next (s0.trapI i 0x06 0)))

-- command pushes

/-- A push: queue, pair code, rs1, patch, scales. -/
def pushForm (k : Ctx) : Instr → Option (Nat × Option Nat × R5 × Word × Word)
  | .enq q rs1 => some (q.toNat, none, rs1, 0, 0)
  | .enqp q rs1 rs2 => some (q.toNat, none, rs1, k.getX rs2, 0)
  | .mxiBf16Bf16 rs1 rs2 n => if n = 31 then none else some (0, some 1, rs1, k.getX rs2, BitVec.ofNat 64 ((k.getF (n + 1)).toNat * 2 ^ 32 + (k.getF n).toNat))
  | .mxiBf16Qt16 rs1 rs2 n => if n = 31 then none else some (0, some 2, rs1, k.getX rs2, BitVec.ofNat 64 ((k.getF (n + 1)).toNat * 2 ^ 32 + (k.getF n).toNat))
  | .mxiQt16Qt16 rs1 rs2 n => if n = 31 then none else some (0, some 3, rs1, k.getX rs2, BitVec.ofNat 64 ((k.getF (n + 1)).toNat * 2 ^ 32 + (k.getF n).toNat))
  | .mxiQt8Qt8 rs1 rs2 n => if n = 31 then none else some (0, some 4, rs1, k.getX rs2, BitVec.ofNat 64 ((k.getF (n + 1)).toNat * 2 ^ 32 + (k.getF n).toNat))
  | .mxiI8I8 rs1 rs2 n => if n = 31 then none else some (0, some 5, rs1, k.getX rs2, BitVec.ofNat 64 ((k.getF (n + 1)).toNat * 2 ^ 32 + (k.getF n).toNat))
  | .mxiI8Tern rs1 rs2 n => if n = 31 then none else some (0, some 6, rs1, k.getX rs2, BitVec.ofNat 64 ((k.getF (n + 1)).toNat * 2 ^ 32 + (k.getF n).toNat))
  | _ => none
/-- A descriptor with its OFFSET field, bits [29:0], advanced modulo 2^30. -/
def Patched (d d' : Nat) (p : Nat) : Prop := d' % 2 ^ 30 = (d + p) % 2 ^ 30 ∧ d' / 2 ^ 30 = d / 2 ^ 30
/-- The pushed command: its words from the template, the ring accumulator, its context and sequence number (R151, R176, R220). -/
def PushedAs (i : Issuer) (pair : Option Nat) (scales : Word) (tm : Template) (n size seq : Nat) (m : Cmd) : Prop :=
  m.ctx = i.k ∧ m.seq = seq ∧ m.stage = .queued ∧ m.firing = none ∧
    m.d0.toNat = (match pair with | none => tm.d0.toNat | some code => tm.d0.toNat / 2 ^ 16 * 2 ^ 16 + code * 2 ^ 8 + tm.d0.toNat % 2 ^ 8) ∧
    m.d1 = tm.d1 ∧ m.d2 = tm.d2 ∧ m.d3 = (if pair.isSome then scales else tm.d3) ∧
    m.acc = tm.d0.toNat / 2 ^ 16 % 8 + (if n = 0 then 0 else (i.ctx.getLc (n - 1)).toNat % size)
/-- A push changes nothing outside its core but the trace of its core's position, and that only where the core traces its accesses (R356). -/
def PushKeeps (s : State) (i : Issuer) (t : State) : Prop :=
  Keeps [.cores, .positions] s t ∧ OtherPositions i.c s t ∧ OtherCores i.c s t ∧ (i.untraced → Keeps [.cores] s t)
/-- The push completes: the command is the last of its queue, a named loop counter has moved on, and no other register and no memory has changed. -/
def PushCompletes (s : State) (i : Issuer) (ins : Instr) (q : Nat) (pair : Option Nat) (scales : Word) (tm : Template) (n size : Nat) : Prop :=
  ∃ t core' m, exec ins s = .next t ∧ Completed i t ∧ Dispatched i t ∧ t.core? i.c = some core' ∧ core'.queue q = i.core.queue q ++ [m] ∧
    (∀ q', q' ≠ q → core'.queue q' = i.core.queue q') ∧ PushedAs i pair scales tm n size (i.core.seqNext % 65536) m ∧
    (n ≠ 0 → (t.ctxOf i.c i.k).getLc (n - 1) = BitVec.ofNat 64 (((i.ctx.getLc (n - 1)).toNat + 1) % size)) ∧
    CtxFrame (if n = 0 then [] else [.lc (n - 1)]) i.ctx (t.ctxOf i.c i.k) ∧ SameMemory s t ∧ PushKeeps s i t
/-- The template `tm` of a push stands at `d`, its OFFSETs patched. -/
def TemplateAt (s : State) (i : Issuer) (d : Dest) (p : Word) (tm : Template) : Prop :=
  tm.d0.toNat = s.bytesAt i.core.asid d 8 ∧ Patched (s.bytesAt i.core.asid { d with off := d.off + 8 } 8) tm.d1.toNat (p.toNat % 2 ^ 30) ∧
    Patched (s.bytesAt i.core.asid { d with off := d.off + 16 } 8) tm.d2.toNat (p.toNat / 2 ^ 32 % 2 ^ 30) ∧
    tm.d3.toNat = s.bytesAt i.core.asid { d with off := d.off + 24 } 8
/-- ENQ, ENQP and the six MXI read their template, patch the OFFSETs, check it, take the ring index of a loop counter and advance it, stamp the pair code and
the scales, take a sequence number and enter the command at the end of its queue; with a full queue or ring they wait with the command as it stood at issue, and
it enters, with its sequence number, once ring and queue have room. No memory changes and no register but the loop counter (R151, R176, R219, R220, R246,
R330); the trace unit records the reads (R356).
No eager write of the context to the template or to the doubleword of an indirect descriptor is in flight. -/
def CommandPushesRule : Prop :=
  ∀ (s : State) (i : Issuer) (ins : Instr) (q : Nat) (pair : Option Nat) (rs1 : R5) (p scales : Word) (d : Dest) (tm : Template), s.issuer? = some i →
    pushForm i.ctx ins = some (q, pair, rs1, p, scales) → LocalAt i (i.ctx.getX rs1) 32 d → d.space = .tcm → NoEagerOver s i d 32 → q < 4 →
    TemplateAt s i d p tm → (∀ x ∈ [tm.d1, tm.d2], tSpace x = 3 → NoEagerOver s i { core := i.c, space := .tcm, off := tOffset x } 8) →
    (templateCause i.core q pair tm = none → i.core.ringFree = true → (i.core.queue q).length < [16, 32, 16, 32].getD q 0 →
      PushCompletes s i ins q pair scales tm (tm.d0.toNat / 2 ^ 22 % 4) (2 ^ (tm.d0.toNat / 2 ^ 19 % 8))) ∧
    (templateCause i.core q pair tm = none → i.core.ringFree = false →
      ∃ t m lc, exec ins s = .next t ∧ (t.ctxOf i.c i.k).wait = some (.ringPush q m lc) ∧ (t.ctxOf i.c i.k).pc = i.ctx.pc ∧
        PushedAs i pair scales tm (tm.d0.toNat / 2 ^ 22 % 4) (2 ^ (tm.d0.toNat / 2 ^ 19 % 8)) 0 m ∧ SameMemory s t ∧ PushKeeps s i t ∧
        (∀ core', t.core? i.c = some core' → core'.q = i.core.q ∧ core'.ring = i.core.ring ∧ core'.seqNext = i.core.seqNext)) ∧
    (templateCause i.core q pair tm = none → i.core.ringFree = true → [16, 32, 16, 32].getD q 0 ≤ (i.core.queue q).length →
      ∃ t m lc, exec ins s = .next t ∧ (t.ctxOf i.c i.k).wait = some (.push q m lc) ∧ (t.ctxOf i.c i.k).pc = i.ctx.pc ∧ Dispatched i t ∧ SameMemory s t ∧
        PushKeeps s i t ∧ PushedAs i pair scales tm (tm.d0.toNat / 2 ^ 22 % 4) (2 ^ (tm.d0.toNat / 2 ^ 19 % 8)) (i.core.seqNext % 65536) m)
/-- A command that waits for its ring entry enters as it stands once the entry is free and its queue has room, and not before (R151, R330). -/
def WaitingPushRule : Prop :=
  ∀ (s : State) (c : CoreId) (core : Core) (k q : Nat) (m : Cmd) (lc : Option (Nat × Word)), s.core? c = some core → core.active = true →
    (core.ctx k).wait = some (.ringPush q m lc) → q < 4 →
    (core.ringFree = false → s.retry c k = s) ∧
    (core.ringFree = true → (core.queue q).length < [16, 32, 16, 32].getD q 0 →
      ∃ core' m', (s.retry c k).core? c = some core' ∧ core'.queue q = core.queue q ++ [m'] ∧ m'.seq = core.seqNext % 65536 ∧ m'.d0 = m.d0 ∧ m'.d1 = m.d1 ∧
        m'.d2 = m.d2 ∧ m'.d3 = m.d3 ∧ m'.a1 = m.a1 ∧ m'.a2 = m.a2 ∧ m'.acc = m.acc ∧ m'.ctx = m.ctx ∧ (core'.ctx k).pc = (core.ctx k).pc + 4 ∧
        (core'.ctx k).wait = none ∧ SameMemory s (s.retry c k) ∧ OtherCores c s (s.retry c k))

/-- The checks of a push in their order, for any kind: a reserved KIND, a queue that does not take the kind, `MMA` or `MMAG` by ENQ or ENQP and another kind by
MXI, a nonzero PAIR by ENQ or ENQP, a reserved RING code and a reserved bit of the header trap ILLEGAL; then an ACCBASE and ring size above 8 traps GROUP; then a
HAMPER that is not a multiple of 16 traps ALIGN and one beyond TCM BOUNDS. MXI with rs3 = 31 traps GROUP. A push that traps changes nothing but
that the trace records the read of the template (R150, R151, R219, R356). -/
def PushTrapsRule : Prop :=
  (∀ (s : State) (i : Issuer) (ins : Instr) (q : Nat) (pair : Option Nat) (rs1 : R5) (p scales : Word) (d : Dest) (tm : Template), s.issuer? = some i →
    pushForm i.ctx ins = some (q, pair, rs1, p, scales) → LocalAt i (i.ctx.getX rs1) 32 d → d.space = .tcm → NoEagerOver s i d 32 → q < 4 →
    tm.d0.toNat = s.bytesAt i.core.asid d 8 → Patched (s.bytesAt i.core.asid { d with off := d.off + 8 } 8) tm.d1.toNat (p.toNat % 2 ^ 30) →
    Patched (s.bytesAt i.core.asid { d with off := d.off + 16 } 8) tm.d2.toNat (p.toNat / 2 ^ 32 % 2 ^ 30) →
    tm.d3.toNat = s.bytesAt i.core.asid { d with off := d.off + 24 } 8 →
    let d0 := tm.d0.toNat
    let s0 := s.recordMem i.c i.k false (i.ctx.getX rs1)
    (d0 % 256 ∉ [0x01, 0x02, 0x03, 0x04, 0x05, 0x06, 0x07, 0x08, 0x20, 0x21, 0x22, 0x23, 0x24, 0x25, 0x30, 0x40, 0x41] ∨
      (d0 % 256 ∈ [0x01, 0x02, 0x03, 0x04, 0x05, 0x06] ∧ q ≠ 0) ∨ (d0 % 256 ∈ [0x20, 0x21, 0x22, 0x23, 0x24, 0x25] ∧ q ≠ 1) ∨ (d0 % 256 = 0x30 ∧ q ≠ 2) ∨
      (d0 % 256 ∈ [0x40, 0x41] ∧ q ≠ 3) ∨ (pair = none ∧ d0 % 256 ∈ [0x01, 0x02]) ∨ (pair.isSome = true ∧ d0 % 256 ∉ [0x01, 0x02]) ∨
      (pair = none ∧ d0 / 256 % 256 ≠ 0) ∨ 3 < d0 / 2 ^ 19 % 8 ∨ d0 / 2 ^ 30 % 4 ≠ 0 →
      exec ins s = .next (s0.trapI i 0x01 (s.ir.setWidth 64))) ∧
    (templateIllegal i.core q pair tm = false → 8 < d0 / 2 ^ 16 % 8 + 2 ^ (d0 / 2 ^ 19 % 8) → exec ins s = .next (s0.trapI i 0x05 (s.ir.setWidth 64))) ∧
    (templateIllegal i.core q pair tm = false → dAccBase tm.d0 + accCount (dKind tm.d0) tm ≤ 8 →
      (d0 / 2 ^ 32 % 2 ^ 24 % 16 ≠ 0 → exec ins s = .next (s0.trapI i 0x02 (BitVec.ofNat 64 (d0 / 2 ^ 32 % 2 ^ 24)))) ∧
      (d0 / 2 ^ 32 % 2 ^ 24 % 16 = 0 → 0x20000 ≤ d0 / 2 ^ 32 % 2 ^ 24 → exec ins s = .next (s0.trapI i 0x04 (BitVec.ofNat 64 (d0 / 2 ^ 32 % 2 ^ 24)))))) ∧
  (∀ (s : State) (i : Issuer) (rs1 rs2 : R5) (ins : Instr), s.issuer? = some i →
    ins ∈ [Instr.mxiBf16Bf16 rs1 rs2 31, .mxiBf16Qt16 rs1 rs2 31, .mxiQt16Qt16 rs1 rs2 31, .mxiQt8Qt8 rs1 rs2 31, .mxiI8I8 rs1 rs2 31, .mxiI8Tern rs1 rs2 31] →
    exec ins s = .next (s.trapI i 0x05 (s.ir.setWidth 64)))

/-- DEQ takes the oldest entry of a status queue into rd, or waits while it is empty. CTREADY, when the tile's entry passes the checks, takes a sequence number and
enters a firing of the tile at the end of q3; a tile number that the table does not have traps BOUNDS with `svtval` 0 (R243, R247, R309). -/
def Obligations.StatusAndTiles : Prop :=
  ∀ (s : State) (i : Issuer), s.issuer? = some i →
    (∀ (rd : R5) (q : R3) (v : Word) (rest : List Word), dget? i.core.status q.toNat = some (v :: rest) →
      ∃ t core', exec (.deq rd q) s = .next t ∧ Completed i t ∧ (t.ctxOf i.c i.k).getX rd = (if rd = 0 then 0 else v) ∧ CtxFrame [.x rd] i.ctx (t.ctxOf i.c i.k) ∧
        t.core? i.c = some core' ∧ dget? core'.status q.toNat = some rest ∧ (∀ n, n ≠ q.toNat → dget? core'.status n = dget? i.core.status n) ∧
        SameMemory s t ∧ Keeps [.cores] s t ∧ OtherCores i.c s t) ∧
    (∀ (rd : R5) (q : R3), (dget? i.core.status q.toNat = none ∨ dget? i.core.status q.toNat = some []) → OnlyWaits s i (.deq rd q.toNat) (exec (.deq rd q) s)) ∧
    (∀ (rs1 rs2 : R5) (e : Nat), tileCause i (i.ctx.getX rs1).toNat ((i.ctx.getX rs2).toNat % 2 ^ 30) = .ok e → i.core.ringFree = true →
      (i.core.queue 3).length < 32 →
      ∃ t core' m, exec (.ctready rs1 rs2) s = .next t ∧ Completed i t ∧ CtxFrame [] i.ctx (t.ctxOf i.c i.k) ∧ Dispatched i t ∧ t.core? i.c = some core' ∧
        core'.queue 3 = i.core.queue 3 ++ [m] ∧ m.firing = some ((i.ctx.getX rs1).toNat, e) ∧ m.patch = (i.ctx.getX rs2).toNat % 2 ^ 30 ∧ m.ctx = i.k ∧
        m.seq = i.core.seqNext % 65536 ∧ SameMemory s t ∧ Keeps [.cores] s t ∧ OtherCores i.c s t) ∧
    (∀ (rs1 rs2 : R5), (dgetD i.job.tiles (i.c / 256) []).length ≤ (i.ctx.getX rs1).toNat →
      exec (.ctready rs1 rs2) s = .next (s.trapI i 0x04 0))

-- vector lanes

/-- The vector instruction has gone to the lanes: its register results are in place, it took a sequence number, and what completes late stands with it:
its flags, a BOUNDS address, a poisoned page. -/
def ToLanesLate (s : State) (i : Issuer) (flags : BitVec 7) (fault : Option Word) (poison : Option Nat) (t : State) : Prop :=
  Completed i t ∧ Dispatched i t ∧ OtherCores i.c s t ∧ (∀ n, n ≠ i.k → t.ctxOf i.c n = s.ctxOf i.c n) ∧
  (CoreKeeps i.c s t fun k k' => { k' with lanes := k.lanes, seqNext := k.seqNext, ring := k.ring }) ∧
  (t.core? i.c).map Core.lanes = some (i.core.lanes ++
    [{ seq := i.core.seqNext % 65536, ctx := i.k, flags := flags, enabled := i.ctx.enables, fault := fault, poison := poison, release := 0, gone := false }])
def ToLanes (s : State) (i : Issuer) (flags : BitVec 7) (fault : Option Word) (t : State) : Prop := ToLanesLate s i flags fault none t
/-- Of the elements that a load reads, the page of the first that is poisoned, or none. -/
def FirstPage (reads : Nat → Prop) (page : Nat → Option Nat) (poison : Option Nat) : Prop :=
  (poison = none ↔ ∀ e, reads e → page e = none) ∧ ∀ e pa, reads e → page e = some pa → (∀ n, n < e → reads n → page n = none) → poison = some pa
/-- Only the elements below the grant of register `vd` may differ, besides the parts `w`. -/
def VectorFrame (i : Issuer) (w : List CtxPart) (vd : R5) (t : State) : Prop :=
  CtxFrame (.v :: w) i.ctx (t.ctxOf i.c i.k) ∧ (t.ctxOf i.c i.k).grant = i.ctx.grant ∧
  ∀ r e, e < 64 → (r ≠ vd ∨ i.ctx.grant ≤ e) → (t.ctxOf i.c i.k).getV r e = i.ctx.getV r e
/-- Value `j` of width `w` of a register (R195). -/
def valueAt (k : Ctx) (r : R5) (w j : Nat) : Nat := (k.getV r (j * w / 32)).toNat / 2 ^ (j % (32 / w) * w) % 2 ^ w
/-- The element made of values 0 to 32/w − 1. -/
def elementOf (w : Nat) (g : Nat → Nat) : Half32 := BitVec.ofNat 32 ((List.range (32 / w)).map fun t => g t % 2 ^ w * 2 ^ (w * t)).sum
namespace Sys2Proof.Machine
/-- The value types: width and, for the floating-point types, the format. -/
def typeOf (ty : BitVec 2) : Nat × Option FloatFmt :=
  if ty = 0 then (32, some fp32) else if ty = 1 then (16, some bf16) else if ty = 2 then (32, none) else (8, none)
/-- A two's-complement value of `w` bits and its pattern after saturation, with SAT when it is clamped (R43). -/
def intOf (w a : Nat) : Int := Int.bmod a (2 ^ w)
def saturated (w : Nat) (v : Int) : Nat × BitVec 7 :=
  let c := max (-(2 ^ (w - 1))) (min (2 ^ (w - 1) - 1) v)
  ((c % 2 ^ w).toNat, if c = v then 0 else flagSAT)
/-- A value by one rounding of an exact result to the type's own format. -/
def roundedTo (f : FloatFmt) (r : Num × BitVec 7) : Nat × BitVec 7 := ((roundRne f r.1).1, r.2 ||| (roundRne f r.1).2)
/-- The element-wise instructions: vd, governing predicate, width of a result value, and value number `j` of the result with its flags. -/
def vectorValue (ins : Instr) (k : Ctx) : Option (R5 × R3 × Nat × (Nat → Nat × BitVec 7)) :=
  let bin := fun (ty : BitVec 2) (vd a b : R5) (pg : R3) (f : FloatFmt → Nat → Nat → Nat × BitVec 7) (g : Nat → Int → Int → Nat × BitVec 7) =>
    let w := (typeOf ty).1
    let value : Nat → Nat × BitVec 7 := fun j => match (typeOf ty).2 with
      | some fmt => f fmt (valueAt k a w j) (valueAt k b w j)
      | none => g w (intOf w (valueAt k a w j)) (intOf w (valueAt k b w j))
    some (vd, pg, w, value)
  let pick := fun (big : Bool) (fmt : FloatFmt) (a b : Nat) =>
    match Num.cmp (fmt.decode a) (fmt.decode b) with
    | none => (fmt.nanPat, (0 : BitVec 7))
    | some c => (if (c < 0 || (c == 0 && a.testBit (fmt.width - 1))) == big then b else a, 0)
  let fused := fun (w : Nat) (fmt : FloatFmt) (neg : Bool) (vd a b c : R5) =>
    some (vd, (0 : R3), w, fun j => roundedTo fmt (Num.fma .rne (fmt.decode (valueAt k a w j)) (fmt.decode (valueAt k b w j))
      (if neg then (fmt.decode (valueAt k c w j)).neg else fmt.decode (valueAt k c w j))))
  let bits := fun (vd a b : R5) (pg : R3) (f : Bool → Bool → Bool) =>
    some (vd, pg, 32, fun j => ((BitVec.ofFnLE fun (n : Fin 32) => f ((k.getV a j).getLsbD n) ((k.getV b j).getLsbD n)).toNat, (0 : BitVec 7)))
  let shift := fun (ty : BitVec 2) (vd a b : R5) (pg : R3) (f : Nat → Nat → Nat → Nat) =>
    let w := (typeOf ty).1
    if (typeOf ty).2.isNone then some (vd, pg, w, fun j => (f w (valueAt k a w j) (valueAt k b w j % w), (0 : BitVec 7))) else none
  let relu := fun (fmt : FloatFmt) (a : Nat) => match fmt.decode a with
    | .nan | .nar => fmt.nanPat
    | .inf neg => if neg then 0 else a
    | .fin neg m _ => if neg || m == 0 then 0 else a
  match ins with
  | .vadd ty vd a b pg => bin ty vd a b pg (fun f x y => roundedTo f (Num.add .rne (f.decode x) (f.decode y))) fun w x y => saturated w (x + y)
  | .vsub ty vd a b pg => bin ty vd a b pg (fun f x y => roundedTo f (Num.add .rne (f.decode x) (f.decode y).neg)) fun w x y => saturated w (x - y)
  | .vmul ty vd a b pg => bin ty vd a b pg (fun f x y => roundedTo f (Num.mul (f.decode x) (f.decode y))) fun w x y => saturated w (x * y)
  | .vmax ty vd a b pg => bin ty vd a b pg (pick true) fun w x y => ((max x y % 2 ^ w).toNat, 0)
  | .vmin ty vd a b pg => bin ty vd a b pg (pick false) fun w x y => ((min x y % 2 ^ w).toNat, 0)
  | .vabs ty vd a pg => bin ty vd a a pg (fun f x _ => (if (f.decode x).isNaN then f.nanPat else x % 2 ^ (f.width - 1), 0)) fun w x _ => saturated w |x|
  | .vneg ty vd a pg =>
    bin ty vd a a pg (fun f x _ => (if (f.decode x).isNaN then f.nanPat else (x + 2 ^ (f.width - 1)) % 2 ^ f.width, 0)) fun w x _ => saturated w (-x)
  | .vrelu ty vd a pg => bin ty vd a a pg (fun f x _ => (relu f x, 0)) fun w x _ => ((max x 0 % 2 ^ w).toNat, 0)
  | .vrsq ty vd a pg =>
    if (typeOf ty).2.isSome then bin ty vd a a pg (fun f x _ => roundedTo f (Num.mul (f.decode (relu f x)) (f.decode (relu f x)))) fun _ _ _ => (0, 0) else none
  | .vfmaF32 vd a b c => fused 32 fp32 false vd a b c
  | .vfmaBf16 vd a b c => fused 16 bf16 false vd a b c
  | .vfmsF32 vd a b c => fused 32 fp32 true vd a b c
  | .vfmsBf16 vd a b c => fused 16 bf16 true vd a b c
  | .vsclF32 vd a n => some (vd, 0, 32, fun j => roundedTo fp32 (Num.mul (fp32.decode (valueAt k a 32 j)) (fp32.decode (k.getF n).toNat)))
  | .vsclBf16 vd a n => some (vd, 0, 16, fun j => roundedTo bf16 (Num.mul (bf16.decode (valueAt k a 16 j)) (fp32.decode (k.getF n).toNat)))
  | .vand _ vd a b pg => bits vd a b pg and
  | .vor _ vd a b pg => bits vd a b pg or
  | .vxor _ vd a b pg => bits vd a b pg xor
  | .vshl ty vd a b pg => shift ty vd a b pg fun w x n => x * 2 ^ n % 2 ^ w
  | .vshr ty vd a b pg => shift ty vd a b pg fun _ x n => x / 2 ^ n
  | .vsra ty vd a b pg => shift ty vd a b pg fun w x n => ((intOf w x / 2 ^ n) % 2 ^ w).toNat
  | .vsel _ vd a b pg => some (vd, 0, 32, fun j => (if (k.getP pg).getLsbD j then (k.getV a j).toNat else (k.getV b j).toNat, 0))
  | .vcvt src dst vd a pg =>
    let a0 := fmtOf src.toNat
    let b0 := fmtOf dst.toNat
    some (vd, pg, b0.width, fun j =>
      if j / (32 / b0.width) < k.grant * 32 / max a0.width b0.width * b0.width / 32 then convert a0 b0 (k.val a j a0.width) else (0, 0))
  | .vbcast vd r pg => some (vd, pg, 32, fun _ => ((k.getX r).toNat % 2 ^ 32, 0))
  | _ => none
end Sys2Proof.Machine
/-- VADD, VSUB, VMUL, VMAX, VMIN, VABS, VNEG, VRELU, VRSQ, VFMA, VFMS, VSCL, VAND, VOR, VXOR, VSHL, VSHR, VSRA, VSEL, VCVT and VBCAST, under a grant G: every
active element of vd gets the values of `vectorValue`, every inactive element and every other register is as it was, the flags of all its values wait with
the instruction, and no memory changes. Without a grant they trap GROUP; with the ring entry held they wait (R43 to R46, R191 to R203, R211). -/
def Obligations.VectorElementwise : Prop :=
  ∀ (s : State) (i : Issuer) (ins : Instr) (vd : R5) (pg : R3) (w : Nat) (g : Nat → Nat × BitVec 7), s.issuer? = some i →
    vectorValue ins i.ctx = some (vd, pg, w, g) →
    (i.ctx.grant = 0 → exec ins s = .next (s.trapI i 0x05 (s.ir.setWidth 64))) ∧
    (0 < i.ctx.grant → i.core.ringFree = false → OnlyWaits s i .ring (exec ins s)) ∧
    (0 < i.ctx.grant → i.ctx.grant ≤ 64 → i.core.ringFree = true →
      ∃ t fl, exec ins s = .next t ∧ ToLanes s i fl none t ∧ VectorFrame i [] vd t ∧ Keeps [.cores] s t ∧
        (∀ e, e < i.ctx.grant → (t.ctxOf i.c i.k).getV vd e =
          if (i.ctx.getP pg).getLsbD e then elementOf w (fun n => (g (e * (32 / w) + n)).1) else i.ctx.getV vd e) ∧
        (∀ b, fl.getLsbD b = true ↔ ∃ e n, e < i.ctx.grant ∧ (i.ctx.getP pg).getLsbD e = true ∧ n < 32 / w ∧ (g (e * (32 / w) + n)).2.getLsbD b = true))

namespace Sys2Proof.Machine
/-- A vector compare: pd, the governing predicate, and whether the relation holds for value `j` of width `w`. -/
def compareValue (ins : Instr) (k : Ctx) : Option (R3 × R3 × Nat × (Nat → Bool)) :=
  let rel := fun (ty : BitVec 2) (pd : R3) (a b : R5) (pg : R3) (f : Int → Bool) =>
    let w := (typeOf ty).1
    let holds : Nat → Bool := fun j => match (typeOf ty).2 with
      | some fmt => match Num.cmp (fmt.decode (valueAt k a w j)) (fmt.decode (valueAt k b w j)) with
        | some c => f c
        | none => false
      | none => f (Int.sign (intOf w (valueAt k a w j) - intOf w (valueAt k b w j)))
    some (pd, pg, w, holds)
  match ins with
  | .vcmpEq ty pd a b pg => rel ty pd a b pg fun c => decide (c = 0)
  | .vcmpLt ty pd a b pg => rel ty pd a b pg fun c => decide (c < 0)
  | .vcmpLe ty pd a b pg => rel ty pd a b pg fun c => decide (c ≤ 0)
  | _ => none
end Sys2Proof.Machine
/-- VCMP.EQ, VCMP.LT and VCMP.LE: bit i of pd is 1 when element i is active and the relation holds for all its values, a NaN making it false, and every other bit
is 0; a write to p0 is discarded; no v register and no memory changes (R135, R192, R201). -/
def VectorComparesRule : Prop :=
  ∀ (s : State) (i : Issuer) (ins : Instr) (pd pg : R3) (w : Nat) (rel : Nat → Bool), s.issuer? = some i → compareValue ins i.ctx = some (pd, pg, w, rel) →
    (i.ctx.grant = 0 → exec ins s = .next (s.trapI i 0x05 (s.ir.setWidth 64))) ∧
    (0 < i.ctx.grant → i.ctx.grant ≤ 64 → i.core.ringFree = true →
      ∃ t v, exec ins s = .next t ∧ ToLanes (s.recordPred i.c i.k v) i 0 none t ∧ CtxFrame [.p pd] i.ctx (t.ctxOf i.c i.k) ∧
        Keeps [.cores] (s.recordPred i.c i.k v) t ∧ (pd ≠ 0 → (t.ctxOf i.c i.k).getP pd = v) ∧
        ∀ e, e < 64 → (v.getLsbD e = true ↔ e < i.ctx.grant ∧ (i.ctx.getP pg).getLsbD e = true ∧ ∀ n, n < 32 / w → rel (e * (32 / w) + n) = true))

/-- No eager write of the issuing context is in flight. -/
def NoOwnEager (s : State) (i : Issuer) : Prop := ∀ m ∈ s.net, m.src = i.c → m.ctx = i.k → ∀ d n v a, m.kind ≠ .eager d n v a
/-- The location of a local address with the offset `o`. -/
def localDest (i : Issuer) (sp : Space) (o : Int) : Dest := { core := i.c, space := sp, off := o.toNat }
/-- A unit-stride or strided access: register, address, stride, governing predicate, whether it stores. -/
def stridedForm (k : Ctx) : Instr → Option (R5 × Word × Int × R3 × Bool)
  | .vld vd r pg => some (vd, k.getX r, 4, pg, false)
  | .vst vs r pg => some (vs, k.getX r, 4, pg, true)
  | .vlds vd r q pg => some (vd, k.getX r, (k.getX q).toInt, pg, false)
  | .vsts vs r q pg => some (vs, k.getX r, (k.getX q).toInt, pg, true)
  | _ => none
/-- The address, of a local form without reserved bits, names offset `off` of its space. -/
def LocalForm (a : Word) (sp : Space) (off : Nat) : Prop := a.toNat = (match sp with | .tcm => 0 | .qsp => 1 | .dss => 2) * 2 ^ 60 + off ∧ off < 2 ^ 36
/-- Bytes of memory are the words of the elements `els` of a store in ascending order, the last store to a word remaining, and else as they were. -/
def StoresElements (s t : State) (i : Issuer) (els : List (Dest × Half32)) : Prop :=
  (∀ (n : Nat) (d : Dest) (v : Half32), els[n]? = some (d, v) → (∀ (m : Nat) (d' : Dest) (v' : Half32), n < m → els[m]? = some (d', v') → d'.off ≠ d.off) → t.bytesAt i.core.asid d 4 = v.toNat) ∧
  ∀ a d', (∀ x ∈ els, ¬ Stored i.core.asid x.1 4 a d') → t.byteAt a d' = s.byteAt a d'
/-- VLD, VST, VLDS, VSTS, VLDX, VSTX, the reductions, VMVX and BADDRQ trap GROUP without a grant, whatever their operands (R191). -/
def NeedsGrantRule : Prop :=
  ∀ (s : State) (i : Issuer) (ins : Instr) (v r x fn : R5) (pg : R3) (ty : BitVec 2), s.issuer? = some i → i.ctx.grant = 0 →
    ins ∈ [Instr.vld v r pg, .vst v r pg, .vlds v r x pg, .vsts v r x pg, .vldx v r x pg, .vstx v r x pg, .vredSum ty v r pg, .vredMax ty v r pg,
      .vredMin ty v r pg, .vmvx v r x, .baddrq v r x fn] →
    exec ins s = .next (s.trapI i 0x05 (s.ir.setWidth 64))
/-- VLD, VST, VLDS and VSTS move whole elements of the active lanes at a + i × stride; inactive elements access nothing. A load leaves inactive elements and memory as they
were; a store to TCM or quad scratchpad is made at once, one to die shared SRAM is deferred element by element. FORM, ALIGN of address and stride and BOUNDS of
the lowest active element outside are precise; without a grant these, the gathers, the reductions, VMVX and BADDRQ trap GROUP (R191, R192, R206 to R208).
An element that a load finds poisoned is left open, and the page of the first such waits as a late POISON (R11, R353).
That the ALIGN of a misaligned stride carries the address of element 1 is the model's reading (log entry 53); the model's too: of several elements outside
the lowest is named (DESIGN CHOICE, log 101), and all elements are accessed in one step (DESIGN CHOICE, log 107). -/
def Obligations.VectorMemory : Prop :=
  NeedsGrantRule ∧ ∀ (s : State) (i : Issuer) (ins : Instr) (v : R5) (a : Word) (st : Int) (pg : R3) (store : Bool) (sp : Space) (off : Nat), s.issuer? = some i →
    stridedForm i.ctx ins = some (v, a, st, pg, store) → 0 < i.ctx.grant → i.ctx.grant ≤ 64 →
    let active := fun e => e < i.ctx.grant ∧ (i.ctx.getP pg).getLsbD e = true
    let bad := fun (e : Nat) => (off : Int) + e * st < 0 ∨ (i.job.limitOf sp : Int) < off + e * st + 4 ∨
      (store = true ∧ ¬ MayStore i (localDest i sp (off + e * st)) 4)
    (3 ≤ a.toNat / 2 ^ 60 ∨ a.toNat / 2 ^ 36 % 2 ^ 24 ≠ 0 → exec ins s = .next (s.trapI i 0x03 a)) ∧
    (LocalForm a sp off → off % 4 ≠ 0 → exec ins s = .next (s.trapI i 0x02 a)) ∧
    (LocalForm a sp off → off % 4 = 0 → st % 4 ≠ 0 → exec ins s = .next (s.trapI i 0x02 (a + BitVec.ofInt 64 st))) ∧
    (∀ e, LocalForm a sp off → off % 4 = 0 → st % 4 = 0 → active e → bad e → (∀ n, n < e → active n → ¬ bad n) →
      exec ins s = .next (s.trapI i 0x04 (a + BitVec.ofInt 64 (e * st)))) ∧
    (LocalForm a sp off → off % 4 = 0 → st % 4 = 0 → (∀ e, active e → ¬ bad e) → i.core.ringFree = true → NoOwnEager s i →
      let page := fun (e : Nat) => s.spillPoison i.core.asid (localDest i sp (off + e * st)) 4
      ∃ t poison, exec ins s = .next t ∧ (∃ s0, ToLanesLate s0 i 0 none poison t ∧ SameMemory s s0 ∧ SameRegisters s s0) ∧
        FirstPage (fun e => store = false ∧ active e) page poison ∧
        (store = false → VectorFrame i [] v t ∧ SameMemory s t ∧ ∀ e, e < i.ctx.grant → ((i.ctx.getP pg).getLsbD e = true → page e = none) →
          (t.ctxOf i.c i.k).getV v e =
            if (i.ctx.getP pg).getLsbD e then BitVec.ofNat 32 (s.bytesAt i.core.asid (localDest i sp (off + e * st)) 4) else i.ctx.getV v e) ∧
        (store = true → CtxFrame [] i.ctx (t.ctxOf i.c i.k)) ∧
        (store = true → sp ≠ .dss → StoresElements s t i (((List.range i.ctx.grant).filter fun e => (i.ctx.getP pg).getLsbD e).map fun (e : Nat) =>
          (localDest i sp (off + e * st), i.ctx.getV v e))) ∧
        (store = true → sp = .dss → SameMemory s t ∧ (t.core? i.c).map Core.deferred = some (i.core.deferred ++
          ((List.range i.ctx.grant).filter fun e => (i.ctx.getP pg).getLsbD e).map fun (e : Nat) =>
            { dest := localDest i sp (off + e * st), op := .write 4 (i.ctx.getV v e).toNat })))

/-- VLDX and VSTX gather and scatter through quad scratchpad at a + 4 × index; an active element outside the space accesses nothing and the address of the lowest
such element waits as a late BOUNDS. VPLD and VPST move the 64 bits of a predicate and need no grant (R206 to R209, R324). What a load
finds poisoned is left open, and the first such page waits as a late POISON (R11, R353). That all elements are accessed in one step is the model's
(DESIGN CHOICE, log 107). -/
def Obligations.VectorGather : Prop :=
  (∀ (s : State) (i : Issuer) (store : Bool) (v r x : R5) (pg : R3) (off : Nat), s.issuer? = some i → 0 < i.ctx.grant → i.ctx.grant ≤ 64 →
    let a := i.ctx.getX r
    let ins := if store then Instr.vstx v r x pg else .vldx v r x pg
    let at_ := fun e => off + 4 * (i.ctx.getV x e).toNat
    let good := fun e => at_ e + 4 ≤ 0x340000
    (a.toNat / 2 ^ 36 ≠ 2 ^ 24 → exec ins s = .next (s.trapI i 0x03 a)) ∧
    (LocalForm a .qsp off → off % 4 ≠ 0 → exec ins s = .next (s.trapI i 0x02 a)) ∧
    (LocalForm a .qsp off → off % 4 = 0 → i.core.ringFree = true → NoOwnEager s i →
      let page := fun (e : Nat) => s.spillPoison i.core.asid (localDest i .qsp (at_ e)) 4
      ∃ t fault poison, exec ins s = .next t ∧ (∃ s0, ToLanesLate s0 i 0 fault poison t ∧ SameRegisters s s0) ∧
        FirstPage (fun e => store = false ∧ e < i.ctx.grant ∧ (i.ctx.getP pg).getLsbD e = true ∧ good e) page poison ∧
        (fault = none ↔ ∀ e, e < i.ctx.grant → (i.ctx.getP pg).getLsbD e = true → good e) ∧
        (∀ e, e < i.ctx.grant → (i.ctx.getP pg).getLsbD e = true → ¬ good e → (∀ n, n < e → (i.ctx.getP pg).getLsbD n = true → good n) →
          fault = some (a + BitVec.ofNat 64 (4 * (i.ctx.getV x e).toNat))) ∧
        (store = false → VectorFrame i [] v t ∧ SameMemory s t ∧ ∀ e, e < i.ctx.grant → ((i.ctx.getP pg).getLsbD e = true → good e → page e = none) →
          (t.ctxOf i.c i.k).getV v e =
          if (i.ctx.getP pg).getLsbD e = true ∧ good e then BitVec.ofNat 32 (s.bytesAt i.core.asid (localDest i .qsp (at_ e)) 4) else i.ctx.getV v e) ∧
        (store = true → CtxFrame [] i.ctx (t.ctxOf i.c i.k) ∧
          StoresElements s t i (((List.range i.ctx.grant).filter fun e => (i.ctx.getP pg).getLsbD e && decide (good e)).map fun (e : Nat) =>
            (localDest i .qsp (at_ e), i.ctx.getV v e))))) ∧
  (∀ (s : State) (i : Issuer) (p : R3) (r : R5) (d : Dest), s.issuer? = some i → LocalAt i (i.ctx.getX r) 8 d → i.core.ringFree = true → NoOwnEager s i →
    (∃ t, exec (.vpld p r) s = .next t ∧ (p = 0 → (t.ctxOf i.c i.k).getP 0 = BitVec.allOnes 64) ∧
      (p ≠ 0 → s.spillPoison i.core.asid d 8 = none → (t.ctxOf i.c i.k).getP p = BitVec.ofNat 64 (s.bytesAt i.core.asid d 8)) ∧
      CtxFrame [.p p] i.ctx (t.ctxOf i.c i.k) ∧ SameMemory s t ∧ Completed i t ∧ ∃ s0, ToLanesLate s0 i 0 none (s.spillPoison i.core.asid d 8) t) ∧
    (d.space ≠ .dss → ∃ t, exec (.vpst p r) s = .next t ∧ Completed i t ∧ Dispatched i t ∧ CtxFrame [] i.ctx (t.ctxOf i.c i.k) ∧
      StoresBytes s t i.core.asid d 8 (i.ctx.getP p).toNat) ∧
    (d.space = .dss → MayStore i d 8 → ∃ t, exec (.vpst p r) s = .next t ∧ Completed i t ∧ CtxFrame [] i.ctx (t.ctxOf i.c i.k) ∧ SameMemory s t ∧
      (t.core? i.c).map Core.deferred = some (i.core.deferred ++ [{ dest := d, op := .write 8 (i.ctx.getP p).toNat }])))

namespace Sys2Proof.Machine
/-- The active values of a register in order. -/
def activeValues (k : Ctx) (w : Nat) (r : R5) (pg : R3) : List Nat :=
  ((List.range k.grant).filter fun e => (k.getP pg).getLsbD e).flatMap fun e => (List.range (32 / w)).map fun t => valueAt k r w (e * (32 / w) + t)
/-- The result of a reduction (R66, R210): the exact sum of the active values rounded or saturated once; the largest or smallest, an infinity or the end of the range
when there is none. -/
def reduction (ins : Instr) (k : Ctx) : Option (R5 × Half32 × BitVec 7) :=
  match ins with
  | .vredSum ty vd r pg =>
    let vs := activeValues k (typeOf ty).1 r pg
    match (typeOf ty).2 with
    | some f =>
      let o := xsumRound (vs.foldl (fun a v => xsumAdd a (f.decode v)) XRec.empty) (if ty = 0 then .f32 else .bf16)
      some (vd, BitVec.ofNat 32 o.1, o.2)
    | none =>
      let o := saturated 32 (vs.map (intOf (typeOf ty).1)).sum
      some (vd, BitVec.ofNat 32 o.1, o.2)
  | .vredMax ty vd r pg =>
    let vs := activeValues k (typeOf ty).1 r pg
    match (typeOf ty).2 with
    | some f => some (vd, BitVec.ofNat 32 (vs.foldl (pickFp true f) (f.signed true f.infPat)), 0)
    | none => some (vd, BitVec.ofInt 32 ((vs.map (intOf (typeOf ty).1)).foldl max (-(2 ^ ((typeOf ty).1 - 1)))), 0)
  | .vredMin ty vd r pg =>
    let vs := activeValues k (typeOf ty).1 r pg
    match (typeOf ty).2 with
    | some f => some (vd, BitVec.ofNat 32 (vs.foldl (pickFp false f) (f.signed false f.infPat)), 0)
    | none => some (vd, BitVec.ofInt 32 ((vs.map (intOf (typeOf ty).1)).foldl min (2 ^ ((typeOf ty).1 - 1) - 1)), 0)
  | _ => none
end Sys2Proof.Machine
/-- VRED.SUM, VRED.MAX and VRED.MIN put the reduction of the active values into element 0 of vd and zero into its other elements below G, whatever the predicate says of
them; VMVX gives element x[rs2] sign-extended and traps BOUNDS with `svtval` 0 beyond the grant; BADDRQ adds v[vs1][i] exactly into record i of the group and puts
the scaled, once rounded BF16 value at value i of vd, so that elements G/2 and above of vd stay unwritten, and traps GROUP for a bad group. Nothing else changes (R204, R205, R210, R212). That the record's
reserved bits are written as zeros is the model's choice (log entry 58). -/
def Obligations.VectorReductions : Prop :=
  (∀ (s : State) (i : Issuer) (ins : Instr) (vd : R5) (x : Half32) (fl : BitVec 7), s.issuer? = some i → reduction ins i.ctx = some (vd, x, fl) → 0 < i.ctx.grant →
    i.ctx.grant ≤ 64 → i.core.ringFree = true →
    ∃ t, exec ins s = .next t ∧ ToLanes s i fl none t ∧ VectorFrame i [] vd t ∧ Keeps [.cores] s t ∧
      ∀ e, e < i.ctx.grant → (t.ctxOf i.c i.k).getV vd e = if e = 0 then x else 0) ∧
  (∀ (s : State) (i : Issuer) (rd v r : R5), s.issuer? = some i → 0 < i.ctx.grant → i.core.ringFree = true →
    (i.ctx.grant ≤ (i.ctx.getX r).toNat → exec (.vmvx rd v r) s = .next (s.trapI i 0x04 0)) ∧
    ((i.ctx.getX r).toNat < i.ctx.grant →
      ∃ t, exec (.vmvx rd v r) s = .next t ∧ ToLanes s i 0 none t ∧ CtxFrame [.x rd] i.ctx (t.ctxOf i.c i.k) ∧ Keeps [.cores] s t ∧
        (t.ctxOf i.c i.k).getX rd = (if rd = 0 then 0 else BitVec.ofInt 64 (i.ctx.getV v (i.ctx.getX r).toNat).toInt))) ∧
  (∀ (s : State) (i : Issuer) (vd v1 g fn : R5), s.issuer? = some i → 0 < i.ctx.grant → i.ctx.grant ≤ 64 → i.core.ringFree = true →
    (g.toNat % 4 ≠ 0 ∨ 20 < g.toNat ∨ (g.toNat ≤ vd.toNat ∧ vd.toNat ≤ g.toNat + 11) ∨ (g.toNat ≤ v1.toNat ∧ v1.toNat ≤ g.toNat + 11) →
      exec (.baddrq vd v1 g fn) s = .next (s.trapI i 0x05 (s.ir.setWidth 64))) ∧
    (g.toNat % 4 = 0 → g.toNat ≤ 20 → ¬ (g.toNat ≤ vd.toNat ∧ vd.toNat ≤ g.toNat + 11) → ¬ (g.toNat ≤ v1.toNat ∧ v1.toNat ≤ g.toNat + 11) →
      ∃ t fl, exec (.baddrq vd v1 g fn) s = .next t ∧ ToLanes s i fl none t ∧ CtxFrame [.v] i.ctx (t.ctxOf i.c i.k) ∧ Keeps [.cores] s t ∧
        (∀ e, e < i.ctx.grant →
          let sum := xsumAdd (XRec.ofNat (groupRec i.ctx g.toNat e 12)) (fp32.decode (i.ctx.getV v1 e).toNat)
          groupRec (t.ctxOf i.c i.k) g.toNat e 12 = sum.toNat % 2 ^ 384 ∧
          valueAt (t.ctxOf i.c i.k) vd 16 e = (requant sum (fp32.decode (i.ctx.getF fn).toNat)).1 % 2 ^ 16) ∧
        ∀ (r : R5) (e : Nat), e < 64 → (r ≠ vd ∨ (i.ctx.grant + 1) / 2 ≤ e) → ¬ (g.toNat ≤ r.toNat ∧ r.toNat ≤ g.toNat + 11 ∧ e < i.ctx.grant) →
          (t.ctxOf i.c i.k).getV r e = i.ctx.getV r e))

/-- VCLAIM of 0 reads the grant; of the grant held it answers it; a size that is not 0 or 4 to 64 in steps of 4, or a different size under a grant, traps GROUP. A claim with no
other before it and its lanes free is granted exactly: every v register reads zero and rd gets the size; else it joins the quad's order behind those of earlier
cycles, among those of its own cycle by slot, and waits, and the claim at the head is granted when its lanes are free, one of the spare-position core's in a role
as one of a context's. VYIELD gives the lanes back once the context's vector instructions have completed (R185 to R190). -/
def Obligations.LaneClaims : Prop :=
  (∀ (s : State) (i : Issuer) (rd rs1 : R5), s.issuer? = some i →
    let n := (i.ctx.getX rs1).toNat
    (64 < n ∨ n % 4 ≠ 0 ∨ n ≠ 0 ∧ i.ctx.grant ≠ 0 ∧ n ≠ i.ctx.grant → exec (.vclaim rd rs1) s = .next (s.trapI i 0x05 (s.ir.setWidth 64))) ∧
    (n = 0 ∨ (n = i.ctx.grant ∧ n ≤ 64 ∧ n % 4 = 0) → WritesX s i rd (BitVec.ofNat 64 i.ctx.grant) (exec (.vclaim rd rs1) s)) ∧
    (0 < n → n ≤ 64 → n % 4 = 0 → i.ctx.grant = 0 → (s.quad (coreQuad i.c)).claims = [] → n ≤ s.freeLanes (coreQuad i.c) →
      (s.quad (coreQuad i.c)).headFrom ≤ s.clock →
      ∃ t, exec (.vclaim rd rs1) s = .next t ∧ Completed i t ∧ (t.ctxOf i.c i.k).grant = n ∧ (∀ r e, (t.ctxOf i.c i.k).getV r e = 0) ∧
        (t.ctxOf i.c i.k).getX rd = (if rd = 0 then 0 else BitVec.ofNat 64 n) ∧ CtxFrame [.x rd, .v] i.ctx (t.ctxOf i.c i.k) ∧ SameMemory s t ∧
        Keeps [.cores, .modules] s t ∧ OtherCores i.c s t) ∧
    (0 < n → n ≤ 64 → n % 4 = 0 → i.ctx.grant = 0 →
      ((s.quad (coreQuad i.c)).claims ≠ [] ∨ s.freeLanes (coreQuad i.c) < n ∨ s.clock < (s.quad (coreQuad i.c)).headFrom) →
      (∃ d, s.module? (quadModule (coreQuad i.c)) = some d) →
      ∃ t, exec (.vclaim rd rs1) s = .next t ∧ WaitsFor i (.vclaim rd n) t ∧ Keeps [.cores, .modules] s t ∧ OtherCores i.c s t ∧
        let new : Claim := { core := i.c, ctx := i.k, n := n, ticket := s.tickets, entered := s.clock, spare := false }
        ((∀ x ∈ (s.quad (coreQuad i.c)).claims, x.entered < s.clock ∧ x.ctx ≤ 10) →
          (t.quad (coreQuad i.c)).claims = (s.quad (coreQuad i.c)).claims ++ [new]) ∧
        (i.k ≤ 10 → (∀ x ∈ (s.quad (coreQuad i.c)).claims, x.entered = s.clock ∧ x.spare = false ∧ coreSlot i.c < coreSlot x.core) →
          (t.quad (coreQuad i.c)).claims = new :: (s.quad (coreQuad i.c)).claims))) ∧
  (∀ (s : State) (i : Issuer), s.issuer? = some i →
    ((∀ l ∈ i.core.lanes, l.ctx = i.k → l.gone = true) → ∃ t, exec .vyield s = .next t ∧ Completed i t ∧ (t.ctxOf i.c i.k).grant = 0 ∧
      (t.ctxOf i.c i.k).v = i.ctx.v ∧ RegistersOnly i [.v] s t) ∧
    ((∃ l ∈ i.core.lanes, l.ctx = i.k ∧ l.gone = false) → OnlyWaits s i .vyield (exec .vyield s))) ∧
  (∀ (s : State) (q : QuadId) (cl : Claim) (rest : List Claim) (core : Core) (rd : R5), (s.quad q).claims = cl :: rest → s.core? cl.core = some core →
    (core.ctx cl.ctx).wait = some (.vclaim rd cl.n) → cl.spare = false →
    (cl.n ≤ s.freeLanes q → (s.quad q).headFrom ≤ s.clock →
      ∃ t, exec (.vclaimGrant q) s = .next t ∧ (t.quad q).claims = rest ∧ (t.quad q).headFrom = s.clock + 1 ∧ (t.ctxOf cl.core cl.ctx).grant = cl.n ∧
        (∀ r e, (t.ctxOf cl.core cl.ctx).getV r e = 0) ∧ (t.ctxOf cl.core cl.ctx).getX rd = (if rd = 0 then 0 else BitVec.ofNat 64 cl.n) ∧
        (t.ctxOf cl.core cl.ctx).wait = none ∧ (t.ctxOf cl.core cl.ctx).pc = (core.ctx cl.ctx).pc + 4 ∧ Keeps [.cores, .modules] s t ∧
        OtherCores cl.core s t ∧ SameMemory s t) ∧
    (s.freeLanes q < cl.n ∨ s.clock < (s.quad q).headFrom → exec (.vclaimGrant q) s = .next s)) ∧
  (∀ (s : State) (q : QuadId) (cl : Claim) (rest : List Claim), (s.quad q).claims = cl :: rest → cl.spare = true → cl.n ≤ s.freeLanes q →
    (s.quad q).headFrom ≤ s.clock → Does (.vclaimGrant q) s fun t => (t.quad q).claims = rest ∧ (t.quad q).headFrom = s.clock + 1 ∧
      dget? (t.quad q).spare cl.ctx = some cl.n ∧ Keeps [.modules] s t)

/-- The predicate operations on all 64 bits. -/
def predicateValue (k : Ctx) : Instr → Option (R3 × Word)
  | .pand pd a b => some (pd, bitwise fun n => (k.getP a).getLsbD n && (k.getP b).getLsbD n)
  | .por pd a b => some (pd, bitwise fun n => (k.getP a).getLsbD n || (k.getP b).getLsbD n)
  | .pxor pd a b => some (pd, bitwise fun n => (k.getP a).getLsbD n != (k.getP b).getLsbD n)
  | .pnot pd a => some (pd, bitwise fun n => !(k.getP a).getLsbD n)
  | .pmov pd a => some (pd, k.getP a)
  | .pset pd r => some (pd, k.getX r)
  | _ => none
/-- PAND, POR, PXOR, PNOT, PMOV and PSET write the 64 bits of their predicate, nothing into p0, whatever the grant, and change nothing else (R135, R184). -/
def PredicateOpsRule : Prop :=
  ∀ (s : State) (i : Issuer) (ins : Instr) (pd : R3) (v : Word), s.issuer? = some i → predicateValue i.ctx ins = some (pd, v) →
    ∃ t, exec ins s = .next t ∧ Completed i t ∧ (t.ctxOf i.c i.k).getP pd = (if pd = 0 then BitVec.allOnes 64 else v) ∧
      RegistersOnly i [.p pd] (s.recordPred i.c i.k v) t

/-- The taper conversions between f and x registers: the result and the flags for `qflags`. -/
def taperForm (k : Ctx) (ins : Instr) : Option (FpResult × BitVec 7) :=
  let enc := fun (f : TaperFmt) (n : Nat) (rd fs : R5) =>
    let r := f.encode (fp32.decode (k.getF fs).toNat)
    some (FpResult.x rd (BitVec.ofInt 64 (Int.bmod (r.1 : Nat) (2 ^ n))) 0, r.2)
  let back := fun (f : TaperFmt) (n : Nat) (fd r : R5) =>
    let v := roundRne fp32 (f.decode ((k.getX r).toNat % 2 ^ n))
    some (FpResult.f fd (BitVec.ofNat 32 v.1) 0, v.2)
  match ins with
  | .fcvtQt8S rd f => enc qt8 8 rd f
  | .fcvtQt16S rd f => enc qt16 16 rd f
  | .fcvtQt32S rd f => enc qt32 32 rd f
  | .fcvtSQt8 fd r => back qt8 8 fd r
  | .fcvtSQt16 fd r => back qt16 16 fd r
  | .fcvtSQt32 fd r => back qt32 32 fd r
  | _ => none
/-- FCVT.QT8.S, FCVT.QT16.S, FCVT.QT32.S, FCVT.S.QT8, FCVT.S.QT16 and FCVT.S.QT32 complete with the taper pattern of the value, sign-extended, or with the FP32 value of the
low bits, and OR their flags into `qflags`; `fcsr` and every other register are as before (R49 to R51, R56, R183). -/
def TaperConversionsRule : Prop :=
  ∀ (s : State) (i : Issuer) (ins : Instr) (o : FpResult) (fl : BitVec 7), s.issuer? = some i → taperForm i.ctx ins = some (o, fl) →
    ∃ t, exec ins s = .next t ∧ Completed i t ∧ (t.ctxOf i.c i.k).flags = i.ctx.flags ||| fl ∧ OnlyCtx i.c i.k s t ∧
      match o with
      | .x rd v _ => (t.ctxOf i.c i.k).getX rd = (if rd = 0 then 0 else v) ∧ CtxFrame [.x rd, .flags] i.ctx (t.ctxOf i.c i.k)
      | .f fd v _ => (t.ctxOf i.c i.k).getF fd = v ∧ CtxFrame [.f fd, .flags] i.ctx (t.ctxOf i.c i.k)
/-- Every QT8 pattern decodes exactly: rounding its value to FP32 sets no flag, and encoding that value gives the pattern back; zero and NaR have one pattern each
(R49 to R51). -/
def TaperExactRule : Prop :=
  ∀ p : Nat, p < 2 ^ 8 → (p ≠ 0x80 → (roundRne fp32 (qt8.decode p)).2 = 0 ∧ qt8.encode (fp32.decode (roundRne fp32 (qt8.decode p)).1) = (p, 0)) ∧
    (qt8.decode p = .nar ↔ p = 0x80)

-- the host: register windows and the host window

/-- Queue `q` of a module becomes `x`, and nothing else of the module changes. -/
def QueueTo (q : Nat) (x : Queue) (d d' : Module) : Prop := d'.queue q = x ∧ (∀ p, p ≠ q → d'.queue p = d.queue p) ∧ { d' with queues := d.queues } = d
/-- An access of `size` bytes at `off` that a register window accepts: 4 or 8 bytes, in the journal windows 8 to 64, naturally aligned (R71, R360). -/
def Accepted (win : Window) (off size : Nat) (write : Bool) : Prop :=
  if win = .ctl ∧ 0x200000 ≤ off ∧ off < 0x800000 then write = true ∨ size ∈ [8, 16, 32, 64] ∧ off % size = 0 else size ∈ [4, 8] ∧ off % size = 0
/-- The location of job `asid` that an access of the host window reaches: module in D0, a position of the job, inside its space, and in die shared SRAM neither
CODE nor the placement map (R303). -/
def HostAt (s : State) (m off size asid : Nat) (d : Dest) : Prop :=
  d.core = m * 1024 + off / 2 ^ 29 % 2 ^ 10 ∧ d.off = off % 2 ^ 27 ∧ off / 2 ^ 27 % 4 = (match d.space with | .tcm => 0 | .qsp => 1 | .dss => 3) ∧
  (size = 4 ∨ size = 8) ∧ off % size = 0 ∧ (∃ x, s.module? m = some x ∧ x.power = .d0) ∧
  ∃ k j, s.core? d.core = some k ∧ k.asid = asid ∧ s.job? asid = some j ∧ d.off + size ≤ j.limitOf d.space ∧
    (d.space = .dss → d.off + size ≤ j.limit ∧ ∀ r ∈ j.codes, d.off + size ≤ r.1 ∨ r.1 + r.2 ≤ d.off)
/-- Host writes of registers and of the host window. QTAIL and CHEAD take the value; QCFG its fields, SIZE only while the queue is disabled and EN only with a
SIZE from 4 to 16; JMEN turned on copies held entries to the mirror; HOSTORD changes only while no job is placed, else ORDERR; DEVSTAT clears by ones; PWRLIM,
JMBASE and QBASE take their fields; a bad size or alignment sets ACCERR and reads all ones; JMERR stops mirroring; counters clear and freeze. A write of the
host window changes its bytes at once and for good, a read returns them; one that no job takes is discarded, or Unsupported. In Mode S a request goes
to the service core of its die and die quadrant and is performed in the order of that core (R71 to R75, R303 to R305, R360, R361). That no register is
written outside D0 is the model's reading (log entry 25), as are the clearing of JMEN by JMERR and the SIZE values that EN takes (log entry 15); which of
several service cores goes next is open (log entry 56). The model's choices too: the journal and held windows take reads of 8, 16, 32 and 64 bytes only (log entry 70);
a job is placed, for HOSTORD, on a module that holds a rectangle of it (log entry 71); JMBASE and QBASE drop the low 12 bits (log entry 85). -/
def Obligations.HostAccess : Prop :=
  (∀ (s : State) (m : Nat) (d : Module), s.module? m = some d →
    (∀ q v, Does (.qtail m q v) s fun t => ModuleTo m s t fun x y => QueueTo q { x.queue q with tail := v.toNat } x y) ∧
    (∀ q v, Does (.chead m q v) s fun t => ModuleTo m s t fun x y => QueueTo q { x.queue q with chead := v.toNat } x y) ∧
    (∀ q v, Does (.qcfgWrite m q v) s fun t => ModuleTo m s t fun x y =>
      let size := if (x.queue q).enabled then (x.queue q).size else v.toNat / 2 ^ 16 % 16
      QueueTo q { x.queue q with enabled := v.getLsbD 0 && decide (4 ≤ size ∧ size ≤ 16), prio := v.toNat / 2 ^ 8 % 2 ^ 8, size := size
                                 irq := v.getLsbD 20, abortok := v.getLsbD 21, vec := v.toNat / 2 ^ 32 % 2 ^ 11 } x y) ∧
    (∀ v, Does (.jmen m v) s fun t => t.module? m = some { d with jmen := v.getLsbD 1 } ∧ Keeps [.modules, .host] s t ∧ OtherModules m s t ∧
      (v.getLsbD 1 = false ∨ d.jmen = true → t.host = s.host) ∧
      (∀ e : Entry, v.getLsbD 1 = true → d.jmen = false → d.slots = [(e.jsn % 65536, e)] → d.heldTab = [] →
        t.host = writeMem s.host (d.jmbase + 64 * (e.jsn % 65536)) 64 e.toNat)) ∧
    (∀ v, Does (.hostord m v) s fun t => ModuleTo m s t fun x y =>
      (v.getLsbD 0 = x.hostord → y = x) ∧
      (v.getLsbD 0 ≠ x.hostord → (∃ e ∈ s.jobs, m ∈ e.2.modules) → y = { x with orderr := true }) ∧
      (v.getLsbD 0 ≠ x.hostord → (∀ e ∈ s.jobs, m ∉ e.2.modules) → y = { x with hostord := v.getLsbD 0 })) ∧
    Does (.jmerr m) s (fun t => ModuleTo m s t fun x y => y = if x.jmen then { x with jmerr := true, jmen := false } else x) ∧
    Does (.counterClear m) s (fun t => ModuleTo m s t fun x y => (∀ n, y.counter s.clock n = 0) ∧
      (x.freeze = false → ∀ n, y.counter (s.clock + n) 0 = BitVec.ofNat 64 n) ∧ { y with cnt := x.cnt, cntFrom := x.cntFrom } = x) ∧
    (∀ b, Does (.counterFreeze m b) s fun t => ModuleTo m s t fun x y => y.freeze = b ∧ (∀ n, y.counter s.clock n = x.counter s.clock n) ∧
      (b = true → ∀ later n, y.counter later n = x.counter s.clock n) ∧ { y with freeze := x.freeze, cnt := x.cnt, cntFrom := x.cntFrom } = x) ∧
    (∀ win off size write, (Accepted win off size write → exec (.accerr m win off size write) s = .next s) ∧
      (¬ Accepted win off size write → Does (.accerr m win off size write) s fun t => t.module? m = some { d with accerr := true } ∧
        t.replies = (if write then s.replies else some (2 ^ (8 * size) - 1) :: s.replies) ∧ OtherModules m s t ∧ Keeps [.modules, .replies] s t)) ∧
    (∀ win off size v, d.power ≠ .d0 → exec (.registerWrite m win off size v) s = .next s) ∧
    (d.power = .d0 → ∀ (size : Nat) (v : Word),
      (∀ win off, ¬ Accepted win off size true → Does (.registerWrite m win off size v) s fun t => ModuleTo m s t fun x y => y = { x with accerr := true }) ∧
      (∀ off, 0x200000 ≤ off → off < 0x800000 → exec (.registerWrite m .ctl off size v) s = .next s) ∧
      (size = 4 ∨ size = 8 →
        Does (.registerWrite m .ctl 8 size v) s (fun t => ModuleTo m s t fun x y =>
          y = { x with accerr := x.accerr && !v.getLsbD 1, orderr := x.orderr && !v.getLsbD 2, jmerr := x.jmerr && !v.getLsbD 3 }) ∧
        Does (.registerWrite m .mgmt 0x18 size v) s (fun t => ModuleTo m s t fun x y => y = { x with pwrlim := v.toNat % 2 ^ 16 }) ∧
        exec (.registerWrite m .ctl 0 size v) s = .next s) ∧
      (size = 8 → Does (.registerWrite m .ctl 0x18 size v) s fun t => ModuleTo m s t fun x y =>
        y = if x.jmen then x else { x with jmbase := v.toNat / 4096 * 4096 }) ∧
      (∀ q, q < 64 → size = 8 → Does (.registerWrite m .ctl (0x1000 + 64 * q) size v) s fun t => ModuleTo m s t fun x y =>
        QueueTo q (if (x.queue q).enabled then x.queue q else { x.queue q with base := v.toNat / 4096 * 4096 }) x y))) ∧
  (∀ (s : State) (m off size asid : Nat) (v : Word) (d : Dest), s.modeS m = false → HostAt s m off size asid d →
    Does (.hostWrite m off size v) s (fun t => StoresBytes s t asid d size v.toNat ∧ readMem (t.home asid d).base d.off size = v.toNat % 256 ^ size ∧
      SameRegisters s t ∧ Keeps [.cores, .jobs] s t ∧ OtherCores d.core s t ∧ OtherJobs asid s t) ∧
    Does (.hostRead m off size) s fun t => t.replies = some (s.bytesAt asid d size) :: s.replies ∧ Keeps [.replies] s t) ∧
  (∀ (s : State) (m off size : Nat) (v : Word), s.modeS m = false → (∀ asid d, ¬ HostAt s m off size asid d) →
    exec (.hostWrite m off size v) s = .next s ∧ Does (.hostRead m off size) s fun t => t.replies = none :: s.replies ∧ Keeps [.replies] s t) ∧
  (∀ (s : State) (m off size : Nat) (v : Word) (x : Module), s.module? m = some x → x.hostord = true →
    let q := off / 2 ^ 37 % 4 * 4 + off / 2 ^ 36 % 2 * 2 + off / 2 ^ 32 % 2
    let behind := fun (r : HostReq) (a b : Module) => b.requestsOf q = a.requestsOf q ++ [r] ∧ (∀ p, p ≠ q → b.requestsOf p = a.requestsOf p) ∧
      { b with requests := a.requests } = a
    Does (.hostWrite m off size v) s (fun t => ModuleTo m s t (behind { write := true, off := off, size := size, val := v })) ∧
    Does (.hostRead m off size) s (fun t => ModuleTo m s t (behind { write := false, off := off, size := size, val := 0 }))) ∧
  (∀ (s : State) (m q asid : Nat) (x : Module) (r : HostReq) (rest : List HostReq) (d : Dest), s.module? m = some x → x.requestsOf q = r :: rest →
    HostAt s m r.off r.size asid d →
    ((s.serveHost m q).module? m).map (fun y => y.requestsOf q) = some rest ∧
    (r.write = true → StoresBytes s (s.serveHost m q) asid d r.size r.val.toNat ∧ (s.serveHost m q).replies = s.replies) ∧
    (r.write = false → (s.serveHost m q).replies = some (s.bytesAt asid d r.size) :: s.replies ∧ SameMemory s (s.serveHost m q)))

-- commands

/-- A command is accepted and due: no earlier command for its ASID is still to be carried out (R85); its journal entry is not final. -/
def CommandDue (s : State) (m jsn kind : Nat) (c : Command) : Prop :=
  s.command? m jsn kind = some c ∧ ∃ d e, s.module? m = some d ∧ risingFrom 0 d.heldTab = true ∧ d.entry? jsn = some e ∧ e.final = false
/-- Entry `jsn` of module `m` takes a state and a cause, and its completion is due on its queue (R78, R82). -/
def EntryEnds (m jsn state cause : Nat) (s t : State) : Prop :=
  ∃ d e d', s.module? m = some d ∧ d.entry? jsn = some e ∧ t.module? m = some d' ∧ d'.entry? jsn = some { e with state := state, cause := cause } ∧
    ({ status := state + 12, cause := if state = 5 then cause else 0, jsn := jsn, qseq := e.qseq } : Completion) ∈ (d'.queue e.queue).pending
/-- The command ends: its entry is final, its completion is the newest of its queue, it is no longer to be carried out; nothing else changes but the mirror. -/
def CommandEnds (m jsn state cause : Nat) (s t : State) : Prop :=
  ∃ d e d', s.module? m = some d ∧ d.entry? jsn = some e ∧ t.module? m = some d' ∧ d'.entry? jsn = some { e with state := state, cause := cause } ∧
    (∀ n, n ≠ jsn → d'.entry? n = d.entry? n) ∧ d'.commands = d.commands.filter (fun c => c.jsn ≠ jsn) ∧
    (d'.queue e.queue).pending = (d.queue e.queue).pending ++ [{ status := state + 12, cause := if state = 5 then cause else 0, jsn := jsn, qseq := e.qseq }] ∧
    (∀ q, q ≠ e.queue → d'.queue q = d.queue q) ∧ OtherModules m s t ∧ Keeps [.modules, .host] s t ∧ (d.jmen = false → t.host = s.host)
/-- Byte `i` on of a memory, `n` bytes, become `v`; every other byte is as before. -/
def Writes (a b : Memory) (i n v : Nat) : Prop := readMem b i n = v % 256 ^ n ∧ ∀ k, k < i ∨ i + n ≤ k → readByte b k = readByte a k
/-- Fetching and completing. A fetch takes the next command of an enabled queue of highest priority that has one and room for its completion: QSEQ 0 or beyond QEXP
is answered SEQGAP; QSEQ = QEXP is accepted with a new JSN, entry and ACCEPTED completion, and a reserved kind or LEASE operation then faults with BADKIND or
BADFIELD; an earlier QSEQ is answered DUPLICATE or CONFLICT by its digest, with JSN 0 when its entry is no longer held. An entry in the new JSN's slot that is not
final moves to its half of the held table first, and with no place there nothing is fetched. A completion goes into its ring unless that is full (R75 to R81, R83). The
mark of a LAUNCH whose ASID has an earlier LAUNCH entry in the pod that is not final, judged when it is accepted, is the model's reading of R81, R85, R359 and R400
(DEDUCED, log entry 50); so is that BADKIND and BADFIELD of a LEASE operation fault in the step that accepts (DEDUCED, log entry 24), and that a command is read from a
poisoned page of host memory as from any other is its choice (DESIGN CHOICE, log entry 86). -/
def Obligations.QueueSteps : Prop :=
  (∀ (s : State) (m : Nat) (d : Module), s.module? m = some d →
    (d.ready = false ∨ d.nextQueue = none → exec (.commandFetch m) s = .next s) ∧
    (∀ q, d.nextQueue = some q → q < 64 ∧ (d.queue q).enabled = true ∧ (d.queue q).head % 2 ^ (d.queue q).size ≠ (d.queue q).tail % 2 ^ (d.queue q).size ∧
      ((d.queue q).cidx + 1) % 2 ^ (d.queue q).size ≠ (d.queue q).chead % 2 ^ (d.queue q).size ∧
      ∀ p, p < 64 → (∀ p, (d.queue p).prio < 256) → (d.queue p).fetchable = true → (d.queue p).prio ≤ (d.queue q).prio) ∧
    (∀ q, d.nextQueue = some q → d.ready = true → (∀ e, dget? d.slots (d.jhead % 65536) = some e → e.final = true) →
      let x := d.queue q
      let b := readMem s.host (x.base + 64 * (x.head % 2 ^ x.size)) 64
      let n := b / 2 ^ 64 % 2 ^ 48
      let head := (x.head + 1) % 2 ^ x.size
      let dg := sm3 (bytesOf b 64)
      (n = 0 ∨ x.qexp < n → Does (.commandFetch m) s fun t => ModuleTo m s t fun _ y =>
        y.queue q = { x with head := head, pending := x.pending ++ [{ status := 3, cause := 0, jsn := 0, qseq := n }] } ∧
        (∀ p, p ≠ q → y.queue p = d.queue p) ∧ { y with queues := d.queues, served := d.served } = d) ∧
      (n ≠ 0 → n < x.qexp → ∀ e, d.entryOf q n = some e → Does (.commandFetch m) s fun t => ModuleTo m s t fun _ y =>
        y.queue q = { x with head := head, pending := x.pending ++ [{ status := if e.digest = dg then 1 else 2, cause := 0, jsn := e.jsn, qseq := n }] } ∧
        (∀ p, p ≠ q → y.queue p = d.queue p) ∧ { y with queues := d.queues, served := d.served } = d) ∧
      (n ≠ 0 → n < x.qexp → d.entryOf q n = none → Does (.commandFetch m) s fun t => ModuleTo m s t fun _ y =>
        y.queue q = { x with head := head, pending := x.pending ++ [{ status := 1, cause := 0, jsn := 0, qseq := n }] } ∧
        (∀ p, p ≠ q → y.queue p = d.queue p) ∧ { y with queues := d.queues, served := d.served } = d) ∧
      (∀ cause, n ≠ 0 → n = x.qexp → badKind b = some cause → Does (.commandFetch m) s fun t => ∃ y, t.module? m = some y ∧
        (cause = if b % 2 ^ 8 = 5 then 0x41 else 0x40) ∧
        y.queue q = { x with head := head, qexp := n + 1, pending := x.pending ++
          [{ status := 0, cause := 0, jsn := d.jhead, qseq := n }, { status := 0x11, cause := cause, jsn := d.jhead, qseq := n }] } ∧
        (∀ p, p ≠ q → y.queue p = d.queue p) ∧ y.jhead = d.jhead + 1 ∧ y.commands = d.commands.filter (fun c => c.jsn ≠ d.jhead) ∧
        (dget? y.slots (d.jhead % 65536)).map (fun e => (e.state, e.cause)) = some (5, cause) ∧ OtherModules m s t) ∧
      (n ≠ 0 → n = x.qexp → badKind b = none → Does (.commandFetch m) s fun t => ∃ y, t.module? m = some y ∧
        y.queue q = { x with head := head, qexp := n + 1, pending := x.pending ++ [{ status := 0, cause := 0, jsn := d.jhead, qseq := n }] } ∧
        (∀ p, p ≠ q → y.queue p = d.queue p) ∧ y.jhead = d.jhead + 1 ∧
        (∃ busy, y.commands = d.commands ++ [{ jsn := d.jhead, queue := q, prio := x.prio, bytes := b, busy := busy }] ∧
          (busy = true ↔ b % 2 ^ 8 = 1 ∧ ∃ z ∈ s.modules, ∃ e ∈ z.2.slots.map Prod.snd ++ z.2.heldTab.map Prod.snd,
            e.kind = 1 ∧ e.asid = b / 2 ^ 32 % 2 ^ 14 ∧ e.final = false)) ∧
        dget? y.slots (d.jhead % 65536) = some { jsn := d.jhead, qseq := n, queue := q, kind := b % 2 ^ 8, cause := 0, state := 0
                                                 asid := b / 2 ^ 32 % 2 ^ 14, ssn := 0, digest := dg } ∧
        (∀ p, p ≠ d.jhead % 65536 → dget? y.slots p = dget? d.slots p) ∧ y.heldTab = d.heldTab ∧ OtherModules m s t ∧ Keeps [.modules, .host] s t ∧
        (d.jmen = false → t.host = s.host))) ∧
    (∀ q e, d.nextQueue = some q → dget? d.slots (d.jhead % 65536) = some e → e.final = false →
      let x := d.queue q
      let b := readMem s.host (x.base + 64 * (x.head % 2 ^ x.size)) 64
      (d.heldFor e = none → exec (.commandFetch m) s = .next s) ∧
      (∀ h, d.heldFor e = some h → (if e.kind = 1 then 16384 else 0) ≤ h ∧ h < (if e.kind = 1 then 32768 else 16384) ∧
        (d.ready = true → b / 2 ^ 64 % 2 ^ 48 ≠ 0 → b / 2 ^ 64 % 2 ^ 48 = x.qexp → badKind b = none → Does (.commandFetch m) s fun t => ∃ y, t.module? m = some y ∧
          y.heldTab = dset d.heldTab h e ∧ (dget? y.slots (d.jhead % 65536)).map Entry.jsn = some d.jhead ∧ y.jhead = d.jhead + 1)))) ∧
  (∀ (s : State) (m q : Nat) (d : Module), s.module? m = some d →
    ((d.queue q).pending = [] ∨ ((d.queue q).cidx + 1) % 2 ^ (d.queue q).size = (d.queue q).chead % 2 ^ (d.queue q).size →
      exec (.completionWrite m q) s = .next s) ∧
    (∀ c rest, (d.queue q).pending = c :: rest → ((d.queue q).cidx + 1) % 2 ^ (d.queue q).size ≠ (d.queue q).chead % 2 ^ (d.queue q).size →
      let x := d.queue q
      let next := (x.cidx + 1) % 2 ^ x.size
      Does (.completionWrite m q) s fun t => ∃ y, t.module? m = some y ∧
        y.queue q = { x with pending := rest, cidx := next, cphase := if next = 0 then !x.cphase else x.cphase } ∧ (∀ p, p ≠ q → y.queue p = d.queue p) ∧
        y.slots = d.slots ∧ y.commands = d.commands ∧ OtherModules m s t ∧ Keeps [.modules, .host] s t ∧
        (x.irq = false → Writes s.host t.host (x.cbase + 16 * (x.cidx % 2 ^ x.size)) 16
          (c.qseq % 2 ^ 48 + c.jsn % 2 ^ 48 * 2 ^ 48 + c.status * 2 ^ 96 + c.cause * 2 ^ 104 + if x.cphase then 2 ^ 127 else 0))))

/-- A reserved or unused field of a command is not zero (R76). -/
def BadFields (b : Nat) (args : List Nat) : Prop :=
  b / 2 ^ 8 % 2 ^ 8 ≠ 0 ∨ b / 2 ^ 16 % 2 ^ 16 ≠ 0 ∨ b / 2 ^ 46 % 2 ^ 18 ≠ 0 ∨ b / 2 ^ 112 % 2 ^ 16 ≠ 0 ∨ b / 2 ^ 384 % 2 ^ 128 ≠ 0 ∨
    ∃ a ∈ args, b / 2 ^ (128 + 64 * a) % 2 ^ 64 ≠ 0
/-- The job is live for commands of a module: its LAUNCH is there and not past its final commit (R85). -/
def LiveJob (s : State) (m asid : Nat) (j : Job) : Prop := s.job? asid = some j ∧ j.home = m ∧ j.stage ≠ .retiring
/-- Nothing of a module changes but its journal, queues and commands. -/
def JournalOnly (m : Nat) (s t : State) : Prop :=
  OtherModules m s t ∧ ∃ d d', s.module? m = some d ∧ t.module? m = some d' ∧
    { d' with slots := d.slots, heldTab := d.heldTab, queues := d.queues, commands := d.commands } = d
/-- The commands of R77. LAUNCH checks its fields, then its image, then the ASID, then whether an empty pod could hold the job, and faults with BADFIELD, the image's
cause, ASIDBUSY or NOPLACE; else the job waits for its place. CANCEL, PAUSE and RESUME of a job that is not live fault NOTLIVE; a CANCEL ends an idle job at
once, after the wait for a reserved bank that its write-backs meet (R125), is pending at another and urgent with ARG0 = 1; PAUSE is pending, RESUME ends the pause, withdraws it, or faults BADSTATE. READ-JOURNAL copies entries; SYNC
waits for the earlier commands of its queue (R76, R77, R81, R82, R85, R87, R400). That a LAUNCH is ASIDBUSY if one was not final when it was accepted is
the model's reading (log entry 50), and that a CANCEL ends a job held at a boundary at once is too (log entry 14), as is that the frames of a cancelled job are written
back, R358 giving this for retirement only (DEDUCED, log entry 13): the wait for a bank follows from it. LAUNCH waits for a reserved bank with a pool entry (R114, R125). -/
def Obligations.Commands : Prop :=
  (∀ (s : State) (m jsn : Nat) (c : Command), CommandDue s m jsn 1 c →
    let asid := c.bytes / 2 ^ 32 % 2 ^ 14
    let arg := fun i => c.bytes / 2 ^ (128 + 64 * i) % 2 ^ 64
    let bad0 := BadFields c.bytes [3] ∨ arg 0 % 4096 ≠ 0 ∨ rootOk (arg 2) = false
    let bad := bad0 ∨ s.poolMeets m (arg 2) = true
    (¬ bad0 → s.poolsHeld m (arg 2) = true → exec (.launch m jsn) s = .next s) ∧
    (bad0 ∨ s.poolsHeld m (arg 2) = false →
    (bad → Does (.launch m jsn) s (CommandEnds m jsn 5 0x41 s)) ∧
    (∀ cause, ¬ bad → readImage s.host s.hostBad (arg 0) (arg 1) = .error cause → Does (.launch m jsn) s (CommandEnds m jsn 5 cause s)) ∧
    (∀ j, ¬ bad → readImage s.host s.hostBad (arg 0) (arg 1) = .ok j →
      let j' := { j with home := m, jsn := jsn, queue := c.queue, prio := c.prio, root := arg 2 }
      ((s.job? asid).isSome = true ∨ c.busy = true → Does (.launch m jsn) s (CommandEnds m jsn 5 0x45 s)) ∧
      (s.job? asid = none → c.busy = false → s.candidates j' = [] → Does (.launch m jsn) s (CommandEnds m jsn 5 0x48 s)) ∧
      (s.job? asid = none → c.busy = false → s.candidates j' ≠ [] → Does (.launch m jsn) s fun t => t.job? asid = some j' ∧ OtherJobs asid s t ∧ Keeps [.modules, .jobs] s t ∧
        JournalOnly m s t ∧ (∀ n, t.entry? m n = s.entry? m n) ∧ (t.module? m).map Module.commands = (s.module? m).map fun d => d.commands.filter fun e => e.jsn ≠ jsn)))) ∧
  (∀ (s : State) (m jsn : Nat) (c : Command), CommandDue s m jsn 2 c →
    let asid := c.bytes / 2 ^ 32 % 2 ^ 14
    let now := c.bytes / 2 ^ 128 % 2 ^ 64
    (BadFields c.bytes [1, 2, 3] ∨ 1 < now → Does (.cancel m jsn) s (CommandEnds m jsn 5 0x41 s)) ∧
    (¬ BadFields c.bytes [1, 2, 3] → now ≤ 1 → (∀ j, ¬ LiveJob s m asid j) → Does (.cancel m jsn) s (CommandEnds m jsn 5 0x46 s)) ∧
    (∀ j, ¬ BadFields c.bytes [1, 2, 3] → now ≤ 1 → LiveJob s m asid j →
      (j.stage = .running → j.held = false → Does (.cancel m jsn) s fun t => ∃ j', t.job? asid = some j' ∧
        j' = { j with pending := j.pending ++ [{ jsn := jsn, cancel := true }], removeAt := j'.removeAt } ∧ (now = 1 → j'.removeAt = true) ∧
        (∀ n, t.entry? m n = s.entry? m n) ∧ OtherJobs asid s t ∧ Keeps [.modules, .jobs, .net] s t ∧ JournalOnly m s t ∧
        (now = 0 → t.net = s.net) ∧ (now = 1 → ∃ u, t.net = s.net ++ [{ src := m * 1024, ctx := 11, asid := asid, uid := u, seq := 0, cmd := none, kind := .urgent 0 0 2 }])) ∧
      (j.stage = .waiting ∨ j.stage = .staging ∨ j.stage = .runpfl ∨ j.held = true → j.pending = [] → j.jsn ≠ jsn →
        (∃ e, s.entry? m j.jsn = some e ∧ e.final = false) → s.endBusy j = false →
        Does (.cancel m jsn) s fun t => t.job? asid = none ∧ EntryEnds m jsn 4 0 s t ∧ EntryEnds m j.jsn 6 0 s t ∧ OtherJobs asid s t ∧
          (∀ x ∈ t.net, x.asid ≠ asid) ∧ ∀ e ∈ t.cores, e.2.asid ≠ asid) ∧
      (j.stage = .waiting ∨ j.stage = .staging ∨ j.stage = .runpfl ∨ j.held = true → s.endBusy j = true → exec (.cancel m jsn) s = .next s))) ∧
  (∀ (s : State) (m jsn : Nat) (c : Command), CommandDue s m jsn 3 c →
    let asid := c.bytes / 2 ^ 32 % 2 ^ 14
    (BadFields c.bytes [0, 1, 2, 3] → Does (.pauseAtBoundary m jsn) s (CommandEnds m jsn 5 0x41 s)) ∧
    (¬ BadFields c.bytes [0, 1, 2, 3] → (∀ j, ¬ LiveJob s m asid j) → Does (.pauseAtBoundary m jsn) s (CommandEnds m jsn 5 0x46 s)) ∧
    (∀ j, ¬ BadFields c.bytes [0, 1, 2, 3] → LiveJob s m asid j →
      (j.paused = true ∨ (∃ r ∈ j.pending, r.cancel = false) → Does (.pauseAtBoundary m jsn) s (CommandEnds m jsn 4 0 s)) ∧
      (j.paused = false → (∀ r ∈ j.pending, r.cancel = true) → Does (.pauseAtBoundary m jsn) s fun t =>
        t.job? asid = some { j with pending := j.pending ++ [{ jsn := jsn, cancel := false }] } ∧ OtherJobs asid s t ∧ Keeps [.modules, .jobs] s t ∧
        JournalOnly m s t ∧ ∀ n, t.entry? m n = s.entry? m n))) ∧
  (∀ (s : State) (m jsn : Nat) (c : Command), CommandDue s m jsn 4 c →
    let asid := c.bytes / 2 ^ 32 % 2 ^ 14
    (BadFields c.bytes [0, 1, 2, 3] → Does (.resume m jsn) s (CommandEnds m jsn 5 0x41 s)) ∧
    (¬ BadFields c.bytes [0, 1, 2, 3] → (∀ j, ¬ LiveJob s m asid j) → Does (.resume m jsn) s (CommandEnds m jsn 5 0x46 s)) ∧
    (∀ j, ¬ BadFields c.bytes [0, 1, 2, 3] → LiveJob s m asid j →
      (j.paused = false → (∀ r ∈ j.pending, r.cancel = true) → Does (.resume m jsn) s (CommandEnds m jsn 5 0x47 s)) ∧
      (j.paused = true → j.jsn ≠ jsn → (∃ e, s.entry? m j.jsn = some e) → Does (.resume m jsn) s fun t => t.job? asid = some { j with paused := false } ∧
        EntryEnds m jsn 4 0 s t ∧ t.entry? m j.jsn = (s.entry? m j.jsn).map (fun e => { e with state := 3 }) ∧ OtherJobs asid s t ∧
        Keeps [.modules, .jobs, .host] s t ∧ JournalOnly m s t) ∧
      (∀ r, j.paused = false → j.pending = [r] → r.cancel = false → r.jsn ≠ jsn → (∃ e, s.entry? m r.jsn = some e ∧ e.final = false) →
        Does (.resume m jsn) s fun t => t.job? asid = some { j with pending := [] } ∧ EntryEnds m jsn 4 0 s t ∧ EntryEnds m r.jsn 4 0 s t ∧
          OtherJobs asid s t ∧ Keeps [.modules, .jobs, .host] s t ∧ JournalOnly m s t))) ∧
  (∀ (s : State) (m jsn : Nat) (c : Command), CommandDue s m jsn 6 c →
    let arg := fun i => c.bytes / 2 ^ (128 + 64 * i) % 2 ^ 64
    let bad := BadFields c.bytes [3] ∨ arg 1 = 0 ∨ 4096 < arg 1 ∨ arg 2 % 64 ≠ 0
    (bad → Does (.readJournal m jsn) s (CommandEnds m jsn 5 0x41 s)) ∧
    (¬ bad → (∃ d, s.module? m = some d ∧ d.jmen = false) → Does (.readJournal m jsn) s fun t => EntryEnds m jsn 4 0 s t ∧
      (∀ i, i < arg 1 → readMem t.host (arg 2 + 64 * i) 64 = ((s.entry? m (arg 0 + i)).map Entry.toNat).getD 0 % 2 ^ 512) ∧
      (∀ a, a < arg 2 ∨ arg 2 + 64 * arg 1 ≤ a → readByte t.host a = readByte s.host a) ∧ Keeps [.modules, .host] s t ∧ JournalOnly m s t)) ∧
  (∀ (s : State) (m jsn : Nat) (c : Command) (d : Module), CommandDue s m jsn 7 c → s.module? m = some d →
    (BadFields c.bytes [0, 1, 2, 3] → Does (.sync m jsn) s (CommandEnds m jsn 5 0x41 s)) ∧
    (¬ BadFields c.bytes [0, 1, 2, 3] → (∀ e, e ∈ d.slots.map Prod.snd ++ d.heldTab.map Prod.snd → e.queue = c.queue → e.jsn < jsn → e.final = true) →
      Does (.sync m jsn) s (CommandEnds m jsn 4 0 s)) ∧
    (¬ BadFields c.bytes [0, 1, 2, 3] → (∃ e, e ∈ d.slots.map Prod.snd ++ d.heldTab.map Prod.snd ∧ e.queue = c.queue ∧ e.jsn < jsn ∧ e.final = false) →
      exec (.sync m jsn) s = .next s))

-- leases

/-- The command is a LEASE of operation `op` with no reserved field set (R117). -/
def LeaseDue (s : State) (m jsn op : Nat) (c : Command) : Prop :=
  CommandDue s m jsn 5 c ∧ c.bytes / 2 ^ 128 % 16 = op ∧ ¬ BadFields c.bytes [3] ∧ c.bytes / 2 ^ 32 % 2 ^ 14 = 0 ∧ c.bytes / 2 ^ 132 % 16 = 0 ∧
    c.bytes / 2 ^ 154 % 2 ^ 38 = 0
/-- Base and length of a lease: multiples of 2 MiB, at least one of them, no more than a window, inside tier 0 (R117). -/
def LeaseRange (base len : Nat) : Prop :=
  base % 0x200000 = 0 ∧ len % 0x200000 = 0 ∧ 0x200000 ≤ len ∧ len ≤ 0x4000000000 ∧ base + len ≤ 0x7FC0000000
/-- A fresh slot: OFFERED at the lender, TAKEN at the borrower. -/
def newLease (lender : Bool) (peer base len : Nat) : Lease :=
  { state := if lender then .offered else .taken, lender := lender, peer := peer, base := base, len := len, refused := false, waiting := [], since := 0, jsn := 0 }
/-- Slot `n` of a module's lease table becomes `l`, every other slot is as before. -/
def SlotIs (m n : Nat) (l : Option Lease) (s t : State) : Prop :=
  t.lease? m n = l ∧ (∀ k, k ≠ n → t.lease? m k = s.lease? m k) ∧ ∀ p k, p ≠ m → t.lease? p k = s.lease? p k
/-- OFFER and TAKE fill a free slot with a range that R117 admits, TAKE inside an offer of the peer to this module, or fault BADFIELD. WITHDRAW of an offer and
RELEASE of a window begin the revocation of R118: the borrower votes to abort with LEASE in a core that has a write to the window waiting, directly or
through a frame backed there, waits for committed writes, frees its slot and acknowledges; the lender's slot is free, and WITHDRAW complete, at the last
acknowledgement; after 1 ms the windows that have not acknowledged are refused. Accesses are served in the lender's tier 0 unless they are refused, and wait
for a reserved bank there; an extent being released raises LEASE and at the end leaves the decoders, and one that its device adds is claimed (R117 to R121,
R125). That the device adds one by DCD_EXTENT_RELEASE, its base counted
from 2^48, is the model's choice (log entry 63). That WITHDRAW or RELEASE of a slot in
another state is BADFIELD is the model's reading (log entry 24). -/
def Obligations.Leases : Prop :=
  (∀ (s : State) (m jsn : Nat) (c : Command) (d : Module), s.module? m = some d →
    let slot := c.bytes / 2 ^ 136 % 256
    let peer := c.bytes / 2 ^ 144 % 1024
    let base := c.bytes / 2 ^ 192 % 2 ^ 64
    let len := c.bytes / 2 ^ 256 % 2 ^ 64
    (LeaseDue s m jsn 1 c →
      let ok := LeaseRange base len ∧ s.lease? m slot = none ∧ ∀ e ∈ d.leases, e.2.lender = true → e.2.base + e.2.len ≤ base ∨ base + len ≤ e.2.base
      (ok → Does (.offer m jsn) s fun t => CommandEnds m jsn 4 0 s t ∧ SlotIs m slot (some (newLease true peer base len)) s t) ∧
      (¬ ok → Does (.offer m jsn) s (CommandEnds m jsn 5 0x41 s))) ∧
    (LeaseDue s m jsn 3 c →
      let ok := LeaseRange base len ∧ s.lease? m slot = none ∧ ∃ d', s.module? peer = some d' ∧ ∃ e ∈ d'.leases, e.2.lender = true ∧ e.2.state = .offered ∧
        e.2.peer = m ∧ e.2.base ≤ base ∧ base + len ≤ e.2.base + e.2.len
      (ok → Does (.take m jsn) s fun t => CommandEnds m jsn 4 0 s t ∧ SlotIs m slot (some (newLease false peer base len)) s t) ∧
      (¬ ok → Does (.take m jsn) s (CommandEnds m jsn 5 0x41 s))) ∧
    (LeaseDue s m jsn 2 c →
      ((∀ l, s.lease? m slot = some l → l.lender = false ∨ l.state ≠ .offered) ∨ base ≠ 0 ∨ len ≠ 0 → Does (.withdraw m jsn) s (CommandEnds m jsn 5 0x41 s)) ∧
      (∀ l, s.lease? m slot = some l → l.lender = true → l.state = .offered → base = 0 → len = 0 →
        (s.windowsOn m l = [] → Does (.withdraw m jsn) s fun t => CommandEnds m jsn 4 0 s t ∧ SlotIs m slot none s t) ∧
        (s.windowsOn m l ≠ [] → Does (.withdraw m jsn) s fun t =>
          SlotIs m slot (some { l with state := .revoking, waiting := s.windowsOn m l, since := s.clock, jsn := jsn }) s t ∧ Keeps [.modules, .net] s t ∧
          ∀ w ∈ s.windowsOn m l, ∃ x ∈ t.net, x.kind = .revoke w.2 ∧ x.src = w.1 * 1024 ∧ x.ctx = slot ∧ x.cmd = some m))) ∧
    (LeaseDue s m jsn 4 c →
      ((∀ l, s.lease? m slot = some l → l.lender = true ∨ l.state ≠ .taken) ∨ base ≠ 0 ∨ len ≠ 0 → Does (.release m jsn) s (CommandEnds m jsn 5 0x41 s)) ∧
      (∀ l, s.lease? m slot = some l → l.lender = false → l.state = .taken → base = 0 → len = 0 → Does (.release m jsn) s fun t =>
        SlotIs m slot (some { l with state := .revoking, since := s.clock, jsn := jsn }) s t ∧ Keeps [.modules] s t ∧ OtherModules m s t))) ∧
  (∀ (s : State) (m slot : Nat) (l : Lease) (d : Module), s.module? m = some d → s.lease? m slot = some l → l.lender = false →
    (l.state = .taken → (∀ x ∈ s.net, ¬ (coreModule x.src = m ∧ x.kind = .revoke slot)) → exec (.revocation m slot) s = .next s) ∧
    (l.state = .revoking → (∀ x ∈ s.net, ∀ w p n v, x.kind ≠ .lease w p n v) →
      ((∀ e ∈ s.cores, e.2.writeOuts = []) → s.poolsBusy m = false → (l.jsn ≠ 0 → risingFrom 0 d.heldTab = true ∧ ∃ e, s.entry? m l.jsn = some e ∧ e.final = false) →
        Does (.revocation m slot) s fun t => t.lease? m slot = none ∧ (l.jsn ≠ 0 → EntryEnds m l.jsn 4 0 s t)) ∧
      (∀ c k, s.core? c = some k → coreModule c = m → k.open_ = true → k.stopped = false → k.abort = none → s.committedWriter k = false →
        (∃ w ∈ k.writeOuts, s.writeMeets m (0x400000000000 + slot * 0x4000000000) l.len (((s.job? k.asid).map Job.root).getD 0) w = true) →
        Does (.revocation m slot) s fun t => ∃ k', t.core? c = some k' ∧ k'.abort = some 0x11 ∧ k'.phase = .voted ∧ k'.stopped = true))) ∧
  (∀ (s : State) (m slot p : Nat) (l : Lease) (x : Msg), s.lease? m slot = some l → l.lender = false → l.state = .taken → l.jsn = 0 →
    (s.net.findIdx? fun y => coreModule y.src == m && match y.kind with | .revoke w => w == slot | _ => false) = some p → s.net[p]? = some x →
    (∀ e ∈ s.cores, e.2.writeOuts = []) → (∀ y ∈ s.net, ∀ w a n v, y.kind ≠ .lease w a n v) → s.poolsBusy m = false →
    Does (.revocation m slot) s fun t => t.lease? m slot = none ∧ ∃ u, t.net = s.net.eraseIdx p ++
      [{ src := x.cmd.getD 0 * 1024, ctx := x.ctx, asid := noJob, uid := u, seq := 0, cmd := some m, kind := .revokeAck slot }]) ∧
  (∀ (s : State) (n w : Nat) (x : Msg) (l : Lease), s.net[n]? = some x → x.kind = .revokeAck w → s.lease? (x.src / 1024) x.ctx = some l →
    l.lender = true → l.state = .revoking →
    ((∃ v ∈ l.waiting, v ≠ (x.cmd.getD 0, w)) → Does (.revocationAck n) s fun t =>
      SlotIs (x.src / 1024) x.ctx (some { l with waiting := l.waiting.filter (· ≠ (x.cmd.getD 0, w)) }) s t ∧ t.net = s.net.eraseIdx n) ∧
    ((∀ v ∈ l.waiting, v = (x.cmd.getD 0, w)) → (∃ d e, s.module? (x.src / 1024) = some d ∧ risingFrom 0 d.heldTab = true ∧ d.entry? l.jsn = some e ∧ e.final = false) →
      Does (.revocationAck n) s fun t => SlotIs (x.src / 1024) x.ctx none s t ∧ t.net = s.net.eraseIdx n ∧ EntryEnds (x.src / 1024) l.jsn 4 0 s t)) ∧
  (∀ (s : State) (m slot b w : Nat) (l x : Lease), s.lease? m slot = some l → l.lender = true → l.state = .revoking → l.waiting = [(b, w)] →
    s.lease? b w = some x → x.lender = false →
    (s.clock < l.since + 1250000 → exec (.leaseAckTimeout m slot) s = .next s) ∧
    (l.since + 1250000 ≤ s.clock → Does (.leaseAckTimeout m slot) s fun t => SlotIs b w (some { x with refused := true }) s t ∧ Keeps [.modules] s t)) ∧
  (∀ (s : State) (n pa k v : Nat) (write : Bool) (x : Msg) (d : Module), s.net[n]? = some x → x.kind = .lease write pa k v → tierOf pa = .hbm →
    s.module? (x.src / 1024) = some d → s.bankBusyOver (x.src / 1024) pa k none = false →
    Does (.leaseWindowAccess n) s fun t => t.net = s.net.eraseIdx n ∧ ∃ d', t.module? (x.src / 1024) = some d' ∧
      (write = true → Writes d.hbm d'.hbm pa k v) ∧ (write = false → d'.hbm = d.hbm)) ∧
  (∀ (s : State) (n pa k v : Nat) (write : Bool) (x : Msg) (l : Lease) (d : Module), s.net[n]? = some x → x.kind = .lease write pa k v → tierOf pa = .lease →
    s.lease? (x.src / 1024) ((pa - 0x400000000000) / 0x4000000000) = some l → l.lender = false → s.module? l.peer = some d →
    (s.bankBusyOver (x.src / 1024) pa k none = true → exec (.leaseWindowAccess n) s = .next s) ∧
    (s.bankBusyOver (x.src / 1024) pa k none = false → Does (.leaseWindowAccess n) s fun t => t.net = s.net.eraseIdx n ∧ ∃ d', t.module? l.peer = some d' ∧
      (write = true → l.refused = false → Writes d.hbm d'.hbm (l.base + (pa - 0x400000000000) % 0x4000000000) k v) ∧
      (write = false ∨ l.refused = true → d'.hbm = d.hbm))) ∧
  (∀ (s : State) (m base len p n : Nat) (w : Bool) (v : Nat) (x : Msg) (d : Module), s.module? m = some d → x ∈ s.net → x.kind = .lease w p n v → x.src / 1024 = m →
    overlaps p n base len = true → base < 2 ^ 48 →
    Does (.dcdExtentRelease m base len) s fun t => ∃ d', t.module? m = some d' ∧ d'.hdm = d.hdm ∧ (base, len) ∈ d'.releasing ∧
      ∀ pa k write, tierOf pa = .cxl → (∃ r ∈ d.hdm, r.1 ≤ pa ∧ pa + k ≤ r.1 + r.2) → overlaps base len pa k = true → t.paCause m pa k write = some 0x11) ∧
  (∀ (s : State) (m base len : Nat) (d : Module), s.module? m = some d → (∀ e ∈ s.cores, e.2.writeOuts = []) →
    (∀ x ∈ s.net, ∀ w p n v, x.kind ≠ .lease w p n v) → s.poolsBusy m = false → base < 2 ^ 48 →
    Does (.dcdExtentRelease m base len) s fun t => ∃ d', t.module? m = some d' ∧
      ∀ a, (∃ r ∈ d'.hdm, r.1 ≤ a ∧ a < r.1 + r.2) ↔ (∃ r ∈ d.hdm, r.1 ≤ a ∧ a < r.1 + r.2) ∧ ¬ (base ≤ a ∧ a < base + len)) ∧
  (∀ (s : State) (m base len : Nat) (d : Module), s.module? m = some d → 0 < len →
    let free := tierOf base = .cxl ∧ base + len ≤ 0xC00000000000 ∧ ∀ r ∈ d.releasing, overlaps r.1 r.2 base len = false
    (¬ free → Does (.dcdExtentRelease m (2 ^ 48 + base) len) s fun t => ModuleTo m s t fun x y => y = x) ∧
    (free → Does (.dcdExtentRelease m (2 ^ 48 + base) len) s fun t => ModuleTo m s t fun x y => { y with hdm := x.hdm } = x ∧
      ∀ a, (∃ r ∈ y.hdm, r.1 ≤ a ∧ a < r.1 + r.2) ↔ (∃ r ∈ x.hdm, r.1 ≤ a ∧ a < r.1 + r.2) ∨ base ≤ a ∧ a < base + len))

-- placing, parking, moving

/-- The state has the job of a LAUNCH at a stage. -/
def JobAt (s : State) (m jsn : Nat) (st : Stage) (asid : Nat) (j : Job) : Prop := s.jobAt m jsn st = some (asid, j) ∧ s.job? asid = some j
/-- A job takes its place when it is the first, by priority and JSN, that fits: its rectangles stand on free positions and its cores are of the job with zeroed
TCM; the yields asked for it are withdrawn. Staging reads the rest of the image as it now stands, lays a section's bytes over zeros in every TCM of the job and then gives PLACED, or
the first cause, or DIGEST; an image that can no longer be read is IMGREAD, and a reserved bank is waited for. When the RUNPFL lists are delivered the job runs, RUNNING from then on, or ends with LINK where a module can carry out no
round of its tile tables: context 0 of every core starts at ENTRY in superstep 1 with zero registers and reset CSRs.
A held job that must yield is parked whole; its positions are free. A waiting job that fits only
without jobs of lower priority gets room by a move, or asks them to yield, by an urgent abort at the deadline. A held job's rectangle moves only after a commit
or for a position that no spare can take, not with a patch: its cores as they are, its positions forwarding (R69, R82, R87 to R89, R93, R94, R97, R101, R317, R339
to R342). The model's: the order of the copies of several RUNPFL lists (DESIGN CHOICE, log 98); a command accepted before for the job comes first in each of these steps (DEDUCED, log 67); a fenced position that cannot be patched yet keeps
the job PLACED, and its patch comes before superstep 1 (DEDUCED, log 30); an image is read whole before any section is staged (DESIGN CHOICE, log 79); a staging
cause comes before the digest is judged (DEDUCED, log 16); jobs of several homes compare by JSN (DESIGN CHOICE, log 51); a move that
makes room is taken at once (DESIGN CHOICE, log 20); service CSRs go along (DEDUCED, log 48); a LAUNCH that faults in staging or in its RUNPFL lists has the frames of
its pool written back, and so waits for a reserved bank (DEDUCED, log 13); QCFG and QDLINE are read when a yield is asked for (DESIGN CHOICE, log 94). -/
def Obligations.Placement : Prop :=
  (∀ (s : State) (m jsn asid : Nat) (j : Job), s.waitingJob m jsn = some (asid, j) →
    (s.requestsDue asid j = true ∨ s.findPlace j = none ∨ (∃ e ∈ s.jobs, e.2.stage = .waiting ∧ e.2.before j = true ∧ (s.findPlace e.2).isSome = true) →
      exec (.placeJob m jsn) s = .next s) ∧
    (∀ x rects, s.requestsDue asid j = false → j.parked = none → s.findPlace j = some (x, rects) → (∀ e ∈ s.jobs, e.2.stage = .waiting → e.2.before j = true → s.findPlace e.2 = none) →
      Does (.placeJob m jsn) s fun t => ∃ j', t.job? asid = some j' ∧ j'.stage = .staging ∧ j'.rects = rects ∧ j'.rr = x.rr ∧ j'.cc = x.cc ∧ j'.jsn = j.jsn ∧
        (∀ c ∈ j'.places, s.positionFree c = true ∧ ∃ k, t.core? c = some k ∧ k.asid = asid ∧ k.tcm = Mem.empty ∧ k.phase = .held ∧ k.ctxs = []) ∧
        (∀ c, c ∉ j'.places → t.core? c = s.core? c) ∧ Keeps [.cores, .jobs] s t ∧
        ∀ b, b ≠ asid → t.job? b = (s.job? b).map fun y => if y.yieldTo = some (j.home, j.jsn) then { y with yieldTo := none, deadline := none } else y)) ∧
  (∀ (s : State) (m jsn asid : Nat) (j : Job) (d : Module) (e : Entry), JobAt s m jsn .staging asid j → s.module? m = some d → risingFrom 0 d.heldTab = true →
    d.entry? jsn = some e → e.final = false → j.home = m → j.jsn = jsn →
    (s.requestsDue asid j = true → exec (.stagingComplete m jsn) s = .next s) ∧
    (s.requestsDue asid j = false →
    (s.imageBad j = true → j.pending = [] → (s.endBusy j = true → exec (.stagingComplete m jsn) s = .next s) ∧
      (s.endBusy j = false → Does (.stagingComplete m jsn) s fun t => t.job? asid = none ∧ EntryEnds m jsn 5 0x49 s t)) ∧
    (s.imageBad j = false →
    (∀ s' cause, s.stageAll asid (j.readBodies s.host) (j.readBodies s.host).sections = (s', some cause) → cause = 0 → exec (.stagingComplete m jsn) s = .next s) ∧
    (∀ s' cause, s.stageAll asid (j.readBodies s.host) (j.readBodies s.host).sections = (s', some cause) → cause ≠ 0 → j.pending = [] →
      (s.endBusy j = true → exec (.stagingComplete m jsn) s = .next s) ∧
      (s.endBusy j = false → Does (.stagingComplete m jsn) s fun t => t.job? asid = none ∧
        ∃ d', t.module? m = some d' ∧ d'.entry? jsn = some { e with state := 5, cause := cause })) ∧
    ((∀ x ∈ j.sections, x.space < 3) → j.digestOk s.host = false → j.pending = [] → s.endBusy j = false →
      Does (.stagingComplete m jsn) s fun t => t.job? asid = none ∧ EntryEnds m jsn 5 0x43 s t) ∧
    ((∀ x ∈ j.sections, x.space < 3) → j.digestOk s.host = true → Does (.stagingComplete m jsn) s fun t => ∃ j' d', t.job? asid = some j' ∧ j'.stage = .runpfl ∧
      j'.rects = j.rects ∧ j'.sections = (j.readBodies s.host).sections ∧ t.module? m = some d' ∧ d'.entry? jsn = some { e with state := 1 } ∧ Keeps [.cores, .jobs, .modules, .host] s t ∧ OtherJobs asid s t ∧
      ∀ x c k, j.sections = [x] → x.space = 0 → x.type ≠ 6 → (x.type = 3 → x.body = []) → (∀ p ∈ j.early, p.1 + p.2.1 ≤ x.off ∨ x.off + x.size ≤ p.1) → x.off + x.size ≤ j.imgsize → c ∈ j.places → s.core? c = some k → memWf k.tcm.cur = true →
        s.hostWf → ∀ a, t.byteAt asid { core := c, space := .tcm, off := a } =
          if x.addr ≤ a ∧ a < x.addr + x.size then (if x.type = 3 then 0 else readByte s.host (j.image + x.off + (a - x.addr)))
          else readByte k.tcm.cur a)))) ∧
  (∀ (s : State) (m jsn asid : Nat) (j : Job) (d : Module) (e : Entry), JobAt s m jsn .runpfl asid j → s.module? m = some d → risingFrom 0 d.heldTab = true →
    d.entry? jsn = some e → e.final = false → j.home = m → j.jsn = jsn →
    (s.requestsDue asid j = true → exec (.runpflComplete m jsn) s = .next s) ∧
    (s.requestsDue asid j = false →
    (∀ s' cause, s.runEntries asid j.runList = (s', some cause) → cause = 0 → exec (.runpflComplete m jsn) s = .next s) ∧
    (∀ s' cause, s.runEntries asid j.runList = (s', some cause) → cause ≠ 0 → j.pending = [] →
      (s.endBusy j = true → exec (.runpflComplete m jsn) s = .next s) ∧
      (s.endBusy j = false → Does (.runpflComplete m jsn) s fun t => t.job? asid = none ∧ EntryEnds m jsn 5 cause s t)) ∧
    (j.runList = [] → j.records = [] → j.verdict = none → j.paused = false → j.parked = none → j.yieldTo = none → j.staged = [] → j.lastAttempt = none →
      e.state = 1 → (∀ c ∈ j.places, ∃ k, s.core? c = some k ∧ k.asid = asid ∧ k.repeatCause = none ∧ k.stagedPoison = []) →
      ((∀ c ∈ j.places, (s.patch c).fenced = false) → s.noRounds j = true → j.pending = [] → s.endBusy j = false →
        Does (.runpflComplete m jsn) s fun t => t.job? asid = none ∧ EntryEnds m jsn 5 0x0E s t) ∧
      ((∀ c ∈ j.places, (s.patch c).fenced = false) → s.noRounds j = false →
        Does (.runpflComplete m jsn) s fun t => ∃ j' d', t.job? asid = some j' ∧ j'.stage = .running ∧ j'.held = false ∧ t.module? m = some d' ∧
          d'.entry? jsn = some { e with state := 2 } ∧ (∀ c, c ∉ j.places → t.core? c = s.core? c) ∧
          ∀ c ∈ j.places, (t.pos c).service = { sel := 0, cause := 0, epc := 0, tval := 0, scratch := 0 } ∧ ∃ k, t.core? c = some k ∧ k.phase = .run ∧
            k.ssn = 1 ∧ k.ssentry = j.ssentry ∧ k.age = j.qage ∧ k.ssStart = s.clock ∧ k.tasks = [] ∧
            k.sscause = 0 ∧ (k.ctx 0).life = .control ∧ (k.ctx 0).pc = j.entry ∧ (k.ctx 0).level = .job ∧ (∀ r, (k.ctx 0).getX r = 0) ∧
            ∀ n, n ≠ 0 → (k.ctx n).live = false) ∧
      ((∃ c ∈ j.places, (s.patch c).fenced = true) →
        (∀ c ∈ j.places, (s.patch c).fenced = true → (s.patch c).perm = false ∧ s.quadQuiet (coreQuad c) = false) →
        Does (.runpflComplete m jsn) s fun t => Keeps [.cores, .jobs, .positions] s t ∧ ∃ j', t.job? asid = some j' ∧ j'.stage = .running ∧ j'.held = true ∧
          ∀ c ∈ j.places, ∃ k, t.core? c = some k ∧ k.phase = .held)))) ∧
  (∀ (s : State) (asid : Nat) (j : Job), s.job? asid = some j → j.stage = .running → j.held = true → j.parked = none → j.verdict = none →
    (s.mustPark j = false → exec (.park asid) s = .next s) ∧
    (s.mustPark j = true → Does (.park asid) s fun t => (∀ e ∈ t.cores, e.2.asid ≠ asid) ∧ OtherJobs asid s t ∧ ∃ j' p, t.job? asid = some j' ∧ j'.stage = .waiting ∧
      j'.rects = [] ∧ j'.jsn = j.jsn ∧ j'.parked = some p ∧
      ∀ i c k, i < j.n → j.coreAt i = some c → s.core? c = some k →
        (i, { k with reserved := none, kept := false, dead := false }) ∈ p.cores ∧ (i, (s.pos c).service) ∈ p.service)) ∧
  (∀ (s : State) (m jsn a : Nat) (w : Job) (x : Shape) (gone : List Nat), s.waitingJob m jsn = some (a, w) → (s.candidates w).head? = some x →
    (s.findPlace w ≠ none → exec (.preemptionRequest m jsn) s = .next s) ∧
    (s.findPlace w = none → s.victims w x (s.below w) [] = none → exec (.preemptionRequest m jsn) s = .next s) ∧
    (s.findPlace w = none → s.victims w x (s.below w) [] = some gone → Does (.preemptionRequest m jsn) s fun t => match s.roomByMove w with
      | some _ => (t.findPlace w).isSome = true
      | none => Keeps [.jobs] s t ∧ (∀ b, b ∉ gone → t.job? b = s.job? b) ∧
        ∀ b ∈ gone, ∀ v, s.job? b = some v → ∃ v', t.job? b = some v' ∧ { v' with yieldTo := v.yieldTo, deadline := v.deadline } = v ∧
          ((∃ y, v.yieldTo = some y ∧ s.wanted y = true) → v' = v) ∧
          ((∀ y, v.yieldTo = some y → s.wanted y = false) → v'.yieldTo = some (m, jsn) ∧ ∀ d, s.module? v.home = some d →
            v'.deadline = if (d.queue v.queue).abortok = true ∧ (d.queue v.queue).qdline ≠ 0 then some (s.clock + (d.queue v.queue).qdline * 1250) else none))) ∧
  (∀ (s : State) (asid : Nat) (j : Job) (t0 : Nat), s.job? asid = some j → j.deadline = some t0 →
    (s.clock < t0 → exec (.preemptionDeadline asid) s = .next s) ∧
    (∀ w : Nat × Nat, t0 ≤ s.clock → j.stage = .running → j.held = false → j.verdict = none → j.yieldTo = some w → (∃ e ∈ s.jobs, e.2.home = w.1 ∧ e.2.jsn = w.2 ∧ e.2.stage = .waiting) →
      Does (.preemptionDeadline asid) s fun t => t.job? asid = some { j with deadline := none } ∧ OtherJobs asid s t ∧ Keeps [.jobs, .net] s t ∧
        ∃ u, t.net = s.net ++ [{ src := j.home * 1024, ctx := 11, asid := asid, uid := u, seq := 0, cmd := none, kind := .urgent 0 0 3 }])) ∧
  (∀ (s : State) (asid r die row col : Nat) (j : Job), s.job? asid = some j →
    j.held = false ∨ r ∈ j.patchedAt ∨ (∀ v, j.lastAttempt = some v → v.commit = false) ∧ (∀ c ∈ j.places, (s.patch c).perm = false) →
      exec (.migrateRectangle asid r die row col) s = .next s) ∧
  (∀ (s : State) (asid r die row col : Nat) (j : Job) (old : Rect) (d : Module) (v : Verdict), s.job? asid = some j → j.rects[r]? = some old →
    j.rects.length = 1 → j.lastAttempt = some v → v.commit = true → r ∉ j.patchedAt → (∀ n ∈ j.modules, s.poolBusy n j.root none = false) →
    s.module? (old.die / 4) = some d → die ≠ old.die → die / 4 = old.die / 4 → old.row + j.rr ≤ 16 → old.col + j.cc ≤ 16 →
    j.stage = .running → j.held = true → j.parked = none → j.verdict = none → j.window = 0 → (j.rr % 2 = 1 ∨ row % 2 = 0) → (j.cc % 2 = 1 ∨ col % 2 = 0) →
    row + j.rr ≤ 16 → col + j.cc ≤ 16 → s.shareUsed die + j.share ≤ sharePool → s.codeUsed die + j.codeBytes ≤ codeRegion →
    (s.die old.die).forwards.length + j.rr * j.cc ≤ 64 → (∀ f ∈ (s.die old.die).forwards, f.asid ≠ asid) → s.upModules.contains (die / 4) = true →
    (∀ a b, a < j.rr → b < j.cc → s.positionFree (die * 256 + (row + a) * 16 + col + b) = true) →
    Does (.migrateRectangle asid r die row col) s fun t => (∃ j', t.job? asid = some j' ∧ j'.rects = [{ die := die, row := row, col := col }] ∧ j'.n = j.n ∧
      dgetD j'.dss die Mem.empty = { cur := j'.writeMap (dgetD j.dss old.die Mem.empty).cur, base := j'.writeMap (dgetD j.dss old.die Mem.empty).base }) ∧
      ∀ a b, a < j.rr → b < j.cc → t.forwarded asid (old.die * 256 + (old.row + a) * 16 + old.col + b) = die * 256 + (row + a) * 16 + col + b ∧
        (t.pos (die * 256 + (row + a) * 16 + col + b)).service = (s.pos (old.die * 256 + (old.row + a) * 16 + old.col + b)).service ∧
        ∀ k, s.core? (old.die * 256 + (old.row + a) * 16 + old.col + b) = some k → ∃ k', t.core? (die * 256 + (row + a) * 16 + col + b) = some k' ∧
          k'.reserved = none ∧ k'.dead = false ∧ { k' with reserved := k.reserved, kept := k.kept, dead := k.dead } = k)

-- translation, memory controllers, links

/-- A message of a module's hub: it bears the position of the module's first core and a context number of its own. -/
def hubMsg (m asid uid : Nat) (kind : MsgKind) : Msg := { src := m * 1024, ctx := 11, asid := asid, uid := uid, seq := 0, cmd := none, kind := kind }
/-- A message of a core that has no number of its own. -/
def coreMsg (c asid uid : Nat) (kind : MsgKind) : Msg := { src := c, ctx := 0, asid := asid, uid := uid, seq := 0, cmd := none, kind := kind }
/-- The core records an abort condition: it votes to abort with the cause, its waits end and it issues no more in the attempt (R331). -/
def CoreAborts (c : CoreId) (cause : Nat) (net : List Msg) (s t : State) : Prop :=
  ∃ k k' u, s.core? c = some k ∧ t.core? c = some k' ∧ k'.abort = some (k.abort.getD cause) ∧ k'.phase = .voted ∧ k'.stopped = true ∧
    (∀ n, (k'.ctx n).wait = none) ∧ (∀ n r, (k'.ctx n).getX r = (k.ctx n).getX r) ∧ k'.tcm = k.tcm ∧
    t.net = net ++ [coreMsg c k.asid u (.vote { index := k.index, abort := true, cause := cause, op := 0, val := 0 } k.ssn)]
/-- A walk that ends at a usable leaf puts it into the TLB and sets its A bit; one that meets poison is noted for its core. The pager brings the page of a paged leaf
into a free frame: the leaf then holds the frame with RES and A set. Both wait for a bank that another core holds. Spared rows are remapped, rows close, a reserved
bank closes after 5,000 cycles; a scrub poisons the page of an uncorrectable error and counts a corrected one, spares the row at the sixteenth or reports it. A
failed link loses a message: the sender aborts with LINK, an eager write may have performed first, the mangles on both sides of a round's link vote, and a command whose
traffic is lost has LINK to report (R109, R112, R115, R122, R123, R125, R126, R276, R314, R331, R399). The model's: an address of a CXL device or the host stands for its owner's report (DEDUCED, log 55); a place past
the end of the messages stands for command traffic of a core, and a lost vote, proxy, notice of the root or urgent abort of the dispatcher is entered again, a vote with
ABORT (DESIGN CHOICE, log 22); a message for a closing barrier crosses to the job's home module (DESIGN CHOICE, log 80), and so does one for a group barrier of the job
(DESIGN CHOICE, log 99). -/
def Obligations.MemorySystem : Prop :=
  (∀ (s : State) (c : CoreId) (core : Core) (j : Job) (va : Word) (write : Bool), s.core? c = some core → s.job? core.asid = some j →
    (s.walkBusy c j.root (va.toNat % 2 ^ 52) = true → exec (.pageWalk c va write) s = .next s ∧ exec (.pagerPromotion c va) s = .next s) ∧
    (∀ d e entry, s.walkBusy c j.root (va.toNat % 2 ^ 52) = false → s.module? (c / 1024) = some d → s.walk (c / 1024) core.asid j.root (va.toNat % 2 ^ 52) = .leaf e entry →
      (entry / 2 ^ 62 % 4 = 3 → entry.testBit 57 = false → exec (.pageWalk c va write) s = .next s) ∧
      (write = true → e.write = false → (entry / 2 ^ 62 % 4 = 3 → entry.testBit 57 = true) → Does (.pageWalk c va write) s (OnlyCounts s)) ∧
      ((write = true → e.write = true) → (entry / 2 ^ 62 % 4 = 3 → entry.testBit 57 = true) → Does (.pageWalk c va write) s fun t =>
        (t.pos c).tlb.head? = some e ∧ OtherPositions c s t ∧ Keeps [.modules, .positions, .host, .cxl] s t ∧
        (e.size ≠ 65536 → tierOf e.leaf = .hbm → ∃ d', t.module? (c / 1024) = some d' ∧
          Writes d.hbm d'.hbm e.leaf 8 (readMem d.hbm e.leaf 8 ||| 2 ^ 60))) ∧
      (s.pagerBusy (c / 1024) j.root e (some c) = true → exec (.pagerPromotion c va) s = .next s) ∧
      (∀ p f, s.pagerBusy (c / 1024) j.root e (some c) = false → entry / 2 ^ 62 % 4 = 3 → entry.testBit 57 = false → e.size = 4096 → tierOf e.leaf = .hbm → s.poolOf (c / 1024) j.root = some p →
        s.paCause (c / 1024) e.pa 4096 false = none → s.poisonOver (c / 1024) p.base (16 * p.frames) = false →
        s.findFrame (c / 1024) p 1 = some f → p.frame f < 2 ^ 48 → p.base % 4096 = 0 →
        Does (.pagerPromotion c va) s fun t => (t.pos c).tlb.head? = some { e with pa := p.frame f } ∧ ∃ d', t.module? (c / 1024) = some d' ∧
          (readMem d'.hbm e.leaf 8).testBit 57 = true ∧ (readMem d'.hbm e.leaf 8).testBit 60 = true ∧
          readMem d'.hbm e.leaf 8 / 4096 % 2 ^ 36 * 4096 = p.frame f)) ∧
    (∀ cause pa, s.walk (c / 1024) core.asid j.root (va.toNat % 2 ^ 52) = .fault cause pa → exec (.pagerPromotion c va) s = .next s ∧
      (cause ≠ 0x0A → s.walkBusy c j.root (va.toNat % 2 ^ 52) = false → Does (.pageWalk c va write) s (OnlyCounts s)) ∧
      (cause = 0x0A → s.walkBusy c j.root (va.toNat % 2 ^ 52) = false → Does (.pageWalk c va write) s fun t => t.core? c = some { core with poisonMet := some (pa / 4096 * 4096) } ∧
        OtherCores c s t ∧ Keeps [.cores, .modules] s t ∧ ∀ m, (t.module? m).map Module.uncounted = (s.module? m).map Module.uncounted))) ∧
  (∀ (s : State) (m : Nat) (d : Module), s.module? m = some d →
    (∀ row, Does (.rowSparingComplete m row) s fun t => ModuleTo m s t fun x y =>
      (row ∈ x.sparing → (∀ b, dget? x.banks (row % 2 ^ 13) = some b → b.holder = none) → y.sparing = x.sparing.filter (· ≠ row) ∧
        dget? y.corrected row = none ∧ dgetD y.spares (row % 2 ^ 13) 0 = dgetD x.spares (row % 2 ^ 13) 0 + 1 ∧
        { y with sparing := x.sparing, corrected := x.corrected, spares := x.spares } = x) ∧
      (row ∉ x.sparing ∨ (∃ b, dget? x.banks (row % 2 ^ 13) = some b ∧ b.holder ≠ none) → y = x)) ∧
    (∀ bank, Does (.rowClose m bank) s fun t => ModuleTo m s t fun x y =>
      ((∀ b, dget? x.banks bank = some b → b.holder = none) → dget? y.banks bank = none ∧ (∀ n, n ≠ bank → dget? y.banks n = dget? x.banks n) ∧
        { y with banks := x.banks } = x) ∧
      ((∃ b, dget? x.banks bank = some b ∧ b.holder ≠ none) → y = x)) ∧
    (∀ bank b c, dget? d.banks bank = some b → b.holder = some c →
      (s.clock < b.since + 5000 → exec (.bankForcedClose m bank) s = .next s) ∧
      (b.since + 5000 ≤ s.clock → Does (.bankForcedClose m bank) s fun t => Keeps [.cores, .modules] s t ∧ OtherCores c s t ∧ OtherModules m s t ∧
        t.core? c = (s.core? c).map (fun k => if k.reserved = some bank then { k with reserved := none, kept := false } else k) ∧
        (t.module? m).map (fun x => dget? x.banks bank) = some none)) ∧
    (∀ pa b, tierOf pa = .reserved ∨ tierOf pa = .lease → exec (.scrubbing m pa b) s = .next s) ∧
    (∀ pa b, let owned := fun (l : List Nat) => if b then pa / 4096 :: l.filter (· ≠ pa / 4096) else l.filter (· ≠ pa / 4096)
      (tierOf pa = .host → exec (.scrubbing m pa b) s = .next { s with hostPoison := owned s.hostPoison }) ∧
      (tierOf pa = .cxl → let k := Config.cxlStore m (pa / 4096)
        exec (.scrubbing m pa b) s = .next { s with cxlPoison := dset s.cxlPoison k (owned (dgetD s.cxlPoison k [])) })) ∧
    (∀ pa, tierOf pa = .hbm ∨ tierOf pa = .hw →
      Does (.scrubbing m pa true) s (fun t => ModuleTo m s t fun x y => y = { x with poison := pa / 4096 :: x.poison.filter (· ≠ pa / 4096) }) ∧
      let bank := pa / 1024 % 2 ^ 13
      let row := bank + 2 ^ 13 * (pa / 2 ^ 23)
      let n := dgetD d.corrected row 0 + 1
      Does (.scrubbing m pa false) s fun t => ModuleTo m s t fun x y => dgetD y.corrected row 0 = n ∧ (∀ r, r ≠ row → dget? y.corrected r = dget? x.corrected r) ∧
        sget y.cnt 5 = (if x.freeze then sget x.cnt 5 else sget x.cnt 5 + 1) ∧
        (n ≠ 16 → { y with corrected := x.corrected, cnt := x.cnt } = x) ∧
        (n = 16 → dgetD x.spares bank 0 + (x.sparing.filter fun r => r % 2 ^ 13 = bank).length < 4 → y.sparing = x.sparing ++ [row] ∧
          { y with corrected := x.corrected, cnt := x.cnt, sparing := x.sparing } = x) ∧
        (n = 16 → 4 ≤ dgetD x.spares bank 0 + (x.sparing.filter fun r => r % 2 ^ 13 = bank).length → x.events.length < 256 →
          y.events = x.events ++ [(BitVec.ofNat 64 (4 * 2 ^ 56), BitVec.ofNat 64 (pa / 1024 * 1024))] ∧
          { y with corrected := x.corrected, cnt := x.cnt, events := x.events } = x))) ∧
  (∀ (s : State) (n : Nat) (applied : Bool) (m : Msg), s.net[n]? = some m →
    ((∃ d, m.kind = .heartbeat d) ∨ (∃ d p, m.kind = .accuse d p) ∨ (∃ d p, m.kind = .accept d p) ∨ (∃ w, m.kind = .revoke w) ∨ (∃ w, m.kind = .revokeAck w) →
      Does (.linkFailure n applied) s fun t => t.net = s.net.eraseIdx n ∧ Keeps [.net] s t) ∧
    (∀ tile x j r i i', m.kind = .partial_ tile x ∨ m.kind = .result tile x → s.jobs = [(m.asid, j)] → j.rounds.find? (fun r => r.tile = tile) = some r →
      x ≠ j.roundRoot r.entry → x ∈ j.tileModules r.entry → j.roundRoot r.entry ∈ j.tileModules r.entry → j.lowestOn x = some i → j.lowestOn (j.roundRoot r.entry) = some i' →
      Does (.linkFailure n applied) s fun t => Keeps [.net] s t ∧ ∃ u u', t.net = s.net.eraseIdx n ++
        [hubMsg x m.asid u (.further { index := i, abort := true, cause := 0x0E, op := 0, val := 0 }),
          hubMsg (j.roundRoot r.entry) m.asid u' (.further { index := i', abort := true, cause := 0x0E, op := 0, val := 0 })]) ∧
    (∀ k, s.core? m.src = some k → m.ctx ≠ 11 → k.dead = false → k.phase = .voted → (∀ c, (k.ctx c).level ≠ .firmware) → (∀ e ∈ s.jobs, e.2.rounds = []) →
      (∃ v b, m.kind = .vote v b) ∨ (∃ v, m.kind = .further v) ∨ (∃ t, m.kind = .late t) ∨ (∃ sc n i a u, m.kind = .arrival sc n i a u) ∨ (∃ a b, m.kind = .urgent a b 1) →
      Does (.linkFailure n applied) s fun t => (∃ k', t.core? m.src = some k' ∧ k'.abort = some (k.abort.getD 0x0E) ∧ k'.phase = .voted ∧ k'.stopped = true) ∧
        OtherCores m.src s t ∧ SameMemory s t ∧
        ∃ u u', t.net = s.net.eraseIdx n ++ [coreMsg m.src k.asid u (.further { index := k.index, abort := true, cause := 0x0E, op := 0, val := 0 })] ++
          match m.kind with
          | .vote v b => [{ m with uid := u', kind := .vote { v with abort := true, cause := if v.abort then v.cause else 0x0E } b, home := none }]
          | _ => []) ∧
    ((∀ e ∈ s.jobs, e.2.rounds = []) → m.kind = .doom ∨ (∃ v, m.kind = .outcome v) ∨ (∃ a b o, m.kind = .urgent a b o ∧ o ≠ 1) ∨
        (∃ v, m.kind = .further v) ∧ (m.ctx = 11 ∨ s.core? m.src = none ∨ (∃ k, s.core? m.src = some k ∧ k.dead = true)) →
      Does (.linkFailure n applied) s fun t => Keeps [.net] s t ∧ ∃ u, t.net = s.net.eraseIdx n ++ [{ m with uid := u, home := none }]) ∧
    (∀ k j h i i', s.core? m.src = some k → m.ctx ≠ 11 → (∃ v, m.kind = .response v) ∨ (∃ a, m.kind = .poisoned a) ∨ m.kind = .orderBad ∨ (∃ b a, m.kind = .returned b a) ∨ m.kind = .eagerAck →
      m.home = some h → s.jobs = [(k.asid, j)] → m.asid = k.asid → m.src / 1024 ≠ h / 1024 → j.openLink (m.src / 1024) (h / 1024) = true →
      j.lowestOn (m.src / 1024) = some i → j.lowestOn (h / 1024) = some i' →
      Does (.linkFailure n applied) s fun t => ∃ u u',
        hubMsg (m.src / 1024) m.asid u (.further { index := i, abort := true, cause := 0x0E, op := 0, val := 0 }) ∈ t.net ∧
        hubMsg (h / 1024) m.asid u' (.further { index := i', abort := true, cause := 0x0E, op := 0, val := 0 }) ∈ t.net) ∧
    (∀ k j d l a i i', s.core? m.src = some k → m.ctx ≠ 11 → k.open_ = true → m.kind = .loadReq d l a → s.jobs = [(k.asid, j)] → m.asid = k.asid →
      m.src / 1024 ≠ d.core / 1024 → j.openLink (m.src / 1024) (d.core / 1024) = true → j.lowestOn (m.src / 1024) = some i → j.lowestOn (d.core / 1024) = some i' →
      Does (.linkFailure n applied) s fun t => ∃ u u',
        hubMsg (m.src / 1024) m.asid u (.further { index := i, abort := true, cause := 0x0E, op := 0, val := 0 }) ∈ t.net ∧
        hubMsg (d.core / 1024) m.asid u' (.further { index := i', abort := true, cause := 0x0E, op := 0, val := 0 }) ∈ t.net) ∧
    (∀ k, s.core? m.src = some k → m.ctx ≠ 11 → k.open_ = true → k.stopped = false → (∀ c, (k.ctx c).level ≠ .firmware) → (∀ e ∈ s.jobs, e.2.rounds = []) →
      ((∃ d l a, m.kind = .loadReq d l a) ∨ (∃ v, m.kind = .response v) ∨ (∃ a, m.kind = .poisoned a) ∨ (∃ a, m.kind = .returned true a) ∨
          (∃ d v e a, m.kind = .order d v e a) ∨ m.kind = .orderBad ∨ (∃ d a, m.kind = .check d a) ∨ (∃ d b v, m.kind = .post d b v) ∨ (∃ t, m.kind = .late t) ∨ (∃ sc n i a u, m.kind = .arrival sc n i a u) ∨
          (∃ a b, m.kind = .urgent a b 1) →
        Does (.linkFailure n applied) s fun t => CoreAborts m.src 0x0E (s.net.eraseIdx n) s t ∧ OtherCores m.src s t ∧ SameMemory s t) ∧
      (∀ d t0 l v a, m.kind = .eager d l v a → m.cmd = none → s.target m.asid d = some t0 → (∃ j, s.job? m.asid = some j) →
        (∀ e ∈ k.eager, e.uid = m.uid → e.cmd = none) →
        Does (.linkFailure n applied) s fun t => (∃ k', t.core? m.src = some k' ∧ k'.abort = some (k.abort.getD 0x0E) ∧ k'.phase = .voted ∧ k'.stopped = true) ∧
          (applied = true → StoresBytes s t m.asid t0 l v) ∧ (applied = false → SameMemory s t)))) ∧
  (∀ (s : State) (c : CoreId) (k : Core) (m : Cmd) (j : Job) (applied : Bool), s.core? c = some k → k.headOf 1 = some m → m.firing = none → s.job? k.asid = some j →
    (dKind m.d0 = 0x20 ∨ dKind m.d0 = 0x21 ∨ dKind m.d0 = 0x22 ∨ dKind m.d0 = 0x24 ∨ dKind m.d0 = 0x25) → (∀ e ∈ s.jobs, e.2.rounds = []) →
    m.hit = 0 ∨ m.hit = 0x0B →
    Does (.linkFailure (s.net.length + c) applied) s fun t => CoreTo c s t fun x y => (∀ q, q ≠ 1 → y.queue q = x.queue q) ∧ { y with q := x.q } = x ∧
      y.queue 1 = { m with hit := 0x0E } :: (x.queue 1).drop 1)

-- tasks, lanes, gangs

/-- Helper `h` of core `c` has started with these registers and nothing else (R56, R131, R158). -/
def HelperRuns (c : CoreId) (h : Nat) (life : Life) (pc x10 x11 : Word) (s t : State) : Prop :=
  (t.ctxOf c h).life = life ∧ (t.ctxOf c h).pc = pc ∧ (∀ r, (t.ctxOf c h).getX r = if r = 10 then x10 else if r = 11 then x11 else 0) ∧
  (∀ r, (t.ctxOf c h).getF r = 0) ∧ (t.ctxOf c h).fcsr = (s.ctxOf c 0).fcsr &&& 0xE0 ∧ (t.ctxOf c h).flags = 0 ∧
  (t.ctxOf c h).enables = (s.ctxOf c 0).enables ∧ (t.ctxOf c h).level = .job ∧ (t.ctxOf c h).wait = none ∧ ∀ n, n ≠ h → t.ctxOf c n = s.ctxOf c n
/-- The lowest idle pool helper takes the startable record of highest level, of its own core or, with none there, of the next core of its quad whose pool is busy and
whose record may be stolen, unless a SPAWN of its core waits; a record that has waited longer than AGE below its ceiling moves up one level. A vector instruction
completes: its flags go to its issuer, or to context 0 when that helper has ended, its late BOUNDS and POISON set out. The wired barrier of a GANG of any width completes with
the last of the matching offers, for the core that makes it and for those that wait; a gang is open once its barrier is complete and its stagger over (R35, R36, R56,
R157, R160, R161, R163, R193, R194, R216, R218). That a GANG does not wait for a ganged push which still waits for queue space is the model's choice (DESIGN CHOICE,
log 77). -/
def Obligations.TasksAndLanes : Prop :=
  (∀ (s : State) (c : CoreId) (k : Core), s.core? c = some k →
    (∀ h, k.idlePool.head? = some h → 1 ≤ h ∧ h ≤ 10 ∧ h ≤ k.pool ∧ (k.ctx h).live = false ∧ ∀ n, 1 ≤ n → n < h → (k.ctx n).live = true) ∧
    (∀ r, (∀ t ∈ k.tasks, t.level < 256) → k.nextRecord = some r → r ∈ k.tasks ∧ k.startable r = true ∧ ∀ t ∈ k.tasks, k.startable t = true → t.level ≤ r.level) ∧
    (k.active = false ∨ k.idlePool = [] ∨ k.nextRecord = none ∨ (∃ rd pc arg, (k.ctx 0).wait = some (.spawn rd pc arg)) → exec (.poolPop c) s = .next s) ∧
    (k.active = false ∨ k.idlePool = [] ∨ k.nextRecord ≠ none ∨ (∃ rd pc arg, (k.ctx 0).wait = some (.spawn rd pc arg)) → exec (.taskSteal c) s = .next s) ∧
    (∀ h r, k.active = true → (∀ rd pc arg, (k.ctx 0).wait ≠ some (.spawn rd pc arg)) → k.idlePool.head? = some h → k.nextRecord = some r → Does (.poolPop c) s fun t =>
      HelperRuns c h (.task c r.seq r.join) r.code r.frame r.join s t ∧ Keeps [.cores] s t ∧ OtherCores c s t ∧ ∃ k', t.core? c = some k' ∧
        k'.tasks = k.tasks.filter (fun x => x.seq ≠ r.seq) ∧ k'.taskLive = k.taskLive ++ [r.seq] ∧
        { k' with ctxs := k.ctxs, tasks := k.tasks, taskLive := k.taskLive, lastProgress := k.lastProgress } = k) ∧
    (∀ h j d o r rest, k.active = true → (∀ rd pc arg, (k.ctx 0).wait ≠ some (.spawn rd pc arg)) → k.idlePool.head? = some h → k.nextRecord = none → s.job? k.asid = some j → j.victims c k.index = d :: rest →
      s.core? d = some o → o.active = true → o.nextRecord = some r → r.nosteal = false → (r.join = 0 ∨ r.join.toNat / 2 ^ 60 = 1) → o.idlePool = [] →
      Does (.taskSteal c) s fun t => HelperRuns c h (.task d r.seq r.join) r.code r.frame r.join s t ∧ Keeps [.cores] s t ∧
        (∀ x, x ≠ c → x ≠ d → t.core? x = s.core? x) ∧ (t.core? c).map Core.tasks = some k.tasks ∧ ∃ o', t.core? d = some o' ∧
          o'.tasks = o.tasks.filter (fun x => x.seq ≠ r.seq) ∧ o'.taskLive = o.taskLive ++ [r.seq] ∧
          { o' with tasks := o.tasks, taskLive := o.taskLive, lastProgress := o.lastProgress } = o) ∧
    (k.active = true → (k.tasks.map TaskRec.seq).Nodup → Does (.recordAging c) s fun t => CoreTo c s t fun x y =>
      { y with tasks := x.tasks, taskNext := x.taskNext } = x ∧ y.tasks.map TaskRec.seq = x.tasks.map TaskRec.seq ∧
      ∀ r ∈ x.tasks, ∃ r' ∈ y.tasks, r'.seq = r.seq ∧ r'.code = r.code ∧ r'.ceil = r.ceil ∧
        (x.age ≠ 0 ∧ r.since + x.age < s.clock ∧ r.level < r.ceil → r'.level = r.level + 1 ∧ r'.since = s.clock) ∧
        (¬ (x.age ≠ 0 ∧ r.since + x.age < s.clock ∧ r.level < r.ceil) → r' = r)) ∧
    (∀ seq, (∀ l ∈ k.lanes, l.seq ≠ seq) → exec (.vectorCompletion c seq) s = .next s) ∧
    (∀ seq l, k.lanes.find? (fun l => l.seq = seq) = some l → l.flags &&& l.enabled = 0 → Does (.vectorCompletion c seq) s fun t =>
      (∃ k', t.core? c = some k' ∧ k'.lanes = k.lanes.filter (fun x => x.seq ≠ seq) ∧ k'.q = k.q ∧ k'.tasks = k.tasks) ∧
      (let n := if l.gone then 0 else l.ctx
       t.ctxOf c n = { s.ctxOf c n with flags := (s.ctxOf c n).flags ||| l.flags } ∧ ∀ m, m ≠ n → t.ctxOf c m = s.ctxOf c m) ∧
      (∃ u u', t.net = s.net ++
        (match l.fault with
          | none => []
          | some a => [coreMsg c k.asid u (.late { cause := 0x04, seq := seq, tval := a, ctx := l.ctx, orphan := l.gone })]) ++
        (if l.poison.isSome then [coreMsg c k.asid u' (.late { cause := 0x0A, seq := seq, tval := 0, ctx := l.ctx, orphan := l.gone })] else [])) ∧
      (∀ pa, l.poison = some pa → (t.core? c).map Core.poisonMet = some (some (pa / 4096 * 4096))) ∧
      Keeps [.cores, .net] s t ∧ OtherCores c s t) ∧
    (∀ t w f r, (k.ctx 0).wait = some (.gang t w f true (some r)) →
      (s.clock < r → exec (.gangRelease c) s = .next s) ∧
      (r ≤ s.clock → Does (.gangRelease c) s fun u => CoreTo c s u fun x y => y.gang = some (t, w, f) ∧ y.gangPushed = 0 ∧ y.gangs = x.gangs + 1 ∧
        y.ctx 0 = (x.ctx 0).advance ∧ (∀ n, n ≠ 0 → y.ctx n = x.ctx n) ∧
        { y with ctxs := x.ctxs, gang := x.gang, gangPushed := x.gangPushed, gangs := x.gangs } = x)) ∧
    (∀ t w f j o, k.active = true → (k.ctx 0).wait = some (.gang t w f true none) → s.job? k.asid = some j → (j.offers.filter fun p => p.core = c).getLast? = some o →
      let met := ∀ n, n < o.width → ∃ p ∈ j.offers, p.core = c - c % 16 + o.first + n ∧ p.tag = o.tag ∧ p.width = o.width ∧ p.first = o.first ∧ p.number = o.number
      (met → OnlyCtx c 0 s (s.retry c 0) ∧
        (s.retry c 0).ctxOf c 0 = { k.ctx 0 with wait := some (.gang t w f true (some (s.clock + (c / 16 % 16 + c % 16) * k.stagger))) }) ∧
      (¬ met → s.retry c 0 = s))) ∧
  (∀ (s : State) (i : Issuer) (rs1 rs2 : R5) (r : Rect), s.issuer? = some i → i.job.rects[i.core.rect]? = some r →
    let v := (i.ctx.getX rs1).toNat
    let t := v % 256
    let w := v / 256 % 8 + 1
    let f := (i.ctx.getX rs2).toNat % 16
    let col := i.c % 16
    (i.k ≠ 0 → exec (.gang rs1 rs2) s = .next (s.trapI i 0x01 (s.ir.setWidth 64))) ∧
    (i.k = 0 → f < r.col ∨ r.col + i.job.cc < f + w ∨ col < f ∨ f + w ≤ col → exec (.gang rs1 rs2) s = .next (s.trapI i 0x04 0)) ∧
    (i.k = 0 → r.col ≤ f → f + w ≤ r.col + i.job.cc → f ≤ col → col < f + w →
      ((∃ m ∈ i.core.queue 0, dGanged m.d0 = true) → OnlyWaits s i (.gang t w f false none) (exec (.gang rs1 rs2) s)) ∧
      ((∀ m ∈ i.core.queue 0, dGanged m.d0 = false) →
        (∀ o, o < w → o + f ≠ col → ∃ p ∈ i.job.offers, p.core = i.c - col + f + o ∧ p.tag = t ∧ p.width = w ∧ p.first = f ∧
          p.number = (i.job.offers.filter fun q => q.core = i.c ∧ q.width = w ∧ q.first = f).length) →
        ((i.c / 16 % 16 + col) * i.core.stagger = 0 → Does (.gang rs1 rs2) s fun u => Completed i u ∧ CtxFrame [] i.ctx (u.ctxOf i.c 0) ∧ SameMemory s u ∧
          (∃ k', u.core? i.c = some k' ∧ k'.gang = some (t, w, f) ∧ k'.gangPushed = 0 ∧ k'.q = i.core.q) ∧ Keeps [.cores, .jobs] s u ∧ OtherCores i.c s u) ∧
        (0 < (i.c / 16 % 16 + col) * i.core.stagger → Does (.gang rs1 rs2) s fun u =>
          WaitsFor i (.gang t w f true (some (s.clock + (i.c / 16 % 16 + col) * i.core.stagger))) u ∧ SameMemory s u ∧ Keeps [.cores, .jobs] s u)) ∧
      ((∀ m ∈ i.core.queue 0, dGanged m.d0 = false) → (∃ o, o < w ∧ o + f ≠ col ∧ ∀ p ∈ i.job.offers, p.core ≠ i.c - col + f + o) →
        Does (.gang rs1 rs2) s fun u => WaitsFor i (.gang t w f true none) u ∧ SameMemory s u ∧ Keeps [.cores, .jobs] s u ∧
          (u.core? i.c).map Core.gang = some none ∧ ∃ n, (u.job? i.core.asid).map Job.offers = some (i.job.offers ++ [{ core := i.c, tag := t, width := w, first := f, number := n }]))))

-- traps that come late, soft errors, time-outs

/-- The head of queue `q` has done its work with this outcome; the other commands are as before. -/
def HeadPerformed (q : Nat) (m : Cmd) (cause : Nat) (tval : Word) (flags : BitVec 7) (bytes : Nat) (x y : Core) : Prop :=
  y.queue q = m.perform cause tval flags bytes :: (x.queue q).drop 1 ∧ ∀ p, p ≠ q → y.queue p = x.queue p
/-- Elements (row, column) with row < `rows`, column < 64 from accumulator `acc` on are `f`; every other element is as before. -/
def AccIs (acc rows : Nat) (f : Nat → Nat → Nat) (x y : Core) : Prop :=
  (∀ i j, i < rows → j < 64 → y.getAc acc i j = f i j % 2 ^ 32) ∧ ∀ n, (∀ i j, i < rows → j < 64 → n ≠ acIndex acc i j) → sget y.ac n = sget x.ac n
/-- Nothing of a core changes but its accumulators, its queues and the clock of its last progress. -/
def OnlyMatrix (x y : Core) : Prop := { y with ac := x.ac, q := x.q, lastProgress := x.lastProgress } = x

/-- A late trap that is no abort condition waits at the context that dispatched it, or at context 0 for one that is gone, and enters the handler by R323 unless the
context waits in one of the held waits of R323; any other wait is abandoned, its request or answer withdrawn, and what an atomic has done at its home stands (DEDUCED,
log 38); one of an abort class and a starved core are abort conditions at
once, and one of a firmware-level context goes to the firmware. A soft error is PARITY: of the lanes, of a command, which has it to report, or of core state; which of
several operations it strikes is the model's choice (DESIGN CHOICE, log 69). A core whose control state is hit stops without a vote, and the watchdog counts the wait
for its fence; a spare-position core that fails gives its role to a standby, or the role lapses with an event, and that the failure comes with this event, a core
number of 2^20 and more, is the model's choice (DESIGN CHOICE, log 81). The watchdog removes a job by an urgent abort, whose ORIGIN is that of a CANCEL (DEDUCED, log 29) (R11, R23, R237, R276, R321
to R323, R325, R326, R331, R337, R338, R344). -/
def Obligations.LateTraps : Prop :=
  (∀ (s : State) (n : Nat) (m : Msg) (t0 : LateTrap) (k : Core) (j : Job), s.net[n]? = some m → m.kind = .late t0 → s.core? m.src = some k → s.job? k.asid = some j →
    (t0.cause ∉ [0x08, 0x0A, 0x0B, 0x0C, 0x0D, 0x0E] → j.handler ≠ 0 → k.stopped = false →
      let orphan := t0.orphan || !(k.ctx t0.ctx).live
      let c := if orphan then 0 else t0.ctx
      (k.ctx c).level = .job → Does (.lateTrapArrival n) s fun t => t.net = s.net.eraseIdx n ∧ Keeps [.cores, .net] s t ∧ OtherCores m.src s t ∧
        t.ctxOf m.src c = { k.ctx c with late := (k.ctx c).late ++ [{ t0 with orphan := orphan }], woken := some s.clock } ∧
        (∀ x, x ≠ c → t.ctxOf m.src x = s.ctxOf m.src x) ∧ SameMemory s t) ∧
    (let c := if (t0.orphan || !(k.ctx t0.ctx).live) = true then 0 else t0.ctx;
      (t0.cause ∈ [0x08, 0x0A, 0x0B, 0x0C, 0x0D, 0x0E] ∨ j.handler = 0 ∨ (k.ctx c).level = .service → (k.ctx c).level ≠ .firmware → k.open_ = true → k.stopped = false →
        Does (.lateTrapArrival n) s fun t => CoreAborts m.src t0.cause (s.net.eraseIdx n) s t ∧ OtherCores m.src s t ∧ SameMemory s t) ∧
      ((k.ctx c).level = .firmware → Does (.lateTrapArrival n) s fun t => t.net = s.net.eraseIdx n ∧ OtherCores m.src s t ∧ SameMemory s t ∧
        (t.core? m.src).map Core.abort = some k.abort ∧ (t.ctxOf m.src c).level = .firmware ∧ (t.ctxOf m.src c).fwEpc = (k.ctx c).pc))) ∧
  (∀ (s : State) (c : CoreId) (n : Nat) (k : Core) (j : Job), s.core? c = some k → s.job? k.asid = some j → k.inService = false → k.active = true →
    (∀ e, k.entering = some (n, e) → Does (.handlerEntry c n) s fun t => (t.pos c).svepc = e.epc ∧ (t.pos c).svtval = e.tval ∧
      (t.pos c).svcause = BitVec.ofNat 64 (e.seq.getD 0 % 65536 * 2 ^ 48 + (if e.late then 2 ^ 47 else 0) + (if e.orphan then 2 ^ 46 else 0)
        + e.reason * 2 ^ 44 + e.ctx * 2 ^ 40 + e.cause) ∧
      (t.ctxOf c n).level = .service ∧ (t.ctxOf c n).pc = j.handler ∧ (t.ctxOf c n).entry = none ∧ SameRegisters s t ∧ SameMemory s t ∧
      Keeps [.cores, .positions] s t ∧ OtherCores c s t ∧ ∀ x, x ≠ n → t.ctxOf c x = s.ctxOf c x) ∧
    ((∀ x ∈ k.ctxs, x.2.entry = none) → (∃ w, (k.ctx n).wait = some w ∧ w.held = true) → exec (.handlerEntry c n) s = .next s) ∧
    (∀ e rest, (∀ x ∈ k.ctxs, x.2.entry = none) → j.handler ≠ 0 → e.cause ≠ 0x0A → (k.ctx n).level = .job → (∀ w, (k.ctx n).wait = some w → w.held = false) →
      (k.ctx n).late = e :: rest →
      Does (.handlerEntry c n) s fun t => (t.net = s.net.filter fun z => !(z.src == c && z.ctx == n && (z.kind.request || z.kind.answer))) ∧ (t.pos c).svepc = (k.ctx n).pc ∧ (t.pos c).svtval = e.tval ∧
        (t.pos c).svcause = BitVec.ofNat 64 (e.seq % 65536 * 2 ^ 48 + 2 ^ 47 + (if e.orphan then 2 ^ 46 else 0) + e.ctx * 2 ^ 40 + e.cause) ∧
        (t.ctxOf c n).level = .service ∧ (t.ctxOf c n).pc = j.handler ∧ (t.ctxOf c n).late = rest ∧ SameRegisters s t ∧ SameMemory s t)) ∧
  (∀ (s : State) (c : CoreId) (k : Core), s.core? c = some k →
    (∀ j, c < 2 ^ 20 → s.job? k.asid = some j → j.verdict = none → Does (.controlStateError c) s fun t => CoreTo c s t fun x y => y = { x with dead := true }) ∧
    (∀ j v, c < 2 ^ 20 → s.job? k.asid = some j → j.verdict = some v → v.commit = false → c ∈ j.places → (s.patch c).fenced = false → Does (.controlStateError c) s fun t =>
      t.core? c = some { k with dead := true } ∧ OtherCores c s t ∧ Keeps [.cores, .jobs] s t ∧ OtherJobs k.asid s t ∧
        t.job? k.asid = some { j with wdFrom := some (j.wdFrom.getD s.clock) }) ∧
    (∀ n, k.open_ = true → k.stopped = false → (∀ x, (k.ctx x).level ≠ .firmware) →
      (∃ l ∈ k.lanes, l.ctx = n) ∨ (∀ q ∈ [0, 1, 2, 3], ∀ m, k.headOf q = some m → m.ctx ≠ n) →
      Does (.parity c n) s fun t => CoreAborts c 0x0B s.net s t ∧ OtherCores c s t ∧ SameMemory s t) ∧
    (∀ n q m, (∀ l ∈ k.lanes, l.ctx ≠ n) → q < 4 → k.headOf q = some m → m.ctx = n → (∀ p, p < q → ∀ x, k.headOf p = some x → x.ctx ≠ n) → m.hit = 0 →
      Does (.parity c n) s fun t => CoreTo c s t fun x y => { y with q := x.q } = x ∧ (∀ p, p ≠ q → y.queue p = x.queue p) ∧
        y.queue q = (if m.firing.isSome then { m.perform 0x0B 0 0 0 with hit := 0x0B } else { m with hit := 0x0B }) :: (x.queue q).drop 1) ∧
    (k.active = true → k.lastProgress + 65536 ≤ s.clock → (∀ e ∈ k.ctxs, e.2.live = true → ∃ w, e.2.wait = some w ∧ w.starved = true) →
      Does (.qdead c) s fun t => CoreAborts c 0x08 s.net s t ∧ OtherCores c s t ∧ SameMemory s t) ∧
    (s.clock < k.lastProgress + 65536 → exec (.qdead c) s = .next s)) ∧
  (∀ (s : State) (asid : Nat) (j : Job), s.job? asid = some j →
    (j.ran s.clock ≤ j.wdog ∨ j.held = true ∨ j.endCause = some 0x0F → exec (.watchdog asid) s = .next s) ∧
    (j.wdog < j.ran s.clock → j.stage = .running → j.held = false → j.endCause ≠ some 0x0F → Does (.watchdog asid) s fun t =>
      t.job? asid = some { j with endCause := some 0x0F } ∧ OtherJobs asid s t ∧ Keeps [.jobs, .net] s t ∧
      (j.verdict.isSome = true → t.net = s.net) ∧ (j.verdict = none → ∃ u, t.net = s.net ++ [hubMsg j.home asid u (.urgent 0x0F 0 2)]))) ∧
  (∀ (s : State) (c : CoreId) (d : Module) (die : Die) (r : Role), s.module? (c / 1024) = some d → dget? d.dies (c / 256 % 4) = some die →
    risingFrom 0 die.roles = true → dget? die.roles (quadIn c) = some r →
    (r = .patched ∨ r = .failed → exec (.controlStateError (2 ^ 20 + c)) s = .next s) ∧
    (r ≠ .patched → r ≠ .failed → Does (.controlStateError (2 ^ 20 + c)) s fun t => OtherModules (c / 1024) s t ∧ Keeps [.modules] s t ∧
      ∃ d' die', t.module? (c / 1024) = some d' ∧ dget? d'.dies (c / 256 % 4) = some die' ∧ dget? die'.roles (quadIn c) = some .failed ∧
        (r = .standby → (∀ x, x ≠ quadIn c → dget? die'.roles x = dget? die.roles x) ∧ d'.events = d.events) ∧
        (r ≠ .standby → (∃ x, dget? die.roles x = some .standby) → ∃ x, dget? die.roles x = some .standby ∧ dget? die'.roles x = some r ∧ d'.events = d.events) ∧
        (r ≠ .standby → (∀ x, dget? die.roles x ≠ some .standby) → d.events.length < 256 →
          d'.events = d.events ++ [(BitVec.ofNat 64 (2 ^ 56 + c / 256 % 4 * 2 ^ 40 + (if r = .steward then 0 else if r = .service then 1 else 2)), 0)])))

-- matrix commands

/-- A command of a kind heads a queue of core `c` and is free to start. -/
def HeadAt (s : State) (c : CoreId) (q kind : Nat) (k : Core) (m : Cmd) (j : Job) : Prop :=
  s.core? c = some k ∧ k.headKind q kind = some m ∧ s.job? k.asid = some j
/-- Nothing of a core changes but its queues and the clock of its last progress. -/
def OnlyQueues (x y : Core) : Prop := { y with q := x.q, lastProgress := x.lastProgress } = x
/-- The command has started, and the homes of its job and the gather latch are as they were then: no store has raced it. -/
def Steady (s : State) (c : CoreId) (k : Core) (m : Cmd) : Prop := m.seen = some (s.homesOf k.asid c)
/-- If it is of a kind that reads operands at homes, it has started and no store has raced it (R235, R264). -/
def Unraced (s : State) (c : CoreId) (kind : Nat) (k : Core) (m : Cmd) : Prop :=
  kind ∈ [0x01, 0x02, 0x03, 0x20, 0x21, 0x25, 0x30, 0x40, 0x41] → Steady s c k m
/-- It heads its queue, no hardware fault has struck it and no store has raced it. -/
def HeadDue (s : State) (c : CoreId) (q kind : Nat) (k : Core) (m : Cmd) (j : Job) : Prop := HeadAt s c q kind k m j ∧ m.hit = 0 ∧ Unraced s c kind k m
/-- It heads its queue and a hardware fault has struck it, and no store has raced it. -/
def HeadStruck (s : State) (c : CoreId) (q kind : Nat) (k : Core) (m : Cmd) (j : Job) : Prop := HeadAt s c q kind k m j ∧ m.hit ≠ 0 ∧ Unraced s c kind k m
/-- A command that reads operands starts in a step of its own: that step changes nothing but what the command knows of the homes (R235, R264). -/
def BeginsRule : Prop :=
  ∀ (s : State) (c : CoreId) (q kind : Nat) (k : Core) (m : Cmd) (j : Job) (e : Instr), HeadAt s c q kind k m j → m.seen = none →
    (q, kind, e) ∈ [(0, 0x03, Instr.accld c), (1, 0x20, .cpbox c), (1, 0x21, .cppfl c), (1, 0x25, .cpring c), (2, 0x30, .gtrows c), (3, 0x40, .nxput c),
      (3, 0x41, .nxred c)] →
    Does e s fun t => CoreTo c s t fun x y => y.queue q = { m with seen := some (s.homesOf k.asid c) } :: (x.queue q).drop 1 ∧
      (∀ p, p ≠ q → y.queue p = x.queue p) ∧ OnlyQueues x y
/-- An integer saturated to 32 bits, as a pattern. -/
def saturate32 (v : Int) : Nat := (BitVec.ofInt 32 (max (-(2 ^ 31)) (min (2 ^ 31 - 1) v))).toNat
/-- The signed value of the byte at a location. -/
def signedByte (s : State) (asid : Nat) (d : Dest) : Int := (s.byteAt asid d).toInt
/-- The pattern of element `x` of row `i` of operand A: the rows of d1, or those that the gather latch names (R223, R225, R273). -/
def leftElement (s : State) (c : CoreId) (k : Core) (m : Cmd) (code i x : Nat) : Nat :=
  let f := (pairFmts code).1
  let row := if dKind m.d0 = 0x02 then (sget k.latch ((tRows m.d1 + i) % 1024)).toNat else i
  f.elem (s.bytesAt k.asid (localAt c m.a1 (row * 32 * tStride m.d1)) (f.bytes (64 * (tKcnt m.d1 + 1)))) x
/-- The pattern of element (x, n) of operand B, which lies by columns with TRANSB (R223, R224). -/
def rightElement (s : State) (c : CoreId) (asid : Nat) (m : Cmd) (depth x n : Nat) : Nat :=
  let f := (pairFmts (dPair m.d0)).2
  if dTransB m.d0 then f.elem (s.bytesAt asid (localAt c m.a2 (n * 32 * tStride m.d2)) (f.bytes depth)) x
  else f.elem (s.bytesAt asid (localAt c m.a2 (x * 32 * tStride m.d2)) (f.bytes 64)) n
/-- The element of a member's product: A of member 0, B, start and scale of its own (R61, R63, R215, R224). -/
def productElement (s : State) (c0 : CoreId) (k0 : Core) (m0 : Cmd) (c : CoreId) (k : Core) (m : Cmd) (i n : Nat) : Nat × Flags :=
  let depth := 64 * (tKcnt m0.d1 + 1)
  elementOf (dPair m.d0) ((List.range depth).map (leftElement s c0 k0 m0 (dPair m.d0) i)) ((List.range depth).map fun x => rightElement s c k.asid m depth x n)
    (if dAccum m.d0 then k.getAc m.acc i n else 0) m.d3 m0.d3
/-- The rows of an operand, each as one number. -/
def rowsOf (s : State) (asid : Nat) (c : CoreId) (a : Word) (n : Nat) (offs : List Nat) : List Nat := offs.map fun o => s.bytesAt asid (localAt c a o) n
/-- The rows of A and of B of a member's product. -/
def leftRows (s : State) (asid : Nat) (c0 : CoreId) (m0 : Cmd) (p : Product) : List Nat := rowsOf s asid c0 m0.a1 p.aBytes p.aOffs
def rightRows (s : State) (asid : Nat) (c : CoreId) (m : Cmd) (p : Product) : List Nat := rowsOf s asid c m.a2 p.bBytes p.bOffs
/-- The page of the first row of A, and then of B, that is spilled to a poisoned page (R20, R123, R353). -/
def productPoison (s : State) (asid : Nat) (c0 : CoreId) (m0 : Cmd) (c : CoreId) (m : Cmd) (p : Product) : Option Nat :=
  (s.rowsPoison asid c0 m0.a1 p.aBytes p.aOffs).or (s.rowsPoison asid c m.a2 p.bBytes p.bOffs)
/-- The command is performed with POISON, its rows are zero and the page is kept (R123, R237, R336). -/
def PoisonedRows (m : Cmd) (rows pa : Nat) (x y : Core) : Prop :=
  HeadPerformed 0 m 0x0A 0 0 0 x y ∧ AccIs m.acc rows (fun _ _ => 0) x y ∧ OnlyMatrix x { y with poisonMet := x.poisonMet } ∧ y.poisonMet = some (pa / 4096 * 4096)
/-- An upset of a checked sum shows exactly when no element of its row and chunk is a NaN, an infinity or NaR: the two sums are the same exact number without
one (R228). -/
def ChecksumRule : Prop :=
  ∀ (s : State) (c : CoreId) (k : Core) (m : Cmd) (place : Nat), dKind m.d0 = 0x01 ∨ dKind m.d0 = 0x02 →
    let n := tKcnt m.d1 + 1
    let i := place / n % (if dKind m.d0 = 0x01 then tRows m.d1 + 1 else 64)
    let chunk := place % n * 64
    let p := productOf k m m
    (p.checksumFault (leftRows s k.asid c m p) (rightRows s k.asid c m p) place = true ↔ ∀ x, x < 64 →
      ((pairFmts (dPair m.d0)).1.exact (leftElement s c k m (dPair m.d0) i (chunk + x))).isSome = true ∧
      ∀ y, y < 64 → ((pairFmts (dPair m.d0)).2.exact (rightElement s c k.asid m (64 * n) (chunk + x) y)).isSome = true)
/-- An element of an accumulator as ACCST stores it: unchanged when the formats are equal, else converted (R229). -/
def storedElement (k : Core) (m : Cmd) (i x : Nat) : Nat × Flags :=
  let src := fmtOf (m.d3.toNat / 256 % 8)
  let dst := fmtOf (m.d3.toNat % 8)
  if src = dst then (k.getAc m.acc i x, 0) else convert src dst (k.getAc m.acc i x)
/-- The bytes of an element of ACCST, and the offset of a row (R229). -/
def storedWidth (m : Cmd) : Nat := (fmtOf (m.d3.toNat % 8)).width / 8
def storedRow (m : Cmd) (i : Nat) : Nat := i * 32 * tStride m.d2
/-- The first `n` rows of ACCST stand in local memory, and nothing else of memory has changed. -/
def RowsStored (c : CoreId) (k : Core) (m : Cmd) (n : Nat) (s t : State) : Prop :=
  (∀ i x, i < n → x < 64 → t.bytesAt k.asid (localAt c m.a2 (storedRow m i + x * storedWidth m)) (storedWidth m) =
    (storedElement k m i x).1 % 2 ^ (8 * storedWidth m)) ∧
  ∀ a d, (∀ i, i < n → ¬ Stored k.asid (localAt c m.a2 (storedRow m i)) (64 * storedWidth m) a d) → t.byteAt a d = s.byteAt a d
/-- The flags of the conversions of the first `n` rows. -/
def RowFlags (k : Core) (m : Cmd) (n : Nat) (fl : BitVec 7) : Prop :=
  ∀ b, fl.getLsbD b = true ↔ ∃ i x, i < n ∧ x < 64 ∧ (storedElement k m i x).2.getLsbD b = true
/-- Row `i` of ACCST lies in its space, outside the placement map and CODE (R229, R237). -/
def RowGood (j : Job) (m : Cmd) (i : Nat) : Prop :=
  addrOff m.a2 + storedRow m i + 64 * storedWidth m ≤ j.limitOf (spaceOfForm m.a2) ∧
  (m.a2.toNat / 2 ^ 36 = 2 ^ 25 → addrOff m.a2 + storedRow m i + 64 * storedWidth m ≤ j.limit ∧
    j.inCode (addrOff m.a2 + storedRow m i) (64 * storedWidth m) = false)
/-- ACCST: every row, converted, into a TCM or quad scratchpad at once and to a die share as a deferred write of the row; FORM and ALIGN before anything moves, BOUNDS
at the first row that is outside, with the rows before it written, and PARITY at the row it struck. A faulted one arrives with its full byte count (log 76). -/
def AccstStores : Prop :=
  ∀ (s : State) (c : CoreId) (k : Core) (m : Cmd) (j : Job), HeadAt s c 0 0x04 k m j →
    let rows := tRows m.d2 + 1
    let bytes := rows * 64 * storedWidth m
    let near := m.a2.toNat / 2 ^ 36 = 0 ∨ m.a2.toNat / 2 ^ 36 = 2 ^ 24
    let quiet := ∀ x ∈ s.net, ∀ n d, s.eagerOver x c m.ctx d n = false
    let apart := 64 * storedWidth m ≤ 32 * tStride m.d2 ∨ rows = 1
    (m.a2.toNat / 2 ^ 36 ≠ 2 ^ 25 → ¬ near → Does (.accst c) s fun t => CoreTo c s t fun x y => HeadPerformed 0 m 0x03 m.a2 0 bytes x y ∧ OnlyMatrix x y ∧ y.ac = x.ac) ∧
    (near ∨ m.a2.toNat / 2 ^ 36 = 2 ^ 25 → m.a2.toNat % 32 ≠ 0 → Does (.accst c) s fun t => CoreTo c s t fun x y =>
      HeadPerformed 0 m 0x02 m.a2 0 bytes x y ∧ OnlyMatrix x y ∧ y.ac = x.ac) ∧
    (near → m.a2.toNat % 32 = 0 → quiet → apart →
      ((∀ i, i < rows → RowGood j m i) → m.hit = 0 → Does (.accst c) s fun t => Keeps [.cores, .jobs] s t ∧ SameRegisters s t ∧ RowsStored c k m rows s t ∧
        ∃ fl y, t.core? c = some y ∧ HeadPerformed 0 m 0 0 fl bytes k y ∧ RowFlags k m rows fl ∧ y.ac = k.ac) ∧
      (∀ i, i < rows → (∀ h, h < i → RowGood j m h) → ¬ RowGood j m i → m.hit = 0 → Does (.accst c) s fun t => Keeps [.cores, .jobs] s t ∧ SameRegisters s t ∧
        RowsStored c k m i s t ∧ ∃ y, t.core? c = some y ∧ HeadPerformed 0 m 0x04 (m.a2 + BitVec.ofNat 64 (storedRow m i)) 0 bytes k y ∧ y.ac = k.ac) ∧
      ((∀ i, i < rows → RowGood j m i) → m.hit ≠ 0 → Does (.accst c) s fun t => Keeps [.cores, .jobs] s t ∧ SameRegisters s t ∧
        ∃ n y, n < rows ∧ RowsStored c k m n s t ∧ t.core? c = some y ∧ HeadPerformed 0 m m.hit 0 0 bytes k y ∧ y.ac = k.ac)) ∧
    (m.a2.toNat / 2 ^ 36 = 2 ^ 25 → m.a2.toNat % 32 = 0 → (∀ i, i < rows → RowGood j m i) → m.hit = 0 → Does (.accst c) s fun t => SameMemory s t ∧
      CoreTo c s t fun x y => (∃ fl, HeadPerformed 0 m 0 0 fl bytes x y ∧ RowFlags k m rows fl) ∧ OnlyMatrix x { y with deferred := x.deferred } ∧ y.ac = x.ac ∧
        ∃ l : List Nat, l.length = rows ∧
          (∀ i v, l[i]? = some v → ∀ e, e < 64 → v / 2 ^ (8 * storedWidth m * e) % 2 ^ (8 * storedWidth m) = (storedElement k m i e).1 % 2 ^ (8 * storedWidth m)) ∧
          y.deferred = x.deferred ++ l.zipIdx.map fun e => { dest := localAt c m.a2 (storedRow m e.2), op := .write (64 * storedWidth m) e.1 })
/-- A command that a soft error struck and that meets no fault of its own is performed with that cause, its rows zeroed, and a copy of one row moves nothing (R237,
R276, log 69). -/
def StruckCommands : Prop :=
  (∀ (s : State) (c : CoreId) (k : Core) (m : Cmd) (j : Job) (kind : Nat) (upset : Bool) (e : Instr), HeadStruck s c 0 kind k m j → dGanged m.d0 = false →
    (kind, e) ∈ [(0x01, Instr.mma c upset), (0x02, .mmag c upset)] →
    firstCause [operandCause j m.a1 (productOf k m m).aOffs (productOf k m m).aBytes, operandCause j m.a2 (productOf k m m).bOffs (productOf k m m).bBytes] = none →
    productPoison s k.asid c m c m (productOf k m m) = none →
    Does e s fun t => CoreTo c s t fun x y => HeadPerformed 0 m 0x0B 0 0 0 x y ∧ AccIs m.acc (if kind = 0x01 then tRows m.d1 + 1 else 64) (fun _ _ => 0) x y ∧ OnlyMatrix x y) ∧
  (∀ (s : State) (c : CoreId) (k : Core) (m : Cmd) (j : Job),
    (HeadStruck s c 0 0x03 k m j → firstCause [operandCause j m.a2 (d2Offs m) 256] = none → s.rowsPoison k.asid c m.a2 256 (d2Offs m) = none → Does (.accld c) s fun t => CoreTo c s t fun x y =>
      HeadPerformed 0 m m.hit 0 0 0 x y ∧ AccIs m.acc (tRows m.d2 + 1) (fun _ _ => 0) x y ∧ OnlyMatrix x y) ∧
    (HeadStruck s c 0 0x05 k m j → Does (.accz c) s fun t => CoreTo c s t fun x y =>
      HeadPerformed 0 m m.hit 0 0 0 x y ∧ AccIs m.acc (64 * (m.d3.toNat % 8 + 1)) (fun _ _ => 0) x y ∧ OnlyMatrix x y) ∧
    (∀ l, HeadStruck s c 0 0x06 k m j → s.jointOf c k m = some l → jointAgrees l = true → Does (.accxr c) s fun t =>
      ∀ x ∈ l, x.2.2.hit ≠ 0 → ∃ y, t.core? x.1 = some y ∧ HeadPerformed 0 x.2.2 x.2.2.hit 0 0 0 x.2.1 y ∧ AccIs x.2.2.acc 64 (fun _ _ => 0) x.2.1 y) ∧
    (∀ n, HeadStruck s c 1 0x20 k m j → tRows m.d1 = 0 → m.d3.getLsbD 49 = false → n = 32 * (m.d3.toNat % 2 ^ 16 + 1) → basesCause [([0, 1, 2, 4, 5, 8], m.a1), ([0, 1, 2, 4, 5, 8], m.a2)] = none →
      (∃ t, s.draw.2.copyRow ⟨c, k, j, m⟩ m.a1 0 m.a2 0 n = .ok t) → Does (.cpbox c) s fun t => SameMemory s t ∧
        ∃ y, t.core? c = some y ∧ HeadPerformed 1 m m.hit 0 0 n k y))
/-- MMA and MMAG, alone or as the joint operation of a gang, write the rows of their product into their accumulators, chunk after chunk, and nothing else, for I8 the
saturated exact sums; a misaligned or misplaced operand, and an upset sum that is checked, fault with zeroed rows. ACCLD, ACCST, ACCZ and ACCXR load, store, clear and
combine accumulators; members that disagree fault ILLEGAL. QFENCE waits for what it marks, SIGNAL is performed at the head. A soft error faults the command it struck,
one in the A operand of member 0 every command of the joint operation. A completed command arrives on its hamper, gives its flags and its late trap, to context 0 when
its helper has ended, and leaves its queue, with STATUS through its status queue; only then is it complete in the coprocessor ring (R61, R63, R163, R215, R217, R219,
R223 to R226, R228 to R234, R237, R244, R330). A command that reads
operands starts in one step and reads them in a later one; a store that performs in between is seen or missed in each 32-byte atom (R235), and a row on a poisoned
page faults it with POISON. The model's: which operand and which row a soft error struck (DESIGN CHOICE, log 69); a matrix command starts and reads in a step each
(DESIGN CHOICE, log 75); POISON comes before PARITY (DESIGN CHOICE, log 96); the byte count of a faulted ACCST (DEDUCED, log 76); a fault of R310 marks the core's vote,
and its late trap goes to the handler (DEDUCED, log 32); a freed entry of the
coprocessor ring keeps its other fields (DEDUCED, log 35); the sign of a zero chunk sum is that of its IEEE product with the scales (DEDUCED, log 31). -/
def Obligations.MatrixCommands : Prop :=
  (∀ (s : State) (c : CoreId) (k : Core) (m : Cmd) (j : Job) (kind : Nat) (upset : Bool) (e : Instr), HeadDue s c 0 kind k m j → dGanged m.d0 = false →
    (kind, e) ∈ [(0x01, Instr.mma c upset), (0x02, .mmag c upset)] →
    let p := productOf k m m
    let rows := if kind = 0x01 then tRows m.d1 + 1 else 64
    let checks := firstCause [operandCause j m.a1 p.aOffs p.aBytes, operandCause j m.a2 p.bOffs p.bBytes]
    let poison := productPoison s k.asid c m c m p
    (m.a1.toNat / 2 ^ 36 = 0 → m.a2.toNat / 2 ^ 36 = 0 → m.a1.toNat % 32 ≠ 0 → Does e s fun t => CoreTo c s t fun x y =>
      HeadPerformed 0 m 0x02 m.a1 0 0 x y ∧ AccIs m.acc rows (fun _ _ => 0) x y ∧ OnlyMatrix x y) ∧
    (∀ cause v, checks = some (cause, v) → Does e s fun t => CoreTo c s t fun x y =>
      HeadPerformed 0 m cause v 0 0 x y ∧ AccIs m.acc rows (fun _ _ => 0) x y ∧ OnlyMatrix x y) ∧
    (∀ pa, checks = none → poison = some pa → Does e s fun t => CoreTo c s t fun x y => PoisonedRows m rows pa x y) ∧
    (checks = none → poison = none → upset = true → dPair m.d0 = 5 → Does e s fun t => CoreTo c s t fun x y =>
      HeadPerformed 0 m 0x0C 0 0 0 x y ∧ AccIs m.acc rows (fun _ _ => 0) x y ∧ OnlyMatrix x y) ∧
    (checks = none → poison = none → upset = false → kind = 0x01 → dPair m.d0 = 5 → tKcnt m.d1 = 0 → dTransB m.d0 = false → Does e s fun t => CoreTo c s t fun x y => OnlyMatrix x y ∧
      (∃ fl, HeadPerformed 0 m 0 0 fl 0 x y) ∧ AccIs m.acc rows (fun i n =>
        saturate32 ((if dAccum m.d0 then (BitVec.ofNat 32 (x.getAc m.acc i n)).toInt else 0) +
          ((List.range 64).map fun r => signedByte s x.asid (localAt c m.a1 (i * 32 * tStride m.d1 + r)) *
            signedByte s x.asid (localAt c m.a2 (r * 32 * tStride m.d2 + n))).sum)) x y)) ∧
  ChecksumRule ∧
  (∀ (s : State) (c : CoreId) (k : Core) (m : Cmd) (j : Job) (kind : Nat) (upset : Bool) (e : Instr), HeadAt s c 0 kind k m j →
    (kind, e) ∈ [(0x01, Instr.mma c upset), (0x02, .mmag c upset)] →
    (s.jointOf c k m = none → exec e s = .next s) ∧
    (∀ c0 k0 m0 rest, s.jointOf c k m = some ((c0, k0, m0) :: rest) →
      let l := (c0, k0, m0) :: rest
      (jointAgrees l = false → Does e s fun t => Keeps [.cores] s t ∧
        ∀ z ∈ l, ∃ y, t.core? z.1 = some y ∧ HeadPerformed 0 z.2.2 0x01 (BitVec.ofNat 64 (dKind z.2.2.d0)) 0 0 z.2.1 y) ∧
      (jointAgrees l = true → (∃ z ∈ l, z.2.2.seen = none) → Does e s fun t => Keeps [.cores] s t ∧ (∀ d, (∀ z ∈ l, z.1 ≠ d) → t.core? d = s.core? d) ∧
        ∀ z ∈ l, ∃ y, t.core? z.1 = some y ∧ OnlyQueues z.2.1 y ∧ (∀ p, p ≠ 0 → y.queue p = z.2.1.queue p) ∧
          y.queue 0 = { z.2.2 with seen := some (z.2.2.seen.getD (s.homesOf k.asid z.1)) } :: (z.2.1.queue 0).drop 1) ∧
      (jointAgrees l = true → (c, k, m) ∈ l → (∀ z ∈ l, Steady s z.1 z.2.1 z.2.2) →
        Does e s fun t => Keeps [.cores] s t ∧ (∀ d, (∀ z ∈ l, z.1 ≠ d) → t.core? d = s.core? d) ∧
        ∃ inA : Bool, (m0.hit = 0 → inA = false) ∧ ∀ c1 k1 m1, (c1, k1, m1) ∈ l → ∃ y, t.core? c1 = some y ∧ OnlyMatrix k1 { y with poisonMet := k1.poisonMet } ∧
          let p := productOf k0 m0 m1
          let rows := if kind = 0x01 then tRows m0.d1 + 1 else 64
          match firstCause [operandCause j m0.a1 p.aOffs p.aBytes, operandCause j m1.a2 p.bOffs p.bBytes] with
          | some (cause, v) => HeadPerformed 0 m1 cause v 0 0 k1 y ∧ AccIs m1.acc rows (fun _ _ => 0) k1 y
          | none =>
            match productPoison s k.asid c0 m0 c1 m1 p with
            | some pa => PoisonedRows m1 rows pa k1 y
            | none =>
            if inA = true ∨ m1.hit ≠ 0 then HeadPerformed 0 m1 0x0B 0 0 0 k1 y ∧ AccIs m1.acc rows (fun _ _ => 0) k1 y
            else if upset = true ∧ c1 = c ∧ p.checksumFault (leftRows s k.asid c0 m0 p) (rightRows s k.asid c1 m1 p) s.draw.1 = true then HeadPerformed 0 m1 0x0C 0 0 0 k1 y ∧ AccIs m1.acc rows (fun _ _ => 0) k1 y
            else AccIs m1.acc rows (fun i n => (productElement s c0 k0 m0 c1 k1 m1 i n).1) k1 y ∧ ∃ fl : BitVec 7, HeadPerformed 0 m1 0 0 fl 0 k1 y ∧
              ∀ b, fl.getLsbD b = true ↔ ∃ i n, i < rows ∧ n < 64 ∧ (productElement s c0 k0 m0 c1 k1 m1 i n).2.getLsbD b = true))) ∧
  (∀ (s : State) (c : CoreId) (k : Core) (m : Cmd) (j : Job), HeadDue s c 0 0x03 k m j →
    (∀ cause v, firstCause [operandCause j m.a2 (d2Offs m) 256] = some (cause, v) → Does (.accld c) s fun t => CoreTo c s t fun x y =>
      HeadPerformed 0 m cause v 0 0 x y ∧ AccIs m.acc (tRows m.d2 + 1) (fun _ _ => 0) x y ∧ OnlyMatrix x y) ∧
    (∀ pa, firstCause [operandCause j m.a2 (d2Offs m) 256] = none → s.rowsPoison k.asid c m.a2 256 (d2Offs m) = some pa →
      Does (.accld c) s fun t => CoreTo c s t fun x y => PoisonedRows m (tRows m.d2 + 1) pa x y) ∧
    (firstCause [operandCause j m.a2 (d2Offs m) 256] = none → s.rowsPoison k.asid c m.a2 256 (d2Offs m) = none →
      Does (.accld c) s fun t => CoreTo c s t fun x y => HeadPerformed 0 m 0 0 0 0 x y ∧ OnlyMatrix x y ∧
        AccIs m.acc (tRows m.d2 + 1) (fun i n => s.bytesAt x.asid (localAt c m.a2 (i * 32 * tStride m.d2 + 4 * n)) 4) x y)) ∧
  (∀ (s : State) (c : CoreId) (k : Core) (m : Cmd) (j : Job) (h : Homes), HeadAt s c 0 0x03 k m j → m.hit = 0 → m.seen = some h →
    firstCause [operandCause j m.a2 (d2Offs m) 256] = none → s.rowsPoison k.asid c m.a2 256 (d2Offs m) = none →
    Does (.accld c) s fun t => CoreTo c s t fun x y => HeadPerformed 0 m 0 0 0 0 x y ∧ OnlyMatrix x y ∧
      ∀ i a, i < tRows m.d2 + 1 → a < 8 → ∃ missed : Bool, ∀ n, n / 8 = a → y.getAc m.acc i n =
        let d := localAt c m.a2 (i * 32 * tStride m.d2 + 4 * n)
        if missed then h.rd d 4 else s.bytesAt k.asid d 4) ∧
  BeginsRule ∧
  AccstStores ∧ StruckCommands ∧
  (∀ (s : State) (c : CoreId) (k : Core) (m : Cmd) (j : Job), HeadDue s c 0 0x05 k m j → Does (.accz c) s fun t => CoreTo c s t fun x y =>
    HeadPerformed 0 m 0 0 0 0 x y ∧ AccIs m.acc (64 * (m.d3.toNat % 8 + 1)) (fun _ _ => 0) x y ∧ OnlyMatrix x y) ∧
  (∀ (s : State) (c : CoreId) (k : Core) (m : Cmd) (j : Job) (l : List (CoreId × Core × Cmd)), HeadDue s c 0 0x06 k m j →
    (s.jointOf c k m = none → exec (.accxr c) s = .next s) ∧
    (s.jointOf c k m = some l → jointAgrees l = true → (∀ z ∈ l, z.2.2.hit = 0) → m.d3.getLsbD 0 = true → Does (.accxr c) s fun t => Keeps [.cores] s t ∧
      ∀ x ∈ l, ∃ y fl, t.core? x.1 = some y ∧ HeadPerformed 0 x.2.2 0 0 fl 0 x.2.1 y ∧ OnlyMatrix x.2.1 y ∧
        AccIs x.2.2.acc 64 (fun i n => saturate32 (l.map fun z => (BitVec.ofNat 32 (z.2.1.getAc z.2.2.acc i n)).toInt).sum) x.2.1 y) ∧
    (s.jointOf c k m = some l → jointAgrees l = true → (∀ z ∈ l, z.2.2.hit = 0) → m.d3.getLsbD 0 = false → Does (.accxr c) s fun t => Keeps [.cores] s t ∧
      ∀ x ∈ l, ∃ y fl, t.core? x.1 = some y ∧ HeadPerformed 0 x.2.2 0 0 fl 0 x.2.1 y ∧ OnlyMatrix x.2.1 y ∧ AccIs x.2.2.acc 64 (fun i n =>
        (xsumRound (l.foldl (fun r z => xsumAdd r (fp32.decode (z.2.1.getAc z.2.2.acc i n))) XRec.empty) .f32).1) x.2.1 y) ∧
    (s.jointOf c k m = some l → jointAgrees l = false → Does (.accxr c) s fun t => Keeps [.cores] s t ∧
      ∀ x ∈ l, ∃ y, t.core? x.1 = some y ∧ HeadPerformed 0 x.2.2 0x01 (BitVec.ofNat 64 (dKind x.2.2.d0)) 0 0 x.2.1 y)) ∧
  (∀ (s : State) (c : CoreId) (q : Nat) (k : Core) (m : Cmd) (j : Job),
    (HeadDue s c q 0x07 k m j →
      ((∃ u ∈ m.before, ∃ x ∈ k.commands, x.uid = u) → exec (.qfence c q) s = .next s) ∧
      ((∀ u ∈ m.before, ∀ x ∈ k.commands, x.uid ≠ u) → Does (.qfence c q) s fun t => CoreTo c s t fun x y => HeadPerformed q m 0 0 0 0 x y ∧ OnlyMatrix x y ∧ y.ac = x.ac)) ∧
    (HeadStruck s c q 0x07 k m j → (∀ u ∈ m.before, ∀ x ∈ k.commands, x.uid ≠ u) → Does (.qfence c q) s fun t => CoreTo c s t fun x y => HeadPerformed q m m.hit 0 0 0 x y) ∧
    (HeadStruck s c q 0x08 k m j → Does (.signal c q) s fun t => CoreTo c s t fun x y => HeadPerformed q m m.hit 0 0 (m.d3.toNat % 2 ^ 32) x y) ∧
    (HeadDue s c q 0x08 k m j → Does (.signal c q) s fun t => CoreTo c s t fun x y => HeadPerformed q m 0 0 0 (m.d3.toNat % 2 ^ 32) x y ∧ OnlyMatrix x y ∧ y.ac = x.ac)) ∧
  (∀ (s : State) (c : CoreId) (q : Nat) (k : Core) (m : Cmd) (rest : List Cmd), s.core? c = some k → k.queue q = m :: rest → k.engines = true →
    (m.stage ≠ .performed → exec (.commandCompletion c q) s = .next s) ∧
    (m.stage = .performed →
      (dSignal m.d0 = false ∨ m.firing ≠ none → Does (.commandCompletion c q) s fun t => SameMemory s t ∧ Keeps [.cores, .net] s t ∧ OtherCores c s t ∧
        (∃ k', t.core? c = some k' ∧ (∀ p, p ≠ q → k'.queue p = k.queue p) ∧ k'.ac = k.ac ∧
          k'.voteFault = (if m.firing ≠ none ∧ m.cause = 0x01 ∨ m.firing = none ∧ m.d0.toNat % 256 = 0x41 ∧ m.cause = 0x04 ∧ m.tval = 0
            then some (k.voteFault.getD m.cause) else k.voteFault) ∧
          k'.queue q = (if m.firing = none ∧ dStatus m.d0 = true then { m with stage := .arrived } :: rest else rest) ∧
          ∀ r, dget? k.ring (m.seq % 64) = some r → r.seq = m.seq → r.valid = true → r.done = false → r.owed = 0 → m.cause = 0 → m.flags &&& m.enabled = 0 →
            dget? k'.ring (m.seq % 64) = some (if m.firing = none ∧ dStatus m.d0 = true then r else { r with done := true, valid := false })) ∧
        (let n := if m.gone then 0 else m.ctx
         t.ctxOf c n = { s.ctxOf c n with flags := (s.ctxOf c n).flags ||| m.flags }) ∧
        (m.cause = 0 → m.flags &&& m.enabled = 0 → t.net = s.net) ∧
        (m.cause = 0 → m.flags &&& m.enabled ≠ 0 → ∃ u, t.net = s.net ++
          [coreMsg c k.asid u (.late { cause := 0x10, seq := m.seq, tval := BitVec.ofNat 64 m.flags.toNat, ctx := m.ctx, orphan := m.gone })]) ∧
        (m.cause ≠ 0 → ∃ u, t.net = s.net ++ [coreMsg c k.asid u (.late { cause := m.cause, seq := m.seq, tval := m.tval, ctx := m.ctx, orphan := m.gone })])) ∧
      (∀ h r, dSignal m.d0 = true → m.firing = none → HamperIs h r (s.bytesAt k.asid { core := c, space := .tcm, off := dHamper m.d0 } 16) →
        Does (.commandCompletion c q) s fun t => HamperIs (HamperFields.tested { h with arrived := min (h.arrived + m.bytes) (2 ^ 32 - 1)
                                                                                        arrivals := (h.arrivals + 1) % 2 ^ 16 }) r
            (t.bytesAt k.asid { core := c, space := .tcm, off := dHamper m.d0 } 16) ∧
          ∀ a d, ¬ Stored k.asid { core := c, space := .tcm, off := dHamper m.d0 } 16 a d → t.byteAt a d = s.byteAt a d)) ∧
    (m.stage = .arrived → 8 ≤ (dgetD k.status (statusQueue q) []).length → exec (.statusEntry c q) s = .next s) ∧
    (m.stage = .arrived → (dgetD k.status (statusQueue q) []).length < 8 → Does (.statusEntry c q) s fun t => CoreTo c s t fun x y =>
      y.queue q = rest ∧ (∀ p, p ≠ q → y.queue p = x.queue p) ∧ (∀ p, p ≠ statusQueue q → dgetD y.status p [] = dgetD x.status p []) ∧
      dgetD y.status (statusQueue q) [] = dgetD x.status (statusQueue q) [] ++ [BitVec.ofNat 64 (m.cause % 256 * 2 ^ 32 + m.d0.toNat % 256 * 2 ^ 16 + m.seq % 2 ^ 16)] ∧
      (∀ r, dget? x.ring (m.seq % 64) = some r → r.seq = m.seq → r.valid = true → r.owed = 0 → dget? y.ring (m.seq % 64) = some { r with done := true, valid := false }) ∧
      { y with q := x.q, status := x.status, ring := x.ring, lastProgress := x.lastProgress } = x))

-- copy commands

/-- A local row of `n` bytes that a command of core `c` may read and write: form, alignment, bounds, and the core still at its position. -/
def RowAt (s : State) (c : CoreId) (k : Core) (j : Job) (a : Word) (n : Nat) : Prop :=
  (a.toNat / 2 ^ 36 = 0 ∨ a.toNat / 2 ^ 36 = 2 ^ 24) ∧ a.toNat % 32 = 0 ∧ addrOff a + n ≤ j.limitOf (spaceOfForm a) ∧
    s.belongs k.asid c = true ∧ s.forwarded k.asid c = c ∧ k.dead = false
/-- No atom of a row is spilled to a poisoned page (R20, R122). -/
def Unspilled (s : State) (asid : Nat) (d : Dest) : Prop := ∀ i, s.spillPoison asid { d with off := d.off + 32 * i } 32 = none
/-- The head of queue `q` is performed without a cause and local memory changes as `P` says; jobs and cores apart, nothing changes. -/
def Moves (c : CoreId) (k : Core) (q : Nat) (m : Cmd) (bytes : Nat) (s t : State) : Prop :=
  (∃ y, t.core? c = some y ∧ HeadPerformed q m 0 0 0 bytes k y) ∧ Keeps [.cores, .jobs] s t ∧ OtherCores c s t ∧ SameRegisters s t
/-- The eager write of an atom of `NXPUT`. -/
def putMsg (c : CoreId) (m : Cmd) (asid u : Nat) (d : Dest) (v : Nat) : Msg :=
  { src := c, ctx := m.ctx, asid := asid, uid := u, seq := m.seq, cmd := some m.uid, kind := .eager d 32 v m.a2 }
/-- The fire message of a firing. -/
def fireMsg (c : CoreId) (m : Cmd) (asid u tile entry : Nat) (vs : List (List (Nat × Nat))) : Msg :=
  { src := c, ctx := m.ctx, asid := asid, uid := u, seq := m.seq, cmd := some m.uid, kind := .fire tile entry m.patch vs }
/-- A base with a wrong form or alignment: the command faults before anything moves (R276). -/
def CopyBases : Prop :=
  ∀ (s : State) (c : CoreId) (q kind : Nat) (k : Core) (m : Cmd) (j : Job) (e : Instr) (bases : List (List Nat × Word)) (x : EFault), HeadAt s c q kind k m j →
    (kind ≠ 0x24 → m.seen ≠ none) → (q, kind, e, bases) ∈ [(1, 0x20, Instr.cpbox c, [([0, 1, 2, 4, 5, 8], m.a1), ([0, 1, 2, 4, 5, 8], m.a2)]), (1, 0x21, .cppfl c, [([0, 1, 2], m.a1)]),
      (1, 0x24, .cpfill c, [([0, 1, 2, 4, 5, 8], m.a2)]), (2, 0x30, .gtrows c, [([0, 1, 2, 8], m.a1), ([0, 1, 2], m.a2)]),
      (3, 0x40, .nxput c, [([0, 1], m.a1), ([2, 4, 5], m.a2)]), (3, 0x41, .nxred c, [([0, 1], m.a1)])] →
    (kind = 0x30 → m.d3.getLsbD 63 = false) → (kind = 0x40 → m.stage = .queued) →
    basesCause bases = some x → Does e s fun t => CoreTo c s t fun a b => (∃ n, HeadPerformed q m x.cause x.tval 0 n a b) ∧ OnlyQueues a b
/-- CPBOX (R264 to R266). -/
def CpboxMoves : Prop :=
  ∀ (s : State) (c : CoreId) (k : Core) (m : Cmd) (j : Job) (n : Nat), HeadDue s c 1 0x20 k m j → n = 32 * (m.d3.toNat % 2 ^ 16 + 1) → tRows m.d1 = 0 →
    RowAt s c k j m.a1 n → m.a2.toNat % 32 = 0 →
    (m.d3.getLsbD 49 = false → n = 32 → RowAt s c k j m.a2 32 → Does (.cpbox c) s fun t => match s.spillPoison k.asid (localAt c m.a1 0) 32 with
      | some pa => SameMemory s t ∧ ∃ y, t.core? c = some y ∧ HeadPerformed 1 m 0x0A m.a1 0 32 k y ∧ y.poisonMet = some (pa / 4096 * 4096)
      | none => Moves c k 1 m 32 s t ∧ StoresBytes s t k.asid (localAt c m.a2 0) 32 (s.bytesAt k.asid (localAt c m.a1 0) 32)) ∧
    (m.d3.getLsbD 49 = false → Unspilled s k.asid (localAt c m.a1 0) → RowAt s c k j m.a2 n → Does (.cpbox c) s fun t => Moves c k 1 m n s t ∧
      StoresBytes s t k.asid (localAt c m.a2 0) n (s.bytesAt k.asid (localAt c m.a1 0) n)) ∧
    (m.d3.getLsbD 49 = false → n = 32 → Unspilled s k.asid (localAt c m.a1 0) → m.a2.toNat / 2 ^ 36 = 2 ^ 25 → addrOff m.a2 + 32 ≤ j.limit → j.inCode (addrOff m.a2) 32 = false → j.hasDie (coreDie c) = true →
      Does (.cpbox c) s fun t => SameMemory s t ∧ CoreTo c s t fun x y => HeadPerformed 1 m 0 0 0 32 x y ∧
        y.deferred = x.deferred ++ [{ dest := localAt c m.a2 0, op := .write 32 (s.bytesAt k.asid (localAt c m.a1 0) 32) }]) ∧
    (m.d3.getLsbD 49 = true → (s.byteAt k.asid { core := c, space := .tcm, off := m.d3.toNat / 2 ^ 32 % 2 ^ 17 }).getLsbD 0 = true → RowAt s c k j m.a2 n →
      Does (.cpbox c) s fun t => CoreTo c s t fun x y => HeadPerformed 1 m 0 0 0 n x y ∧ OnlyQueues x y)
/-- CPFILL (R271, R285). -/
def CpfillFills : Prop :=
  ∀ (s : State) (c : CoreId) (k : Core) (m : Cmd) (j : Job) (n : Nat), HeadDue s c 1 0x24 k m j → n = 32 * (m.d3.toNat / 2 ^ 32 % 2 ^ 16 + 1) → tRows m.d2 = 0 →
    (RowAt s c k j m.a2 n → Does (.cpfill c) s fun t => Moves c k 1 m n s t ∧
      (∀ i, i < n / 4 → t.bytesAt k.asid (localAt c m.a2 (4 * i)) 4 = m.d3.toNat % 2 ^ 32) ∧
      ∀ a d, ¬ Stored k.asid (localAt c m.a2 0) n a d → t.byteAt a d = s.byteAt a d) ∧
    (∀ s' pa, n = 32 → m.a2.toNat / 2 ^ 52 = 2 ^ 11 → m.a2.toNat % 32 = 0 → s.reach ⟨c, k, j, m⟩ m.a2 0 32 true = .ok (s', pa) →
      Does (.cpfill c) s fun t => SameMemory s t ∧ ∃ y, t.core? c = some y ∧ HeadPerformed 1 m 0 0 0 32 k y ∧ ∃ w,
        y.writeOuts = k.writeOuts ++ [w] ∧ w.va = m.a2.toNat % 2 ^ 52 ∧ w.pa = pa ∧ w.n = 32 ∧ w.val = fillRow (m.d3.toNat % 2 ^ 32) 8 ∧ w.fill = some m.uid)
/-- CPPFL: the command reads its list when it starts. An entry with NEXT = 0 is read in one step, which an abort finishes into staging, and written in the next; one
with NEXT = 1 is staged and its command goes on; one that staging holds is claimed and not read again (R264, R267 to R269, R334). -/
def CppflFetches : Prop :=
  (∀ (s s' : State) (c : CoreId) (k : Core) (m : Cmd) (j : Job) (f : Fetch) (x : Nat), HeadDue s c 1 0x21 k m j → m.stage = .queued → m.list = [] → m.progress = 0 →
    basesCause [([0, 1, 2], m.a1)] = none → s.fetchAt ⟨c, k, j, m⟩ 0 = .ok f → fetchCause ⟨c, k, j, m⟩ f = none → j.reading k.index m.uid = none →
    j.claimable k.index f = none → s.readRow ⟨c, k, j, m⟩ f.va 0 f.len = .ok (s', x) →
    (f.next = false → RowAt s c k j f.dest f.len → Does (.cppfl c) s fun t => SameMemory s t ∧
      (∃ y, t.core? c = some y ∧ ∀ p, y.queue p = if p = 1
        then { m with stage := .running, progress := 0, list := (s.listFrom ⟨c, k, j, m⟩ 0 (tRows m.d1 + 1)).1 } :: (k.queue 1).drop 1 else k.queue p) ∧
      ∃ y, t.job? k.asid = some y ∧ y.staged = j.staged ++ [{ index := k.index, va := f.va.toNat % 2 ^ 52, len := f.len, dest := f.dest, hamper := f.hamper
                                                              signal := f.signal, data := none, poison := none, source := writeMem [] 0 f.len x, claimed := true
                                                              reader := some m.uid }]) ∧
    (f.next = true → tRows m.d1 = 0 → Does (.cppfl c) s fun t => SameMemory s t ∧ (∃ y, t.core? c = some y ∧ HeadPerformed 1 m 0 0 0 0 k y) ∧
      ∃ y, t.job? k.asid = some y ∧ y.staged = j.staged ++ [{ index := k.index, va := f.va.toNat % 2 ^ 52, len := f.len, dest := f.dest, hamper := f.hamper
                                                              signal := f.signal, data := none, poison := none, source := writeMem [] 0 f.len x, claimed := true
                                                              reader := none }])) ∧
  (∀ (s : State) (c : CoreId) (k : Core) (m : Cmd) (j : Job) (b i : Nat) (g : Staged), HeadDue s c 1 0x21 k m j → m.stage = .running → m.list[0]? = some b → m.progress = 0 →
    tRows m.d1 = 0 → basesCause [([0, 1, 2], m.a1)] = none →
    let f := fetchOf b
    fetchCause ⟨c, k, j, m⟩ f = none → f.next = false → (j.reading k.index m.uid).or (j.claimable k.index f) = some i → j.staged[i]? = some g →
    (g.poison = none → f.signal = false → RowAt s c k j f.dest f.len → Does (.cppfl c) s fun t =>
      StoresBytes s t k.asid (localAt c f.dest 0) f.len (readMem g.source 0 f.len) ∧ (∃ y, t.core? c = some y ∧ HeadPerformed 1 m 0 0 0 f.len k y) ∧
      ∃ y, t.job? k.asid = some y ∧ y.staged = (j.staged.eraseIdx i).filter fun e => e.index != k.index || e.reader != some m.uid) ∧
    (∀ pa, g.poison = some pa → Does (.cppfl c) s fun t => SameMemory s t ∧ ∃ y, t.core? c = some y ∧ HeadPerformed 1 m 0x0A 0 0 f.len k y ∧
      y.poisonMet = some (pa / 4096 * 4096)))
/-- CPSTRM: a row's bytes are copied in every case; the bank of an aligned row of tier 0 is reserved, that of a row that is not aligned, or of another
tier, is not, which is the model's reading (DEDUCED, log 37). With KEEP the bank of the last row stays reserved; one that an earlier command kept stays unless
another is reserved (R125, R270). -/
def CpstrmStreams : Prop :=
  ∀ (s s1 s2 : State) (c : CoreId) (k : Core) (m : Cmd) (j : Job) (pa x : Nat), HeadDue s c 1 0x22 k m j → tRows m.d1 = 0 → (k.kept = true → k.reserved ≠ none) →
    (∀ x, basesCause [([8], m.a1), ([0, 1], m.a2)] = some x → Does (.cpstrm c) s fun t => SameMemory s t ∧ ∃ y, t.core? c = some y ∧
      HeadPerformed 1 m x.cause x.tval 0 1024 k y ∧ y.reserved = if k.kept = true then k.reserved else none) ∧
    (basesCause [([8], m.a1), ([0, 1], m.a2)] = none → s.reach ⟨c, k, j, m⟩ m.a1 0 32 false = .ok (s1, pa) →
    (pa % 1024 ≠ 0 ∨ tierOf pa ≠ .hbm → RowAt s c k j m.a2 1024 → (s1.endStream c).readRow ⟨c, k, j, m⟩ m.a1 0 1024 = .ok (s2, x) → Does (.cpstrm c) s fun t =>
      StoresBytes s t k.asid (localAt c m.a2 0) 1024 x ∧ ∃ y, t.core? c = some y ∧ HeadPerformed 1 m 0 0 0 1024 k y ∧
        y.reserved = if k.kept = true then k.reserved else none) ∧
    (pa % 1024 = 0 → tierOf pa = .hbm → RowAt s c k j m.a2 1024 → (s1.holdBank c pa).readRow ⟨c, k, j, m⟩ m.a1 0 1024 = .ok (s2, x) → Does (.cpstrm c) s fun t =>
      StoresBytes s t k.asid (localAt c m.a2 0) 1024 x ∧ ∃ y, t.core? c = some y ∧ HeadPerformed 1 m 0 0 0 1024 k y ∧
        (m.d3.getLsbD 0 = true → y.kept = true) ∧
        y.reserved = if m.d3.getLsbD 0 = true ∨ k.kept = true ∧ k.reserved = some (bankOf pa) then some (bankOf pa) else none))
/-- CPCLOSE (R270). -/
def CpcloseReleases : Prop :=
  ∀ (s : State) (c : CoreId) (k : Core) (m : Cmd) (j : Job) (b : Nat) (d : Module) (r : Bank), HeadDue s c 1 0x23 k m j → k.reserved = some b →
    s.module? (coreModule c) = some d → dget? d.banks b = some r → Does (.cpclose c) s fun t => Keeps [.cores, .modules] s t ∧
      (∃ y, t.core? c = some y ∧ HeadPerformed 1 m 0 0 0 0 k y ∧ y.reserved = none ∧ OnlyQueues k { y with reserved := some b, kept := k.kept }) ∧
      ∃ d' r', t.module? (coreModule c) = some d' ∧ dget? d'.banks b = some r' ∧ r'.holder = none ∧ r'.row = r.row ∧ ∀ n, n ≠ b → dget? d'.banks n = dget? d.banks n
/-- CPRING (R272); a block on a poisoned page faults with POISON, and the bytes of that arrival are open (R123, R276). -/
def CpringFills : Prop :=
  (∀ (s : State) (c : CoreId) (k : Core) (m : Cmd) (j : Job) (pa : Nat), HeadDue s c 1 0x25 k m j → RowAt s c k j m.a1 32 → RowAt s c k j m.a2 32 →
    s.spillPoison k.asid (localAt c m.a2 0) 32 = some pa → Does (.cpring c) s fun t => SameMemory s t ∧ Keeps [.cores] s t ∧ OtherCores c s t ∧
      ∃ n y, t.core? c = some y ∧ HeadPerformed 1 m 0x0A m.a2 0 n k y ∧ y.poisonMet = some (pa / 4096 * 4096)) ∧
  ∀ (s : State) (c : CoreId) (k : Core) (m : Cmd) (j : Job) (g : RingFields) (r : Nat), HeadDue s c 1 0x25 k m j → m.stage = .queued → m.progress = 0 → tRows m.d1 = 0 →
    RowAt s c k j m.a1 g.slotSize → RowAt s c k j m.a2 32 → Unspilled s k.asid (localAt c m.a1 0) → m.a1.toNat / 2 ^ 60 = 1 → m.a2.toNat / 2 ^ 60 = 0 → g.base / 2 ^ 60 = 1 →
    RingIs g r (s.bytesAt k.asid (localAt c m.a2 0) 32) → ringValid j c .job (s.bytesAt k.asid (localAt c m.a2 0) 32) = true →
    (g.free = 0 → exec (.cpring c) s = .next s) ∧
    (0 < g.free → Does (.cpring c) s fun t =>
      let slot := localAt c (BitVec.ofNat 64 g.base) (g.put * g.slotSize)
      Moves c k 1 m g.slotSize s t ∧
      RingIs { g with free := g.free - 1, filled := g.filled + 1, put := (g.put + 1) % (g.nslot + 1) } r (t.bytesAt k.asid (localAt c m.a2 0) 32) ∧
      t.bytesAt k.asid slot g.slotSize = s.bytesAt k.asid (localAt c m.a1 0) g.slotSize ∧
      ∀ a d, ¬ Stored k.asid (localAt c m.a2 0) 32 a d → ¬ Stored k.asid slot g.slotSize a d → t.byteAt a d = s.byteAt a d)
/-- GTROWS (R273). -/
def GtrowsGathers : Prop :=
  ∀ (s : State) (c : CoreId) (k : Core) (m : Cmd) (j : Job), HeadDue s c 2 0x30 k m j →
    (m.d3.getLsbD 63 = true → Does (.gtrows c) s fun t => CoreTo c s t fun x y => HeadPerformed 2 m 0 0 0 0 x y ∧ OnlyQueues x { y with latch := x.latch } ∧
      ∀ i, i < m.d3.toNat / 2 ^ 22 % 2 ^ 10 + 1 → (sget y.latch ((tRows m.d1 + i) % 1024)).toNat =
        s.bytesAt k.asid { core := c, space := .tcm, off := m.d3.toNat / 2 ^ 32 % 2 ^ 17 + 4 * i } 4) ∧
    (m.d3.getLsbD 63 = false → m.d3.toNat / 2 ^ 22 % 2 ^ 10 = 0 →
      let n := 32 * (m.d3.toNat % 2 ^ 16 + 1)
      let row := s.bytesAt k.asid { core := c, space := .tcm, off := m.d3.toNat / 2 ^ 32 % 2 ^ 17 } 4 + tRows m.d1
      RowAt s c k j m.a1 (row * 32 * tStride m.d1 + n) → Unspilled s k.asid (localAt c m.a1 (row * 32 * tStride m.d1)) → RowAt s c k j m.a2 n → Does (.gtrows c) s fun t => Moves c k 2 m n s t ∧
        StoresBytes s t k.asid (localAt c m.a2 0) n (s.bytesAt k.asid (localAt c m.a1 (row * 32 * tStride m.d1)) n))
/-- NXPUT (R274). -/
def NxputSends : Prop :=
  (∀ (s : State) (c : CoreId) (k : Core) (m : Cmd) (j : Job), HeadDue s c 3 0x40 k m j →
    (∀ d, m.stage = .queued → tRows m.d1 = 0 → m.d3.toNat % 2 ^ 16 = 0 → RowAt s c k j m.a1 32 → Unspilled s k.asid (localAt c m.a1 0) → formOk [2, 4, 5] m.a2 = true → m.a2.toNat % 32 = 0 → locate c m.a2 = some d →
      d.space ≠ .dss → d.off + 32 ≤ j.limitOf d.space → (∀ e ∈ k.eager, e.cmd ≠ some m.uid) → Does (.nxput c) s fun t => SameMemory s t ∧
        (∃ y, t.core? c = some y ∧ y.queue 3 = { m with stage := .running, outstanding := 1, cause := 0, tval := 0 } :: (k.queue 3).drop 1 ∧ y.eager.length = k.eager.length + 1) ∧
        ∃ u, t.net = s.net ++ [putMsg c m k.asid u d (s.bytesAt k.asid (localAt c m.a1 0) 32)]) ∧
    (m.stage ≠ .queued → m.outstanding ≠ 0 → exec (.nxput c) s = .next s)) ∧
  (∀ (s : State) (c : CoreId) (k : Core) (m : Cmd) (j : Job), HeadAt s c 3 0x40 k m j → m.seen ≠ none → m.stage ≠ .queued →
    (m.hit = 0 → m.outstanding = 0 → Does (.nxput c) s fun t => CoreTo c s t fun x y =>
      HeadPerformed 3 m m.cause m.tval 0 ((tRows m.d1 + 1) * (32 * (m.d3.toNat % 2 ^ 16 + 1))) x y ∧ OnlyQueues x y) ∧
    (m.hit ≠ 0 → m.outstanding = 0 → Does (.nxput c) s fun t => CoreTo c s t fun x y =>
      (∃ v, HeadPerformed 3 m (if m.cause ≠ 0 ∧ causeRank m.cause ≤ causeRank m.hit then m.cause else m.hit) v 0
        ((tRows m.d1 + 1) * (32 * (m.d3.toNat % 2 ^ 16 + 1))) x y) ∧ OnlyQueues x y) ∧
    (m.outstanding ≠ 0 → exec (.nxput c) s = .next s))
/-- NXRED (R275). -/
def NxredContributes : Prop :=
  ∀ (s : State) (c : CoreId) (k : Core) (m : Cmd) (j : Job) (w slot n code : Nat), HeadDue s c 3 0x41 k m j → slot = m.d3.toNat % 2 ^ 12 → code = m.d3.toNat / 2 ^ 16 % 8 →
    w = codeBytes code → n = m.d3.toNat / 2 ^ 32 % 2 ^ 16 + 1 → RowAt s c k j m.a1 (n * w) →
    (slot + n ≤ j.window → s.spillPoison k.asid (localAt c m.a1 0) (n * w) = none → Does (.nxred c) s fun t => CoreTo c s t fun x y => HeadPerformed 3 m 0 0 0 (n * w) x y ∧ OnlyQueues x { y with nxPending := x.nxPending } ∧
      y.nxPending = x.nxPending ++ (List.range n).map fun i => { slot := slot + i, value := code * 2 ^ 32 + s.bytesAt k.asid (localAt c m.a1 (i * w)) w, firing := none }) ∧
    (j.window < slot + n → Does (.nxred c) s fun t => CoreTo c s t fun x y => HeadPerformed 3 m 0x04 0 0 (n * w) x y ∧ OnlyQueues x y)
/-- A firing at the head of q3 (R309, R312). -/
def FiringSends : Prop :=
  ∀ (s : State) (c : CoreId) (k : Core) (m : Cmd) (tile entry : Nat), s.core? c = some k → k.headOf 3 = some m → m.firing = some (tile, entry) →
    (m.stage ≠ .queued → exec (.firing c) s = .next s) ∧
    (m.stage = .queued → m.seen = none → Does (.firing c) s fun t => CoreTo c s t fun x y =>
      y.queue 3 = { m with seen := some (s.homesOf k.asid c) } :: (x.queue 3).drop 1 ∧ OnlyQueues x y) ∧
    (∀ pa, m.stage = .queued → m.seen ≠ none → tlSrcEn entry = true →
      s.spillPoison k.asid (localAt c (tlSrc entry) m.patch) (tlVals entry * codeBytes (tlIn entry)) = some pa →
      Does (.firing c) s fun t => CoreTo c s t fun x y => HeadPerformed 3 m 0x0A 0 0 0 x y ∧ OnlyQueues x { y with poisonMet := x.poisonMet } ∧
        y.poisonMet = some (pa / 4096 * 4096)) ∧
    (m.stage = .queued → Steady s c k m → (tlSrcEn entry = true → s.spillPoison k.asid (localAt c (tlSrc entry) m.patch) (tlVals entry * codeBytes (tlIn entry)) = none) →
      Does (.firing c) s fun t => Keeps [.cores, .net] s t ∧ OtherCores c s t ∧
      (∃ u, t.net = s.net ++ [fireMsg c m k.asid u tile entry ((List.range (tlVals entry)).map fun i =>
          (if tlSrcEn entry = true then [(tlIn entry, s.bytesAt k.asid (localAt c (tlSrc entry) (m.patch + codeBytes (tlIn entry) * i)) (codeBytes (tlIn entry)))] else []) ++
          (k.nxPending.filter fun p => p.slot = tlSlot entry + i ∧ p.firing = none).map fun p => (p.value / 2 ^ 32, p.value % 2 ^ 32))]) ∧
      ∃ y, t.core? c = some y ∧ y.queue 3 = { m with stage := .running } :: (k.queue 3).drop 1 ∧ OnlyQueues k { y with nxPending := k.nxPending } ∧
        y.nxPending = k.nxPending.map fun p => if tlSlot entry ≤ p.slot ∧ p.slot < tlSlot entry + tlVals entry ∧ p.firing = none then { p with firing := some m.uid } else p)
/-- A staged read (R269). -/
def StagedReads : Prop :=
  ∀ (s : State) (a i : Nat) (j : Job) (g : Staged), s.job? a = some j → j.staged[i]? = some g → Does (.stagingReadComplete a i) s fun t => JobTo a s t fun x y =>
    y.staged[i]? = some { g with data := some g.source } ∧ (∀ n, n ≠ i → y.staged[n]? = x.staged[n]?) ∧ { y with staged := x.staged } = x
/-- CPBOX, CPFILL and GTROWS copy and fill whole rows, immediate in the TCM and the scratchpad, deferred to a die share; a set bitmap bit skips its box, and a base with a
wrong form or alignment faults before anything moves. CPPFL reads its list, then reads each entry or stages it. CPSTRM holds the bank of the row until CPCLOSE, or its own end. CPRING fills one
slot of a ring while FREE > 0 and else waits. NXPUT sends its atoms as eager writes and is done when all are answered, be it struck by a hardware fault or not, with the first cause of R276; NXRED keeps its values for the round; a firing at
the head of q3 sends its values and the pending ones, which stay pending until they have joined a round. A row read from a spilled page that is poisoned faults POISON.
A staged read delivers its source (R20, R122, R263 to R276, R309, R312). Each that
reads operands starts in one step and reads in a later one (R264). The model's: a command reads its rows, or writes its latch entries, in one step, with the stores
since its start seen or missed (DESIGN CHOICE, log 75); a CPRING reads and checks its block anew at each slot (DESIGN CHOICE, log 97); causes of a list entry that R276 does not name (DEDUCED, log 37); a CPSTRM on the bank that its core keeps
restarts the 5,000 cycles (DESIGN CHOICE, log 91). -/
def Obligations.CopyCommands : Prop :=
  CopyBases ∧ CpboxMoves ∧ CpfillFills ∧ CppflFetches ∧ CpstrmStreams ∧ CpcloseReleases ∧ CpringFills ∧ GtrowsGathers ∧ NxputSends ∧ NxredContributes ∧ FiringSends ∧ StagedReads

-- supersteps

/-- A message for the closing barrier of job `a` stands at place `n` of the messages in flight. -/
def BarrierAt (s : State) (n a : Nat) (kind : MsgKind) (j : Job) : Prop := ∃ x, s.net[n]? = some x ∧ x.kind = kind ∧ x.asid = a ∧ s.job? a = some j
/-- Message `n` is gone and nothing else has changed. -/
def Dropped (n : Nat) (s t : State) : Prop := t.net = s.net.eraseIdx n ∧ Keeps [.net] s t
/-- The outcome of job `a` is decided and on its way to every core (R281, R282). -/
def Decided (a : Nat) (j : Job) (v : Verdict) (t : State) : Prop :=
  (∃ y, t.job? a = some y ∧ y.verdict = some v) ∧ ∀ c, c ∈ j.places → ∃ m ∈ t.net, m.src = c ∧ m.asid = a ∧ m.kind = .outcome v
/-- The vote as the tree takes it: one of another superstep counts as an abort with LINK (R280). -/
def takenVote (s : State) (j : Job) (v : Vote) (ssn : Nat) : Vote :=
  if ssn = s.ssnOf j then v else { index := v.index, abort := true, cause := 0x0E, op := 0, val := 0 }
/-- Position `x` of the quad of `c` was fenced before `c` and waits for the spare of the quad (R352). -/
def Earlier (s : State) (c x : CoreId) : Prop :=
  coreQuad x = coreQuad c ∧ x ≠ c ∧ (s.patch x).fenced = true ∧ (s.patch x).perm = false ∧ (s.patch x).slot ≠ 4 ∧ (s.core? x).isSome = true ∧
    (s.pos x).fencedAt < (s.pos c).fencedAt
/-- Job `a` is gone, with its cores and messages, and its LAUNCH entry has this state and cause. -/
def JobEnds (a : Nat) (j : Job) (state cause : Nat) (s t : State) : Prop :=
  t.job? a = none ∧ OtherJobs a s t ∧ (∀ x ∈ t.cores, x.2.asid ≠ a) ∧ (∀ m ∈ t.net, m.asid ≠ a) ∧
    (t.entry? j.home j.jsn).map (fun x => (x.state, x.cause)) = some (state, cause)
/-- A core between two supersteps: everything R33 does not carry is as at reset of a superstep. -/
def Clean (y : Core) : Prop :=
  y.ac = [] ∧ y.latch = [] ∧ y.present = [] ∧ y.q = [] ∧ y.status = [] ∧ y.tasks = [] ∧ (∀ n e, dget? y.ring n = some e → e.valid = false) ∧ y.seqNext = 0 ∧ y.lanes = [] ∧ y.eager = [] ∧
    y.deferred = [] ∧ y.writeOuts = [] ∧ y.posts = [] ∧ y.abort = none ∧ y.stopped = false ∧ y.gang = none ∧ y.nxPending = [] ∧ y.voteFault = none
/-- The closing barrier and what follows. A vote joins its job's votes, an abort vote broadcasts the doom notice, the last vote decides: COMMIT with the combined value when
all agree, else ABORT with the cause of the lowest index that aborts, or with ILLEGAL when no vote aborts and the OPs differ; an urgent abort decides at once. A doomed
core stops, undoes a push that waits, and votes; an outcome starts applying or rolling. Applying performs the deferred effects and takes the entry state of the next
superstep; writes to the tiers wait for a bank that another core holds; rolling restores memories, context 0 and messages, finishes page fetches into staging and patches
a fenced position onto the spare of its quad, of two the one that was fenced first. At
the boundary, for which a stopped core is to be fenced first though a FAULT is due, the job is held, its counts reset by a commit, once no request for it is still to be
carried out; it pauses or is cancelled by a pending request, once its write-backs meet no reserved bank;
released, it ends with LINK where a module can carry out no round of its tile tables as they then stand, else every core runs and a module whose mangle has failed goes over to
gateway cores. A message for an attempt that has ended is dropped. A retiring job ends
COMPLETED (R33, R85, R125, R151, R279 to R285, R317, R330 to R336, R349, R350, R352, R357, R358). The model's: a commit keeps the level of context 0 (DEDUCED, log 11); all cores of a job
are released in one step (DESIGN CHOICE, log 21); a boundary and a release wait for requests accepted at the home module that are still to be carried out (DEDUCED,
log 67); a job that ends otherwise than by retirement has its frames written back too, so that this end waits for a reserved bank (DEDUCED, log 13). -/
def Obligations.Supersteps : Prop :=
  (∀ (s : State) (n a : Nat) (j : Job) (v : Vote) (ssn : Nat), BarrierAt s n a (.vote v ssn) j →
    let w := takenVote s j v ssn
    let j' := { j with votes := j.votes ++ [w] }
    (j.verdict ≠ none → Does (.barrierMessage n) s (Dropped n s)) ∧
    (j.verdict = none → w.abort = false → (∃ i, i < j.n ∧ s.voteIn j' i = false) → Does (.barrierMessage n) s fun t =>
      t.job? a = some j' ∧ OtherJobs a s t ∧ t.net = s.net.eraseIdx n ∧ Keeps [.jobs, .net] s t) ∧
    (j.verdict = none → w.abort = true → Does (.barrierMessage n) s fun t => (∃ y, t.job? a = some y ∧ y.votes = j'.votes ∧ y.doomed = true) ∧ OtherJobs a s t ∧
      Keeps [.jobs, .net] s t ∧ (j.doomed = false → ∀ c, c ∈ j.places → ∃ m ∈ t.net, m.src = c ∧ m.asid = a ∧ m.kind = .doom)) ∧
    (j.verdict = none → 0 < j.n → (∀ i, i < j.n → s.voteIn j' i = true) → j.proxies = [] → (∀ u ∈ j'.votes, u.abort = false ∧ u.op = w.op) → Does (.barrierMessage n) s fun t =>
      Decided a j { commit := true, cause := 0, index := 0, origin := 0, val := combineAll w.op (j'.votes.map Vote.val) } t ∧ Keeps [.jobs, .net] s t ∧ OtherJobs a s t) ∧
    (∀ v0 u, j.verdict = none → (∀ i, i < j.n → s.voteIn j' i = true) → j.proxies = [] → (∀ x ∈ j'.votes, x.abort = false) → 0 < j.n → j'.voteOf 0 = some v0 → u ∈ j'.votes →
      u.op ≠ v0.op → (∀ x ∈ j'.votes, x.op ≠ v0.op → u.index ≤ x.index) → Does (.barrierMessage n) s fun t =>
        Decided a j { commit := false, cause := 0x01, index := u.index, origin := 0, val := 0 } t ∧ Keeps [.jobs, .net] s t ∧ OtherJobs a s t) ∧
    (∀ i cause, j.verdict = none → (∀ i, i < j.n → s.voteIn j' i = true) → i < j.n → j'.abortOf i = some cause → (∀ h, h < i → j'.abortOf h = none) →
      Does (.barrierMessage n) s fun t => Decided a j { commit := false, cause := cause, index := i, origin := 0, val := 0 } t ∧ Keeps [.jobs, .net] s t ∧ OtherJobs a s t)) ∧
  (∀ (s : State) (n a : Nat) (j : Job) (v : Vote), BarrierAt s n a (.further v) j →
    (j.verdict ≠ none ∨ j.held = true → Does (.furtherAbortMessage n) s (Dropped n s)) ∧
    (j.verdict = none → j.held = false → Does (.furtherAbortMessage n) s fun t => (∃ y, t.job? a = some y ∧ y.proxies = j.proxies ++ [v] ∧ y.votes = j.votes ∧ y.doomed = true) ∧
      OtherJobs a s t ∧ Keeps [.jobs, .net] s t)) ∧
  (∀ (s : State) (n a : Nat) (j : Job) (cause index origin : Nat), BarrierAt s n a (.urgent cause index origin) j →
    (j.verdict ≠ none ∨ j.held = true → Does (.urgentAbort n) s (Dropped n s)) ∧
    (j.verdict = none → j.held = false → Does (.urgentAbort n) s fun t => Decided a j { commit := false, cause := cause, index := index, origin := origin, val := 0 } t ∧
      Keeps [.jobs, .net] s t ∧ OtherJobs a s t)) ∧
  (∀ (s : State) (n : Nat) (x : Msg) (k : Core), s.net[n]? = some x → s.core? x.src = some k →
    (x.kind = .doom → k.dead = false → k.asid = x.asid → k.open_ = true → Does (.doomNotice n) s fun t => Keeps [.cores, .modules, .net] s t ∧ OtherCores x.src s t ∧
      SameRegisters s t ∧ SameMemory s t ∧ (∃ y, t.core? x.src = some y ∧ y.phase = .voted ∧ y.stopped = true ∧ y.abort = k.abort ∧ (∀ i, (y.ctx i).wait = none) ∧
        ∀ i z q m n v, k.ctxs = [(i, z)] → z.wait = some (.ringPush q m (some (n, v))) ∨ z.wait = some (.push q m (some (n, v))) →
          sget (y.ctx i).lc n = v ∧ ∀ l, l ≠ n → sget (y.ctx i).lc l = sget z.lc l) ∧
      ∃ u, t.net = s.net.eraseIdx n ++ [coreMsg x.src k.asid u (.vote { index := k.index, abort := false, cause := 0, op := 0, val := 0 } k.ssn)]) ∧
    (∀ v, x.kind = .outcome v → Does (.outcomeArrival n) s fun t => t.net = s.net.eraseIdx n ∧ OtherCores x.src s t ∧ SameRegisters s t ∧ SameMemory s t ∧
      Keeps [.cores, .modules, .net] s t ∧ ∃ y, t.core? x.src = some y ∧
        (v.commit = true → y = { k with phase := .applying, outcome := true, result := v.val } ∧ t.modules = s.modules) ∧
        (v.commit = false → y.phase = .rolling ∧ y.outcome = false ∧ y.stopped = true ∧ ∀ i, (y.ctx i).wait = none))) ∧
  (∀ (s : State) (c : CoreId) (k : Core) (j : Job), s.core? c = some k → s.job? k.asid = some j →
    let turn := ∀ d ∈ j.places, ∀ x, s.core? d = some x → k.index ≤ x.index ∨ x.phase = .applied
    (k.phase ≠ .applying → k.writeOuts = [] ∨ k.phase ≠ .applied → exec (.commitApply c) s = .next s) ∧
    (k.phase = .applying → ¬ turn → exec (.commitApply c) s = .next s) ∧
    (k.phase = .applied → (∃ w ∈ k.writeOuts, tierOf w.pa = .hbm ∧ s.bankBusyOver (coreModule c) w.pa w.n (some c) = true) → c ∈ j.places →
      exec (.commitApply c) s = .next s) ∧
    (∀ w d, k.phase = .applied → k.writeOuts = [w] → tierOf w.pa = .hbm → s.bankBusyOver (coreModule c) w.pa w.n (some c) = false →
      s.tablesBusy (coreModule c) j.root w.va (some c) = false → s.module? (coreModule c) = some d →
      (∀ e ∈ j.places, ∀ x, s.core? e = some x → x.phase = .applied) → j.stage = .running → Does (.commitApply c) s fun t => t.core? c = some { k with writeOuts := [] } ∧
        OtherCores c s t ∧ ∃ d', t.module? (coreModule c) = some d' ∧ readMem d'.hbm w.pa w.n = w.val % 2 ^ (8 * w.n)) ∧
    (k.phase = .applying → turn → Does (.commitApply c) s fun t => (∃ y, t.core? c = some y ∧ y.phase = .applied ∧ y.deferred = [] ∧ y.snapshot = k.entryState k.result ∧
        y.snapshot.pc = (k.ctx 0).pc + 4 ∧ y.snapshot.ssn = k.ssn + 1) ∧ SameRegisters s t ∧
      (k.deferred = [] → SameMemory s t) ∧
      ∀ e e', k.deferred = [e] → s.forwarded k.asid e.dest.core = e.dest.core → s.core? e.dest.core = some e' → e'.asid = k.asid →
        (∀ n v, e.op = .write n v → StoresBytes s t k.asid e.dest n v) ∧
        (∀ o v, e.op = .delta o v → s.spillPoison k.asid e.dest o.width = none → StoresBytes s t k.asid e.dest o.width (o.apply (s.bytesAt k.asid e.dest o.width) v)))) ∧
  (∀ (s : State) (c : CoreId) (k : Core) (j : Job), s.core? c = some k → s.job? k.asid = some j →
    let all := ∀ d ∈ j.places, ∀ x, s.core? d = some x → x.phase = .rolling ∨ x.phase = .rolled
    (k.phase ≠ .rolling ∨ ¬ all → exec (.rollback c) s = .next s) ∧
    (k.phase = .rolling → all → k.dead = false → (s.patch c).fenced = false → Does (.rollback c) s fun t => Keeps [.cores, .jobs, .net] s t ∧ OtherCores c s t ∧ OtherJobs k.asid s t ∧
      t.net = s.net.filter (fun m => m.asid ≠ k.asid) ∧ ∃ y, t.core? c = some y ∧ y.phase = .rolled ∧ Clean y ∧ y.tcm.cur = k.tcm.base ∧
        y.ctxs = [(0, k.snapshot.ctx k.snapshot.ssentry .job)] ∧ y.ssn = k.snapshot.ssn ∧ y.ssentry = k.snapshot.ssentry ∧ y.mb = k.mb) ∧
    (k.phase = .rolling → all → k.dead = false → (s.patch c).fenced = false → Does (.rollback c) s fun t => ∃ y, t.job? k.asid = some y ∧ y.rounds = [] ∧
      y.staged = j.staged.map fun e => if e.index = k.index then { e with data := some e.source, reader := none } else e) ∧
    (∀ d die r, k.phase = .rolling → all → (s.patch c).fenced = true → s.module? (coreModule c) = some d → dget? d.dies (coreDie c % 4) = some die → dget? die.roles (quadIn c) = some r →
      (r = .patched ∨ r = .failed ∨ (∃ x, Earlier s c x) → Does (.rollback c) s fun t => t.patch c = { s.patch c with perm := true }) ∧
      (r ≠ .patched → r ≠ .failed → (∀ x, ¬ Earlier s c x) → Does (.rollback c) s fun t => t.patch c = { s.patch c with fenced := false, slot := 4 } ∧
        ∃ y, t.core? c = some y ∧ y.phase = .rolled ∧ y.dead = false))) ∧
  (∀ (s : State) (a : Nat) (j : Job), s.job? a = some j →
    (j.stage ≠ .running → exec (.superstepStart a) s = .next s) ∧
    (j.verdict = none → j.held = false ∨ j.paused = true ∨ j.parked ≠ none ∨ s.requestsDue a j = true ∨ s.yields j = true → exec (.superstepStart a) s = .next s) ∧
    (∀ v, j.verdict = some v → s.boundaryReached j = false ∨ s.requestsDue a j = true → exec (.superstepStart a) s = .next s) ∧
    (∀ v, j.stage = .running → j.verdict = some v → s.boundaryReached j = true → s.requestsDue a j = false → j.pending = [] → j.endCause = none → j.totalAborts < 15 → j.handler ≠ 0 →
      Does (.superstepStart a) s fun t => OtherJobs a s t ∧ (∀ m ∈ t.net, m.asid ≠ a) ∧
        (∃ y, t.job? a = some y ∧ y.held = true ∧ y.verdict = none ∧ y.lastAttempt = some v ∧ y.votes = [] ∧ y.proxies = [] ∧ y.episodes = [] ∧ y.rounds = [] ∧
          y.aborts = if v.commit then 0 else j.aborts + 1) ∧
        ∀ c ∈ j.places, ∀ k, s.core? c = some k → ∃ y, t.core? c = some y ∧ y.phase = .held ∧
          (v.commit = true → Clean y ∧ y.ctxs = [(0, k.snapshot.ctx k.snapshot.pc (k.ctx 0).level)] ∧ y.ssn = k.snapshot.ssn)) ∧
    (∀ v cause, j.verdict = some v → s.boundaryReached j = true → s.requestsDue a j = false → j.endCause = some cause → s.endBusy j = true →
      exec (.superstepStart a) s = .next s) ∧
    (∀ v d e, j.stage = .running → j.verdict = some v → s.boundaryReached j = true → s.requestsDue a j = false → j.endCause = none → j.totalAborts < 15 → j.handler ≠ 0 →
      s.endBusy j = false → s.module? j.home = some d → dget? d.slots (j.jsn % 65536) = some e → e.jsn = j.jsn → e.final = false →
      (∀ c ∈ j.quadMates, (s.pos c).readmit = false) →
      (∀ r, j.pending = [{ jsn := r, cancel := true }] → r ≠ j.jsn → Does (.superstepStart a) s (JobEnds a j 6 0 s)) ∧
      (∀ r, j.pending = [{ jsn := r, cancel := false }] → r ≠ j.jsn → j.paused = false → Does (.superstepStart a) s fun t =>
        ∃ y, t.job? a = some y ∧ y.held = true ∧ y.paused = v.commit ∧ y.pending = if v.commit then [] else j.pending)) ∧
    (∀ c k cause, j.verdict.isSome = true → c ∈ j.places → s.core? c = some k → k.dead = true → k.phase = .rolling → (s.patch c).fenced = false → j.endCause = some cause →
      cause ≠ 0x0F → j.removeAt = false → exec (.superstepStart a) s = .next s) ∧
    (j.stage = .running → j.verdict = none → j.held = true → j.paused = false → j.parked = none → s.requestsDue a j = false → s.yields j = false → j.staged = [] →
      (∀ c ∈ j.places, (s.patch c).fenced = false) → s.noRounds j = true → (s.endBusy j = true → exec (.superstepStart a) s = .next s) ∧
      (∀ d e, s.endBusy j = false → j.pending = [] → s.module? j.home = some d → dget? d.slots (j.jsn % 65536) = some e → e.jsn = j.jsn → e.final = false →
        Does (.superstepStart a) s (JobEnds a j 5 0x0E s))) ∧
    (j.stage = .running → j.verdict = none → j.held = true → j.paused = false → j.parked = none → s.requestsDue a j = false → s.yields j = false → j.staged = [] →
      s.noRounds j = false → (∀ c ∈ j.places, (s.patch c).fenced = false) → (∀ c ∈ j.places, ∀ k, s.core? c = some k → k.repeatCause = none ∧ k.stagedPoison = []) →
      Does (.superstepStart a) s fun t => OtherJobs a s t ∧ SameRegisters s t ∧ SameMemory s t ∧ t.net = s.net ∧
        (∃ y, t.job? a = some y ∧ y.held = false ∧ y.removeAt = false ∧ y.patchedAt = [] ∧ y.wdFrom = some s.clock ∧
          ∀ n, n ∈ y.gateways ↔ n ∈ j.modules ∧ ∃ d, s.module? n = some d ∧ d.mangleFailed = true) ∧
        ∀ c ∈ j.places, ∀ k, s.core? c = some k → ∃ y, t.core? c = some y ∧ y.phase = .run ∧ y.stopped = false ∧ y.ctxs = k.ctxs ∧
          ((∀ v, j.lastAttempt = some v → v.commit = true) → y.sscause = 0) ∧
          ∀ v, j.lastAttempt = some v → v.commit = false →
            y.sscause = BitVec.ofNat 64 (min 255 j.aborts * 2 ^ 48 + v.index * 2 ^ 24 + v.origin * 2 ^ 9 + 2 ^ 8 + v.cause))) ∧
  (∀ (s : State) (a : Nat) (j : Job) (d : Module) (e : Entry), s.job? a = some j →
    (j.stage ≠ .retiring → exec (.retirement a) s = .next s) ∧
    (j.stage = .retiring → (∀ c ∈ j.places, ∀ k, s.core? c = some k → k.writeOuts = []) → s.writing j = false → j.endCause = none → j.pending = [] →
      s.endBusy j = false → (∀ m ∈ j.modules, s.lostFrame m j.root = false) → s.module? j.home = some d → dget? d.slots (j.jsn % 65536) = some e → e.jsn = j.jsn → e.final = false →
      Does (.retirement a) s fun t => t.job? a = none ∧ OtherJobs a s t ∧ (∀ x ∈ t.cores, x.2.asid ≠ a) ∧ (∀ m ∈ t.net, m.asid ≠ a) ∧
        t.entry? j.home j.jsn = some { e with ssn := s.ssnOf j, state := 4, cause := 0 } ∧
        ∃ d', t.module? j.home = some d' ∧ ({ status := 16, cause := 0, jsn := j.jsn, qseq := e.qseq } : Completion) ∈ (d'.queue e.queue).pending))

-- heartbeats, accusations, fences

/-- `t` is the number of the heartbeat period in which core `c` stands: multiples of PERIOD, at least 256, since its module's reset (R343, R344). -/
def BeatIs (s : State) (c : CoreId) (t : Nat) : Prop :=
  ∃ d, s.module? (coreModule c) = some d ∧ t = (s.clock - d.resetClock) / max 256 ((s.pos c).hbperiod.toNat % 2 ^ 16)
/-- Enough distinct present neighbours of a position: three of four, two of three, two of two (R345). -/
def Enough (s : State) (suspect : CoreId) (l : List CoreId) : Prop :=
  let n := (l.filter fun c => (s.present suspect).contains c).dedup.length
  ((s.present suspect).length = 4 ∧ 3 ≤ n) ∨ ((s.present suspect).length = 3 ∧ 2 ≤ n) ∨ ((s.present suspect).length = 2 ∧ 2 ≤ n)
/-- The neighbour in direction `i` gives `c` nothing to hold against it: absent, or fenced, or heard and not babbling; and it does not appeal. -/
def QuietSide (s : State) (c : CoreId) (i : Nat) : Prop :=
  ∀ d, neighbour c i = some d → (s.pos d).appealing = false ∧ ((s.patch d).fenced = true ∨ ((s.pos c).heard.contains i = true ∧ (s.pos c).babble i = false))
/-- Direction `i` of `c` has heard no more headers in the period than HDR admits, whatever number of other messages the link has carried (R18, R344). -/
def Calm (s : State) (c : CoreId) (i : Nat) : Prop :=
  dgetD (s.pos c).headers i 0 + (s.tickets - (s.pos c).seen) ≤ 4 * ((s.pos c).hbperiod.toNat / 2 ^ 24 % 256)
/-- Heartbeats go to the present neighbours once a period; one that arrives is heard, for the period after a check that is due, one with a bad CRC is counted. At a multiple of
PERIOD a silent direction counts a miss; at MISS misses, or for a babbling neighbour, the neighbour is accused towards its other neighbours for four periods. Enough distinct
accusers fence it, and its neighbours' misses begin anew: its core stops, ordered adds that wait at it are returned, and a proxy vote with LINK is sent unless the attempt is decided. A self-test appeals or makes
the fence permanent; an appeal is judged from the period of its first heartbeat on, and rejected on a miss, the third time for good; enough acceptances readmit the position on
probation, and lapse (R281, R301, R333, R343 to R348). The model's: an appeal is judged from the period of its first heartbeat on, and rejected at the first miss, and the
headers of other traffic are free (DESIGN CHOICE, log 19); whether the message that a fenced core injected last is cut is free (DESIGN CHOICE, log 54). -/
def Obligations.Fencing : Prop :=
  (∀ (s : State) (c : CoreId) (t : Nat), BeatIs s c t →
    (t = (s.pos c).lastBeat → exec (.heartbeatSend c) s = .next s) ∧
    (t ≠ (s.pos c).lastBeat → Does (.heartbeatSend c) s fun u => u.pos c =
        { s.pos c with lastBeat := t, firstBeat := if (s.pos c).appealing = true then some ((s.pos c).firstBeat.getD t) else none } ∧ OtherPositions c s u ∧ Keeps [.positions, .net] s u ∧
      (s.beats c = false → u.net = s.net) ∧
      (s.beats c = true → ∃ l, u.net = s.net ++ l ∧ l.map (fun m => (m.src, m.kind)) = (s.present c).map fun d => (c, MsgKind.heartbeat d)))) ∧
  (∀ (s : State) (n : Nat) (x : Msg) (d : CoreId) (i : Nat) (good : Bool), s.net[n]? = some x → x.kind = .heartbeat d → directionOf d x.src = some i →
    (∀ t, BeatIs s d t → t ≠ (s.pos d).lastCheck → Does (.heartbeatArrival n good) s fun u => (u.pos d).lastCheck = t ∧ dgetD (u.pos d).headers i 0 = 1 ∧
      (good = true → (u.pos d).heard = [i] ∧ (u.pos d).crcs = []) ∧ (good = false → (u.pos d).heard = [] ∧ dgetD (u.pos d).crcs i 0 = 1)) ∧
    (BeatIs s d (s.pos d).lastCheck → Does (.heartbeatArrival n good) s fun u => u.net = s.net.eraseIdx n ∧ OtherPositions d s u ∧ Keeps [.positions, .net] s u ∧
      dgetD (u.pos d).headers i 0 = dgetD (s.pos d).headers i 0 + 1 ∧ (good = true → i ∈ (u.pos d).heard ∧ (u.pos d).crcs = (s.pos d).crcs) ∧
      (good = false → (u.pos d).heard = (s.pos d).heard ∧ dgetD (u.pos d).crcs i 0 = dgetD (s.pos d).crcs i 0 + 1))) ∧
  (∀ (s : State) (c : CoreId) (dir : Nat), Does (.flitCrcFailure c dir) s fun u => PosTo c s u fun p q =>
    dgetD q.crcs dir 0 = dgetD p.crcs dir 0 + 1 ∧ { q with crcs := p.crcs } = p) ∧
  (∀ (s : State) (c : CoreId) (t : Nat), BeatIs s c t →
    (t = (s.pos c).lastCheck → exec (.missCheck c) s = .next s) ∧
    (t ≠ (s.pos c).lastCheck →
      (s.beats c = false ∨ (s.patch c).fenced = true → Does (.missCheck c) s
        (PosIs c { s.pos c with heard := [], crcs := [], headers := [], lastCheck := t, seen := s.tickets - s.net.length } s)) ∧
      (∀ i d, s.beats c = true → (s.patch c).fenced = false → i < 4 → neighbour c i = some d → (s.patch d).fenced = false → (s.pos d).appealing = false →
        (∀ h, h < 4 → h ≠ i → QuietSide s c h ∧ Calm s c h) →
        let n := if (s.pos c).heard.contains i then 0 else dgetD (s.pos c).misses i 0 + 1
        let judged := max 1 ((s.pos c).hbperiod.toNat / 2 ^ 16 % 16) ≤ n ∨ (s.pos c).hbperiod.toNat / 2 ^ 20 % 16 < dgetD (s.pos c).crcs i 0 ∨
          4 * ((s.pos c).hbperiod.toNat / 2 ^ 24 % 256) < dgetD (s.pos c).headers i 0
        (¬ judged → Calm s c i → Does (.missCheck c) s fun u => PosTo c s u fun p q =>
          { q with misses := p.misses } = { p with heard := [], crcs := [], headers := [], lastCheck := t, seen := s.tickets - s.net.length } ∧ dgetD q.misses i 0 = n) ∧
        (judged → Does (.missCheck c) s fun u => dgetD (u.pos c).misses i 0 = (if (u.patch d).fenced = true then 0 else n) ∧ (u.pos c).heard = [] ∧ (u.pos c).lastCheck = t ∧
          (d, c, s.clock + 4 * max 256 ((s.pos c).hbperiod.toNat % 2 ^ 16)) ∈ (u.pos c).accused ∧ Keeps [.cores, .jobs, .modules, .positions, .net] s u ∧
          ∀ y ∈ s.present d, y ≠ c → ∃ m ∈ u.net, m.src = c ∧ m.kind = .accuse y d)) ∧
      (∀ i d, s.beats c = true → (s.patch c).fenced = false → i < 4 → neighbour c i = some d → (s.patch d).fenced = true → (s.pos d).appealing = true →
        (∀ h, h < 4 → h ≠ i → QuietSide s c h ∧ Calm s c h) → Calm s c i →
        ((∀ b, (s.pos d).firstBeat = some b → t ≤ b) → Does (.missCheck c) s fun u => PosTo c s u fun p q =>
          { q with misses := p.misses } = { p with heard := [], crcs := [], headers := [], lastCheck := t, seen := s.tickets - s.net.length }) ∧
        (∀ b, (s.pos d).firstBeat = some b → b < t → (s.pos c).heard.contains i = false → Does (.missCheck c) s fun u =>
          (u.pos d).appealing = false ∧ (u.pos d).rejections = (s.pos d).rejections + 1 ∧
          ((s.pos d).rejections + 1 < 3 → u.patch d = s.patch d) ∧ (3 ≤ (s.pos d).rejections + 1 → u.patch d = { s.patch d with perm := true }))))) ∧
  (∀ (s : State) (n : Nat) (x : Msg) (d suspect : CoreId), s.net[n]? = some x → x.kind = .accuse d suspect →
    let l := (suspect, x.src, s.clock + 4 * max 256 ((s.pos d).hbperiod.toNat % 2 ^ 16)) :: (s.pos d).accused.filter fun a => a.1 ≠ suspect || a.2.1 ≠ x.src
    let votes := (l.filter fun a => a.1 = suspect && decide (s.clock < a.2.2)).map fun a => a.2.1
    Does (.accusation n) s fun u => (u.pos d).accused = l ∧ (∀ c, c ≠ d → c ≠ suspect → { u.pos c with misses := (s.pos c).misses } = s.pos c) ∧ Keeps [.cores, .jobs, .modules, .positions, .net] s u ∧
      (¬ Enough s suspect votes ∨ d ∉ s.present suspect ∨ (s.patch suspect).fenced = true → u.net = s.net.eraseIdx n ∧ Keeps [.positions, .net] s u ∧ OtherPositions d s u) ∧
      (∀ k m j, Enough s suspect votes → d ∈ s.present suspect → (s.patch suspect).fenced = false → s.core? suspect = some k → s.module? (coreModule suspect) = some m →
        s.job? k.asid = some j →
        u.patch suspect = { s.patch suspect with fenced := true, perm := (s.patch suspect).perm || (s.pos suspect).probation != 0 } ∧
        (d ≠ suspect → u.pos suspect = { s.pos suspect with fencedAt := s.tickets }) ∧
        (∀ c i, i < 4 → neighbour suspect i = some c → ∀ h, dgetD (u.pos c).misses h 0 = if h = (i + 2) % 4 then 0 else dgetD (s.pos c).misses h 0) ∧
        (∀ c, c ≠ suspect → u.patch c = s.patch c) ∧ u.core? suspect = some { k with dead := true } ∧ OtherCores suspect s u ∧
        (∀ g ∈ j.groups, g.dest.core = suspect → ∀ r ∈ g.members ++ g.held, ∃ z ∈ u.net, z.src = r.core ∧ z.ctx = r.ctx ∧ ∃ a, z.kind = .returned true a) ∧
        ((∀ g ∈ j.groups, g.dest.core ≠ suspect) → (∀ z ∈ s.net, dget? s.lastSent suspect ≠ some z) → ∃ v, u.net = s.net.eraseIdx n ++
          if j.verdict.isNone && !j.held then [coreMsg suspect k.asid v (.further { index := k.index, abort := true, cause := 0x0E, op := 0, val := 0 })] else [])) ∧
      (Enough s suspect votes → d ∈ s.present suspect → (s.patch suspect).fenced = false → s.core? suspect = none → (u.patch suspect).fenced = true ∧
        (u.net = s.net.eraseIdx n ∨ ∃ i z, dget? s.lastSent suspect = some z ∧ (s.net.eraseIdx n)[i]? = some z ∧ u.net = (s.net.eraseIdx n).eraseIdx i))) ∧
  (∀ (s : State) (c : CoreId), Does (.accusationExpiry c) s (PosIs c { s.pos c with accused := (s.pos c).accused.filter fun a => s.clock < a.2.2 } s)) ∧
  (∀ (s : State) (c : CoreId) (pass : Bool),
    ((s.patch c).perm = true ∨ ((s.patch c).fenced = false ∧ (s.patch c).slot ≠ 4) → exec (.selfTest c pass) s = .next s) ∧
    ((s.patch c).perm = false → (s.patch c).fenced = true ∨ (s.patch c).slot = 4 →
      (pass = true → Does (.selfTest c pass) s (PosIs c { s.pos c with appealing := true, firstBeat := none } s)) ∧
      (∀ m, pass = false → s.module? (coreModule c) = some m → m.events.length < 256 → Does (.selfTest c pass) s fun u => Keeps [.modules] s u ∧
        u.patch c = { s.patch c with perm := true } ∧ (∀ d, d ≠ c → u.patch d = s.patch d) ∧ ∃ m', u.module? (coreModule c) = some m' ∧
          m'.events = m.events ++ [(BitVec.ofNat 64 (3 * 2 ^ 56 + coreDie c % 4 * 2 ^ 40 + coreRow c * 2 ^ 36 + coreCol c * 2 ^ 32), 0)]))) ∧
  ∀ (s : State) (n : Nat) (x : Msg) (d suspect : CoreId), s.net[n]? = some x → x.kind = .accept d suspect → d ≠ suspect →
    let l := (suspect, x.src) :: (s.pos d).accepted.filter (· ≠ (suspect, x.src))
    let votes := (l.filter fun a => a.1 = suspect).map Prod.snd
    Does (.acceptance n) s fun u => u.net = s.net.eraseIdx n ∧ Keeps [.cores, .modules, .positions, .net] s u ∧
      (¬ Enough s suspect votes ∨ (s.patch suspect).perm = true → (u.pos d).accepted = l ∧ Keeps [.positions, .net] s u ∧ OtherPositions d s u) ∧
      (Enough s suspect votes → (s.patch suspect).perm = false → s.quadQuiet (coreQuad suspect) = false → (u.pos d).accepted = l ∧ (u.pos suspect).readmit = true ∧
        Keeps [.positions, .net] s u) ∧
      (∀ m, Enough s suspect votes → (s.patch suspect).perm = false → s.quadQuiet (coreQuad suspect) = true → s.module? (coreModule suspect) = some m →
        u.patch suspect = { fenced := false, perm := false, slot := coreSlot suspect } ∧ (u.pos suspect).probation = 16 ∧ (u.pos suspect).appealing = false ∧
        (u.pos suspect).readmit = false ∧ (∀ k, s.core? suspect = some k → u.core? suspect = some { k with dead := false }) ∧ OtherCores suspect s u ∧
        ∀ y i, i < 4 → neighbour suspect i = some y → ∀ a ∈ (u.pos y).accepted, a.1 ≠ suspect)

-- collectives

/-- What a fire message brings to a round (R309, R311). -/
def arrivalOf (k : Core) (x : Msg) (entry : Nat) (vs : List (List (Nat × Nat))) : RoundArrival :=
  { index := k.index, core := x.src, ctx := x.ctx, uid := x.cmd.getD 0, seq := x.seq, entry := entry, values := vs }
/-- The firing of an arrival runs at the head of q3 of its core. -/
def FiringRuns (s : State) (a : RoundArrival) : Prop :=
  ∃ k m, s.core? a.core = some k ∧ (k.queue 3).head? = some m ∧ m.firing ≠ none ∧ m.uid = a.uid ∧ ∀ x ∈ (k.queue 3).drop 1, x.uid ≠ a.uid
/-- It has done its work with a cause and flags. -/
def FiringEnds (s t : State) (a : RoundArrival) (cause : Nat) (flags : BitVec 7) : Prop :=
  ∃ k m k', s.core? a.core = some k ∧ (k.queue 3).head? = some m ∧ t.core? a.core = some k' ∧ k'.queue 3 = m.perform cause 0 flags 0 :: (k.queue 3).drop 1
/-- The core whose firing has joined a round, its `NXRED` values no longer pending (R309). -/
def FiringJoined (c : CoreId) (k : Core) (a : RoundArrival) (s t : State) : Prop :=
  OtherCores c s t ∧ t.core? c = some { k with nxPending := k.nxPending.filter fun p => p.firing ≠ some a.uid }
/-- A firing that reaches its module opens or joins the round of its tile, or is held for the next one; with fields that differ it faults ILLEGAL, and it waits while another
tile's round holds a slot. A round whose contributors have all arrived is delivered: each receiver has the combined value at DEST and, with the last module's delivery, every
firing completes with its flags. Partial records and results travel to and from the module that completes it; a gateway round takes its blocks one by one, as long as the attempt is not decided (R315); a mangle that
fails votes to abort with LINK, and so it does on an arrival in the same attempt, in which its rounds go no further and deliver nothing (R309 to R317). The model's: the module that completes
a round of several modules is the job's root module, or the first with a contributor, and every other sends it its partial record at once (DEDUCED, log 32); the vote on an
arrival (DESIGN CHOICE, log 82). -/
def Obligations.Collectives : Prop :=
  (∀ (s : State) (n : Nat) (x : Msg) (tile e patch : Nat) (vs : List (List (Nat × Nat))) (j : Job) (k : Core), s.net[n]? = some x → x.kind = .fire tile e patch vs →
    s.job? x.asid = some j → s.core? x.src = some k →
    let a := arrivalOf k x e vs
    let m := coreModule x.src
    (∀ r, j.rounds.find? (fun r => r.tile == tile) = some r → entryKey r.entry ≠ entryKey e → FiringRuns s a → Does (.mangleArrival n) s fun t =>
      FiringEnds s t a 1 0 ∧ t.net = s.net.eraseIdx n ∧ Keeps [.cores, .net] s t ∧ OtherCores x.src s t) ∧
    ((∀ r ∈ j.rounds, r.tile ≠ tile) → j.byGateway e m = false → (∃ d, s.module? m = some d ∧ d.mangleFailed = true) →
      (∀ r ∈ j.rounds, tlSlot e + tlVals e ≤ tlSlot r.entry ∨ tlSlot r.entry + tlVals r.entry ≤ tlSlot e) → ∀ i, j.lowestOn m = some i → Does (.mangleArrival n) s fun t =>
        (∃ u, t.net = s.net.eraseIdx n ++ [hubMsg m x.asid u (.further { index := i, abort := true, cause := 0x0E, op := 0, val := 0 })]) ∧ FiringJoined x.src k a s t ∧
        ∃ y r, t.job? x.asid = some y ∧ y.rounds = r :: j.rounds ∧ r.tile = tile ∧ r.arrivals = [a] ∧ r.sent = [] ∧ r.delivered = []) ∧
    ((∀ r ∈ j.rounds, r.tile ≠ tile) → s.mangleDown j e m = false →
      ((∃ r ∈ j.rounds, tlSlot r.entry < tlSlot e + tlVals e ∧ tlSlot e < tlSlot r.entry + tlVals r.entry) → exec (.mangleArrival n) s = .next s) ∧
      ((∀ r ∈ j.rounds, tlSlot e + tlVals e ≤ tlSlot r.entry ∨ tlSlot r.entry + tlVals r.entry ≤ tlSlot e) → (∃ c ∈ j.contributorsOn e m, c ≠ x.src) → Does (.mangleArrival n) s fun t =>
        t.net = s.net.eraseIdx n ∧ Keeps [.cores, .jobs, .net] s t ∧ OtherJobs x.asid s t ∧ FiringJoined x.src k a s t ∧
          ∃ y r, t.job? x.asid = some y ∧ y.rounds = r :: j.rounds ∧ r.tile = tile ∧ r.entry = e ∧ r.arrivals = [a] ∧ r.held = [] ∧ r.partials = [])) ∧
    (∀ r, j.rounds.find? (fun r => r.tile == tile) = some r → entryKey r.entry = entryKey e → s.mangleDown j e m = false → (∃ b ∈ r.arrivals, b.index = a.index) → j.localFull r m = false →
      Does (.mangleArrival n) s fun t => t.net = s.net.eraseIdx n ∧ Keeps [.jobs, .net] s t ∧ OtherJobs x.asid s t ∧ ∃ y, t.job? x.asid = some y ∧
        { r with held := r.held ++ [a] } ∈ y.rounds ∧ ∀ q ∈ j.rounds, q.tile ≠ tile → q ∈ y.rounds) ∧
    (∀ r, j.rounds.find? (fun r => r.tile == tile) = some r → entryKey r.entry = entryKey e → s.mangleDown j e m = false → (∀ b ∈ r.arrivals, b.index ≠ a.index) → a ∉ r.held →
      ((∃ c ∈ j.contributorsOn r.entry m, c ≠ x.src ∧ ∀ b ∈ r.arrivals, b.core ≠ c) → Does (.mangleArrival n) s fun t => t.net = s.net.eraseIdx n ∧
        Keeps [.cores, .jobs, .net] s t ∧ OtherJobs x.asid s t ∧ FiringJoined x.src k a s t ∧ ∃ y, t.job? x.asid = some y ∧ { r with arrivals := r.arrivals ++ [a] } ∈ y.rounds ∧ ∀ q ∈ j.rounds, q.tile ≠ tile → q ∈ y.rounds) ∧
      (let q := { r with arrivals := r.arrivals ++ [a] };
       ((∀ c ∈ j.contributorsOn r.entry m, ∃ b ∈ q.arrivals, b.core = c) → m ≠ j.roundRoot r.entry → j.byGateway r.entry m = false → s.mangleDown j r.entry m = false →
        m ∉ r.delivered → m ∉ r.sent → Does (.mangleArrival n) s fun t => KeepsButCounts [.cores, .jobs, .net] (m * 1024) (j.roundRoot r.entry * 1024) s t ∧
          OtherJobs x.asid s t ∧ FiringJoined x.src k a s t ∧ ∃ u, t.net = s.net.eraseIdx n ++ [hubMsg m x.asid u (.partial_ tile m)]) ∧
       ((∀ c ∈ j.contributorsOn r.entry m, ∃ b ∈ q.arrivals, b.core = c) → j.tileModules r.entry = [m] → j.byGateway r.entry m = false → s.mangleDown j r.entry m = false → r.held = [] → r.delivered = [] →
        (∀ b ∈ q.arrivals, coreModule b.core = m ∧ FiringRuns s b ∧ tlHmEn b.entry = false ∧ (tlDest b.entry).toNat / 2 ^ 60 = 0) → (q.arrivals.map RoundArrival.core).Nodup →
        Does (.mangleArrival n) s fun t => (∃ y, t.job? x.asid = some y ∧ ∀ p, p ∈ y.rounds ↔ p ∈ j.rounds ∧ p.tile ≠ tile) ∧ ∃ fl : BitVec 7,
          let one := roundValue r.entry (q.arrivals.flatMap fun z => z.values.head?.getD [])
          (tlVals r.entry = 1 → fl = one.2) ∧ ∀ b ∈ q.arrivals, FiringEnds s t b 0 (if q.receives b = true then fl else 0) ∧
            (tlVals r.entry = 1 → q.receives b = true →
              t.bytesAt x.asid (localAt b.core (tlDest b.entry) 0) (codeBytes (tlOut b.entry)) = one.1 % 256 ^ codeBytes (tlOut b.entry)))))) ∧
  (∀ (s : State) (n : Nat) (x : Msg) (tile other : Nat) (j : Job) (r : Round), s.net[n]? = some x → x.kind = .partial_ tile other → s.job? x.asid = some j →
    j.rounds.find? (fun r => r.tile == tile) = some r → j.localFull r (j.roundRoot r.entry) = false → Does (.manglePartialArrival n) s fun t =>
      t.net = s.net.eraseIdx n ∧ Keeps [.jobs, .net] s t ∧ OtherJobs x.asid s t ∧ ∃ y, t.job? x.asid = some y ∧ { r with partials := other :: r.partials } ∈ y.rounds ∧
        ∀ q ∈ j.rounds, q.tile ≠ tile → q ∈ y.rounds) ∧
  (∀ (s : State) (n : Nat) (x : Msg) (tile m : Nat) (j : Job) (r : Round), s.net[n]? = some x → x.kind = .result tile m → s.job? x.asid = some j →
    j.rounds.find? (fun r => r.tile == tile) = some r →
    (s.mangleDown j r.entry m = true → Does (.mangleResultArrival n) s fun t => t.net = s.net.eraseIdx n ∧ Keeps [.net] s t) ∧
    (s.mangleDown j r.entry m = false → r.held = [] → (∀ b ∈ r.arrivals, FiringRuns s b) → (r.arrivals.map RoundArrival.core).Nodup →
      Does (.mangleResultArrival n) s fun t => t.net = s.net.eraseIdx n ∧
        ((∃ o ∈ j.tileModules r.entry, o ≠ m ∧ o ∉ r.delivered) → (∃ y, t.job? x.asid = some y ∧ { r with delivered := m :: r.delivered } ∈ y.rounds) ∧
          ∀ c, (t.core? c).map Core.q = (s.core? c).map Core.q) ∧
        ((∀ o ∈ j.tileModules r.entry, o = m ∨ o ∈ r.delivered) → (∃ y, t.job? x.asid = some y ∧ ∀ p ∈ y.rounds, p.tile ≠ tile) ∧
          ∃ fl, ∀ b ∈ r.arrivals, FiringEnds s t b 0 (if r.receives b = true then fl else 0)))) ∧
  (∀ (s : State) (m a tile : Nat) (j : Job) (r : Round), s.job? a = some j → j.rounds.find? (fun r => r.tile == tile) = some r →
    (j.verdict ≠ none ∨ j.byGateway r.entry m = false ∨ s.hasGateway m = false ∨ j.gathered r m = false ∨ m ∈ r.delivered ∨ (tlVals r.entry + 63) / 64 ≤ dgetD r.blocks m 0 →
      exec (.blockQueueHandout m a tile) s = .next s) ∧
    (j.verdict = none → j.byGateway r.entry m = true → s.hasGateway m = true → j.gathered r m = true → m ∉ r.delivered → dgetD r.blocks m 0 + 1 < (tlVals r.entry + 63) / 64 →
      Does (.blockQueueHandout m a tile) s fun t => JobTo a s t fun y z => { r with blocks := dset r.blocks m (dgetD r.blocks m 0 + 1) } ∈ z.rounds ∧
        ∀ q ∈ y.rounds, q.tile ≠ tile → q ∈ z.rounds)) ∧
  ∀ (s : State) (m : Nat) (d : Module), s.module? m = some d →
    (d.mangleFailed = true → exec (.mangleFailure m) s = .next s) ∧
    (d.mangleFailed = false → Does (.mangleFailure m) s fun t => t.module? m = some { d with mangleFailed := true } ∧ OtherModules m s t ∧ Keeps [.modules, .net] s t ∧
      ∀ a j i, s.job? a = some j → j.openOn m = true → j.lowestOn m = some i →
        ∃ u, hubMsg m a u (.further { index := i, abort := true, cause := 0x0E, op := 0, val := 0 }) ∈ t.net)

-- management, resets, power

/-- The management service of module `m` is busy with request `op` (R362). -/
def ServiceDue (s : State) (m op : Nat) (d : Module) : Prop := s.module? m = some d ∧ d.svcBusy = true ∧ d.svcop = op
/-- The module with its request ended by a code. -/
def ended (d : Module) (err : Nat) : Module := { d with svcErr := err, svcBusy := false, svcDone := true }
/-- No job with its home or a core on module `m` is left, no message of it in flight, and its positions are as out of reset. -/
def ModuleEmpty (m : Nat) (s t : State) : Prop :=
  (∀ a j, s.job? a = some j → j.home = m ∨ m ∈ j.modules → t.job? a = none ∧ ∀ x ∈ t.cores, x.2.asid ≠ a) ∧
    (∀ a j, s.job? a = some j → j.home ≠ m → m ∉ j.modules → t.job? a = some j) ∧ (∀ x ∈ t.net, coreModule x.src ≠ m) ∧ ∀ c, coreModule c = m → t.pos c = Pos.reset
/-- A reset or power loss keeps what its rule names (R366 to R371): these parts of the module. -/
def keptBy (d : Module) (hbm : Bool) (x : Module) : Prop :=
  x.hbm = (if hbm then d.hbm else []) ∧ x.poison = (if hbm then d.poison else []) ∧ x.flash = d.flash ∧ x.queues = [] ∧ x.slots = [] ∧ x.heldTab = [] ∧
    x.commands = [] ∧ x.requests = [] ∧ x.leases = [] ∧ x.releasing = [] ∧ x.jmen = false ∧ x.jmbase = 0 ∧ x.hostord = false ∧ x.msix = [] ∧ x.pba = [] ∧ x.msixOn = false ∧
    x.events = [] ∧ x.svcBusy = false ∧ x.attBusy = false ∧ x.attDone = false ∧ x.report = [] ∧ x.pwrlim = 0x0AF0 ∧ x.jhead = 1
/-- CODEWRITE puts its bytes into the code on every die of the job, POISONSET and POISONCLEAR change one page's bit, FWWRITE writes 4 KiB of a flash slot, FWCOMMIT answers
whether the slot would boot, EVENTREAD returns the oldest event, other codes end BADOP. An attestation composes its report over the nonce. A reset leaves the module at
its reset values but for what it keeps, and boots the first slot that passes; D3hot, once the write-backs meet no reserved bank, removes its jobs and its accepted launches (R125); the power window and the sensors throttle at
the limits; at 115 °C the module loses power, as in a power loss, which keeps flash (R362 to R371). The model's: the order of the errors of CODEWRITE (DEDUCED, log 26),
that the module throttles at exactly the limit (DEDUCED, log 28), that the jobs that D3hot removes have their frames written back, so that it waits for a reserved bank
(DEDUCED, log 13), and that a module that is reset or loses power takes the jobs of other homes with a core on it along, of
which R368 speaks for the resets only (DEDUCED, log 84). -/
def Obligations.Management : Prop :=
  (∀ (s : State) (m op : Nat) (d : Module) (e : Instr), s.module? m = some d → d.svcBusy = false ∨ d.svcop ≠ op →
    (op, e) ∈ [(1, Instr.codewrite m), (2, .poisonset m), (3, .poisonclear m), (4, .fwwrite m), (5, .fwcommit m), (6, .eventread m)] → exec e s = .next s) ∧
  (∀ (s : State) (m : Nat) (d : Module), ServiceDue s m 1 d →
    let asid := (sget d.svcarg 0).toNat % 2 ^ 14
    let off := (sget d.svcarg 1).toNat
    let n := (sget d.svcarg 2).toNat
    let bad := off % 4 ≠ 0 ∨ n % 4 ≠ 0 ∨ n < 4 ∨ 4096 < n
    (bad → Does (.codewrite m) s (ModuleIs m (ended d 2) s)) ∧
    (¬ bad → s.job? asid = none → Does (.codewrite m) s (ModuleIs m (ended d 3) s)) ∧
    (∀ j, ¬ bad → s.job? asid = some j →
      (j.rects = [] → Does (.codewrite m) s (ModuleIs m (ended d 3) s)) ∧
      (j.rects ≠ [] → j.allCode off n = false → Does (.codewrite m) s (ModuleIs m (ended d 2) s)) ∧
      (j.rects ≠ [] → j.allCode off n = true → Does (.codewrite m) s fun t => t.module? m = some (ended d 0) ∧ OtherModules m s t ∧ OtherJobs asid s t ∧
        Keeps [.jobs, .modules] s t ∧ (∀ r ∈ j.rects, ∀ i, i < n → t.byteAt asid { core := r.die * 256, space := .dss, off := off + i } = readByte d.svcbuf i) ∧
        ∀ a x, ¬ (a = asid ∧ x.space = .dss ∧ off ≤ x.off ∧ x.off < off + n) → t.byteAt a x = s.byteAt a x))) ∧
  (∀ (s : State) (m op : Nat) (d : Module) (e : Instr), ServiceDue s m op d → (op, e) ∈ [(2, Instr.poisonset m), (3, .poisonclear m)] →
    let pa := (sget d.svcarg 0).toNat
    (pa % 4096 ≠ 0 ∨ 0x7FC0000000 ≤ pa → Does e s (ModuleIs m (ended d 2) s)) ∧
    (pa % 4096 = 0 → pa < 0x7FC0000000 → Does e s fun t => ∃ d', ModuleIs m d' s t ∧ { d' with poison := d.poison } = ended d 0 ∧
      ∀ p, p ∈ d'.poison ↔ if p = pa / 4096 then op = 2 else p ∈ d.poison)) ∧
  (∀ (s : State) (m : Nat) (d : Module), ServiceDue s m 4 d →
    let slot := (sget d.svcarg 0).toNat % 2
    let off := (sget d.svcarg 1).toNat
    let bad := off % 4096 ≠ 0 ∨ 0x1000000 ≤ off ∨ (sget d.svcarg 2).toNat ≠ 4096
    (bad → Does (.fwwrite m) s (ModuleIs m (ended d 2) s)) ∧
    (¬ bad → Does (.fwwrite m) s fun t => ∃ d', ModuleIs m d' s t ∧ { d' with flash := d.flash } = ended d 0 ∧ (∀ i, i ≠ slot → d'.slot i = d.slot i) ∧
      ∀ k, readByte (d'.slot slot) k = if off ≤ k ∧ k < off + 4096 then readByte d.svcbuf (k - off) else readByte (d.slot slot) k)) ∧
  (∀ (s : State) (m : Nat) (d : Module), ServiceDue s m 5 d → Does (.fwcommit m) s (ModuleIs m (ended d
    (if 0x1000000 < (sget d.svcarg 1).toNat then 2 else if slotCode (d.slot ((sget d.svcarg 0).toNat % 2)) = 1 then 0 else 4)) s)) ∧
  (∀ (s : State) (m : Nat) (d : Module), ServiceDue s m 6 d →
    (d.events = [] → Does (.eventread m) s (ModuleIs m (ended d 5) s)) ∧
    (∀ w a l, d.events = (w, a) :: l → Does (.eventread m) s fun t => ∃ d', ModuleIs m d' s t ∧ sget d'.svcarg 0 = w ∧ sget d'.svcarg 1 = a ∧ d'.lost = 0 ∧ d'.svcErr = 0 ∧
      d'.svcDone = true ∧ d'.svcBusy = false ∧ d'.events = if d.lost = 0 then l else l ++ [(BitVec.ofNat 64 (5 * 2 ^ 56), BitVec.ofNat 64 d.lost)])) ∧
  (∀ (s : State) (m : Nat) (op : BitVec 8) (d : Module),
    ((1 ≤ op.toNat ∧ op.toNat ≤ 6) → exec (.badop m op) s = .next s) ∧
    (ServiceDue s m op.toNat d → ¬ (1 ≤ op.toNat ∧ op.toNat ≤ 6) → Does (.badop m op) s (ModuleIs m (ended d 1) s))) ∧
  (∀ (s : State) (m : Nat) (d : Module), s.module? m = some d →
    (d.attBusy = false ∨ d.ready = false → Does (.attestation m) s (ModuleIs m d s)) ∧
    (d.attBusy = true → d.ready = true → Does (.attestation m) s fun t => ∃ d', ModuleIs m d' s t ∧ d'.attBusy = false ∧ d'.attDone = true ∧
      readMem d'.report 0 4 = 0x52415451 ∧ readMem d'.report 12 4 = d.svn % 2 ^ 32 ∧ readMem d'.report 16 8 = 0x40201 ∧
      readMem d'.report 32 32 = sm3 (Config.configBytes d.hdm ((List.range 1024).map fun p => (s.pos (m * 1024 + p)).hbperiod.toNat) d.hostord (d.permPositions m)) % 2 ^ 256 ∧
      readMem d'.report 96 32 = sm3 (bytesAt d.running 0 (Config.imageSize d.running)) % 2 ^ 256 ∧ readMem d'.report 128 32 = readMem d.nonce 0 32)) ∧
  (∀ (s : State) (m : Nat) (d : Module) (cold : Bool) (e : Instr), s.module? m = some d → risingFrom 0 s.jobs = true → (cold, e) ∈ [(false, Instr.warmReset m), (true, .coldReset m)] → Does e s fun t =>
    ModuleEmpty m s t ∧ t.cxl = s.cxl ∧ t.cxlPoison = s.cxlPoison ∧ ∃ x, t.module? m = some x ∧ keptBy d (!cold) x ∧ x.power = .d0 ∧ x.resetClock = s.clock ∧ (x.ready = true ↔ x.bootCode = 1) ∧
      (x.bootCode = 1 → x.svn = Config.imageSvn x.running ∧ slotCode x.running = 1 ∧ x.running = if slotCode (d.slot 0) = 1 then d.slot 0 else d.slot 1) ∧
      (x.bootCode = 0x10 → slotCode (d.slot 0) = 0x10 ∧ slotCode (d.slot 1) = 0x10) ∧ readMem x.idcert 0 4 = (Config.idChain m).length % 2 ^ 32 ∧
      ∀ c, coreModule c = m → (s.patch c).perm = true → (t.patch c).fenced = true ∧ (t.patch c).perm = true ∧ c ∈ x.flashPerm) ∧
  (∀ (s : State) (m : Nat), (∃ e ∈ s.jobs, (e.2.home = m ∨ m ∈ e.2.modules) ∧ e.2.idle = true ∧ e.2.stage ≠ .retiring ∧ s.endBusy e.2 = true) →
    exec (.d3hotEntry m) s = .next s) ∧
  (∀ (s : State) (m : Nat) (d : Module), s.module? m = some d → risingFrom 0 s.jobs = true →
    (∀ e ∈ s.jobs, e.2.home = m ∨ m ∈ e.2.modules → e.2.idle = true → s.endBusy e.2 = false) → Does (.d3hotEntry m) s fun t =>
    (∃ x, t.module? m = some x ∧ x.power = .d3hot ∧ ∀ c ∈ x.commands, cmdKind c.bytes ≠ 1) ∧
    (∀ c e, d.commands = [c] → cmdKind c.bytes = 1 → s.entry? m c.jsn = some e → e.final = false → (∀ a j, s.job? a = some j → j.home ≠ m ∧ m ∉ j.modules) →
      ∃ f, t.entry? m c.jsn = some f ∧ f.state = 6) ∧
    ∀ a j, s.job? a = some j → (j.home = m ∨ m ∈ j.modules → j.stage = .running → j.held = false →
      (∃ y, t.job? a = some y ∧ y.removeAt = true ∧ y.pending = j.pending ++ [{ jsn := 0, cancel := true }]) ∧ ∃ x ∈ t.net, x.asid = a ∧ x.kind = .urgent 0 0 2) ∧
      (j.home = m ∨ m ∈ j.modules → j.stage = .waiting → t.job? a = none) ∧ (j.home ≠ m → m ∉ j.modules → t.job? a = some j)) ∧
  (∀ (s : State) (m w : Nat) (d : Module), s.module? m = some d →
    Does (.powerWindow m w) s (ModuleIs m { d with watts := w, throttled := decide (min 2800 (max 1200 d.pwrlim) ≤ w ∨ 105 < d.tjmax) } s) ∧
    (w < 115 → Does (.thermalThrottle m w) s (ModuleIs m { d with tjmax := w, throttled := decide (min 2800 (max 1200 d.pwrlim) ≤ d.watts ∨ 105 < w) } s))) ∧
  ∀ (s : State) (m : Nat) (d : Module) (e : Instr), s.module? m = some d → risingFrom 0 s.jobs = true →
    e = .powerLoss m ∨ e = .thermalShutdown m ∨ (∃ w, 115 ≤ w ∧ e = .thermalThrottle m w) → Does e s fun t =>
    ModuleEmpty m s t ∧ t.cxl = s.cxl ∧ t.cxlPoison = s.cxlPoison ∧ ∃ x, t.module? m = some x ∧ keptBy d false x ∧ x.power = .off ∧ x.ready = false ∧
      ∀ c, coreModule c = m → (s.patch c).perm = true → c ∈ x.flashPerm

-- the invariant

/-- Every step of the pod, from any state, keeps host memory in its canonical form: addresses strictly rising, no entry equal to what an unlisted address reads as (the
model's form of memory: log entry 2; host memory is written by R84, R303 and R306). -/
def Obligations.HostMemoryCanonical : Prop := ∀ s t, s.hostWf → step s = .next t → t.hostWf

-- statements in two parts

/-- The integer and multiply-divide instructions LUI, AUIPC, ADDI, SLTI, SLTIU, XORI, ORI, ANDI, SLLI, SRLI, SRAI, ADD, SUB, SLL, SLT, SLTU, XOR,
SRL, SRA, OR, AND, ADDIW, SLLIW, SRLIW, SRAIW, ADDW, SUBW, SLLW, SRLW, SRAW, MUL, MULH, MULHSU, MULHU, DIV, DIVU, REM, REMU, MULW, DIVW, DIVUW,
REMW and REMUW complete for all operands with the value of `integerResult` in rd, nothing in x0, and change nothing else but the pc and
`instret` (R127, R128, R131).
LUT3, FSHL, FSHR, POPC, CLZ, CTZ, PCNT and LCGET complete for all operands with the value of `bitResult` in rd and change nothing else: the
truth table bit by bit, the funnel shifts by x[rs3][5:0], the bit counts over 64 bits (R175, R180 to R182, R184). -/
def Obligations.IntegerAndBits : Prop := IntegerResultsRule ∧ BitResultsRule

/-- FMADD.S, FMSUB.S, FNMSUB.S, FNMADD.S, FADD.S, FSUB.S, FMUL.S, FDIV.S, FSQRT.S and the conversions FCVT.{W,WU,L,LU}.S and FCVT.S.{W,WU,L,LU} complete
with the exact result rounded once in the mode of the rm field, or of `frm` for rm = 7, their exceptions ORed into `fflags`; nothing else changes,
`qflags` included. A reserved mode traps ILLEGAL (R45, R128, R131).
FSGNJ.S, FSGNJN.S, FSGNJX.S, FMIN.S, FMAX.S, FEQ.S, FLT.S, FLE.S, FCLASS.S, FMV.X.W and FMV.W.X complete with the results of `fpExact`: the sign
operations on the pattern, quiet and signalling comparisons of the values, the other operand of a NaN for FMIN and FMAX; nothing else changes but
`fflags` (R45, R128). -/
def Obligations.FpResults : Prop := FpRoundedRule ∧ FpExactRule

/-- At job level TRAPRET, every service CSR and every firmware CSR trap PRIV and change nothing but what the trap changes; an instruction that
does no more than the write of `svact` or the read of `trread` does the same (R130, R177).
A CSR instruction checks its CSR in order: an address that is not allocated, and `ssentry` from a helper, trap ILLEGAL; too low a level traps
PRIV; a write to a read-only CSR traps ILLEGAL. The traps carry the instruction word and nothing has changed (R130, R136). -/
def Obligations.PrivilegeAndCsrTraps : Prop := PrivilegedTrapsRule ∧ CsrTrapsRule

/-- Every precise trap is one operation with the dispositions of R322: the handler entry of R325; the wait for it while another context of the
core is at service level or waits to enter (R326); an abort condition with the trap's cause where HANDLER is 0, the context is at service level or
the cause is POISON, whose class is Abort; at firmware level the firmware's own handler.
ECALL traps ECALL (0x12) and EBREAK traps EBREAK (0x13): both are precise, with `svepc` at the instruction and `svtval` 0; with no handler
they are abort conditions (R128, R322, R325). -/
def Obligations.Traps : Prop := TrapDispositionRule ∧ SoftwareTrapsRule

/-- FCVT.QT8.S, FCVT.QT16.S, FCVT.QT32.S, FCVT.S.QT8, FCVT.S.QT16 and FCVT.S.QT32 complete with the taper pattern of the value, sign-extended, or with the FP32 value of the
low bits, and OR their flags into `qflags`; `fcsr` and every other register are as before (R49 to R51, R56, R183).
Every QT8 pattern decodes exactly: rounding its value to FP32 sets no flag, and encoding that value gives the pattern back; zero and NaR have one pattern each
(R49 to R51). -/
def Obligations.TaperOps : Prop := TaperConversionsRule ∧ TaperExactRule

/-- Tracing (R355, R356): with EN clear, FROZEN set or the kind not enabled nothing is recorded; otherwise a taken branch, a predicate write or a memory
access adds one entry with cycle, context, kind, direction and payload in front of the newest of the 1,024. A record changes only the position's trace
and FROZEN.
TRIG completes; with EN and SWTRIG it records its value and triggers; with EN and TRAPEN it then traps TRIGGER at the next instruction with the
value, and without TRAPEN it changes no register and no memory (R178, R355, R356). -/
def Obligations.Trace : Prop := TraceRecordsRule ∧ TriggersRule

/-- ENQ, ENQP and the six MXI read their template, patch the OFFSETs, check it, take the ring index of a loop counter and advance it, stamp the pair code and
the scales, take a sequence number and enter the command at the end of its queue; with a full queue or ring they wait. No memory changes and no register but the
loop counter (R151, R176, R219, R220, R246, R330).
The checks of a push in their order, for any kind: a reserved KIND, a queue that does not take the kind, `MMA` or `MMAG` by ENQ or ENQP and another kind by
MXI, a nonzero PAIR by ENQ or ENQP, a reserved RING code and a reserved bit of the header trap ILLEGAL; then an ACCBASE and ring size above 8 traps GROUP; then a
HAMPER that is not a multiple of 16 traps ALIGN and one beyond TCM BOUNDS. MXI with rs3 = 31 traps GROUP. A push that traps changes nothing but
that the trace records the read of the template (R150, R151, R219, R356).
A command that waits for its ring entry enters as it stands once the entry is free and its queue has room, and not before (R151, R330). -/
def Obligations.Pushes : Prop := CommandPushesRule ∧ PushTrapsRule ∧ WaitingPushRule

/-- JAL and JALR write the address of the next instruction and go to their target; JALR adds its signed immediate to x[rs1], read before rd is
written, and clears bit 0. A bad target traps ALIGN, FORM or BOUNDS in this order and neither pc nor rd changes (R128, R132).
BEQ, BNE, BLT, BGE, BLTU and BGEU: taken, they go to the pc plus twice the signed immediate, which is checked as in R132; not taken, they
complete at the next instruction and check nothing. They write no register (R128, R132). -/
def Obligations.ControlFlow : Prop := JumpsRule ∧ BranchesRule

/-- A word with two low bits other than 11, the all-zero word among them, or with a major opcode that R137 marks ILLEGAL is no instruction; a
word that is no instruction traps ILLEGAL and `svtval` carries the word (R137, R325).
A fetch outside every CODE section of the job runs nothing: the context traps BOUNDS with `svtval` and `svepc` its pc (R132). -/
def Obligations.ReservedAndFetch : Prop := ReservedWordsTrapRule ∧ FetchOutsideCodeRule

/-- SB, SH, SW, SD and FSW to the own TCM or quad scratchpad by a local form: the low bytes of the register are stored at once at the address, every
other byte of memory and every register is as before (R10, R128, R239).
A base store to die shared SRAM or by a mesh form changes no memory in the superstep: it is added to the core's deferred writes, and by a mesh
form a check of membership travels to the position (R105, R239). -/
def Obligations.Stores : Prop := ImmediateStoresRule ∧ DeferredStoresRule

/-- VCMP.EQ, VCMP.LT and VCMP.LE: bit i of pd is 1 when element i is active and the relation holds for all its values, a NaN making it false, and every other bit
is 0; a write to p0 is discarded; no v register and no memory changes (R135, R192, R201).
PAND, POR, PXOR, PNOT, PMOV and PSET write the 64 bits of their predicate, nothing into p0, whatever the grant, and change nothing else (R135, R184). -/
def Obligations.VectorPredicates : Prop := VectorComparesRule ∧ PredicateOpsRule

/-- SPAWN starts the highest-numbered idle helper at x[rs1] with x[rs2] in x10, 0 in x11 and every other register 0, `frm` and the enables of context 0,
and puts its number into rd; with no idle helper it waits; in a helper it traps ILLEGAL; a bad start address traps FORM, ALIGN or BOUNDS. No memory and
no other context changes (R56, R131, R158, R160, R169).
HEXIT ends the issuing helper, once every access tied to its slots has performed; a task whose record names a join counter decrements the counter
by one, a counter at zero traps HAMPER and is left unchanged; in context 0 it traps ILLEGAL (R166, R170). Late traps of the helper that are in
flight become orphans, and nothing else of the messages and of another job changes (R163). -/
def Obligations.Helpers : Prop := SpawnRule ∧ HelperExitRule

/-- FENCE, FENCE.TSO (at core scope, whatever pred and succ hold), FENCE.S and FENCE.I wait while an earlier eager write of the context to a home in the
extent of the scope has not performed, and otherwise complete with no other effect, but that FENCE.I discards the quad's buffered words of the job;
FENCE.S with order acquire never waits (R128, R133, R298).
SBWAIT completes at once with no other effect when every access tied to the slot has performed, and else waits; SOLO, a FOLLOW of the quad's leader
and a FOLLOW whose pair the leader has executed complete and change no register and no memory, a FOLLOW without its leader's waits, and in a helper
both trap ILLEGAL (that a FOLLOW which the follower executes counts towards its next pairing is the model's choice, log entry 68; that neither has a
further effect is its reading, log entry 40); LCSET writes one loop counter of the context and nothing else; YIELD completes and passes over one turn (R134, R173 to R175, R179). -/
def Obligations.FencesAndControl : Prop := FencesRule ∧ QuietControlRule
end

