-- ==== Sys2Proof/Laws/Dict.lean ====
section
/-! SUPPORT. Laws of the sparse stores and of byte memories: read after write, writes elsewhere, and the canonical form that every
memory operation keeps. None of the read laws needs the canonical form. -/

namespace Sys2Proof.Laws

open Sys2Proof.Machine

variable {α : Type}

@[simp] theorem dget?_nil (k : Nat) : dget? ([] : Dict α) k = none := rfl

theorem dget?_dset_same (d : Dict α) (k : Nat) (a : α) : dget? (dset d k a) k = some a := by
  induction d with
  | nil => simp [dset, dget?]
  | cons e t ih =>
    obtain ⟨j, b⟩ := e
    simp only [dset]
    split_ifs with h1 h2 <;> simp [dget?, *]

theorem dget?_dset_ne (d : Dict α) {k e : Nat} (a : α) (h : e ≠ k) : dget? (dset d k a) e = dget? d e := by
  induction d with
  | nil => simp only [dset, dget?]; split_ifs <;> first | rfl | omega
  | cons c t ih =>
    obtain ⟨j, b⟩ := c
    simp only [dset]
    split_ifs with h1 h2
    · simp only [dget?]; split_ifs <;> first | rfl | omega
    · subst h2; simp only [dget?]; split_ifs <;> first | rfl | omega
    · simp only [dget?, ih]

theorem dget?_dset (d : Dict α) (k e : Nat) (a : α) : dget? (dset d k a) e = if e = k then some a else dget? d e := by
  split_ifs with h
  · exact h ▸ dget?_dset_same d k a
  · exact dget?_dset_ne d a h

theorem dget?_dmod (d : Dict α) (k e : Nat) (f : α → α) :
    dget? (dmod d k f) e = if e = k then (dget? d k).map f else dget? d e := by
  unfold dmod
  cases hk : dget? d k with
  | none => split_ifs with h <;> simp [h, hk]
  | some a => simp [dget?_dset]

theorem dget?_dmod_ne (d : Dict α) {k e : Nat} (f : α → α) (h : e ≠ k) : dget? (dmod d k f) e = dget? d e := by
  simp [dget?_dmod, h]

theorem dget?_dmod_same (d : Dict α) (k : Nat) (f : α → α) : dget? (dmod d k f) k = (dget? d k).map f := by
  simp [dget?_dmod]

theorem dget?_dmap (d : Dict α) (f : Nat → α → α) (k : Nat) : dget? (dmap d f) k = (dget? d k).map (f k) := by
  induction d with
  | nil => rfl
  | cons e t ih =>
    obtain ⟨j, b⟩ := e
    simp only [dmap, List.map_cons, dget?] at ih ⊢
    split_ifs with h1 h2
    · rfl
    · subst h2; rfl
    · exact ih

theorem dgetD_dset_same (d : Dict α) (k : Nat) (a z : α) : dgetD (dset d k a) k z = a := by
  simp [dgetD, dget?_dset_same]

theorem dgetD_dset_ne (d : Dict α) {k e : Nat} (a z : α) (h : e ≠ k) : dgetD (dset d k a) e z = dgetD d e z := by
  simp [dgetD, dget?_dset_ne _ _ h]

-- what a key above the first may be, and the reads of an erased store
theorem dget?_ddrop_le (d : Dict α) (k : Nat) : dget? (ddrop d k) k = none := by
  induction d with
  | nil => rfl
  | cons e t ih =>
    obtain ⟨j, b⟩ := e
    simp only [ddrop]
    split_ifs with h
    · exact ih
    · simp only [dget?]; split_ifs <;> first | rfl | omega

theorem dget?_ddrop_gt (d : Dict α) {k e : Nat} (h : k < e) : dget? (ddrop d k) e = dget? d e := by
  induction d with
  | nil => rfl
  | cons c t ih =>
    obtain ⟨j, b⟩ := c
    simp only [ddrop]
    split_ifs with h1
    · rw [ih]; simp only [dget?]; split_ifs <;> first | rfl | omega
    · rfl

theorem dget?_ddrop_lt (d : Dict α) {k e : Nat} (h : e < k) : dget? (ddrop d k) e = none := by
  induction d with
  | nil => rfl
  | cons c t ih =>
    obtain ⟨j, b⟩ := c
    simp only [ddrop]
    split_ifs with h1
    · exact ih
    · simp only [dget?]; split_ifs <;> first | rfl | omega

theorem dget?_derase_same (d : Dict α) (k : Nat) : dget? (derase d k) k = none := by
  induction d with
  | nil => rfl
  | cons e t ih =>
    obtain ⟨j, b⟩ := e
    simp only [derase]
    split_ifs with h1 h2
    · simp [dget?, h1]
    · exact dget?_ddrop_le t k
    · simp [dget?, h1, h2, ih]

theorem dget?_derase_ne (d : Dict α) {k e : Nat} (h : e ≠ k) : dget? (derase d k) e = dget? d e := by
  induction d with
  | nil => rfl
  | cons c t ih =>
    obtain ⟨j, b⟩ := c
    simp only [derase]
    split_ifs with h1 h2
    · rfl
    · subst h2
      rcases Nat.lt_or_gt_of_ne h with hl | hg
      · rw [dget?_ddrop_lt t hl]; simp [dget?, hl]
      · rw [dget?_ddrop_gt t hg]; simp [dget?, Nat.not_lt.mpr hg.le, h]
    · simp only [dget?, ih]

variable {w : Nat}

@[simp] theorem sget_nil (k : Nat) : sget ([] : Sparse w) k = 0 := rfl

@[simp] theorem sget_sset_same (d : Sparse w) (k : Nat) (v : BitVec w) : sget (sset d k v) k = v := by
  unfold sset sget dgetD
  split_ifs with h
  · simp [dget?_derase_same, h]
  · simp [dget?_dset_same]

theorem sget_sset_ne (d : Sparse w) {k e : Nat} (v : BitVec w) (h : e ≠ k) : sget (sset d k v) e = sget d e := by
  unfold sset sget dgetD
  split_ifs
  · simp [dget?_derase_ne _ h]
  · simp [dget?_dset_ne _ _ h]

theorem sget_sset (d : Sparse w) (k e : Nat) (v : BitVec w) : sget (sset d k v) e = if e = k then v else sget d e := by
  split_ifs with h
  · subst h; simp
  · exact sget_sset_ne d v h

-- read after write of bytes
@[simp] theorem readByte_writeByte_same (m : Memory) (a : Nat) (b : Byte) : readByte (writeByte m a b) a = b := sget_sset_same m a b

theorem readByte_writeByte_ne (m : Memory) {a e : Nat} (b : Byte) (h : e ≠ a) : readByte (writeByte m a b) e = readByte m e :=
  sget_sset_ne m b h

/-- A write leaves every byte outside its range as it was. -/
theorem readByte_writeMem_ne (n : Nat) : ∀ (m : Memory) (a v e : Nat), e < a ∨ a + n ≤ e → readByte (writeMem m a n v) e = readByte m e := by
  induction n with
  | zero => intro m a v e _; rfl
  | succ n ih =>
    intro m a v e h
    simp only [writeMem]
    rw [ih _ _ _ _ (by omega), readByte_writeByte_ne _ _ (by omega)]

theorem readMem_congr (n : Nat) : ∀ (m m' : Memory) (a : Nat), (∀ e, a ≤ e → e < a + n → readByte m e = readByte m' e) →
    readMem m a n = readMem m' a n := by
  induction n with
  | zero => intros; rfl
  | succ n ih =>
    intro m m' a h
    simp only [readMem]
    rw [h a (by omega) (by omega), ih m m' (a + 1) fun e h1 h2 => h e (by omega) (by omega)]

/-- A read beside a write is as before. -/
theorem readMem_writeMem_ne (n k : Nat) (m : Memory) (a v b : Nat) (h : b + k ≤ a ∨ a + n ≤ b) :
    readMem (writeMem m a n v) b k = readMem m b k :=
  readMem_congr k _ _ b fun e h1 h2 => readByte_writeMem_ne n m a v e (by omega)

/-- A read after a write to the same place gives what was written. -/
theorem readMem_writeMem_same (n : Nat) : ∀ (m : Memory) (a v : Nat), readMem (writeMem m a n v) a n = v % 2 ^ (8 * n) := by
  induction n with
  | zero => intro m a v; simp [readMem, Nat.mod_one]
  | succ n ih =>
    intro m a v
    simp only [readMem, writeMem]
    rw [readByte_writeMem_ne n _ _ _ a (by omega), ih]
    simp only [readByte_writeByte_same, BitVec.toNat_ofNat]
    have h : 2 ^ (8 * (n + 1)) = 2 ^ 8 * 2 ^ (8 * n) := by rw [← pow_add]; congr 1; ring
    rw [h, Nat.mod_mul]; norm_num

-- the canonical form
theorem risingFrom_mono {lo lo' : Nat} (h : lo' ≤ lo) : ∀ (d : Dict α), risingFrom lo d = true → risingFrom lo' d = true
  | [], _ => rfl
  | (j, _) :: t, hd => by
    simp only [risingFrom, Bool.and_eq_true, decide_eq_true_eq] at hd ⊢
    exact ⟨by omega, hd.2⟩

theorem risingFrom_dset (a : α) : ∀ (d : Dict α) (lo k : Nat), lo ≤ k → risingFrom lo d = true → risingFrom lo (dset d k a) = true
  | [], lo, k, h, _ => by simp [dset, risingFrom, h]
  | (j, b) :: t, lo, k, h, hd => by
    simp only [risingFrom, Bool.and_eq_true, decide_eq_true_eq] at hd
    simp only [dset]
    split_ifs with h1 h2
    · simp only [risingFrom, Bool.and_eq_true, decide_eq_true_eq]; exact ⟨h, by omega, hd.2⟩
    · subst h2; simp only [risingFrom, Bool.and_eq_true, decide_eq_true_eq]; exact ⟨h, hd.2⟩
    · simp only [risingFrom, Bool.and_eq_true, decide_eq_true_eq]; exact ⟨hd.1, risingFrom_dset a t (j + 1) k (by omega) hd.2⟩

theorem risingFrom_ddrop : ∀ (d : Dict α) (lo k : Nat), risingFrom lo d = true → risingFrom lo (ddrop d k) = true
  | [], _, _, _ => rfl
  | (j, b) :: t, lo, k, hd => by
    simp only [ddrop]
    split_ifs
    · simp only [risingFrom, Bool.and_eq_true, decide_eq_true_eq] at hd
      exact risingFrom_ddrop t lo k (risingFrom_mono (by omega) t hd.2)
    · exact hd

theorem risingFrom_derase : ∀ (d : Dict α) (lo k : Nat), risingFrom lo d = true → risingFrom lo (derase d k) = true
  | [], _, _, _ => rfl
  | (j, b) :: t, lo, k, hd => by
    have hd' := hd
    simp only [risingFrom, Bool.and_eq_true, decide_eq_true_eq] at hd
    simp only [derase]
    split_ifs
    · exact hd'
    · exact risingFrom_ddrop t lo k (risingFrom_mono (by omega) t hd.2)
    · simp only [risingFrom, Bool.and_eq_true, decide_eq_true_eq]; exact ⟨hd.1, risingFrom_derase t (j + 1) k hd.2⟩

theorem mem_dset {d : Dict α} {k : Nat} {a : α} {e : Nat × α} (h : e ∈ dset d k a) : e = (k, a) ∨ e ∈ d := by
  induction d with
  | nil => simpa [dset] using h
  | cons c t ih =>
    obtain ⟨j, b⟩ := c
    simp only [dset] at h
    split_ifs at h <;> simp only [List.mem_cons] at h ⊢ <;> tauto

theorem mem_ddrop {d : Dict α} {k : Nat} {e : Nat × α} (h : e ∈ ddrop d k) : e ∈ d := by
  induction d with
  | nil => simpa [ddrop] using h
  | cons c t ih =>
    simp only [ddrop] at h
    split_ifs at h <;> simp only [List.mem_cons] at h ⊢ <;> tauto

theorem mem_derase {d : Dict α} {k : Nat} {e : Nat × α} (h : e ∈ derase d k) : e ∈ d := by
  induction d with
  | nil => simpa [derase] using h
  | cons c t ih =>
    simp only [derase] at h
    split_ifs at h
    · exact h
    · exact List.mem_cons_of_mem _ (mem_ddrop h)
    · simp only [List.mem_cons] at h ⊢; tauto

theorem memWf_nil : memWf [] = true := rfl

theorem memWf_writeByte {m : Memory} (a : Nat) (b : Byte) (h : memWf m = true) : memWf (writeByte m a b) = true := by
  simp only [memWf, Bool.and_eq_true, List.all_eq_true] at h ⊢
  unfold writeByte sset
  split_ifs with hb
  · exact ⟨risingFrom_derase m 0 a h.1, fun e he => h.2 e (mem_derase he)⟩
  · refine ⟨risingFrom_dset b m 0 a (by omega) h.1, fun e he => ?_⟩
    rcases mem_dset he with rfl | he
    · simpa using hb
    · exact h.2 e he

theorem memWf_writeMem (n : Nat) : ∀ {m : Memory} (a v : Nat), memWf m = true → memWf (writeMem m a n v) = true := by
  induction n with
  | zero => intro m a v h; exact h
  | succ n ih => intro m a v h; exact ih _ _ (memWf_writeByte _ _ h)

theorem memWf_copyMem (src : Memory) (n : Nat) : ∀ (a : Nat) {m : Memory} (b : Nat), memWf m = true → memWf (copyMem src a m b n) = true := by
  induction n with
  | zero => intro a m b h; exact h
  | succ n ih => intro a m b h; exact ih _ _ (memWf_writeByte _ _ h)

theorem risingFrom_filter (p : Nat × α → Bool) : ∀ (d : Dict α) (lo : Nat), risingFrom lo d = true → risingFrom lo (d.filter p) = true
  | [], _, _ => rfl
  | (j, b) :: t, lo, hd => by
    simp only [risingFrom, Bool.and_eq_true, decide_eq_true_eq] at hd
    simp only [List.filter]
    split
    · simp only [risingFrom, Bool.and_eq_true, decide_eq_true_eq]; exact ⟨hd.1, risingFrom_filter p t (j + 1) hd.2⟩
    · exact risingFrom_filter p t lo (risingFrom_mono (by omega) t hd.2)

theorem memWf_clearMem {m : Memory} (lo len : Nat) (h : memWf m = true) : memWf (clearMem m lo len) = true := by
  simp only [memWf, Bool.and_eq_true, List.all_eq_true] at h ⊢
  exact ⟨risingFrom_filter _ m 0 h.1, fun e he => h.2 e (List.mem_of_mem_filter he)⟩

/-- Shifting the keys of a rising list of addresses from `lo` on down by `lo` keeps them rising. -/
theorem risingFrom_shift (lo : Nat) : ∀ (d : Dict α) (k : Nat), lo ≤ k → (∀ e ∈ d, lo ≤ e.1) → risingFrom k d = true →
    risingFrom (k - lo) (d.map fun e => (e.1 - lo, e.2)) = true
  | [], _, _, _, _ => rfl
  | (j, b) :: t, k, hk, hm, hd => by
    simp only [risingFrom, Bool.and_eq_true, decide_eq_true_eq, List.map_cons] at hd ⊢
    have hj : lo ≤ j := hm (j, b) (by simp)
    refine ⟨by omega, ?_⟩
    have := risingFrom_shift lo t (j + 1) (by omega) (fun e he => hm e (List.mem_cons_of_mem _ he)) hd.2
    rwa [show j - lo + 1 = j + 1 - lo by omega]

theorem risingFrom_raise (lo : Nat) : ∀ (d : Dict α), (∀ e ∈ d, lo ≤ e.1) → risingFrom 0 d = true → risingFrom lo d = true
  | [], _, _ => rfl
  | (j, b) :: t, hm, hd => by
    simp only [risingFrom, Bool.and_eq_true, decide_eq_true_eq] at hd ⊢
    exact ⟨hm (j, b) (by simp), hd.2⟩

theorem memWf_sliceMem {m : Memory} (lo len : Nat) (h : memWf m = true) : memWf (sliceMem m lo len) = true := by
  simp only [memWf, Bool.and_eq_true, List.all_eq_true] at h ⊢
  unfold sliceMem
  have hlo : ∀ e ∈ m.filter (fun e => lo ≤ e.1 && e.1 < lo + len), lo ≤ e.1 := by
    intro e he; simp only [List.mem_filter, Bool.and_eq_true, decide_eq_true_eq] at he; exact he.2.1
  constructor
  · have := risingFrom_shift lo _ lo (le_refl _) hlo (risingFrom_raise lo _ hlo (risingFrom_filter _ m 0 h.1))
    simpa using this
  · intro e he
    simp only [List.mem_map] at he
    obtain ⟨x, hx, rfl⟩ := he
    exact h.2 x (List.mem_of_mem_filter hx)

theorem memWf_layMem (src : Memory) (b : Nat) : ∀ {m : Memory}, memWf m = true → memWf (layMem src m b) = true := by
  unfold layMem
  induction src with
  | nil => intro m h; exact h
  | cons e t ih => intro m h; exact ih (memWf_writeByte _ _ h)

end Sys2Proof.Laws
end

