-- ==== Sys2Proof/Laws/State.lean ====
section
/-! SUPPORT. What each update of the state does to each field: one lemma per field per update, true by unfolding. -/

namespace Sys2Proof.Laws

open Sys2Proof.Machine

-- setCore
@[simp] theorem setCore_cur (s : State) (c : CoreId) (k : Core) : (s.setCore c k).cur = s.cur := rfl
@[simp] theorem setCore_ir (s : State) (c : CoreId) (k : Core) : (s.setCore c k).ir = s.ir := rfl
@[simp] theorem setCore_agenda (s : State) (c : CoreId) (k : Core) : (s.setCore c k).agenda = s.agenda := rfl
@[simp] theorem setCore_clock (s : State) (c : CoreId) (k : Core) : (s.setCore c k).clock = s.clock := rfl
@[simp] theorem setCore_ticks (s : State) (c : CoreId) (k : Core) : (s.setCore c k).ticks = s.ticks := rfl
@[simp] theorem setCore_free (s : State) (c : CoreId) (k : Core) : (s.setCore c k).free = s.free := rfl
@[simp] theorem setCore_tickets (s : State) (c : CoreId) (k : Core) : (s.setCore c k).tickets = s.tickets := rfl
@[simp] theorem setCore_modules (s : State) (c : CoreId) (k : Core) : (s.setCore c k).modules = s.modules := rfl
@[simp] theorem setCore_cores (s : State) (c : CoreId) (k : Core) : (s.setCore c k).cores = dset s.cores c k := rfl
@[simp] theorem setCore_positions (s : State) (c : CoreId) (k : Core) : (s.setCore c k).positions = s.positions := rfl
@[simp] theorem setCore_jobs (s : State) (c : CoreId) (k : Core) : (s.setCore c k).jobs = s.jobs := rfl
@[simp] theorem setCore_net (s : State) (c : CoreId) (k : Core) : (s.setCore c k).net = s.net := rfl
@[simp] theorem setCore_host (s : State) (c : CoreId) (k : Core) : (s.setCore c k).host = s.host := rfl
@[simp] theorem setCore_hostPoison (s : State) (c : CoreId) (k : Core) : (s.setCore c k).hostPoison = s.hostPoison := rfl
@[simp] theorem setCore_cxl (s : State) (c : CoreId) (k : Core) : (s.setCore c k).cxl = s.cxl := rfl
@[simp] theorem setCore_cxlPoison (s : State) (c : CoreId) (k : Core) : (s.setCore c k).cxlPoison = s.cxlPoison := rfl
@[simp] theorem setCore_replies (s : State) (c : CoreId) (k : Core) : (s.setCore c k).replies = s.replies := rfl

-- modCore
@[simp] theorem modCore_cur (s : State) (c : CoreId) (f : Core → Core) : (s.modCore c f).cur = s.cur := rfl
@[simp] theorem modCore_ir (s : State) (c : CoreId) (f : Core → Core) : (s.modCore c f).ir = s.ir := rfl
@[simp] theorem modCore_agenda (s : State) (c : CoreId) (f : Core → Core) : (s.modCore c f).agenda = s.agenda := rfl
@[simp] theorem modCore_clock (s : State) (c : CoreId) (f : Core → Core) : (s.modCore c f).clock = s.clock := rfl
@[simp] theorem modCore_ticks (s : State) (c : CoreId) (f : Core → Core) : (s.modCore c f).ticks = s.ticks := rfl
@[simp] theorem modCore_free (s : State) (c : CoreId) (f : Core → Core) : (s.modCore c f).free = s.free := rfl
@[simp] theorem modCore_tickets (s : State) (c : CoreId) (f : Core → Core) : (s.modCore c f).tickets = s.tickets := rfl
@[simp] theorem modCore_modules (s : State) (c : CoreId) (f : Core → Core) : (s.modCore c f).modules = s.modules := rfl
@[simp] theorem modCore_cores (s : State) (c : CoreId) (f : Core → Core) : (s.modCore c f).cores = dmod s.cores c f := rfl
@[simp] theorem modCore_positions (s : State) (c : CoreId) (f : Core → Core) : (s.modCore c f).positions = s.positions := rfl
@[simp] theorem modCore_jobs (s : State) (c : CoreId) (f : Core → Core) : (s.modCore c f).jobs = s.jobs := rfl
@[simp] theorem modCore_net (s : State) (c : CoreId) (f : Core → Core) : (s.modCore c f).net = s.net := rfl
@[simp] theorem modCore_host (s : State) (c : CoreId) (f : Core → Core) : (s.modCore c f).host = s.host := rfl
@[simp] theorem modCore_hostPoison (s : State) (c : CoreId) (f : Core → Core) : (s.modCore c f).hostPoison = s.hostPoison := rfl
@[simp] theorem modCore_cxl (s : State) (c : CoreId) (f : Core → Core) : (s.modCore c f).cxl = s.cxl := rfl
@[simp] theorem modCore_cxlPoison (s : State) (c : CoreId) (f : Core → Core) : (s.modCore c f).cxlPoison = s.cxlPoison := rfl
@[simp] theorem modCore_replies (s : State) (c : CoreId) (f : Core → Core) : (s.modCore c f).replies = s.replies := rfl

-- setCtx
@[simp] theorem setCtx_cur (s : State) (c : CoreId) (n : Nat) (x : Ctx) : (s.setCtx c n x).cur = s.cur := rfl
@[simp] theorem setCtx_ir (s : State) (c : CoreId) (n : Nat) (x : Ctx) : (s.setCtx c n x).ir = s.ir := rfl
@[simp] theorem setCtx_agenda (s : State) (c : CoreId) (n : Nat) (x : Ctx) : (s.setCtx c n x).agenda = s.agenda := rfl
@[simp] theorem setCtx_clock (s : State) (c : CoreId) (n : Nat) (x : Ctx) : (s.setCtx c n x).clock = s.clock := rfl
@[simp] theorem setCtx_ticks (s : State) (c : CoreId) (n : Nat) (x : Ctx) : (s.setCtx c n x).ticks = s.ticks := rfl
@[simp] theorem setCtx_free (s : State) (c : CoreId) (n : Nat) (x : Ctx) : (s.setCtx c n x).free = s.free := rfl
@[simp] theorem setCtx_tickets (s : State) (c : CoreId) (n : Nat) (x : Ctx) : (s.setCtx c n x).tickets = s.tickets := rfl
@[simp] theorem setCtx_modules (s : State) (c : CoreId) (n : Nat) (x : Ctx) : (s.setCtx c n x).modules = s.modules := rfl
@[simp] theorem setCtx_cores (s : State) (c : CoreId) (n : Nat) (x : Ctx) : (s.setCtx c n x).cores = dmod s.cores c fun k => k.setCtx n x := rfl
@[simp] theorem setCtx_positions (s : State) (c : CoreId) (n : Nat) (x : Ctx) : (s.setCtx c n x).positions = s.positions := rfl
@[simp] theorem setCtx_jobs (s : State) (c : CoreId) (n : Nat) (x : Ctx) : (s.setCtx c n x).jobs = s.jobs := rfl
@[simp] theorem setCtx_net (s : State) (c : CoreId) (n : Nat) (x : Ctx) : (s.setCtx c n x).net = s.net := rfl
@[simp] theorem setCtx_host (s : State) (c : CoreId) (n : Nat) (x : Ctx) : (s.setCtx c n x).host = s.host := rfl
@[simp] theorem setCtx_hostPoison (s : State) (c : CoreId) (n : Nat) (x : Ctx) : (s.setCtx c n x).hostPoison = s.hostPoison := rfl
@[simp] theorem setCtx_cxl (s : State) (c : CoreId) (n : Nat) (x : Ctx) : (s.setCtx c n x).cxl = s.cxl := rfl
@[simp] theorem setCtx_cxlPoison (s : State) (c : CoreId) (n : Nat) (x : Ctx) : (s.setCtx c n x).cxlPoison = s.cxlPoison := rfl
@[simp] theorem setCtx_replies (s : State) (c : CoreId) (n : Nat) (x : Ctx) : (s.setCtx c n x).replies = s.replies := rfl

-- modCtx
@[simp] theorem modCtx_cur (s : State) (c : CoreId) (n : Nat) (f : Ctx → Ctx) : (s.modCtx c n f).cur = s.cur := rfl
@[simp] theorem modCtx_ir (s : State) (c : CoreId) (n : Nat) (f : Ctx → Ctx) : (s.modCtx c n f).ir = s.ir := rfl
@[simp] theorem modCtx_agenda (s : State) (c : CoreId) (n : Nat) (f : Ctx → Ctx) : (s.modCtx c n f).agenda = s.agenda := rfl
@[simp] theorem modCtx_clock (s : State) (c : CoreId) (n : Nat) (f : Ctx → Ctx) : (s.modCtx c n f).clock = s.clock := rfl
@[simp] theorem modCtx_ticks (s : State) (c : CoreId) (n : Nat) (f : Ctx → Ctx) : (s.modCtx c n f).ticks = s.ticks := rfl
@[simp] theorem modCtx_free (s : State) (c : CoreId) (n : Nat) (f : Ctx → Ctx) : (s.modCtx c n f).free = s.free := rfl
@[simp] theorem modCtx_tickets (s : State) (c : CoreId) (n : Nat) (f : Ctx → Ctx) : (s.modCtx c n f).tickets = s.tickets := rfl
@[simp] theorem modCtx_modules (s : State) (c : CoreId) (n : Nat) (f : Ctx → Ctx) : (s.modCtx c n f).modules = s.modules := rfl
@[simp] theorem modCtx_cores (s : State) (c : CoreId) (n : Nat) (f : Ctx → Ctx) : (s.modCtx c n f).cores = dmod s.cores c fun k => k.modCtx n f := rfl
@[simp] theorem modCtx_positions (s : State) (c : CoreId) (n : Nat) (f : Ctx → Ctx) : (s.modCtx c n f).positions = s.positions := rfl
@[simp] theorem modCtx_jobs (s : State) (c : CoreId) (n : Nat) (f : Ctx → Ctx) : (s.modCtx c n f).jobs = s.jobs := rfl
@[simp] theorem modCtx_net (s : State) (c : CoreId) (n : Nat) (f : Ctx → Ctx) : (s.modCtx c n f).net = s.net := rfl
@[simp] theorem modCtx_host (s : State) (c : CoreId) (n : Nat) (f : Ctx → Ctx) : (s.modCtx c n f).host = s.host := rfl
@[simp] theorem modCtx_hostPoison (s : State) (c : CoreId) (n : Nat) (f : Ctx → Ctx) : (s.modCtx c n f).hostPoison = s.hostPoison := rfl
@[simp] theorem modCtx_cxl (s : State) (c : CoreId) (n : Nat) (f : Ctx → Ctx) : (s.modCtx c n f).cxl = s.cxl := rfl
@[simp] theorem modCtx_cxlPoison (s : State) (c : CoreId) (n : Nat) (f : Ctx → Ctx) : (s.modCtx c n f).cxlPoison = s.cxlPoison := rfl
@[simp] theorem modCtx_replies (s : State) (c : CoreId) (n : Nat) (f : Ctx → Ctx) : (s.modCtx c n f).replies = s.replies := rfl

-- setJob
@[simp] theorem setJob_cur (s : State) (a : Nat) (j : Job) : (s.setJob a j).cur = s.cur := rfl
@[simp] theorem setJob_ir (s : State) (a : Nat) (j : Job) : (s.setJob a j).ir = s.ir := rfl
@[simp] theorem setJob_agenda (s : State) (a : Nat) (j : Job) : (s.setJob a j).agenda = s.agenda := rfl
@[simp] theorem setJob_clock (s : State) (a : Nat) (j : Job) : (s.setJob a j).clock = s.clock := rfl
@[simp] theorem setJob_ticks (s : State) (a : Nat) (j : Job) : (s.setJob a j).ticks = s.ticks := rfl
@[simp] theorem setJob_free (s : State) (a : Nat) (j : Job) : (s.setJob a j).free = s.free := rfl
@[simp] theorem setJob_tickets (s : State) (a : Nat) (j : Job) : (s.setJob a j).tickets = s.tickets := rfl
@[simp] theorem setJob_modules (s : State) (a : Nat) (j : Job) : (s.setJob a j).modules = s.modules := rfl
@[simp] theorem setJob_cores (s : State) (a : Nat) (j : Job) : (s.setJob a j).cores = s.cores := rfl
@[simp] theorem setJob_positions (s : State) (a : Nat) (j : Job) : (s.setJob a j).positions = s.positions := rfl
@[simp] theorem setJob_jobs (s : State) (a : Nat) (j : Job) : (s.setJob a j).jobs = dset s.jobs a j := rfl
@[simp] theorem setJob_net (s : State) (a : Nat) (j : Job) : (s.setJob a j).net = s.net := rfl
@[simp] theorem setJob_host (s : State) (a : Nat) (j : Job) : (s.setJob a j).host = s.host := rfl
@[simp] theorem setJob_hostPoison (s : State) (a : Nat) (j : Job) : (s.setJob a j).hostPoison = s.hostPoison := rfl
@[simp] theorem setJob_cxl (s : State) (a : Nat) (j : Job) : (s.setJob a j).cxl = s.cxl := rfl
@[simp] theorem setJob_cxlPoison (s : State) (a : Nat) (j : Job) : (s.setJob a j).cxlPoison = s.cxlPoison := rfl
@[simp] theorem setJob_replies (s : State) (a : Nat) (j : Job) : (s.setJob a j).replies = s.replies := rfl

-- modJob
@[simp] theorem modJob_cur (s : State) (a : Nat) (f : Job → Job) : (s.modJob a f).cur = s.cur := rfl
@[simp] theorem modJob_ir (s : State) (a : Nat) (f : Job → Job) : (s.modJob a f).ir = s.ir := rfl
@[simp] theorem modJob_agenda (s : State) (a : Nat) (f : Job → Job) : (s.modJob a f).agenda = s.agenda := rfl
@[simp] theorem modJob_clock (s : State) (a : Nat) (f : Job → Job) : (s.modJob a f).clock = s.clock := rfl
@[simp] theorem modJob_ticks (s : State) (a : Nat) (f : Job → Job) : (s.modJob a f).ticks = s.ticks := rfl
@[simp] theorem modJob_free (s : State) (a : Nat) (f : Job → Job) : (s.modJob a f).free = s.free := rfl
@[simp] theorem modJob_tickets (s : State) (a : Nat) (f : Job → Job) : (s.modJob a f).tickets = s.tickets := rfl
@[simp] theorem modJob_modules (s : State) (a : Nat) (f : Job → Job) : (s.modJob a f).modules = s.modules := rfl
@[simp] theorem modJob_cores (s : State) (a : Nat) (f : Job → Job) : (s.modJob a f).cores = s.cores := rfl
@[simp] theorem modJob_positions (s : State) (a : Nat) (f : Job → Job) : (s.modJob a f).positions = s.positions := rfl
@[simp] theorem modJob_jobs (s : State) (a : Nat) (f : Job → Job) : (s.modJob a f).jobs = dmod s.jobs a f := rfl
@[simp] theorem modJob_net (s : State) (a : Nat) (f : Job → Job) : (s.modJob a f).net = s.net := rfl
@[simp] theorem modJob_host (s : State) (a : Nat) (f : Job → Job) : (s.modJob a f).host = s.host := rfl
@[simp] theorem modJob_hostPoison (s : State) (a : Nat) (f : Job → Job) : (s.modJob a f).hostPoison = s.hostPoison := rfl
@[simp] theorem modJob_cxl (s : State) (a : Nat) (f : Job → Job) : (s.modJob a f).cxl = s.cxl := rfl
@[simp] theorem modJob_cxlPoison (s : State) (a : Nat) (f : Job → Job) : (s.modJob a f).cxlPoison = s.cxlPoison := rfl
@[simp] theorem modJob_replies (s : State) (a : Nat) (f : Job → Job) : (s.modJob a f).replies = s.replies := rfl

-- modModule
@[simp] theorem modModule_cur (s : State) (m : Nat) (f : Module → Module) : (s.modModule m f).cur = s.cur := rfl
@[simp] theorem modModule_ir (s : State) (m : Nat) (f : Module → Module) : (s.modModule m f).ir = s.ir := rfl
@[simp] theorem modModule_agenda (s : State) (m : Nat) (f : Module → Module) : (s.modModule m f).agenda = s.agenda := rfl
@[simp] theorem modModule_clock (s : State) (m : Nat) (f : Module → Module) : (s.modModule m f).clock = s.clock := rfl
@[simp] theorem modModule_ticks (s : State) (m : Nat) (f : Module → Module) : (s.modModule m f).ticks = s.ticks := rfl
@[simp] theorem modModule_free (s : State) (m : Nat) (f : Module → Module) : (s.modModule m f).free = s.free := rfl
@[simp] theorem modModule_tickets (s : State) (m : Nat) (f : Module → Module) : (s.modModule m f).tickets = s.tickets := rfl
@[simp] theorem modModule_modules (s : State) (m : Nat) (f : Module → Module) : (s.modModule m f).modules = dmod s.modules m f := rfl
@[simp] theorem modModule_cores (s : State) (m : Nat) (f : Module → Module) : (s.modModule m f).cores = s.cores := rfl
@[simp] theorem modModule_positions (s : State) (m : Nat) (f : Module → Module) : (s.modModule m f).positions = s.positions := rfl
@[simp] theorem modModule_jobs (s : State) (m : Nat) (f : Module → Module) : (s.modModule m f).jobs = s.jobs := rfl
@[simp] theorem modModule_net (s : State) (m : Nat) (f : Module → Module) : (s.modModule m f).net = s.net := rfl
@[simp] theorem modModule_host (s : State) (m : Nat) (f : Module → Module) : (s.modModule m f).host = s.host := rfl
@[simp] theorem modModule_hostPoison (s : State) (m : Nat) (f : Module → Module) : (s.modModule m f).hostPoison = s.hostPoison := rfl
@[simp] theorem modModule_cxl (s : State) (m : Nat) (f : Module → Module) : (s.modModule m f).cxl = s.cxl := rfl
@[simp] theorem modModule_cxlPoison (s : State) (m : Nat) (f : Module → Module) : (s.modModule m f).cxlPoison = s.cxlPoison := rfl
@[simp] theorem modModule_replies (s : State) (m : Nat) (f : Module → Module) : (s.modModule m f).replies = s.replies := rfl

-- modDie
@[simp] theorem modDie_cur (s : State) (d : DieId) (f : Die → Die) : (s.modDie d f).cur = s.cur := rfl
@[simp] theorem modDie_ir (s : State) (d : DieId) (f : Die → Die) : (s.modDie d f).ir = s.ir := rfl
@[simp] theorem modDie_agenda (s : State) (d : DieId) (f : Die → Die) : (s.modDie d f).agenda = s.agenda := rfl
@[simp] theorem modDie_clock (s : State) (d : DieId) (f : Die → Die) : (s.modDie d f).clock = s.clock := rfl
@[simp] theorem modDie_ticks (s : State) (d : DieId) (f : Die → Die) : (s.modDie d f).ticks = s.ticks := rfl
@[simp] theorem modDie_free (s : State) (d : DieId) (f : Die → Die) : (s.modDie d f).free = s.free := rfl
@[simp] theorem modDie_tickets (s : State) (d : DieId) (f : Die → Die) : (s.modDie d f).tickets = s.tickets := rfl
@[simp] theorem modDie_modules (s : State) (d : DieId) (f : Die → Die) : (s.modDie d f).modules = dmod s.modules (dieModule d) fun m => m.modDie (d % 4) f := rfl
@[simp] theorem modDie_cores (s : State) (d : DieId) (f : Die → Die) : (s.modDie d f).cores = s.cores := rfl
@[simp] theorem modDie_positions (s : State) (d : DieId) (f : Die → Die) : (s.modDie d f).positions = s.positions := rfl
@[simp] theorem modDie_jobs (s : State) (d : DieId) (f : Die → Die) : (s.modDie d f).jobs = s.jobs := rfl
@[simp] theorem modDie_net (s : State) (d : DieId) (f : Die → Die) : (s.modDie d f).net = s.net := rfl
@[simp] theorem modDie_host (s : State) (d : DieId) (f : Die → Die) : (s.modDie d f).host = s.host := rfl
@[simp] theorem modDie_hostPoison (s : State) (d : DieId) (f : Die → Die) : (s.modDie d f).hostPoison = s.hostPoison := rfl
@[simp] theorem modDie_cxl (s : State) (d : DieId) (f : Die → Die) : (s.modDie d f).cxl = s.cxl := rfl
@[simp] theorem modDie_cxlPoison (s : State) (d : DieId) (f : Die → Die) : (s.modDie d f).cxlPoison = s.cxlPoison := rfl
@[simp] theorem modDie_replies (s : State) (d : DieId) (f : Die → Die) : (s.modDie d f).replies = s.replies := rfl

-- modQuad
@[simp] theorem modQuad_cur (s : State) (q : QuadId) (f : Quad → Quad) : (s.modQuad q f).cur = s.cur := rfl
@[simp] theorem modQuad_ir (s : State) (q : QuadId) (f : Quad → Quad) : (s.modQuad q f).ir = s.ir := rfl
@[simp] theorem modQuad_agenda (s : State) (q : QuadId) (f : Quad → Quad) : (s.modQuad q f).agenda = s.agenda := rfl
@[simp] theorem modQuad_clock (s : State) (q : QuadId) (f : Quad → Quad) : (s.modQuad q f).clock = s.clock := rfl
@[simp] theorem modQuad_ticks (s : State) (q : QuadId) (f : Quad → Quad) : (s.modQuad q f).ticks = s.ticks := rfl
@[simp] theorem modQuad_free (s : State) (q : QuadId) (f : Quad → Quad) : (s.modQuad q f).free = s.free := rfl
@[simp] theorem modQuad_tickets (s : State) (q : QuadId) (f : Quad → Quad) : (s.modQuad q f).tickets = s.tickets := rfl
@[simp] theorem modQuad_modules (s : State) (q : QuadId) (f : Quad → Quad) : (s.modQuad q f).modules = dmod s.modules (quadModule q) fun m => { m with quads := dset m.quads q (f (dgetD m.quads q Quad.reset)) } := rfl
@[simp] theorem modQuad_cores (s : State) (q : QuadId) (f : Quad → Quad) : (s.modQuad q f).cores = s.cores := rfl
@[simp] theorem modQuad_positions (s : State) (q : QuadId) (f : Quad → Quad) : (s.modQuad q f).positions = s.positions := rfl
@[simp] theorem modQuad_jobs (s : State) (q : QuadId) (f : Quad → Quad) : (s.modQuad q f).jobs = s.jobs := rfl
@[simp] theorem modQuad_net (s : State) (q : QuadId) (f : Quad → Quad) : (s.modQuad q f).net = s.net := rfl
@[simp] theorem modQuad_host (s : State) (q : QuadId) (f : Quad → Quad) : (s.modQuad q f).host = s.host := rfl
@[simp] theorem modQuad_hostPoison (s : State) (q : QuadId) (f : Quad → Quad) : (s.modQuad q f).hostPoison = s.hostPoison := rfl
@[simp] theorem modQuad_cxl (s : State) (q : QuadId) (f : Quad → Quad) : (s.modQuad q f).cxl = s.cxl := rfl
@[simp] theorem modQuad_cxlPoison (s : State) (q : QuadId) (f : Quad → Quad) : (s.modQuad q f).cxlPoison = s.cxlPoison := rfl
@[simp] theorem modQuad_replies (s : State) (q : QuadId) (f : Quad → Quad) : (s.modQuad q f).replies = s.replies := rfl

-- modPos
@[simp] theorem modPos_cur (s : State) (c : CoreId) (f : Pos → Pos) : (s.modPos c f).cur = s.cur := rfl
@[simp] theorem modPos_ir (s : State) (c : CoreId) (f : Pos → Pos) : (s.modPos c f).ir = s.ir := rfl
@[simp] theorem modPos_agenda (s : State) (c : CoreId) (f : Pos → Pos) : (s.modPos c f).agenda = s.agenda := rfl
@[simp] theorem modPos_clock (s : State) (c : CoreId) (f : Pos → Pos) : (s.modPos c f).clock = s.clock := rfl
@[simp] theorem modPos_ticks (s : State) (c : CoreId) (f : Pos → Pos) : (s.modPos c f).ticks = s.ticks := rfl
@[simp] theorem modPos_free (s : State) (c : CoreId) (f : Pos → Pos) : (s.modPos c f).free = s.free := rfl
@[simp] theorem modPos_tickets (s : State) (c : CoreId) (f : Pos → Pos) : (s.modPos c f).tickets = s.tickets := rfl
@[simp] theorem modPos_modules (s : State) (c : CoreId) (f : Pos → Pos) : (s.modPos c f).modules = s.modules := rfl
@[simp] theorem modPos_cores (s : State) (c : CoreId) (f : Pos → Pos) : (s.modPos c f).cores = s.cores := rfl
@[simp] theorem modPos_positions (s : State) (c : CoreId) (f : Pos → Pos) : (s.modPos c f).positions = dset s.positions c (f (s.pos c)) := rfl
@[simp] theorem modPos_jobs (s : State) (c : CoreId) (f : Pos → Pos) : (s.modPos c f).jobs = s.jobs := rfl
@[simp] theorem modPos_net (s : State) (c : CoreId) (f : Pos → Pos) : (s.modPos c f).net = s.net := rfl
@[simp] theorem modPos_host (s : State) (c : CoreId) (f : Pos → Pos) : (s.modPos c f).host = s.host := rfl
@[simp] theorem modPos_hostPoison (s : State) (c : CoreId) (f : Pos → Pos) : (s.modPos c f).hostPoison = s.hostPoison := rfl
@[simp] theorem modPos_cxl (s : State) (c : CoreId) (f : Pos → Pos) : (s.modPos c f).cxl = s.cxl := rfl
@[simp] theorem modPos_cxlPoison (s : State) (c : CoreId) (f : Pos → Pos) : (s.modPos c f).cxlPoison = s.cxlPoison := rfl
@[simp] theorem modPos_replies (s : State) (c : CoreId) (f : Pos → Pos) : (s.modPos c f).replies = s.replies := rfl

-- fresh
@[simp] theorem fresh_cur (s : State) : (s.fresh.2).cur = s.cur := rfl
@[simp] theorem fresh_ir (s : State) : (s.fresh.2).ir = s.ir := rfl
@[simp] theorem fresh_agenda (s : State) : (s.fresh.2).agenda = s.agenda := rfl
@[simp] theorem fresh_clock (s : State) : (s.fresh.2).clock = s.clock := rfl
@[simp] theorem fresh_ticks (s : State) : (s.fresh.2).ticks = s.ticks := rfl
@[simp] theorem fresh_free (s : State) : (s.fresh.2).free = s.free := rfl
@[simp] theorem fresh_tickets (s : State) : (s.fresh.2).tickets = s.tickets + 1 := rfl
@[simp] theorem fresh_modules (s : State) : (s.fresh.2).modules = s.modules := rfl
@[simp] theorem fresh_cores (s : State) : (s.fresh.2).cores = s.cores := rfl
@[simp] theorem fresh_positions (s : State) : (s.fresh.2).positions = s.positions := rfl
@[simp] theorem fresh_jobs (s : State) : (s.fresh.2).jobs = s.jobs := rfl
@[simp] theorem fresh_net (s : State) : (s.fresh.2).net = s.net := rfl
@[simp] theorem fresh_host (s : State) : (s.fresh.2).host = s.host := rfl
@[simp] theorem fresh_hostPoison (s : State) : (s.fresh.2).hostPoison = s.hostPoison := rfl
@[simp] theorem fresh_cxl (s : State) : (s.fresh.2).cxl = s.cxl := rfl
@[simp] theorem fresh_cxlPoison (s : State) : (s.fresh.2).cxlPoison = s.cxlPoison := rfl
@[simp] theorem fresh_replies (s : State) : (s.fresh.2).replies = s.replies := rfl

-- draw
@[simp] theorem draw_cur (s : State) : (s.draw.2).cur = s.cur := rfl
@[simp] theorem draw_ir (s : State) : (s.draw.2).ir = s.ir := rfl
@[simp] theorem draw_agenda (s : State) : (s.draw.2).agenda = s.agenda := rfl
@[simp] theorem draw_clock (s : State) : (s.draw.2).clock = s.clock := rfl
@[simp] theorem draw_ticks (s : State) : (s.draw.2).ticks = s.ticks := rfl
@[simp] theorem draw_free (s : State) : (s.draw.2).free = s.free + 1 := rfl
@[simp] theorem draw_tickets (s : State) : (s.draw.2).tickets = s.tickets := rfl
@[simp] theorem draw_modules (s : State) : (s.draw.2).modules = s.modules := rfl
@[simp] theorem draw_cores (s : State) : (s.draw.2).cores = s.cores := rfl
@[simp] theorem draw_positions (s : State) : (s.draw.2).positions = s.positions := rfl
@[simp] theorem draw_jobs (s : State) : (s.draw.2).jobs = s.jobs := rfl
@[simp] theorem draw_net (s : State) : (s.draw.2).net = s.net := rfl
@[simp] theorem draw_host (s : State) : (s.draw.2).host = s.host := rfl
@[simp] theorem draw_hostPoison (s : State) : (s.draw.2).hostPoison = s.hostPoison := rfl
@[simp] theorem draw_cxl (s : State) : (s.draw.2).cxl = s.cxl := rfl
@[simp] theorem draw_cxlPoison (s : State) : (s.draw.2).cxlPoison = s.cxlPoison := rfl
@[simp] theorem draw_replies (s : State) : (s.draw.2).replies = s.replies := rfl

-- drawBool
@[simp] theorem drawBool_cur (s : State) : (s.drawBool.2).cur = s.cur := rfl
@[simp] theorem drawBool_ir (s : State) : (s.drawBool.2).ir = s.ir := rfl
@[simp] theorem drawBool_agenda (s : State) : (s.drawBool.2).agenda = s.agenda := rfl
@[simp] theorem drawBool_clock (s : State) : (s.drawBool.2).clock = s.clock := rfl
@[simp] theorem drawBool_ticks (s : State) : (s.drawBool.2).ticks = s.ticks := rfl
@[simp] theorem drawBool_free (s : State) : (s.drawBool.2).free = s.free + 1 := rfl
@[simp] theorem drawBool_tickets (s : State) : (s.drawBool.2).tickets = s.tickets := rfl
@[simp] theorem drawBool_modules (s : State) : (s.drawBool.2).modules = s.modules := rfl
@[simp] theorem drawBool_cores (s : State) : (s.drawBool.2).cores = s.cores := rfl
@[simp] theorem drawBool_positions (s : State) : (s.drawBool.2).positions = s.positions := rfl
@[simp] theorem drawBool_jobs (s : State) : (s.drawBool.2).jobs = s.jobs := rfl
@[simp] theorem drawBool_net (s : State) : (s.drawBool.2).net = s.net := rfl
@[simp] theorem drawBool_host (s : State) : (s.drawBool.2).host = s.host := rfl
@[simp] theorem drawBool_hostPoison (s : State) : (s.drawBool.2).hostPoison = s.hostPoison := rfl
@[simp] theorem drawBool_cxl (s : State) : (s.drawBool.2).cxl = s.cxl := rfl
@[simp] theorem drawBool_cxlPoison (s : State) : (s.drawBool.2).cxlPoison = s.cxlPoison := rfl
@[simp] theorem drawBool_replies (s : State) : (s.drawBool.2).replies = s.replies := rfl

-- send
@[simp] theorem send_cur (s : State) (c : CoreId) (k a q : Nat) (m : Option Nat) (d : MsgKind) : ((s.send c k a q m d).2).cur = s.cur := rfl
@[simp] theorem send_ir (s : State) (c : CoreId) (k a q : Nat) (m : Option Nat) (d : MsgKind) : ((s.send c k a q m d).2).ir = s.ir := rfl
@[simp] theorem send_agenda (s : State) (c : CoreId) (k a q : Nat) (m : Option Nat) (d : MsgKind) : ((s.send c k a q m d).2).agenda = s.agenda := rfl
@[simp] theorem send_clock (s : State) (c : CoreId) (k a q : Nat) (m : Option Nat) (d : MsgKind) : ((s.send c k a q m d).2).clock = s.clock := rfl
@[simp] theorem send_ticks (s : State) (c : CoreId) (k a q : Nat) (m : Option Nat) (d : MsgKind) : ((s.send c k a q m d).2).ticks = s.ticks := rfl
@[simp] theorem send_free (s : State) (c : CoreId) (k a q : Nat) (m : Option Nat) (d : MsgKind) : ((s.send c k a q m d).2).free = s.free := rfl
@[simp] theorem send_tickets (s : State) (c : CoreId) (k a q : Nat) (m : Option Nat) (d : MsgKind) : ((s.send c k a q m d).2).tickets = s.tickets + 1 := rfl
@[simp] theorem send_modules (s : State) (c : CoreId) (k a q : Nat) (m : Option Nat) (d : MsgKind) : ((s.send c k a q m d).2).modules = s.modules := rfl
@[simp] theorem send_cores (s : State) (c : CoreId) (k a q : Nat) (m : Option Nat) (d : MsgKind) : ((s.send c k a q m d).2).cores = s.cores := rfl
@[simp] theorem send_positions (s : State) (c : CoreId) (k a q : Nat) (m : Option Nat) (d : MsgKind) : ((s.send c k a q m d).2).positions = s.positions := rfl
@[simp] theorem send_jobs (s : State) (c : CoreId) (k a q : Nat) (m : Option Nat) (d : MsgKind) : ((s.send c k a q m d).2).jobs = s.jobs := rfl
@[simp] theorem send_net (s : State) (c : CoreId) (k a q : Nat) (m : Option Nat) (d : MsgKind) : ((s.send c k a q m d).2).net = s.net ++ [{ src := c, ctx := k, asid := a, uid := s.tickets, seq := q, cmd := m, kind := d }] := rfl
@[simp] theorem send_host (s : State) (c : CoreId) (k a q : Nat) (m : Option Nat) (d : MsgKind) : ((s.send c k a q m d).2).host = s.host := rfl
@[simp] theorem send_hostPoison (s : State) (c : CoreId) (k a q : Nat) (m : Option Nat) (d : MsgKind) : ((s.send c k a q m d).2).hostPoison = s.hostPoison := rfl
@[simp] theorem send_cxl (s : State) (c : CoreId) (k a q : Nat) (m : Option Nat) (d : MsgKind) : ((s.send c k a q m d).2).cxl = s.cxl := rfl
@[simp] theorem send_cxlPoison (s : State) (c : CoreId) (k a q : Nat) (m : Option Nat) (d : MsgKind) : ((s.send c k a q m d).2).cxlPoison = s.cxlPoison := rfl
@[simp] theorem send_replies (s : State) (c : CoreId) (k a q : Nat) (m : Option Nat) (d : MsgKind) : ((s.send c k a q m d).2).replies = s.replies := rfl

-- post
@[simp] theorem post_cur (s : State) (c : CoreId) (a : Nat) (d : MsgKind) : (s.post c a d).cur = s.cur := rfl
@[simp] theorem post_ir (s : State) (c : CoreId) (a : Nat) (d : MsgKind) : (s.post c a d).ir = s.ir := rfl
@[simp] theorem post_agenda (s : State) (c : CoreId) (a : Nat) (d : MsgKind) : (s.post c a d).agenda = s.agenda := rfl
@[simp] theorem post_clock (s : State) (c : CoreId) (a : Nat) (d : MsgKind) : (s.post c a d).clock = s.clock := rfl
@[simp] theorem post_ticks (s : State) (c : CoreId) (a : Nat) (d : MsgKind) : (s.post c a d).ticks = s.ticks := rfl
@[simp] theorem post_free (s : State) (c : CoreId) (a : Nat) (d : MsgKind) : (s.post c a d).free = s.free := rfl
@[simp] theorem post_tickets (s : State) (c : CoreId) (a : Nat) (d : MsgKind) : (s.post c a d).tickets = s.tickets + 1 := rfl
@[simp] theorem post_modules (s : State) (c : CoreId) (a : Nat) (d : MsgKind) : (s.post c a d).modules = s.modules := rfl
@[simp] theorem post_cores (s : State) (c : CoreId) (a : Nat) (d : MsgKind) : (s.post c a d).cores = s.cores := rfl
@[simp] theorem post_positions (s : State) (c : CoreId) (a : Nat) (d : MsgKind) : (s.post c a d).positions = s.positions := rfl
@[simp] theorem post_jobs (s : State) (c : CoreId) (a : Nat) (d : MsgKind) : (s.post c a d).jobs = s.jobs := rfl
@[simp] theorem post_net (s : State) (c : CoreId) (a : Nat) (d : MsgKind) : (s.post c a d).net = s.net ++ [{ src := c, ctx := 0, asid := a, uid := s.tickets, seq := 0, cmd := none, kind := d }] := rfl
@[simp] theorem post_host (s : State) (c : CoreId) (a : Nat) (d : MsgKind) : (s.post c a d).host = s.host := rfl
@[simp] theorem post_hostPoison (s : State) (c : CoreId) (a : Nat) (d : MsgKind) : (s.post c a d).hostPoison = s.hostPoison := rfl
@[simp] theorem post_cxl (s : State) (c : CoreId) (a : Nat) (d : MsgKind) : (s.post c a d).cxl = s.cxl := rfl
@[simp] theorem post_cxlPoison (s : State) (c : CoreId) (a : Nat) (d : MsgKind) : (s.post c a d).cxlPoison = s.cxlPoison := rfl
@[simp] theorem post_replies (s : State) (c : CoreId) (a : Nat) (d : MsgKind) : (s.post c a d).replies = s.replies := rfl

-- postHub
@[simp] theorem postHub_cur (s : State) (m a : Nat) (d : MsgKind) : (s.postHub m a d).cur = s.cur := rfl
@[simp] theorem postHub_ir (s : State) (m a : Nat) (d : MsgKind) : (s.postHub m a d).ir = s.ir := rfl
@[simp] theorem postHub_agenda (s : State) (m a : Nat) (d : MsgKind) : (s.postHub m a d).agenda = s.agenda := rfl
@[simp] theorem postHub_clock (s : State) (m a : Nat) (d : MsgKind) : (s.postHub m a d).clock = s.clock := rfl
@[simp] theorem postHub_ticks (s : State) (m a : Nat) (d : MsgKind) : (s.postHub m a d).ticks = s.ticks := rfl
@[simp] theorem postHub_free (s : State) (m a : Nat) (d : MsgKind) : (s.postHub m a d).free = s.free := rfl
@[simp] theorem postHub_tickets (s : State) (m a : Nat) (d : MsgKind) : (s.postHub m a d).tickets = s.tickets + 1 := rfl
@[simp] theorem postHub_modules (s : State) (m a : Nat) (d : MsgKind) : (s.postHub m a d).modules = s.modules := rfl
@[simp] theorem postHub_cores (s : State) (m a : Nat) (d : MsgKind) : (s.postHub m a d).cores = s.cores := rfl
@[simp] theorem postHub_positions (s : State) (m a : Nat) (d : MsgKind) : (s.postHub m a d).positions = s.positions := rfl
@[simp] theorem postHub_jobs (s : State) (m a : Nat) (d : MsgKind) : (s.postHub m a d).jobs = s.jobs := rfl
@[simp] theorem postHub_net (s : State) (m a : Nat) (d : MsgKind) : (s.postHub m a d).net = s.net ++ [{ src := m * 1024, ctx := hubCtx, asid := a, uid := s.tickets, seq := 0, cmd := none, kind := d }] := rfl
@[simp] theorem postHub_host (s : State) (m a : Nat) (d : MsgKind) : (s.postHub m a d).host = s.host := rfl
@[simp] theorem postHub_hostPoison (s : State) (m a : Nat) (d : MsgKind) : (s.postHub m a d).hostPoison = s.hostPoison := rfl
@[simp] theorem postHub_cxl (s : State) (m a : Nat) (d : MsgKind) : (s.postHub m a d).cxl = s.cxl := rfl
@[simp] theorem postHub_cxlPoison (s : State) (m a : Nat) (d : MsgKind) : (s.postHub m a d).cxlPoison = s.cxlPoison := rfl
@[simp] theorem postHub_replies (s : State) (m a : Nat) (d : MsgKind) : (s.postHub m a d).replies = s.replies := rfl

-- dropMsg
@[simp] theorem dropMsg_cur (s : State) (n : Nat) : (s.dropMsg n).cur = s.cur := rfl
@[simp] theorem dropMsg_ir (s : State) (n : Nat) : (s.dropMsg n).ir = s.ir := rfl
@[simp] theorem dropMsg_agenda (s : State) (n : Nat) : (s.dropMsg n).agenda = s.agenda := rfl
@[simp] theorem dropMsg_clock (s : State) (n : Nat) : (s.dropMsg n).clock = s.clock := rfl
@[simp] theorem dropMsg_ticks (s : State) (n : Nat) : (s.dropMsg n).ticks = s.ticks := rfl
@[simp] theorem dropMsg_free (s : State) (n : Nat) : (s.dropMsg n).free = s.free := rfl
@[simp] theorem dropMsg_tickets (s : State) (n : Nat) : (s.dropMsg n).tickets = s.tickets := rfl
@[simp] theorem dropMsg_modules (s : State) (n : Nat) : (s.dropMsg n).modules = s.modules := rfl
@[simp] theorem dropMsg_cores (s : State) (n : Nat) : (s.dropMsg n).cores = s.cores := rfl
@[simp] theorem dropMsg_positions (s : State) (n : Nat) : (s.dropMsg n).positions = s.positions := rfl
@[simp] theorem dropMsg_jobs (s : State) (n : Nat) : (s.dropMsg n).jobs = s.jobs := rfl
@[simp] theorem dropMsg_net (s : State) (n : Nat) : (s.dropMsg n).net = s.net.eraseIdx n := rfl
@[simp] theorem dropMsg_host (s : State) (n : Nat) : (s.dropMsg n).host = s.host := rfl
@[simp] theorem dropMsg_hostPoison (s : State) (n : Nat) : (s.dropMsg n).hostPoison = s.hostPoison := rfl
@[simp] theorem dropMsg_cxl (s : State) (n : Nat) : (s.dropMsg n).cxl = s.cxl := rfl
@[simp] theorem dropMsg_cxlPoison (s : State) (n : Nat) : (s.dropMsg n).cxlPoison = s.cxlPoison := rfl
@[simp] theorem dropMsg_replies (s : State) (n : Nat) : (s.dropMsg n).replies = s.replies := rfl

-- block
@[simp] theorem block_cur (s : State) (c : CoreId) (k : Nat) (w : Wait) : (s.block c k w).cur = s.cur := rfl
@[simp] theorem block_ir (s : State) (c : CoreId) (k : Nat) (w : Wait) : (s.block c k w).ir = s.ir := rfl
@[simp] theorem block_agenda (s : State) (c : CoreId) (k : Nat) (w : Wait) : (s.block c k w).agenda = s.agenda := rfl
@[simp] theorem block_clock (s : State) (c : CoreId) (k : Nat) (w : Wait) : (s.block c k w).clock = s.clock := rfl
@[simp] theorem block_ticks (s : State) (c : CoreId) (k : Nat) (w : Wait) : (s.block c k w).ticks = s.ticks := rfl
@[simp] theorem block_free (s : State) (c : CoreId) (k : Nat) (w : Wait) : (s.block c k w).free = s.free := rfl
@[simp] theorem block_tickets (s : State) (c : CoreId) (k : Nat) (w : Wait) : (s.block c k w).tickets = s.tickets + 1 := rfl
@[simp] theorem block_modules (s : State) (c : CoreId) (k : Nat) (w : Wait) : (s.block c k w).modules = s.modules := rfl
@[simp] theorem block_cores (s : State) (c : CoreId) (k : Nat) (w : Wait) : (s.block c k w).cores = dmod s.cores c fun x => x.modCtx k fun y => { y with wait := some w, ticket := s.tickets } := rfl
@[simp] theorem block_positions (s : State) (c : CoreId) (k : Nat) (w : Wait) : (s.block c k w).positions = s.positions := rfl
@[simp] theorem block_jobs (s : State) (c : CoreId) (k : Nat) (w : Wait) : (s.block c k w).jobs = s.jobs := rfl
@[simp] theorem block_net (s : State) (c : CoreId) (k : Nat) (w : Wait) : (s.block c k w).net = s.net := rfl
@[simp] theorem block_host (s : State) (c : CoreId) (k : Nat) (w : Wait) : (s.block c k w).host = s.host := rfl
@[simp] theorem block_hostPoison (s : State) (c : CoreId) (k : Nat) (w : Wait) : (s.block c k w).hostPoison = s.hostPoison := rfl
@[simp] theorem block_cxl (s : State) (c : CoreId) (k : Nat) (w : Wait) : (s.block c k w).cxl = s.cxl := rfl
@[simp] theorem block_cxlPoison (s : State) (c : CoreId) (k : Nat) (w : Wait) : (s.block c k w).cxlPoison = s.cxlPoison := rfl
@[simp] theorem block_replies (s : State) (c : CoreId) (k : Nat) (w : Wait) : (s.block c k w).replies = s.replies := rfl

-- finish
@[simp] theorem finish_cur (s : State) (i : Issuer) (x : Ctx) : (s.finish i x).cur = s.cur := rfl
@[simp] theorem finish_ir (s : State) (i : Issuer) (x : Ctx) : (s.finish i x).ir = s.ir := rfl
@[simp] theorem finish_agenda (s : State) (i : Issuer) (x : Ctx) : (s.finish i x).agenda = s.agenda := rfl
@[simp] theorem finish_clock (s : State) (i : Issuer) (x : Ctx) : (s.finish i x).clock = s.clock := rfl
@[simp] theorem finish_ticks (s : State) (i : Issuer) (x : Ctx) : (s.finish i x).ticks = s.ticks := rfl
@[simp] theorem finish_free (s : State) (i : Issuer) (x : Ctx) : (s.finish i x).free = s.free := rfl
@[simp] theorem finish_tickets (s : State) (i : Issuer) (x : Ctx) : (s.finish i x).tickets = s.tickets := rfl
@[simp] theorem finish_modules (s : State) (i : Issuer) (x : Ctx) : (s.finish i x).modules = s.modules := rfl
@[simp] theorem finish_cores (s : State) (i : Issuer) (x : Ctx) : (s.finish i x).cores = dmod s.cores i.c fun k => k.setCtx i.k x.advance := rfl
@[simp] theorem finish_positions (s : State) (i : Issuer) (x : Ctx) : (s.finish i x).positions = s.positions := rfl
@[simp] theorem finish_jobs (s : State) (i : Issuer) (x : Ctx) : (s.finish i x).jobs = s.jobs := rfl
@[simp] theorem finish_net (s : State) (i : Issuer) (x : Ctx) : (s.finish i x).net = s.net := rfl
@[simp] theorem finish_host (s : State) (i : Issuer) (x : Ctx) : (s.finish i x).host = s.host := rfl
@[simp] theorem finish_hostPoison (s : State) (i : Issuer) (x : Ctx) : (s.finish i x).hostPoison = s.hostPoison := rfl
@[simp] theorem finish_cxl (s : State) (i : Issuer) (x : Ctx) : (s.finish i x).cxl = s.cxl := rfl
@[simp] theorem finish_cxlPoison (s : State) (i : Issuer) (x : Ctx) : (s.finish i x).cxlPoison = s.cxlPoison := rfl
@[simp] theorem finish_replies (s : State) (i : Issuer) (x : Ctx) : (s.finish i x).replies = s.replies := rfl

-- tick
@[simp] theorem tick_cur (s : State) (n : Nat) : (s.tick n).cur = s.cur := rfl
@[simp] theorem tick_ir (s : State) (n : Nat) : (s.tick n).ir = s.ir := rfl
@[simp] theorem tick_agenda (s : State) (n : Nat) : (s.tick n).agenda = s.agenda := rfl
@[simp] theorem tick_clock (s : State) (n : Nat) : (s.tick n).clock = s.clock + n + Config.elapsed s.ticks := rfl
@[simp] theorem tick_ticks (s : State) (n : Nat) : (s.tick n).ticks = s.ticks + 1 := rfl
@[simp] theorem tick_free (s : State) (n : Nat) : (s.tick n).free = s.free := rfl
@[simp] theorem tick_tickets (s : State) (n : Nat) : (s.tick n).tickets = s.tickets := rfl
@[simp] theorem tick_modules (s : State) (n : Nat) : (s.tick n).modules = s.modules := rfl
@[simp] theorem tick_cores (s : State) (n : Nat) : (s.tick n).cores = s.cores := rfl
@[simp] theorem tick_positions (s : State) (n : Nat) : (s.tick n).positions = s.positions := rfl
@[simp] theorem tick_jobs (s : State) (n : Nat) : (s.tick n).jobs = s.jobs := rfl
@[simp] theorem tick_net (s : State) (n : Nat) : (s.tick n).net = s.net := rfl
@[simp] theorem tick_host (s : State) (n : Nat) : (s.tick n).host = s.host := rfl
@[simp] theorem tick_hostPoison (s : State) (n : Nat) : (s.tick n).hostPoison = s.hostPoison := rfl
@[simp] theorem tick_cxl (s : State) (n : Nat) : (s.tick n).cxl = s.cxl := rfl
@[simp] theorem tick_cxlPoison (s : State) (n : Nat) : (s.tick n).cxlPoison = s.cxlPoison := rfl
@[simp] theorem tick_replies (s : State) (n : Nat) : (s.tick n).replies = s.replies := rfl

end Sys2Proof.Laws
end

