-- ==== Sys2Proof/Laws/Issue.lean ====
section
/-! SUPPORT. The issuing context: what `issuer?` says, what an instruction answers over it, and what completing one changes. -/

namespace Sys2Proof.Laws

open Sys2Proof.Machine

variable {s : State} {i : Issuer}

/-- With an issuing context, an instruction answers the next state that its meaning gives. -/
theorem issue_eq (h : s.issuer? = some i) (f : Issuer → State) : issue s f = .next (f i) := by simp [issue, h]

/-- Without one it faults, and that is the only fault. -/
theorem issue_none (h : s.issuer? = none) (f : Issuer → State) : issue s f = .fault .noIssuer := by simp [issue, h]

/-- What the issuing context is. -/
theorem issuer_spec (h : s.issuer? = some i) :
    s.cur = (i.c, i.k) ∧ s.core? i.c = some i.core ∧ s.job? i.core.asid = some i.job ∧ i.core.ctx i.k = i.ctx ∧ i.ctx.live = true := by
  unfold State.issuer? at h
  cases hc : s.core? s.cur.1 with
  | none => simp [hc] at h
  | some core =>
    cases hj : s.job? core.asid with
    | none => simp [hc, hj] at h
    | some job =>
      simp only [hc, hj] at h
      split_ifs at h with hl
      obtain rfl := (Option.some.inj h).symm
      exact ⟨rfl, hc, hj, rfl, hl⟩

theorem issuer_ctxOf (h : s.issuer? = some i) : s.ctxOf i.c i.k = i.ctx := by
  obtain ⟨-, hc, -, hx, -⟩ := issuer_spec h
  simp [State.ctxOf, hc, hx]

-- a context of a core
theorem ctx_setCtx_same (k : Core) (n : Nat) (x : Ctx) : (k.setCtx n x).ctx n = x := dgetD_dset_same _ _ _ _
theorem ctx_setCtx_ne (k : Core) {n m : Nat} (x : Ctx) (h : m ≠ n) : (k.setCtx n x).ctx m = k.ctx m := dgetD_dset_ne _ _ _ h
theorem core?_modCore_ne (s : State) {c d : CoreId} (f : Core → Core) (h : d ≠ c) : (s.modCore c f).core? d = s.core? d := dget?_dmod_ne _ _ h
theorem core?_modCore_same (s : State) (c : CoreId) (f : Core → Core) : (s.modCore c f).core? c = (s.core? c).map f := dget?_dmod_same _ _ _
theorem core?_setCore_ne (s : State) {c d : CoreId} (k : Core) (h : d ≠ c) : (s.setCore c k).core? d = s.core? d := dget?_dset_ne _ _ h
theorem core?_setCore_same (s : State) (c : CoreId) (k : Core) : (s.setCore c k).core? c = some k := dget?_dset_same _ _ _
theorem core?_setCtx_ne (s : State) {c d : CoreId} (n : Nat) (x : Ctx) (h : d ≠ c) : (s.setCtx c n x).core? d = s.core? d := dget?_dmod_ne _ _ h
theorem core?_setCtx_same (s : State) (c : CoreId) (n : Nat) (x : Ctx) : (s.setCtx c n x).core? c = (s.core? c).map fun k => k.setCtx n x :=
  dget?_dmod_same _ _ _

theorem ctxOf_setCtx_same {core : Core} (h : s.core? c = some core) (n : Nat) (x : Ctx) : (s.setCtx c n x).ctxOf c n = x := by
  simp [State.ctxOf, core?_setCtx_same, h, ctx_setCtx_same]

/-- Completing an instruction puts the issuing context past it and changes nothing else. -/
theorem finish_ctxOf (h : s.issuer? = some i) (x : Ctx) : (s.finish i x).ctxOf i.c i.k = x.advance :=
  ctxOf_setCtx_same (issuer_spec h).2.1 i.k x.advance

theorem finish_onlyCtx (h : s.issuer? = some i) (x : Ctx) : OnlyCtx i.c i.k s (s.finish i x) where
  outside := { jobs := rfl, modules := rfl, positions := rfl, net := rfl, host := rfl, hostPoison := rfl, cxl := rfl, cxlPoison := rfl, replies := rfl }
  others := fun d hd => core?_setCtx_ne s i.k x.advance hd
  core := by rw [finish_ctxOf h]; exact core?_setCtx_same s i.c i.k x.advance

-- registers
@[simp] theorem getX_zero (k : Ctx) : k.getX 0 = 0 := rfl
theorem getX_setX (k : Ctx) (r q : R5) (v : Word) : (k.setX r v).getX q = if q = r then (if r = 0 then 0 else v) else k.getX q := by
  unfold Ctx.setX Ctx.getX
  by_cases hr : r = 0
  · subst hr; by_cases hq : q = 0 <;> simp [hq]
    exact fun a => absurd a hq
  · by_cases hq : q = 0
    · subst hq; simp [hr, Ne.symm hr]
      exact fun a => absurd a.symm hr
    · simp only [hr, hq, if_false, sget_sset]
      by_cases hqr : q = r
      · simp [hqr]
      · have : q.toNat ≠ r.toNat := fun e => hqr (BitVec.eq_of_toNat_eq e)
        simp [hqr, this]
theorem getF_setF (k : Ctx) (r q : R5) (v : Half32) : (k.setF r v).getF q = if q = r then v else k.getF q := by
  unfold Ctx.setF Ctx.getF
  rw [sget_sset]
  by_cases h : q = r
  · simp [h]
  · have : q.toNat ≠ r.toNat := fun e => h (BitVec.eq_of_toNat_eq e)
    simp [h, this]
@[simp] theorem getP_zero (k : Ctx) : k.getP 0 = BitVec.allOnes 64 := rfl
theorem getP_setP (k : Ctx) (r q : R3) (v : Word) :
    (k.setP r v).getP q = if q = r then (if r = 0 then BitVec.allOnes 64 else v) else k.getP q := by
  unfold Ctx.setP Ctx.getP
  by_cases hr : r = 0
  · subst hr; by_cases hq : q = 0 <;> simp [hq]
    exact fun a => absurd a hq
  · by_cases hq : q = 0
    · subst hq; simp [hr, Ne.symm hr]
      exact fun a => absurd a.symm hr
    · simp only [hr, hq, if_false, sget_sset]
      by_cases hqr : q = r
      · simp [hqr]
      · have : q.toNat ≠ r.toNat := fun e => hqr (BitVec.eq_of_toNat_eq e)
        simp [hqr, this]
theorem getLc_setLc (k : Ctx) (n m : Nat) (v : Word) : (k.setLc n v).getLc m = if m = n then v else k.getLc m := sget_sset _ _ _ _

/-- What a write of an x register leaves of a context. -/
theorem setX_frame (k : Ctx) (rd : R5) (v : Word) : CtxFrame [.x rd] k (k.setX rd v).advance where
  x := fun r hr => by
    have h : r ≠ rd := by simpa using hr
    exact (getX_setX k rd r v).trans (if_neg h)
  f := fun _ _ => by simp only [Ctx.setX]; split_ifs <;> rfl
  p := fun _ _ => by simp only [Ctx.setX]; split_ifs <;> rfl
  v := fun _ => by simp only [Ctx.setX]; split_ifs <;> exact ⟨rfl, rfl⟩
  lc := fun _ _ => by simp only [Ctx.setX]; split_ifs <;> rfl
  fcsr := fun _ => by simp only [Ctx.setX]; split_ifs <;> rfl
  flags := fun _ => by simp only [Ctx.setX]; split_ifs <;> rfl
  enables := by simp only [Ctx.setX]; split_ifs <;> rfl
  life := by simp only [Ctx.setX]; split_ifs <;> rfl
  level := by simp only [Ctx.setX]; split_ifs <;> rfl
  marks := by simp only [Ctx.setX]; split_ifs <;> rfl
  late := by simp only [Ctx.setX]; split_ifs <;> rfl
  entry := by simp only [Ctx.setX]; split_ifs <;> rfl
  fwEpc := by simp only [Ctx.setX]; split_ifs <;> rfl

/-- An instruction that puts a result into `x[rd]` completes, writes it and changes nothing else. -/
theorem setRd_writesX (h : s.issuer? = some i) (rd : R5) (v : Word) : WritesX s i rd v (.next (s.setRd i rd v)) := by
  refine ⟨_, rfl, ?_, ?_, finish_onlyCtx h _, ?_⟩
  · unfold Completed State.setRd
    rw [finish_ctxOf h]
    simp only [Ctx.setX]
    split_ifs <;> exact ⟨rfl, rfl, rfl⟩
  · unfold State.setRd
    rw [finish_ctxOf h]
    exact (getX_setX i.ctx rd rd v).trans (if_pos rfl)
  · unfold State.setRd
    rw [finish_ctxOf h]
    exact setX_frame i.ctx rd v

end Sys2Proof.Laws
end

