-- ==== Sys2Proof/Tests/Slice0.lean ====
section
/-! SUPPORT. Tests: words written out from the encoding tables of the spec (R127, R128, R137 to R145), terms that the tables do not
admit, worked examples of the spec, and one witness for the hypotheses of every statement. -/

open Sys2Proof

section
set_option Elab.async false
theorem test_decode_immediates_a :
    [0x81234537, 0xFFFFFA97, 0x9ABA8513, 0x9ABAA513, 0x9ABAB513, 0x9ABAC513, 0x9ABAE513, 0x9ABAF513, 0x02DA9513, 0x02DAD513, 0x42DAD513, 0x9ABA851B].map decode =
      [.lui 10 0x81234, .auipc 21 0xFFFFF, .addi 10 21 0x9AB, .slti 10 21 0x9AB, .sltiu 10 21 0x9AB, .xori 10 21 0x9AB,
       .ori 10 21 0x9AB, .andi 10 21 0x9AB, .slli 10 21 0x2D, .srli 10 21 0x2D, .srai 10 21 0x2D, .addiw 10 21 0x9AB] := by decide
theorem test_decode_immediates_b :
    [0x015A951B, 0x015AD51B, 0x415AD51B].map decode =
      [.slliw 10 21 0x15, .srliw 10 21 0x15, .sraiw 10 21 0x15] := by decide
theorem test_decode_registers_a :
    [0x00EA8533, 0x40EA8533, 0x00EA9533, 0x00EAA533, 0x00EAB533, 0x00EAC533, 0x00EAD533, 0x40EAD533, 0x00EAE533, 0x00EAF533, 0x02EA8533, 0x02EA9533].map decode =
      [.add 10 21 14, .sub 10 21 14, .sll 10 21 14, .slt 10 21 14, .sltu 10 21 14, .xor 10 21 14,
       .srl 10 21 14, .sra 10 21 14, .or 10 21 14, .and 10 21 14, .mul 10 21 14, .mulh 10 21 14] := by decide
theorem test_decode_registers_b :
    [0x02EAA533, 0x02EAB533, 0x02EAC533, 0x02EAD533, 0x02EAE533, 0x02EAF533, 0x00EA853B, 0x40EA853B, 0x00EA953B, 0x00EAD53B, 0x40EAD53B, 0x02EA853B].map decode =
      [.mulhsu 10 21 14, .mulhu 10 21 14, .div 10 21 14, .divu 10 21 14, .rem 10 21 14, .remu 10 21 14,
       .addw 10 21 14, .subw 10 21 14, .sllw 10 21 14, .srlw 10 21 14, .sraw 10 21 14, .mulw 10 21 14] := by decide
theorem test_decode_registers_c :
    [0x02EAC53B, 0x02EAD53B, 0x02EAE53B, 0x02EAF53B].map decode =
      [.divw 10 21 14, .divuw 10 21 14, .remw 10 21 14, .remuw 10 21 14] := by decide
theorem test_decode_jumps_and_memory_a :
    [0xDCDFE0EF, 0xFFC500E7, 0x95550BE3, 0x95551BE3, 0x95554BE3, 0x95555BE3, 0x95556BE3, 0x95557BE3, 0x9ABA8503, 0x9ABA9503, 0x9ABAA503, 0x9ABAB503].map decode =
      [.jal 1 0xFF6E6, .jalr 1 10 0xFFC, .beq 10 21 0xCAB, .bne 10 21 0xCAB, .blt 10 21 0xCAB, .bge 10 21 0xCAB,
       .bltu 10 21 0xCAB, .bgeu 10 21 0xCAB, .lb 10 21 0x9AB, .lh 10 21 0x9AB, .lw 10 21 0x9AB, .ld 10 21 0x9AB] := by decide
theorem test_decode_jumps_and_memory_b :
    [0x9ABAC503, 0x9ABAD503, 0x9ABAE503, 0x9AAA85A3, 0x9AAA95A3, 0x9AAAA5A3, 0x9AAAB5A3, 0x9ABAA507, 0x9AAAA5A7].map decode =
      [.lbu 10 21 0x9AB, .lhu 10 21 0x9AB, .lwu 10 21 0x9AB, .sb 10 21 0x9AB, .sh 10 21 0x9AB, .sw 10 21 0x9AB,
       .sd 10 21 0x9AB, .flw 10 21 0x9AB, .fsw 10 21 0x9AB] := by decide
theorem test_decode_floating_point_a :
    [0x38EA9543, 0x38EA9547, 0x38EA954B, 0x38EA954F, 0x00EAA553, 0x08EAA553, 0x10EAA553, 0x18EAA553, 0x580AB553, 0x20EA8553, 0x20EA9553, 0x20EAA553].map decode =
      [.fmaddS 10 21 14 7 1, .fmsubS 10 21 14 7 1, .fnmsubS 10 21 14 7 1, .fnmaddS 10 21 14 7 1, .faddS 10 21 14 2, .fsubS 10 21 14 2,
       .fmulS 10 21 14 2, .fdivS 10 21 14 2, .fsqrtS 10 21 3, .fsgnjS 10 21 14, .fsgnjnS 10 21 14, .fsgnjxS 10 21 14] := by decide
theorem test_decode_floating_point_b :
    [0x28EA8553, 0x28EA9553, 0xA0EAA553, 0xA0EA9553, 0xA0EA8553, 0xE00A9553, 0xC00AC553, 0xC01AC553, 0xC02AC553, 0xC03AC553, 0xD00AF553, 0xD01AF553].map decode =
      [.fminS 10 21 14, .fmaxS 10 21 14, .feqS 10 21 14, .fltS 10 21 14, .fleS 10 21 14, .fclassS 10 21,
       .fcvtWS 10 21 4, .fcvtWuS 10 21 4, .fcvtLS 10 21 4, .fcvtLuS 10 21 4, .fcvtSW 10 21 7, .fcvtSWu 10 21 7] := by decide
theorem test_decode_floating_point_c :
    [0xD02AF553, 0xD03AF553, 0xE00A8553, 0xF00A8553].map decode =
      [.fcvtSL 10 21 7, .fcvtSLu 10 21 7, .fmvXW 10 21, .fmvWX 10 21] := by decide
theorem test_decode_system :
    [0x0A50000F, 0x8330000F, 0x0000100F, 0x00000073, 0x00100073, 0x10500073, 0x80BA9573, 0x80BAA573, 0x80BAB573, 0x80BAD573, 0x80BAE573, 0x80BAF573].map decode =
      [.fence 10 5, .fenceTso, .fenceI, .ecall, .ebreak, .wfi,
       .csrrw 10 21 0x80B, .csrrs 10 21 0x80B, .csrrc 10 21 0x80B, .csrrwi 10 21 0x80B, .csrrsi 10 21 0x80B, .csrrci 10 21 0x80B] := by decide
theorem test_decode_contexts_a :
    [0x00AA870B, 0x0200000B, 0x0405000B, 0x0605000B, 0x0800000B, 0x0A00000B, 0x0C00000B, 0x008A970B, 0x0200100B, 0x04E7100B, 0x06301A8B, 0x08E7138B].map decode =
      [.spawn 14 21 10, .hexit, .cpush 10, .cjoin 10, .yield, .follow,
       .solo, .ssclose 1 14 21, .ssabort, .barv 6 1 14, .barw 3 21, .baraw 6 1 7 14] := by decide
theorem test_decode_contexts_b :
    [0x0AAA900B, 0x00052A8B, 0x0200200B, 0x0405210B, 0x0600AA8B, 0x0000300B, 0x0205300B, 0x0401B00B].map decode =
      [.gang 21 10, .vclaim 21 10, .vyield, .lcset 2 10, .lcget 21 1, .trapret,
       .trig 10, .sbwait 3] := by decide
theorem test_decode_mesh_and_feed_a :
    [0x00AA86AB, 0x02AA86AB, 0x00AA902B, 0x02AA902B, 0x04AA902B, 0x06AA902B, 0x08AA902B, 0x0AAA902B, 0x00AAA72B, 0x535723AB, 0x04AAA72B, 0x575723AB].map decode =
      [.rsteW 10 21 (some 5), .rsteD 10 21 (some 5), .rredAddW 10 21, .rredAddD 10 21, .rredMin 10 21, .rredMax 10 21,
       .rredOr 10 21, .rredFadd 10 21, .rfaa 14 10 21, .rcas 7 21 10 14, .rswp 14 10 21, .rfaao 7 21 10 14] := by decide
theorem test_decode_mesh_and_feed_b :
    [0x00E0302B, 0x02AAB0AB, 0x0005432B, 0x0233472B, 0x000550AB, 0x02AAD0AB, 0x04025AAB, 0x00AAE02B, 0x02AAE02B, 0x04AAE02B, 0x06056AAB, 0x08AAE02B].map decode =
      [.fenceS 6 1, .ffence 1 10 21, .npost 6 10, .nget 14 6 3, .enq 1 10, .enqp 1 21 10,
       .deq 21 4, .hmarm 10 21, .hmadd 10 21, .hmwait 10 21, .rget 21 10, .rput 10 21] := by decide
theorem test_decode_mesh_and_feed_c :
    [0x0AAAE02B, 0x00AAF02B].map decode =
      [.waitf 10 21, .ctready 21 10] := by decide
theorem test_decode_vector_a :
    [0x64E389DB, 0x6CE389DB, 0x74E389DB, 0x7CE389DB, 0x64E399DB, 0x6C0713DB, 0x740713DB, 0x7C0713DB, 0x515723DB, 0x535723DB, 0x555723DB, 0x575723DB].map decode =
      [.vadd 2 19 7 14 3, .vsub 2 19 7 14 3, .vmul 2 19 7 14 3, .vmax 2 19 7 14 3, .vmin 2 19 7 14 3, .vabs 2 7 14 3,
       .vneg 2 7 14 3, .vrelu 2 7 14 3, .vfmaF32 7 14 21 10, .vfmaBf16 7 14 21 10, .vfmsF32 7 14 21 10, .vfmsBf16 7 14 21 10] := by decide
theorem test_decode_vector_b :
    [0x500AB75B, 0x520AB75B, 0x64E3C9DB, 0x6CE3C9DB, 0x74E3C9DB, 0x7CE3C9DB, 0x64E3D9DB, 0x6CE3D9DB, 0x700753DB, 0x7CE3D9DB, 0x64E3E1DB, 0x6CE3E1DB].map decode =
      [.vsclF32 14 21 10, .vsclBf16 14 21 10, .vand 2 19 7 14 3, .vor 2 19 7 14 3, .vxor 2 19 7 14 3, .vshl 2 19 7 14 3,
       .vshr 2 19 7 14 3, .vsra 2 19 7 14 3, .vrsq 0 7 14 3, .vsel 2 19 7 14 3, .vcmpEq 2 3 7 14 3, .vcmpLt 2 3 7 14 3] := by decide
theorem test_decode_vector_c :
    [0x74E3E1DB, 0x7E23E9DB, 0x600AF75B, 0x620AF75B, 0x655773DB, 0x675773DB, 0x695773DB, 0x6B5773DB, 0x0C05735B, 0x0E05735B, 0x702773DB, 0x70A773DB].map decode =
      [.vcmpLe 2 3 7 14 3, .vcvt 6 1 19 7 3, .vld 14 21 3, .vst 14 21 3, .vlds 7 14 21 3, .vsts 7 14 21 3,
       .vldx 7 14 21 3, .vstx 7 14 21 3, .vpld 6 10, .vpst 6 10, .vredSum 2 7 14 3, .vredMax 2 7 14 3] := by decide
theorem test_decode_vector_d :
    [0x712773DB, 0x720AF75B, 0x14AAF75B, 0x555733DB].map decode =
      [.vredMin 2 7 14 3, .vbcast 14 21 3, .vmvx 14 21 10, .baddrq 7 14 21 10] := by decide
theorem test_decode_predicates_and_bits_a :
    [0x760370DB, 0x761370DB, 0x762370DB, 0x1631F35B, 0x1641F35B, 0x1655735B, 0x1661FADB, 0x515700FB, 0x5157017B, 0x515701FB, 0x5157027B, 0x515702FB].map decode =
      [.pand 1 6 3, .por 1 6 3, .pxor 1 6 3, .pnot 6 3, .pmov 6 3, .pset 6 10,
       .pcnt 21 3, .mxiBf16Bf16 14 21 10, .mxiBf16Qt16 14 21 10, .mxiQt16Qt16 14 21 10, .mxiQt8Qt8 14 21 10, .mxiI8I8 14 21 10] := by decide
theorem test_decode_predicates_and_bits_b :
    [0x5157037B, 0x8B5739FB, 0x515743FB, 0x535743FB, 0x00055AFB, 0x02055AFB, 0x04055AFB, 0x00056AFB, 0x02056AFB, 0x04056AFB, 0x06056AFB, 0x08056AFB].map decode =
      [.mxiI8Tern 14 21 10, .lut3 19 14 21 197, .fshl 7 14 21 10, .fshr 7 14 21 10, .popc 21 10, .clz 21 10,
       .ctz 21 10, .fcvtQt8S 21 10, .fcvtSQt8 21 10, .fcvtQt16S 21 10, .fcvtSQt16 21 10, .fcvtQt32S 21 10] := by decide
theorem test_decode_predicates_and_bits_c :
    [0x0A056AFB].map decode =
      [.fcvtSQt32 21 10] := by decide

/-! Terms that the tables do not admit, one for each check. -/
theorem test_wf_rounding_mode : (Instr.fmaddS 1 2 3 4 5).wellFormed = false ∧ (Instr.faddS 1 2 3 6).wellFormed = false ∧
    (Instr.fsqrtS 1 2 5).wellFormed = false ∧ (Instr.fcvtSLu 1 2 6).wellFormed = false := by decide
theorem test_wf_rounding_mode_ok : (Instr.faddS 1 2 3 7).wellFormed = true := by decide
theorem test_wf_reserved_of_a_valid_word : (Instr.reservedEncoding 0x9ABA8513).wellFormed = false := by decide
theorem test_wf_scopes : (Instr.barv 7 1 2).wellFormed = false ∧ (Instr.barw 7 1).wellFormed = false ∧
    (Instr.baraw 7 1 2 3).wellFormed = false ∧ (Instr.fenceS 0 0).wellFormed = false ∧ (Instr.ffence 7 1 2).wellFormed = false := by decide
theorem test_wf_fence_order : (Instr.fenceS 1 3).wellFormed = false ∧ (Instr.fenceS 1 2).wellFormed = true := by decide
theorem test_wf_queues : (Instr.nget 1 2 0).wellFormed = false ∧ (Instr.enq 4 1).wellFormed = false ∧
    (Instr.enqp 4 1 2).wellFormed = false ∧ (Instr.deq 1 3).wellFormed = false := by decide
theorem test_wf_vector_types : (Instr.vshl 0 0 1 2 3).wellFormed = false ∧ (Instr.vshr 1 0 1 2 3).wellFormed = false ∧
    (Instr.vsra 0 0 1 2 3).wellFormed = false ∧ (Instr.vrsq 2 0 1 2).wellFormed = false := by decide
theorem test_wf_modules_and_queues : (Instr.qtail 1024 0 0).wellFormed = false ∧ (Instr.qcfgWrite 0 64 0).wellFormed = false ∧
    (Instr.chead 0 64 0).wellFormed = false ∧ (Instr.completionWrite 1024 0).wellFormed = false := by decide
theorem test_wf_register_windows : (Instr.registerWrite 0 .ctl 0 2 0).wellFormed = false ∧ (Instr.hostWrite 0 0 1 0).wellFormed = false ∧
    (Instr.hostRead 0 (2 ^ 39) 8).wellFormed = false := by decide
theorem test_wf_contexts : (Instr.handlerEntry 0 11).wellFormed = false ∧ (Instr.ngetTimeout (1024 * 1024) 0).wellFormed = false ∧
    (Instr.barrierRelease 0 11).wellFormed = false ∧ (Instr.parity 0 11).wellFormed = false := by decide
theorem test_wf_engines : (Instr.qfence 0 4).wellFormed = false ∧ (Instr.signal 0 4).wellFormed = false ∧
    (Instr.commandCompletion 0 4).wellFormed = false ∧ (Instr.statusEntry 0 4).wellFormed = false := by decide
theorem test_wf_links_and_memory : (Instr.flitCrcFailure 0 4).wellFormed = false ∧
    (Instr.scrubbing 0 (2 ^ 48) false).wellFormed = false := by decide

namespace Sys2Proof.Machine

/-! Witnesses: for every statement with hypotheses, states and operands that meet them together, one for each clause. -/

/-- A one-core job on position 0 with a handler, in its first superstep; its context 0 is at the first word of its code. -/
def demoJob : Job := { loadedJob 0 0x13 with handler := 0x2000000000000010, home := 0, jsn := 1 }
def demoCtx : Ctx := { Ctx.reset with life := .control, pc := loadPc }
def demoCore : Core := { loadedCore 0 with ssn := 1 }
/-- The state in which context `k` of position 0 issues, with these contexts, core, job and messages. -/
def demoAt (k : Nat) (ctxs : Dict Ctx) (core : Core) (j : Job) (net : List Msg) : State :=
  { State.reset with cur := (0, k), cores := [(0, { core with ctxs := ctxs })], jobs := [(0, j)], net := net }
/-- The same with the issuing context as it is in `x`, alone. -/
def demoOf (x : Ctx) : State := demoAt 0 [(0, x)] demoCore demoJob []
def demo : State := demoOf demoCtx
/-- Context 0 with `x5` as given. -/
def withX (v : Word) : Ctx := { demoCtx with x := [(5, v)] }
def serviceCtx : Ctx := { demoCtx with level := .service }
def firmwareCtx : Ctx := { demoCtx with level := .firmware }
/-- A message of context 0 of position 0 for job 0. -/
def demoMsg (kind : MsgKind) : Msg := { src := 0, ctx := 0, asid := 0, uid := 7, seq := 0, cmd := none, kind := kind }
def tcmAt (off : Nat) : Dest := { core := 0, space := .tcm, off := off }
def qspAt (off : Nat) : Dest := { core := 0, space := .qsp, off := off }
def dssAt (off : Nat) : Dest := { core := 0, space := .dss, off := off }

theorem witness_StepRunsDecoded :
    (∃ (s s0 : State) (core : Core) (j : Job), (∃ rest, s.agenda = .issue 0 :: rest ∧ s0 = issueState s rest) ∧ s0.core? 0 = some core ∧
      s0.job? core.asid = some j ∧ core.chosen = some 0 ∧ core.lateReady 0 = none ∧ inCodeAt j (core.ctx 0).pc = true ∧
      j.oldWords 0 (addrOff (core.ctx 0).pc) = [] ∧ (0x13 : Half32).toNat = s0.bytesAt core.asid { core := 0, space := .dss, off := addrOff (core.ctx 0).pc } 4 ∧
      decode 0x13 = .addi 0 0 0) ∧
    (∃ (s : State) (core : Core) (j : Job), s.agenda = [] ∧ s.due = none ∧ s.issuers.head? = some 0 ∧ s.core? 0 = some core ∧ s.job? core.asid = some j ∧
      core.chosen = some 0 ∧ core.lateReady 0 = none ∧ inCodeAt j (core.ctx 0).pc = true ∧ j.oldWords 0 (addrOff (core.ctx 0).pc) = [] ∧
      (0x13 : Half32).toNat = s.bytesAt core.asid { core := 0, space := .dss, off := addrOff (core.ctx 0).pc } 4) :=
  ⟨⟨{ demo with agenda := [.issue 0] }, demo, demoCore, demoJob, ⟨[], rfl, rfl⟩, by decide +kernel⟩,
   ⟨{ demo with modules := [] }, demoCore, demoJob, by decide +kernel⟩⟩

theorem witness_ReservedAndFetch :
    (∃ w : Half32, w.toNat % 4 ≠ 3) ∧ (∃ w : Half32, w.toNat / 4 % 32 ∈ illegalMajor) ∧ (∃ (s : State) (i : Issuer), s.issuer? = some i ∧ i.mayEnter) ∧
    (∃ (s : State) (core : Core) (j : Job), s.agenda = [.issue 0] ∧ s.core? 0 = some core ∧ s.job? core.asid = some j ∧ core.chosen = some 0 ∧
      core.lateReady 0 = none ∧ j.inCode (addrOff (core.ctx 0).pc) 1 = false ∧ (core.ctx 0).level = .job ∧ j.handler ≠ 0 ∧
      core.serviceTaken = false) :=
  ⟨⟨0, by decide⟩, ⟨0x7F, by decide⟩, ⟨demo, _, rfl, by decide, by decide, by decide⟩,
   ⟨{ demoOf { demoCtx with pc := 0x2000000000000020 } with agenda := [.issue 0] }, _, demoJob, rfl, rfl, rfl, by decide +kernel⟩⟩

theorem witness_RoundRobin : ∃ core : Core, core.active = true ∧ core.lastIssued ≤ 10 ∧ core.chosen = some 0 ∧ ∃ n, n ≤ 10 ∧ (core.ctx n).mayIssue = true :=
  ⟨demoCore, rfl, by decide, by decide, 0, by decide, by decide⟩

theorem witness_Traps :
    (∃ i, demo.issuer? = some i ∧ i.k ≤ 10 ∧ i.mayEnter) ∧
    (∃ (s : State) (i : Issuer), s.issuer? = some i ∧ i.k = 10 ∧ i.ctx.level = .job ∧ i.job.handler ≠ 0 ∧ i.core.serviceTaken = true) ∧
    (∃ (s : State) (i : Issuer), s.issuer? = some i ∧ i.core.active = true ∧ i.ctx.level = .service) ∧
    (∃ (s : State) (i : Issuer), s.issuer? = some i ∧ i.core.active = true ∧ i.ctx.level = .job ∧ i.job.handler = 0) ∧
    (∃ (s : State) (i : Issuer), s.issuer? = some i ∧ i.ctx.level = .firmware) :=
  ⟨⟨_, rfl, by decide, by decide, by decide, by decide⟩,
   ⟨demoAt 10 [(0, serviceCtx), (10, demoCtx)] demoCore demoJob [], _, rfl, rfl, rfl, by decide, by decide⟩,
   ⟨demoOf serviceCtx, _, rfl, rfl, rfl⟩, ⟨demoAt 0 [(0, demoCtx)] demoCore { demoJob with handler := 0 } [], _, rfl, rfl, rfl, rfl⟩,
   ⟨demoOf firmwareCtx, _, rfl, rfl⟩⟩

/-- The position's `svepc` is `a`. -/
def withSvepc (s : State) (a : Word) : State := s.modPos 0 fun p => { p with svepc := a }
theorem witness_TrapReturn :
    (∃ (s : State) (i : Issuer), s.issuer? = some i ∧ i.ctx.level = .service ∧ branchCause i.job (s.pos i.c).svepc = none) ∧
    (∃ (s : State) (i : Issuer), s.issuer? = some i ∧ i.ctx.level = .firmware) ∧
    (∃ (s : State) (i : Issuer), s.issuer? = some i ∧ i.ctx.level = .service ∧ branchCause i.job (s.pos i.c).svepc = some 0x04) :=
  ⟨⟨withSvepc (demoOf serviceCtx) 0x200000000000001C, _, rfl, rfl, by decide⟩, ⟨demoOf firmwareCtx, _, rfl, rfl⟩,
   ⟨withSvepc (demoOf serviceCtx) 0x2000000000000020, _, rfl, rfl, by decide⟩⟩

theorem witness_PrivilegeAndCsrTraps :
    (∃ i, demo.issuer? = some i ∧ i.ctx.level = .job ∧ (0x5C0 ≤ (0x5C7 : BitVec 12).toNat ∧ (0x5C7 : BitVec 12).toNat ≤ 0x5C7)) ∧
    (∃ (s : State) (i : Issuer), s.issuer? = some i ∧ i.ctx.level ≠ .firmware ∧ (0x7C0 ≤ (0x7FF : BitVec 12).toNat ∧ (0x7FF : BitVec 12).toNat ≤ 0x7FF)) ∧
    (∃ i, demo.issuer? = some i ∧ csrRead (.csrrs 1 0 0x004) = some (1, 0x004) ∧ csrAllocated 0x004 = false) ∧
    (∃ (s : State) (i : Issuer), s.issuer? = some i ∧ i.k ≠ 0 ∧ csrRead (.csrrs 1 0 0x805) = some (1, 0x805)) ∧
    (∃ (i : Issuer) (f : Word → Word), demo.issuer? = some i ∧ csrWrite i.ctx (.csrrwi 1 0 0x8FF) = some (1, 0x8FF, f)) :=
  ⟨⟨_, rfl, rfl, by decide⟩, ⟨demoOf serviceCtx, _, rfl, by decide, by decide⟩, ⟨_, rfl, rfl, by decide⟩,
   ⟨demoAt 3 [(3, demoCtx)] demoCore demoJob [], _, rfl, by decide, rfl⟩, ⟨_, _, rfl, rfl⟩⟩

theorem witness_IntegerAndBits :
    (∃ i, demo.issuer? = some i ∧ integerResult (.div 5 6 0) i.ctx = some (5, BitVec.ofInt 64 (-1))) ∧
    (∃ i v, demo.issuer? = some i ∧ bitResult (.clz 5 0) i.ctx = some (5, v)) := ⟨⟨_, rfl, rfl⟩, _, _, rfl, rfl⟩

theorem witness_ControlFlow :
    (∃ (i : Issuer) (a : Word), demo.issuer? = some i ∧ a = BitVec.ofInt 64 (i.ctx.pc.toInt + 2 * (14 : BitVec 20).toInt) ∧ GoodTarget i.job a) ∧
    (∃ (s : State) (i : Issuer) (a : Word), s.issuer? = some i ∧ a.toNat = (BitVec.ofInt 64 ((i.ctx.getX 5).toInt + (2 : BitVec 12).toInt)).toNat / 2 * 2 ∧ a.toNat % 4 ≠ 0) ∧
    (∃ (s : State) (i : Issuer) (a : Word), s.issuer? = some i ∧ a.toNat = (BitVec.ofInt 64 ((i.ctx.getX 5).toInt + (0 : BitVec 12).toInt)).toNat / 2 * 2 ∧
      a.toNat % 4 = 0 ∧ a.toNat / 2 ^ 36 ≠ 2 * 2 ^ 24) ∧
    (∃ (s : State) (i : Issuer) (a : Word), s.issuer? = some i ∧ a.toNat = (BitVec.ofInt 64 ((i.ctx.getX 5).toInt + (0 : BitVec 12).toInt)).toNat / 2 * 2 ∧
      a.toNat % 4 = 0 ∧ a.toNat / 2 ^ 36 = 2 * 2 ^ 24 ∧ ∀ c ∈ i.job.codes, ¬ (c.1 ≤ a.toNat % 2 ^ 36 ∧ a.toNat % 2 ^ 36 < c.1 + c.2)) ∧
    (∃ i, demo.issuer? = some i ∧ branchTaken (.bne 0 0 4) i.ctx = some (4, false)) ∧
    (∃ i, demo.issuer? = some i ∧ branchTaken (.bgeu 0 0 14) i.ctx = some (14, true) ∧ GoodTarget i.job (BitVec.ofInt 64 (i.ctx.pc.toInt + 2 * (14 : BitVec 12).toInt))) :=
  ⟨⟨_, 0x200000000000001C, rfl, by decide, by decide, by decide, (0, 32), by decide, by decide⟩,
   ⟨demoOf (withX 0x2000000000000000), _, 0x2000000000000002, rfl, by decide, by decide⟩,
   ⟨demoOf (withX 0x1000000000000000), _, 0x1000000000000000, rfl, by decide, by decide, by decide⟩,
   ⟨demoOf (withX 0x2000000000000020), _, 0x2000000000000020, rfl, by decide, by decide, by decide, by decide⟩,
   ⟨_, rfl, by decide⟩, ⟨_, rfl, by decide, by decide, by decide, (0, 32), by decide, by decide⟩⟩

theorem witness_LocalLoads :
    (∃ (s : State) (i : Issuer), s.issuer? = some i ∧ loadForm (.ld 6 5 0) = some (6, 5, 0, 8, false, false) ∧ LocalAt i (baseAddr i.ctx 5 0) 8 (tcmAt 0x1FFF8) ∧
      NoEagerOver s i (tcmAt 0x1FFF8) 8) ∧
    (∃ (s : State) (i : Issuer), s.issuer? = some i ∧ loadForm (.flw 6 5 0xFFC) = some (6, 5, 0xFFC, 4, false, true) ∧ LocalAt i (baseAddr i.ctx 5 0xFFC) 4 (dssAt 65540) ∧
      NoEagerOver s i (dssAt 65540) 4) :=
  ⟨⟨demoOf (withX 0x1FFF8), _, rfl, rfl, ⟨rfl, by decide, by decide, by decide, by decide⟩, nofun⟩,
   ⟨demoOf (withX 0x2000000000010008), _, rfl, rfl, ⟨rfl, by decide, by decide, by decide, by decide⟩, nofun⟩⟩

theorem witness_MeshLoads :
    (∃ (s : State) (i : Issuer), s.issuer? = some i ∧ loadForm (.lw 6 5 0) = some (6, 5, 0, 4, true, false) ∧ MeshAt i (baseAddr i.ctx 5 0) 4 (tcmAt 0x1FFFC)) ∧
    (∃ (s : State) (m : Msg), s.net[0]? = some m ∧ m.kind = .loadReq (tcmAt 0x1FFFC) 4 0 ∧ s.overtaken 0 m (tcmAt 0x1FFFC) 4 = false ∧
      s.target m.asid (tcmAt 0x1FFFC) = some (tcmAt 0x1FFFC) ∧ s.silentHome (tcmAt 0x1FFFC) = false) ∧
    (∃ (s : State) (m : Msg) (d : Dest), s.net[0]? = some m ∧ m.kind = .loadReq d 4 0 ∧ s.overtaken 0 m d 4 = false ∧ s.target m.asid d = none) ∧
    (∃ (s : State) (m : Msg) (core : Core), s.net[0]? = some m ∧ m.kind = .response 255 ∧ s.core? m.src = some core ∧
      (core.ctx m.ctx).wait = some (.load 0 6 1 true false) ∧ 255 < 256 ^ 1) ∧
    (∃ (s : State) (m : Msg) (core : Core), s.net[0]? = some m ∧ m.kind = .returned true 0 ∧ s.core? m.src = some core ∧
      (core.ctx m.ctx).wait = some (.load 0 6 8 false false) ∧ (core.ctx m.ctx).level = .job ∧ core.serviceTaken = false ∧
      (∃ j, s.job? core.asid = some j ∧ j.handler ≠ 0) ∧ m.ctx ≤ 10) :=
  ⟨⟨demoOf (withX 0x400000000001FFFC), _, rfl, rfl, .inl (by decide), by decide, by decide, by decide⟩,
   ⟨demoAt 0 [(0, demoCtx)] demoCore demoJob [demoMsg (.loadReq (tcmAt 0x1FFFC) 4 0)], _, rfl, rfl, by decide, by decide, by decide⟩,
   ⟨demoAt 0 [(0, demoCtx)] demoCore demoJob [demoMsg (.loadReq ⟨1, .tcm, 0⟩ 4 0)], _, ⟨1, .tcm, 0⟩, rfl, rfl, by decide, by decide⟩,
   ⟨demoAt 0 [(0, { demoCtx with wait := some (.load 0 6 1 true false) })] demoCore demoJob [demoMsg (.response 255)], _, _, rfl, rfl, rfl, rfl, by decide⟩,
   ⟨demoAt 0 [(0, { demoCtx with wait := some (.load 0 6 8 false false) })] demoCore demoJob [demoMsg (.returned true 0)], _, _, rfl, rfl, rfl, rfl, rfl, by decide,
     ⟨_, rfl, by decide⟩, by decide⟩⟩

theorem witness_Stores :
    (∃ (s : State) (i : Issuer), s.issuer? = some i ∧ storeForm i.ctx (.sd 5 5 0) = some (5, 0, 8, 0x100000000033FFF8) ∧
      LocalAt i (baseAddr i.ctx 5 0) 8 (qspAt 0x33FFF8) ∧ (qspAt 0x33FFF8).space ≠ .dss ∧ NoEagerOver s i (qspAt 0x33FFF8) 8) ∧
    (∃ (s : State) (i : Issuer), s.issuer? = some i ∧ storeForm i.ctx (.sb 0 5 0) = some (5, 0, 1, 0) ∧ MeshAt i (baseAddr i.ctx 5 0) 1 (tcmAt 3) ∧ MayStore i (tcmAt 3) 1) ∧
    (∃ (s : State) (i : Issuer), s.issuer? = some i ∧ storeForm i.ctx (.sd 0 5 0) = some (5, 0, 8, 0) ∧ LocalAt i (baseAddr i.ctx 5 0) 8 (dssAt 65528) ∧
      (dssAt 65528).space = .dss ∧ MayStore i (dssAt 65528) 8) :=
  ⟨⟨demoOf (withX 0x100000000033FFF8), _, rfl, by decide, ⟨rfl, by decide, by decide, by decide, by decide⟩, by decide, nofun⟩,
   ⟨demoOf (withX 0x4000000000000003), _, rfl, by decide, ⟨.inl (by decide), by decide, by decide, by decide⟩, nofun⟩,
   ⟨demoOf (withX 0x200000000000FFF8), _, rfl, by decide, ⟨rfl, by decide, by decide, by decide, by decide⟩, rfl, fun _ => by decide⟩⟩

theorem witness_AccessTraps :
    (∃ (s : State) (i : Issuer) (a : Word), s.issuer? = some i ∧ accessForm i.ctx (.rfaa 6 0 5) = some (a, 8, 8, true) ∧ ¬ BaseForm a) ∧
    (∃ (s : State) (i : Issuer) (a : Word), s.issuer? = some i ∧ accessForm i.ctx (.rredFadd 0 5) = some (a, 16, 48, true) ∧ BaseForm a ∧ a.toNat % 16 ≠ 0) ∧
    (∃ (s : State) (i : Issuer) (a : Word), s.issuer? = some i ∧ accessForm i.ctx (.lb 6 5 0) = some (a, 1, 1, false) ∧ BaseForm a ∧ a.toNat % 1 = 0 ∧
      ∃ d, locate i.c a = some d ∧ i.job.limitOf d.space < d.off + 1) ∧
    (∃ (s : State) (i : Issuer) (a : Word), s.issuer? = some i ∧ accessForm i.ctx (.lb 6 5 0) = some (a, 1, 1, false) ∧ BaseForm a ∧ a.toNat % 1 = 0 ∧ locate i.c a = none) ∧
    (∃ (s : State) (i : Issuer) (a : Word), s.issuer? = some i ∧ accessForm i.ctx (.sb 6 5 0) = some (a, 1, 1, true) ∧ BaseForm a ∧ a.toNat % 1 = 0 ∧
      ∃ d, locate i.c a = some d ∧ d.space = .dss ∧ i.job.limit < d.off + 1) ∧
    (∃ (s : State) (i : Issuer) (a : Word), s.issuer? = some i ∧ accessForm i.ctx (.sb 6 5 0) = some (a, 1, 1, true) ∧ BaseForm a ∧ a.toNat % 1 = 0 ∧
      ∃ d, locate i.c a = some d ∧ d.space = .dss ∧ i.ctx.level = .job ∧ ∃ r ∈ i.job.codes, d.off < r.1 + r.2 ∧ r.1 < d.off + 1) :=
  ⟨⟨demoOf (withX 0x3000000000000000), _, _, rfl, rfl, by unfold BaseForm; decide⟩, ⟨demoOf (withX 0x8), _, _, rfl, rfl, by unfold BaseForm; decide, by decide⟩,
   ⟨demoOf (withX 0x20000), _, _, rfl, rfl, by unfold BaseForm; decide, by decide, tcmAt 0x20000, by decide, by decide⟩,
   ⟨demoOf (withX 0x4000002000000000), _, _, rfl, rfl, by unfold BaseForm; decide, by decide, by decide⟩,
   ⟨demoOf (withX 0x2000000000010000), _, _, rfl, rfl, by unfold BaseForm; decide, by decide, dssAt 65536, by decide, by decide, by decide⟩,
   ⟨demoOf (withX 0x200000000000001F), _, _, rfl, rfl, by unfold BaseForm; decide, by decide, dssAt 31, by decide, by decide, rfl, (0, 32), by decide, by decide⟩⟩

theorem witness_AddressForms : (∃ off : Nat, off < 2 ^ 36 ∧ off = 2 ^ 36 - 1) ∧ (∃ m d row col sp : Nat, m < 1024 ∧ d < 4 ∧ row < 32 ∧ col < 32 ∧ sp < 4 ∧ row = 16) ∧
    (∃ row col sp dd : Nat, ∃ dr dc : Int, row < 16 ∧ col < 16 ∧ sp < 4 ∧ dd < 4 ∧ -16 ≤ dr ∧ dr ≤ 15 ∧ -16 ≤ dc ∧ dc ≤ 15 ∧ row + dr = 0 ∧ col + dc = 16) :=
  ⟨⟨_, by decide, rfl⟩, ⟨1023, 3, 16, 31, 3, by decide⟩, 15, 1, 3, 3, -15, 15, by decide⟩

theorem witness_FpResults :
    (∃ (i : Issuer) (out : Rm → FpResult), demo.issuer? = some i ∧ fpRounded (.faddS 1 2 3 4) i.ctx = some (4, out)) ∧
    (∃ (s : State) (i : Issuer) (out : Rm → FpResult), s.issuer? = some i ∧ fpRounded (.fsqrtS 1 2 7) i.ctx = some (7, out) ∧ 5 ≤ i.ctx.fcsr.toNat / 32) ∧
    (∃ (i : Issuer) (o : FpResult), demo.issuer? = some i ∧ fpExact (.fclassS 1 2) i.ctx = some o) :=
  ⟨⟨_, _, rfl, rfl⟩, ⟨demoOf { demoCtx with fcsr := 0xA0 }, _, _, rfl, rfl, by decide⟩, _, _, rfl, rfl⟩

theorem witness_FpNaN : ∃ (s : State) (i : Issuer), s.issuer? = some i ∧ isNaN32 (i.ctx.getF 3) ∧ isSNaN32 (i.ctx.getF 3) ∧ ¬ isSNaN32 (i.ctx.getF 4) ∧ isNaN32 (i.ctx.getF 4) :=
  ⟨demoOf { demoCtx with f := [(3, 0x7F800001), (4, 0xFFC00000)] }, _, rfl, by unfold isNaN32; decide, by unfold isSNaN32; decide, by unfold isSNaN32; decide,
    by unfold isNaN32; decide⟩

theorem witness_CsrReads : ∃ i, demo.issuer? = some i ∧ csrRead (.csrrci 5 0 0x801) = some (5, 0x801) ∧ csrValue demo i 0x801 = some 0 := ⟨_, rfl, rfl, by decide⟩

theorem witness_CsrWrites :
    (∃ (i : Issuer) (f : Word → Word), demo.issuer? = some i ∧ csrWrite i.ctx (.csrrw 5 6 0x802) = some (5, 0x802, f) ∧ csrValue demo i 0x802 = some 0 ∧
      csrMask 0x802 = some 0x7F0000007F) ∧
    (∃ (s : State) (i : Issuer) (f : Word → Word), s.issuer? = some i ∧ i.k = 0 ∧ csrWrite i.ctx (.csrrw 5 5 0x805) = some (5, 0x805, f) ∧ GoodTarget i.job (f i.core.ssentry)) ∧
    (∃ (s : State) (i : Issuer) (f : Word → Word), s.issuer? = some i ∧ i.k = 0 ∧ csrWrite i.ctx (.csrrw 5 5 0x805) = some (5, 0x805, f) ∧
      (f i.core.ssentry).toNat / 2 ^ 36 = 2 * 2 ^ 24 ∧ (f i.core.ssentry).toNat % 4 ≠ 0) ∧
    (∃ (i : Issuer) (f : Word → Word), demo.issuer? = some i ∧ i.k = 0 ∧ csrWrite i.ctx (.csrrwi 5 0 0x805) = some (5, 0x805, f) ∧
      (f i.core.ssentry).toNat / 2 ^ 36 ≠ 2 * 2 ^ 24) :=
  ⟨⟨_, _, rfl, rfl, by decide, rfl⟩,
   ⟨demoOf (withX 0x200000000000001C), _, _, rfl, rfl, rfl, by decide, by decide, (0, 32), by decide, by decide⟩,
   ⟨demoOf (withX 0x200000000000001D), _, _, rfl, rfl, rfl, by decide, by decide⟩, ⟨_, _, rfl, rfl, rfl, by decide⟩⟩

theorem witness_ServiceActions :
    (∃ (s : State) (i : Issuer), s.issuer? = some i ∧ i.ctx.level = .service ∧ i.core.active = true ∧ i.job.verdict = none ∧ i.core.tracectl.getLsbD 11 = false) ∧
    (∃ (s : State) (i : Issuer), s.issuer? = some i ∧ i.ctx.level = .service ∧ i.core.tracectl.getLsbD 11 = true ∧
      (s.pos i.c).tracePos < 2 * (s.pos i.c).trace.length ∧ (s.pos i.c).trace.reverse[(s.pos i.c).tracePos / 2]? = some (8, 9)) :=
  ⟨⟨demoOf serviceCtx, _, rfl, rfl, rfl, rfl, by decide⟩,
   ⟨(demoAt 0 [(0, serviceCtx)] { demoCore with tracectl := 0x800 } demoJob []).modPos 0 fun p => { p with trace := [(8, 9)], tracePos := 1 }, _, rfl, rfl, by decide, by decide,
     by decide⟩⟩

/-- Position 0 traces with this control word. -/
def traced (v : Word) : State := demoAt 0 [(0, demoCtx)] { demoCore with tracectl := v } demoJob []
theorem witness_Trace :
    (∃ core, demo.core? 0 = some core ∧ core.tracectl.getLsbD 0 = false) ∧
    (∃ core, (traced 0xF).core? 0 = some core ∧ core.tracectl.getLsbD 0 = true ∧ core.tracectl.getLsbD 11 = false ∧ core.tracectl.getLsbD 3 = true) ∧
    (∃ i, demo.issuer? = some i ∧ i.core.tracectl.getLsbD 10 = false) ∧
    (∃ i, (traced 0x201).issuer? = some i ∧ i.core.tracectl.getLsbD 0 = true ∧ i.core.tracectl.getLsbD 9 = true ∧ i.core.tracectl.getLsbD 10 = false ∧
      i.core.tracectl.getLsbD 11 = false) ∧
    (∃ i, (traced 0x401).issuer? = some i ∧ i.core.tracectl.getLsbD 0 = true ∧ i.core.tracectl.getLsbD 10 = true ∧ i.mayEnter) :=
  ⟨⟨_, rfl, by decide⟩, ⟨_, rfl, by decide, by decide, by decide⟩, ⟨_, rfl, by decide⟩, ⟨_, rfl, by decide, by decide, by decide, by decide⟩,
   ⟨_, rfl, by decide, by decide, by decide, by decide, by decide⟩⟩

/-- An eager write of context 0 of position 0 to its own TCM that has not been acknowledged, tied to slot 3. -/
def ownEager : EagerOut := { uid := 7, ctx := 0, seq := 0, slot := some 3, cmd := none, dest := tcmAt 0, addr := 0 }
def eagerCore : Core := { demoCore with eager := [ownEager] }
theorem witness_FencesAndControl :
    (∃ i, demo.issuer? = some i ∧ ¬ EagerOpen demo i 1 ∧ ∀ e ∈ i.core.eager, ¬ (e.ctx = i.k ∧ e.slot = some 3)) ∧
    (∃ (s : State) (i : Issuer), s.issuer? = some i ∧ EagerOpen s i 1 ∧ ∃ e ∈ i.core.eager, e.ctx = i.k ∧ e.slot = some 3) ∧
    (∃ (s : State) (i : Issuer), s.issuer? = some i ∧ i.k ≠ 0) ∧
    (∃ i, demo.issuer? = some i ∧ i.k = 0 ∧ ∀ d ∈ i.job.places, coreQuad d = coreQuad i.c → d = i.c) ∧
    (∃ (s : State) (i : Issuer) (l : Core), s.issuer? = some i ∧ i.k = 0 ∧ (i.job.inQuad (coreQuad i.c)).head? = some 0 ∧ 0 ≠ i.c ∧ s.core? 0 = some l ∧
      dgetD l.follows (i.ctx.pc.toNat % 2 ^ 36) 0 ≤ dgetD i.core.follows (i.ctx.pc.toNat % 2 ^ 36) 0) :=
  ⟨⟨_, rfl, nofun, nofun⟩, ⟨demoAt 0 [(0, demoCtx)] eagerCore demoJob [], _, rfl, ⟨ownEager, .head _, rfl, rfl, by decide⟩, ownEager, .head _, rfl, rfl⟩,
   ⟨demoAt 1 [(1, demoCtx)] demoCore demoJob [], _, rfl, by decide⟩, ⟨_, rfl, rfl, by decide⟩,
   ⟨{ State.reset with cur := (1, 0), cores := [(0, demoCore), (1, { demoCore with index := 1 })], jobs := [(0, { demoJob with n := 2, cc := 2 })] }, _, demoCore, rfl, rfl,
    by decide, by decide, rfl, by decide⟩⟩

theorem witness_Waits :
    (∃ i, demo.issuer? = some i) ∧
    (∃ (s : State) (core : Core), s.core? 0 = some core ∧ core.active = true ∧ (core.ctx 0).wait = some .wfi ∧ (core.ctx 0).woken = some 3) ∧
    (∃ (s : State) (core : Core), s.core? 0 = some core ∧ core.active = true ∧ (core.ctx 0).wait = some (.sbwait 3) ∧ ¬ ∀ e ∈ core.eager, e.ctx = 0 → e.slot ≠ some 3) ∧
    (∃ (s : State) (core : Core), s.core? 0 = some core ∧ core.active = true ∧ (core.ctx 0).wait = some (.waitf (tcmAt 8) 0) ∧ (0 : Word).toNat ≤ s.bytesAt core.asid (tcmAt 8) 8) :=
  ⟨⟨_, rfl⟩, ⟨demoOf { demoCtx with wait := some .wfi, woken := some 3 }, _, rfl, rfl, rfl, rfl⟩,
   ⟨demoAt 0 [(0, { demoCtx with wait := some (.sbwait 3) })] eagerCore demoJob [], _, rfl, rfl, rfl, by decide⟩,
   ⟨demoOf { demoCtx with wait := some (.waitf (tcmAt 8) 0) }, _, rfl, rfl, rfl, by decide⟩⟩

/-- Context 0 with all ten helpers live. -/
def allLive : Dict Ctx := (0, withX 0x200000000000001C) :: (List.range 10).map fun n => (n + 1, { demoCtx with life := .direct })
theorem witness_Helpers :
    (∃ (s : State) (i : Issuer), s.issuer? = some i ∧ i.k ≠ 0) ∧
    (∃ (s : State) (i : Issuer), s.issuer? = some i ∧ i.k = 0 ∧ GoodTarget i.job (i.ctx.getX 5) ∧ (i.core.ctx 10).live = false ∧ ∀ n, 10 < n → n ≤ 10 → (i.core.ctx n).live = true) ∧
    (∃ (s : State) (i : Issuer), s.issuer? = some i ∧ i.k = 0 ∧ GoodTarget i.job (i.ctx.getX 5) ∧ ∀ n, 1 ≤ n → n ≤ 10 → (i.core.ctx n).live = true) ∧
    (∃ (s : State) (i : Issuer), s.issuer? = some i ∧ i.k = 0 ∧ (i.ctx.getX 5).toNat / 2 ^ 36 ≠ 2 * 2 ^ 24) ∧
    (∃ (s : State) (i : Issuer), s.issuer? = some i ∧ i.k ≠ 0 ∧ ∃ e ∈ i.core.eager, e.ctx = i.k ∧ e.slot.isSome = true) ∧
    (∃ (s : State) (i : Issuer), s.issuer? = some i ∧ i.k ≠ 0 ∧ (∀ e ∈ i.core.eager, e.ctx = i.k → e.slot = none) ∧ i.ctx.life = .direct) ∧
    (∃ (s : State) (i : Issuer), s.issuer? = some i ∧ i.k ≠ 0 ∧ (∀ e ∈ i.core.eager, e.ctx = i.k → e.slot = none) ∧ i.ctx.life = .task 0 0 0x1FFF0 ∧
      LocalAt i 0x1FFF0 16 (tcmAt 0x1FFF0) ∧ s.bytesAt i.core.asid (tcmAt 0x1FFF0) 4 = 0 + 1) ∧
    (∃ (s : State) (i : Issuer), s.issuer? = some i ∧ i.k ≠ 0 ∧ (∀ e ∈ i.core.eager, e.ctx = i.k → e.slot = none) ∧ i.ctx.life = .task 0 0 0x10 ∧
      LocalAt i 0x10 16 (tcmAt 0x10) ∧ s.bytesAt i.core.asid (tcmAt 0x10) 4 = 0) :=
  ⟨⟨demoAt 1 [(1, demoCtx)] demoCore demoJob [], _, rfl, by decide⟩,
   ⟨demoOf (withX 0x200000000000001C), _, rfl, rfl, ⟨by decide, by decide, (0, 32), by decide, by decide⟩, rfl, fun n h h' => absurd h (Nat.not_lt.2 h')⟩,
   ⟨demoAt 0 allLive demoCore demoJob [], _, rfl, rfl, ⟨by decide, by decide, (0, 32), by decide, by decide⟩, by
      intro n h h'
      have : n = 1 ∨ n = 2 ∨ n = 3 ∨ n = 4 ∨ n = 5 ∨ n = 6 ∨ n = 7 ∨ n = 8 ∨ n = 9 ∨ n = 10 := by omega
      rcases this with rfl | rfl | rfl | rfl | rfl | rfl | rfl | rfl | rfl | rfl <;> rfl⟩,
   ⟨demo, _, rfl, rfl, by decide⟩,
   ⟨demoAt 10 [(10, demoCtx)] { demoCore with eager := [{ ownEager with ctx := 10 }] } demoJob [], _, rfl, by decide, _, .head _, rfl, rfl⟩,
   ⟨demoAt 10 [(10, { demoCtx with life := .direct })] demoCore demoJob [], _, rfl, by decide, nofun, rfl⟩,
   ⟨demoAt 10 [(10, { demoCtx with life := .task 0 0 0x1FFF0 })] { demoCore with tcm := { cur := [(0x1FFF0, 1)], base := [] } } demoJob [], _, rfl, by decide, nofun, rfl,
    ⟨rfl, by decide, by decide, by decide, by decide⟩, by decide⟩,
   ⟨demoAt 10 [(10, { demoCtx with life := .task 0 0 0x10 })] demoCore demoJob [], _, rfl, by decide, nofun, rfl, ⟨rfl, by decide, by decide, by decide, by decide⟩, by decide⟩⟩

/-- A record at 0x20 of the TCM whose code is the last word of the program. -/
def recordCore (n : Nat) : Core :=
  { demoCore with
    tcm := { cur := [(0x20, 0x1C), (0x27, 0x20)], base := [] }
    tasks := List.replicate n { code := 0, frame := 0, join := 0, prio := 0, ceil := 0, ordered := false, nosteal := false, level := 0, seq := 0, lseq := 0, since := 0 } }
theorem witness_TaskInstructions :
    (∃ (s : State) (i : Issuer), s.issuer? = some i ∧ LocalAt i (i.ctx.getX 5) 32 (tcmAt 0x20) ∧ GoodTarget i.job (recordAt (s.bytesAt i.core.asid (tcmAt 0x20) 32) i.core s.clock).code ∧
      (recordAt (s.bytesAt i.core.asid (tcmAt 0x20) 32) i.core s.clock).join = 0 ∧ i.core.tasks.length < 4096) ∧
    (∃ (s : State) (i : Issuer), s.issuer? = some i ∧ 4096 ≤ i.core.tasks.length) ∧
    (∃ (s : State) (i : Issuer), s.issuer? = some i ∧ LocalAt i (i.ctx.getX 5) 16 (tcmAt 0x20) ∧ s.bytesAt i.core.asid (tcmAt 0x20) 4 ≠ 0) ∧
    (∃ (s : State) (i : Issuer), s.issuer? = some i ∧ LocalAt i (i.ctx.getX 5) 16 (tcmAt 0x30) ∧ s.bytesAt i.core.asid (tcmAt 0x30) 4 = 0) ∧
    (∃ (s : State) (i : Issuer), s.issuer? = some i ∧ (i.ctx.getX 5).toNat / 2 ^ 36 ≠ 0 ∧ (i.ctx.getX 5).toNat / 2 ^ 36 ≠ 2 ^ 24) :=
  ⟨⟨demoAt 0 [(0, withX 0x20)] (recordCore 0) demoJob [], _, rfl, ⟨rfl, by decide, by decide, by decide, by decide⟩, ⟨by decide, by decide, (0, 32), by decide, by decide⟩,
    by decide, by decide⟩,
   ⟨demoAt 0 [(0, withX 0x20)] (recordCore 4096) demoJob [], _, rfl, List.length_replicate.ge⟩,
   ⟨demoAt 0 [(0, withX 0x20)] (recordCore 0) demoJob [], _, rfl, ⟨rfl, by decide, by decide, by decide, by decide⟩, by decide⟩,
   ⟨demoAt 0 [(0, withX 0x30)] (recordCore 0) demoJob [], _, rfl, ⟨rfl, by decide, by decide, by decide, by decide⟩, by decide⟩,
   ⟨demoOf (withX 0x2000000000000000), _, rfl, by decide, by decide⟩⟩

theorem witness_ClosingInstructions :
    (∃ (s : State) (i : Issuer), s.issuer? = some i ∧ i.k ≠ 0) ∧ (∃ i, demo.issuer? = some i ∧ i.k = 0 ∧ i.core.active = true ∧ CoreQuiet demo i) ∧
    (∃ (s : State) (i : Issuer), s.issuer? = some i ∧ i.k = 0 ∧ i.core.active = true ∧ ¬ CoreQuiet s i) :=
  ⟨⟨demoAt 1 [(1, demoCtx)] demoCore demoJob [], _, rfl, by decide⟩,
   ⟨_, rfl, rfl, rfl, nofun, rfl, fun n h h' => by
      have : n = 1 ∨ n = 2 ∨ n = 3 ∨ n = 4 ∨ n = 5 ∨ n = 6 ∨ n = 7 ∨ n = 8 ∨ n = 9 ∨ n = 10 := by omega
      rcases this with rfl | rfl | rfl | rfl | rfl | rfl | rfl | rfl | rfl | rfl <;> rfl, rfl, rfl, rfl, rfl, rfl, nofun⟩,
   ⟨demoAt 0 [(0, demoCtx)] eagerCore demoJob [], _, rfl, rfl, rfl, fun h => List.cons_ne_nil _ _ h.2.2.2.1⟩⟩

/-- A group-barrier episode at die scope, number 4, with these arrivals. -/
def dieEpisode (l : List Arrival) (done : Option Nat) (mixed : Bool) : Episode :=
  { scope := 3, extent := 0, number := 4, arrivals := l, done := done, mixed := mixed, value := 9 }
/-- The message of the core's arrival at it, with an SSN. -/
def sentArrival (ssn : Nat) : Msg := demoMsg (.arrival 3 0 4 ⟨0, 1, 0, 5⟩ ssn)
def markedCtx : Ctx := { demoCtx with marks := [{ scope := 3, episode := 4 }] }
theorem witness_GroupBarriers :
    (∃ (s : State) (i : Issuer), s.issuer? = some i ∧ ∃ m ∈ i.ctx.marks, m.scope = (3 : R3).toNat) ∧
    (∃ i, demo.issuer? = some i ∧ (∀ m ∈ i.ctx.marks, m.scope ≠ (3 : R3).toNat) ∧ ¬ EagerOpen demo i 3 ∧ MayArrive demo i 3) ∧
    (∃ (s : State) (i : Issuer), s.issuer? = some i ∧ (∀ m ∈ i.ctx.marks, m.scope ≠ (3 : R3).toNat) ∧ EagerOpen s i 3) ∧
    (∃ (s : State) (i : Issuer), s.issuer? = some i ∧ (∀ m ∈ i.ctx.marks, m.scope ≠ (3 : R3).toNat) ∧ ¬ EagerOpen s i 3 ∧
      ∃ e, i.job.episodes.find? (fun e => e.scope == 3 && e.extent == extentOf 3 i.c && e.done.isNone) = some e ∧ ∃ a ∈ e.arrivals, a.index = i.core.index) ∧
    (∃ (s : State) (i : Issuer), s.issuer? = some i ∧ (∀ m ∈ i.ctx.marks, m.scope ≠ (3 : R3).toNat) ∧ ¬ EagerOpen s i 3 ∧
      (∃ e, i.job.episodes.find? (fun e => e.scope == 3 && e.extent == extentOf 3 i.c && e.done.isNone) = some e) ∧ ArrivalSent s i 3) ∧
    (∃ (s : State) (i : Issuer) (m : Mark) (e : Episode), s.issuer? = some i ∧ i.ctx.marks.find? (fun x => x.scope == 3) = some m ∧
      i.job.episodes.find? (fun x => x.scope == m.scope && x.extent == extentOf m.scope i.c && x.number == m.episode) = some e ∧ e.done = none) ∧
    (∃ (s : State) (i : Issuer) (m : Mark) (e : Episode), s.issuer? = some i ∧ i.ctx.marks.find? (fun x => x.scope == 3) = some m ∧
      i.job.episodes.find? (fun x => x.scope == m.scope && x.extent == extentOf m.scope i.c && x.number == m.episode) = some e ∧ e.done = some 0 ∧
      0 + (i.c / 16 % 16 + i.c % 16) * i.core.stagger ≤ s.clock ∧ e.mixed = true ∧ i.mayEnter) ∧
    (∃ i, demo.issuer? = some i ∧ ¬ EagerOpen demo i 1 ∧ (∀ m ∈ i.ctx.marks, m.scope ≠ 1) ∧ (∀ n, n ≤ 10 → n ≠ i.k → (i.core.ctx n).live = false) ∧ i.k ≤ 10 ∧
      ∀ e ∈ i.job.episodes, e.scope = 1 → e.extent = i.c → e.done.isSome = true ∧ e.number < (i.job.episodes.filter fun x => x.scope == 1 && x.extent == i.c).length) :=
  ⟨⟨demoOf markedCtx, _, rfl, _, .head _, by decide⟩, ⟨_, rfl, nofun, nofun, .inr ⟨nofun, nofun⟩⟩,
   ⟨demoAt 0 [(0, demoCtx)] eagerCore demoJob [], _, rfl, nofun, ownEager, .head _, rfl, rfl, by decide⟩,
   ⟨demoAt 0 [(0, demoCtx)] demoCore { demoJob with episodes := [dieEpisode [⟨0, 1, 0, 5⟩] none false] } [], _, rfl, nofun, nofun, _, rfl, _, .head _, rfl⟩,
   ⟨demoAt 0 [(0, demoCtx)] demoCore { demoJob with episodes := [dieEpisode [] none false] } [sentArrival 1], _, rfl, nofun, nofun, ⟨_, rfl⟩, _, .head _, rfl, 4, ⟨0, 1, 0, 5⟩, 1, rfl, rfl⟩,
   ⟨demoAt 0 [(0, markedCtx)] demoCore { demoJob with episodes := [dieEpisode [⟨0, 0, 0, 5⟩] none false] } [], _, _, _, rfl, rfl, rfl, rfl⟩,
   ⟨demoAt 0 [(0, markedCtx)] demoCore { demoJob with episodes := [dieEpisode [⟨0, 0, 0, 5⟩] (some 0) true] } [], _, _, _, rfl, rfl, rfl, rfl, by decide, rfl, by decide, by decide,
    by decide⟩,
   ⟨_, rfl, nofun, nofun, by decide, by decide, nofun⟩⟩

theorem witness_EpisodesCombine :
    (∃ vs ws : List Word, vs.Perm ws ∧ vs ≠ ws) ∧
    (∃ (s : State) (j : Job) (e : Episode) (a : Arrival), s.job? 0 = some j ∧ e ∈ j.episodes ∧ e.done = none ∧ e.arrivals = [a] ∧ s.episodeFull j e = true) ∧
    (∃ (s : State) (core : Core) (j : Job) (m : Mark) (e : Episode), s.core? 0 = some core ∧ s.job? core.asid = some j ∧ (core.ctx 0).wait = some (.barw 3 6) ∧
      (core.ctx 0).marks.find? (fun x => x.scope == 3) = some m ∧
      j.episodes.find? (fun x => x.scope == m.scope && x.extent == extentOf m.scope 0 && x.number == m.episode) = some e ∧ e.done = some 0 ∧ e.mixed = false) :=
  ⟨⟨[1, 2], [2, 1], .swap _ _ _, by decide⟩,
   ⟨demoAt 0 [(0, demoCtx)] demoCore { demoJob with episodes := [dieEpisode [⟨0, 0, 0, 5⟩] none false] } [], _, _, _, rfl, .head _, rfl, rfl, by decide⟩,
   ⟨demoAt 0 [(0, { markedCtx with wait := some (.barw 3 6) })] demoCore { demoJob with episodes := [dieEpisode [⟨0, 0, 0, 5⟩] (some 0) false] } [], _, _, _, _, rfl, rfl, rfl, rfl,
    rfl, rfl, rfl⟩⟩

/-- A ring entry still held. -/
def heldRing : Dict RingEntry := [(0, { seq := 0, ctx := 0, valid := true, done := false, pcoff := 0, uid := 0, owed := 0 })]
theorem witness_EagerStores :
    (∃ (s : State) (i : Issuer), s.issuer? = some i ∧ LocalAt i (i.ctx.getX 5) 8 (dssAt 65528) ∧ MayStore i (dssAt 65528) 8 ∧ i.core.ringFree = true) ∧
    (∃ (s : State) (i : Issuer), s.issuer? = some i ∧ MeshAt i (i.ctx.getX 5) 4 (tcmAt 4) ∧ MayStore i (tcmAt 4) 4 ∧ i.core.ringFree = false) ∧
    (∃ (s : State) (m : Msg), s.net[0]? = some m ∧ m.kind = .eager (tcmAt 0) 8 5 0 ∧ s.overtaken 0 m (tcmAt 0) 8 = false ∧ s.target m.asid (tcmAt 0) = some (tcmAt 0) ∧
      s.silentHome (tcmAt 0) = false ∧ ∃ j, s.job? m.asid = some j) ∧
    (∃ (s : State) (m : Msg) (d : Dest), s.net[0]? = some m ∧ m.kind = .eager d 8 5 0 ∧ s.overtaken 0 m d 8 = false ∧ s.target m.asid d = none) ∧
    (∃ (s : State) (m : Msg) (core : Core), s.net[0]? = some m ∧ m.kind = .eagerAck ∧ s.core? m.src = some core ∧ ∀ e ∈ core.eager, e.uid = m.uid → e.cmd = none) ∧
    (∃ (s : State) (i : Issuer), s.issuer? = some i ∧ LocalAt i (i.ctx.getX 5) 8 (dssAt 65528) ∧ MayStore i (dssAt 65528) 8 ∧ s.homeIn i.core.asid 2 i.c (dssAt 65528) = false ∧
      s.homeIn i.core.asid 3 i.c (dssAt 65528) = true ∧ (∀ e ∈ i.core.eager, e.ctx = i.k → s.homeIn i.core.asid 3 i.c e.dest = false) ∧ i.core.queue 3 = []) ∧
    (∃ (s : State) (i : Issuer), s.issuer? = some i ∧ LocalAt i (i.ctx.getX 5) 8 (tcmAt 8) ∧ s.homeIn i.core.asid 1 i.c (tcmAt 8) = true ∧
      ∃ e ∈ i.core.eager, e.ctx = i.k ∧ s.homeIn i.core.asid 1 i.c e.dest = true) :=
  ⟨⟨demoOf (withX 0x200000000000FFF8), _, rfl, ⟨rfl, by decide, by decide, by decide, by decide⟩, fun _ => by decide, by decide⟩,
   ⟨demoAt 0 [(0, withX 0x4000000000000004)] { demoCore with ring := heldRing } demoJob [], _, rfl, ⟨.inl (by decide), by decide, by decide, by decide⟩, nofun, by decide⟩,
   ⟨demoAt 0 [(0, demoCtx)] demoCore demoJob [demoMsg (.eager (tcmAt 0) 8 5 0)], _, rfl, rfl, by decide, by decide, by decide, _, rfl⟩,
   ⟨demoAt 0 [(0, demoCtx)] demoCore demoJob [demoMsg (.eager ⟨255, .tcm, 0⟩ 8 5 0)], _, ⟨255, .tcm, 0⟩, rfl, rfl, by decide, by decide⟩,
   ⟨demoAt 0 [(0, demoCtx)] eagerCore demoJob [demoMsg .eagerAck], _, _, rfl, rfl, rfl, by decide⟩,
   ⟨demoOf (withX 0x200000000000FFF8), _, rfl, ⟨rfl, by decide, by decide, by decide, by decide⟩, fun _ => by decide, by decide, by decide, nofun, rfl⟩,
   ⟨demoAt 0 [(0, withX 8)] eagerCore demoJob [], _, rfl, ⟨rfl, by decide, by decide, by decide, by decide⟩, by decide, ownEager, .head _, rfl, by decide⟩⟩

theorem witness_ReduceDeltas :
    (∃ (s : State) (i : Issuer), s.issuer? = some i ∧ deltaForm i.ctx (.rredFadd 1 5) = some (0x1FFD0, .fadd, 16, 48, 0) ∧ (tcmAt 0x1FFD0).off + 48 ≤ i.job.limitOf .tcm ∧
      LocalAt i 0x1FFD0 1 (tcmAt 0x1FFD0) ∧ MayStore i (tcmAt 0x1FFD0) 48) ∧
    (∃ (s : State) (i : Issuer), s.issuer? = some i ∧ deltaForm i.ctx (.rredMax 0 5) = some (0x4000001000000000, .max, 8, 8, 0) ∧ MeshAt i 0x4000001000000000 1 (qspAt 0) ∧
      MayStore i (qspAt 0) 8) :=
  ⟨⟨demoOf (withX 0x1FFD0), _, rfl, by decide, by decide, ⟨rfl, by decide, by decide, by decide, by decide⟩, nofun⟩,
   ⟨demoOf (withX 0x4000001000000000), _, rfl, by decide, ⟨.inl (by decide), by decide, by decide, by decide⟩, nofun⟩⟩

/-- An order group of two at TCM 8 that has one member. -/
def halfGroup : OrderGroup := { dest := tcmAt 8, count := 2, members := [{ index := 1, core := 1, ctx := 0, uid := 3, addend := 4, count := 2 }], held := [] }
theorem witness_Atomics :
    (∃ (s : State) (i : Issuer) (new : Option Nat), s.issuer? = some i ∧ atomicForm i.ctx (s.bytesAt i.core.asid (tcmAt 8) 8) (.rcas 6 5 0 5) = some (6, 5, 1, 8, 0, new) ∧
      LocalAt i (i.ctx.getX 5) 8 (tcmAt 8) ∧ MayStore i (tcmAt 8) 8 ∧ NoEagerOver s i (tcmAt 8) 8) ∧
    (∃ (s : State) (i : Issuer), s.issuer? = some i ∧ atomicForm i.ctx 0 (.rswp 6 0 5) = some (6, 5, 2, 0, 0, some 0) ∧ MeshAt i (i.ctx.getX 5) 8 (tcmAt 8) ∧
      MayStore i (tcmAt 8) 8) ∧
    (∃ (s : State) (i : Issuer), s.issuer? = some i ∧ LocalAt i (i.ctx.getX 5) 8 (tcmAt 8) ∧ MayStore i (tcmAt 8) 8 ∧ 1 ≤ (i.ctx.getX 7).toNat ∧ (i.ctx.getX 7).toNat ≤ i.job.n ∧
      (i.ctx.getX 0).toNat = 0) :=
  ⟨⟨demoOf (withX 8), _, _, rfl, rfl, ⟨rfl, by decide, by decide, by decide, by decide⟩, nofun, nofun⟩,
   ⟨demoOf (withX 0x4000000000000008), _, rfl, rfl, ⟨.inl (by decide), by decide, by decide, by decide⟩, nofun⟩,
   ⟨demoOf { demoCtx with x := [(5, 8), (7, 1)] }, _, rfl, ⟨rfl, by decide, by decide, by decide, by decide⟩, nofun, by decide, by decide, by decide⟩⟩

theorem witness_AtomicArrivals :
    (∃ (s : State) (x : Msg), s.net[0]? = some x ∧ x.kind = .atomic ⟨1, .tcm, 8⟩ 0 1 0 0 ∧ s.overtaken 0 x ⟨1, .tcm, 8⟩ 8 = false ∧ s.target x.asid ⟨1, .tcm, 8⟩ = none) ∧
    (∃ (s : State) (x : Msg), s.net[0]? = some x ∧ x.kind = .atomic (tcmAt 8) 1 1 0 0 ∧ s.overtaken 0 x (tcmAt 8) 8 = false ∧ s.target x.asid (tcmAt 8) = some (tcmAt 8) ∧
      s.silentHome (tcmAt 8) = false ∧ (s.job? x.asid).isSome = true) ∧
    (∃ (s : State) (x : Msg) (k : Core) (j : Job), s.net[0]? = some x ∧ x.kind = .order (tcmAt 8) 1 2 0 ∧ s.overtaken 0 x (tcmAt 8) 8 = false ∧
      s.target x.asid (tcmAt 8) = some (tcmAt 8) ∧ s.silentHome (tcmAt 8) = false ∧ s.core? x.src = some k ∧ s.job? x.asid = some j ∧ j.groups = []) ∧
    (∃ (s : State) (x : Msg) (k : Core) (j : Job) (g : OrderGroup), s.net[0]? = some x ∧ x.kind = .order (tcmAt 8) 1 2 0 ∧ s.core? x.src = some k ∧ s.job? x.asid = some j ∧
      j.groups.find? (fun g => sameHome g.dest (tcmAt 8) && g.dest.off == 8) = some g ∧ g.count = 2 ∧ (∀ q ∈ g.members, q.index ≠ k.index) ∧ g.members.length + 1 = 2 ∧ g.held = [] ∧
      (g.members.map OrderReq.index).Nodup ∧ g.dest = tcmAt 8) ∧
    (∃ (s : State) (x : Msg) (j : Job) (g : OrderGroup), s.net[0]? = some x ∧ x.kind = .order (tcmAt 8) 1 1 0 ∧ s.job? x.asid = some j ∧
      j.groups.find? (fun g => sameHome g.dest (tcmAt 8) && g.dest.off == 8) = some g ∧ g.count ≠ 1) :=
  ⟨⟨demoAt 0 [(0, demoCtx)] demoCore demoJob [demoMsg (.atomic ⟨1, .tcm, 8⟩ 0 1 0 0)], _, rfl, rfl, by decide, by decide⟩,
   ⟨demoAt 0 [(0, demoCtx)] demoCore demoJob [demoMsg (.atomic (tcmAt 8) 1 1 0 0)], _, rfl, rfl, by decide, by decide, by decide, by decide⟩,
   ⟨demoAt 0 [(0, demoCtx)] demoCore demoJob [demoMsg (.order (tcmAt 8) 1 2 0)], _, _, _, rfl, rfl, by decide, by decide, by decide, rfl, rfl, rfl⟩,
   ⟨demoAt 0 [(0, demoCtx)] demoCore { demoJob with groups := [halfGroup] } [demoMsg (.order (tcmAt 8) 1 2 0)], _, _, _, _, rfl, rfl, rfl, rfl, rfl, rfl, by decide, by decide, rfl,
    by decide, rfl⟩,
   ⟨demoAt 0 [(0, demoCtx)] demoCore { demoJob with groups := [halfGroup] } [demoMsg (.order (tcmAt 8) 1 1 0)], _, _, _, rfl, rfl, rfl, rfl, by decide⟩⟩

theorem witness_Mailboxes :
    (∃ i, demo.issuer? = some i ∧ Beside i.c ((7 : BitVec 4).toNat / 4) 1) ∧ (∃ i, demo.issuer? = some i ∧ ∀ d, ¬ Beside i.c ((0 : BitVec 4).toNat / 4) d) ∧
    (∃ (s : State) (m : Msg) (core : Core), s.net[0]? = some m ∧ m.kind = .post 1 15 5 ∧ s.forwarded m.asid 1 = 1 ∧ s.belongs m.asid 1 = true ∧ s.core? 1 = some core ∧
      core.dead = false ∧ 15 ∉ core.present ∧ (∀ e ∈ s.net.take 0, e.src ≠ m.src) ∧ 1 ≠ m.src) ∧
    (∃ (s : State) (i : Issuer), s.issuer? = some i ∧ (15 : BitVec 4).toNat ∈ i.core.present) ∧
    (∃ i, demo.issuer? = some i ∧ (15 : BitVec 4).toNat ∉ i.core.present ∧ i.core.nbwait ≠ 0) ∧
    (∃ (s : State) (i : Issuer), s.issuer? = some i ∧ (15 : BitVec 4).toNat ∉ i.core.present ∧ i.core.nbwait = 0) ∧
    (∃ (s : State) (core : Core), s.core? 0 = some core ∧ (core.ctx 0).wait = some (.nget 6 15 7 0) ∧ 0 ≤ s.clock ∧ (15 : BitVec 4).toNat ∉ core.present) :=
  ⟨⟨_, rfl, .inr (.inl (by decide))⟩, ⟨_, rfl, by rintro d (h | h | h | h) <;> simp [demo, demoOf, demoAt] at h⟩,
   ⟨{ demo with cores := [(0, demoCore), (1, { demoCore with index := 1 })], net := [demoMsg (.post 1 15 5)] }, _, _, rfl, rfl, by decide, by decide, rfl, rfl, by decide, nofun, by decide⟩,
   ⟨demoAt 0 [(0, demoCtx)] { demoCore with present := [15] } demoJob [], _, rfl, by decide⟩, ⟨_, rfl, by decide, by decide⟩,
   ⟨demoAt 0 [(0, demoCtx)] { demoCore with nbwait := 0 } demoJob [], _, rfl, by decide, rfl⟩,
   ⟨demoOf { demoCtx with wait := some (.nget 6 15 7 0) }, _, rfl, rfl, by decide, by decide⟩⟩

/-- TCM bytes for a hamper at 16: armed for 8 bytes of which 7 have arrived; and for a ring of two 32-byte slots at 32, one of them filled. -/
def hamperMem : Memory := [(16, 8), (20, 7), (24, 2)]
def ringMem : Memory := [(32, 64), (40, 32), (44, 1), (48, 1), (52, 1)]
def hamperAt (armed : Bool) : HamperFields := if armed then ⟨8, 7, false, true, 0⟩ else ⟨0, 0, false, false, 0⟩
def memCore (m : Memory) : Core := { demoCore with tcm := { cur := m, base := [] } }
theorem witness_Hampers :
    (∃ (s : State) (i : Issuer), s.issuer? = some i ∧ LocalAt i (i.ctx.getX 5) 16 (tcmAt 16) ∧ NoEagerOver s i (tcmAt 16) 16 ∧
      HamperIs (hamperAt true) 0 (s.bytesAt i.core.asid (tcmAt 16) 16) ∧ (hamperAt true).phase = (i.ctx.getX 0).getLsbD 0 ∧ (hamperAt true).phase ≠ (i.ctx.getX 7).getLsbD 0) ∧
    (∃ (s : State) (i : Issuer), s.issuer? = some i ∧ LocalAt i (i.ctx.getX 5) 16 (tcmAt 16) ∧ HamperIs (hamperAt false) 0 (s.bytesAt i.core.asid (tcmAt 16) 16) ∧
      (i.ctx.getX 7).toNat % 2 ^ 32 ≠ 0 ∧ (hamperAt false).phase ≠ (i.ctx.getX 7).getLsbD 0 ∧ LocalAt i (i.ctx.getX 5) 8 (tcmAt 16) ∧
      s.bytesAt i.core.asid (tcmAt 16) 8 < (i.ctx.getX 7).toNat ∧ (i.ctx.getX 0).toNat ≤ s.bytesAt i.core.asid (tcmAt 16) 8) :=
  ⟨⟨demoAt 0 [(0, { demoCtx with x := [(5, 16), (7, 1)] })] (memCore hamperMem) demoJob [], _, rfl, ⟨rfl, by decide, by decide, by decide, by decide⟩, nofun,
    by unfold HamperIs; decide, by decide, by decide⟩,
   ⟨demoOf { demoCtx with x := [(5, 16), (7, 1)] }, _, rfl, ⟨rfl, by decide, by decide, by decide, by decide⟩, by unfold HamperIs; decide, by decide, by decide,
    ⟨rfl, by decide, by decide, by decide, by decide⟩, by decide, by decide⟩⟩

def twoSlots : RingFields := ⟨64, 32, 1, 1, 1, 0, 0⟩
theorem witness_Rings :
    (∃ (s : State) (i : Issuer), s.issuer? = some i ∧ LocalAt i (i.ctx.getX 5) 32 (tcmAt 32) ∧ NoEagerOver s i (tcmAt 32) 32 ∧
      RingIs twoSlots 0 (s.bytesAt i.core.asid (tcmAt 32) 32) ∧ twoSlots.Valid i ∧ 0 < twoSlots.filled ∧
      twoSlots.free + twoSlots.filled + (i.ctx.getX 0).toNat ≤ twoSlots.nslot + 1 ∧ twoSlots.nslot + 1 < twoSlots.free + twoSlots.filled + (i.ctx.getX 5).toNat) ∧
    (∃ (s : State) (i : Issuer), s.issuer? = some i ∧ LocalAt i (i.ctx.getX 5) 32 (tcmAt 32) ∧ RingIs ⟨64, 32, 1, 0, 0, 0, 0⟩ 0 (s.bytesAt i.core.asid (tcmAt 32) 32) ∧
      (⟨64, 32, 1, 0, 0, 0, 0⟩ : RingFields).Valid i) ∧
    (∃ (s : State) (i : Issuer), s.issuer? = some i ∧ LocalAt i (i.ctx.getX 5) 32 (tcmAt 32) ∧ RingIs ⟨0, 0, 0, 0, 0, 0, 0⟩ 0 (s.bytesAt i.core.asid (tcmAt 32) 32) ∧
      ¬ (⟨0, 0, 0, 0, 0, 0, 0⟩ : RingFields).Valid i) :=
  ⟨⟨demoAt 0 [(0, withX 32)] (memCore ringMem) demoJob [], _, rfl, ⟨rfl, by decide, by decide, by decide, by decide⟩, nofun, by unfold RingIs; decide,
    ⟨by decide, by decide, by decide, by decide, by decide, by decide, tcmAt 64, ⟨rfl, by decide, by decide, by decide, by decide⟩, by decide, by decide⟩, by decide, by decide, by decide⟩,
   ⟨demoAt 0 [(0, withX 32)] (memCore [(32, 64), (40, 32), (44, 1)]) demoJob [], _, rfl, ⟨rfl, by decide, by decide, by decide, by decide⟩, by unfold RingIs; decide,
    ⟨by decide, by decide, by decide, by decide, by decide, by decide, tcmAt 64, ⟨rfl, by decide, by decide, by decide, by decide⟩, by decide, by decide⟩⟩,
   ⟨demoOf (withX 32), _, rfl, ⟨rfl, by decide, by decide, by decide, by decide⟩, by unfold RingIs; decide, fun h => absurd h.2.1 (by decide)⟩⟩

/-- Templates at 0x20 of the TCM: `ACCZ`, and `QFENCE` without marks, which is no legal template. -/
def acczMem : Memory := [(32, 5)]
def acczTemplate : Template := ⟨5, 0, 0, 0⟩
/-- A command as it stands at the head of a queue, with header `d0` and descriptor words. -/
def cmdOf (d0 d1 d2 d3 a1 a2 : Word) : Cmd :=
  { uid := 4, ctx := 0, seq := 0, d0 := d0, d1 := d1, d2 := d2, d3 := d3, a1 := a1, a2 := a2, acc := 0, firing := none, patch := 0, pair := 0, before := [], after := []
    stage := .queued, progress := 0, outstanding := 0, cause := 0, tval := 0, flags := 0, enabled := 0, bytes := 0, gone := false, hit := 0, list := [], seen := none }
theorem witness_Pushes :
    (∃ (s : State) (i : Issuer), s.issuer? = some i ∧ pushForm i.ctx (.enq 0 5) = some (0, none, 5, 0, 0) ∧ LocalAt i (i.ctx.getX 5) 32 (tcmAt 32) ∧ NoEagerOver s i (tcmAt 32) 32 ∧
      TemplateAt s i (tcmAt 32) 0 acczTemplate ∧ templateCause i.core 0 none acczTemplate = none ∧ i.core.ringFree = true ∧ (i.core.queue 0).length < [16, 32, 16, 32].getD 0 0) ∧
    (∃ (s : State) (i : Issuer), s.issuer? = some i ∧ templateCause i.core 0 none acczTemplate = none ∧ i.core.ringFree = false) ∧
    (∃ (s : State) (i : Issuer), s.issuer? = some i ∧ templateCause i.core 0 none acczTemplate = none ∧ i.core.ringFree = true ∧ [16, 32, 16, 32].getD 0 0 ≤ (i.core.queue 0).length) ∧
    (∃ (s : State) (i : Issuer), s.issuer? = some i ∧ pushForm i.ctx (.mxiI8Tern 5 0 30) = some (0, some 6, 5, 0, 0) ∧ LocalAt i (i.ctx.getX 5) 32 (tcmAt 32) ∧
      TemplateAt s i (tcmAt 32) 0 acczTemplate ∧ (some 6).isSome = true ∧ acczTemplate.d0.toNat % 256 ∉ [0x01, 0x02]) ∧
    (∃ (s : State) (i : Issuer), s.issuer? = some i ∧ LocalAt i (i.ctx.getX 5) 32 (tcmAt 32) ∧ TemplateAt s i (tcmAt 32) 0 ⟨0xF0005, 0, 0, 0⟩ ∧
      templateIllegal i.core 0 none ⟨0xF0005, 0, 0, 0⟩ = false ∧ 8 < 0xF0005 / 2 ^ 16 % 8 + 2 ^ (0xF0005 / 2 ^ 19 % 8)) ∧
    (∃ (s : State) (i : Issuer), s.issuer? = some i ∧ LocalAt i (i.ctx.getX 5) 32 (tcmAt 32) ∧ TemplateAt s i (tcmAt 32) 0 ⟨0x100000000800005 + 2 ^ 57 + 2 ^ 32, 0, 0, 0⟩ ∧
      (0x100000000800005 + 2 ^ 57 + 2 ^ 32) / 2 ^ 32 % 2 ^ 24 % 16 ≠ 0) :=
  ⟨⟨demoAt 0 [(0, withX 32)] { demoCore with tcm := ⟨acczMem, []⟩ } demoJob [], _, rfl, by decide, ⟨rfl, by decide, by decide, by decide, by decide⟩, nofun,
    by unfold TemplateAt Patched; decide, by decide, by decide, by decide⟩,
   ⟨demoAt 0 [(0, demoCtx)] { demoCore with ring := [(0, { seq := 0, ctx := 0, valid := true, done := false, pcoff := 0, uid := 0, owed := 0 })] } demoJob [], _, rfl, by decide, by decide⟩,
   ⟨demoAt 0 [(0, demoCtx)] { demoCore with q := [(0, List.replicate 16 (cmdOf 5 0 0 0 0 0))] } demoJob [], _, rfl, by decide, by decide, by decide⟩,
   ⟨demoAt 0 [(0, withX 32)] { demoCore with tcm := ⟨acczMem, []⟩ } demoJob [], _, rfl, by decide, ⟨rfl, by decide, by decide, by decide, by decide⟩,
    by unfold TemplateAt Patched; decide, rfl, by decide⟩,
   ⟨demoAt 0 [(0, withX 32)] { demoCore with tcm := ⟨[(32, 5), (34, 0xF)], []⟩ } demoJob [], _, rfl, ⟨rfl, by decide, by decide, by decide, by decide⟩,
    by unfold TemplateAt Patched; decide, by decide, by decide⟩,
   ⟨demoAt 0 [(0, withX 32)] { demoCore with tcm := ⟨[(32, 5), (34, 0x80), (36, 1), (39, 3)], []⟩ } demoJob [], _, rfl, ⟨rfl, by decide, by decide, by decide, by decide⟩,
    by unfold TemplateAt Patched; decide, by decide⟩⟩

theorem witness_StatusAndTiles :
    (∃ (s : State) (i : Issuer), s.issuer? = some i ∧ dget? i.core.status 6 = some (5 :: [])) ∧ (∃ i, demo.issuer? = some i ∧ dget? i.core.status 6 = none) ∧
    (∃ (s : State) (i : Issuer), s.issuer? = some i ∧ tileCause i (i.ctx.getX 0).toNat ((i.ctx.getX 0).toNat % 2 ^ 30) = .ok 0 ∧ i.core.ringFree = true ∧ (i.core.queue 3).length < 32) ∧
    (∃ i, demo.issuer? = some i ∧ (dgetD i.job.tiles (i.c / 256) []).length ≤ (i.ctx.getX 0).toNat) :=
  ⟨⟨demoAt 0 [(0, demoCtx)] { demoCore with status := [(6, [5])] } demoJob [], _, rfl, rfl⟩, ⟨_, rfl, rfl⟩,
   ⟨demoAt 0 [(0, demoCtx)] demoCore { demoJob with tiles := [(0, [0])], window := 1 } [], _, rfl, rfl, by decide, by decide⟩, ⟨_, rfl, by decide⟩⟩

/-- Context 0 with a grant of `n` lanes, `p1` selecting lanes 0 and 63 and an address in `x5`. -/
def granted (n : Nat) (a : Word) : Ctx := { demoCtx with grant := n, x := [(5, a), (6, 8)], p := [(1, 0x8000000000000001)] }
theorem witness_VectorElementwise :
    (∃ (s : State) (i : Issuer) (g : Nat → Nat × BitVec 7), s.issuer? = some i ∧ vectorValue (.vadd 3 1 2 3 1) i.ctx = some (1, 1, 8, g) ∧ 0 < i.ctx.grant ∧ i.ctx.grant ≤ 64 ∧
      i.core.ringFree = true) ∧
    (∃ (s : State) (i : Issuer), s.issuer? = some i ∧ 0 < i.ctx.grant ∧ i.core.ringFree = false) ∧ (∃ i, demo.issuer? = some i ∧ i.ctx.grant = 0) :=
  ⟨⟨demoOf (granted 64 0), _, _, rfl, rfl, by decide, by decide, by decide⟩,
   ⟨demoAt 0 [(0, granted 4 0)] { demoCore with ring := [(0, { seq := 0, ctx := 0, valid := true, done := false, pcoff := 0, uid := 0, owed := 0 })] } demoJob [], _, rfl, by decide, by decide⟩,
   ⟨_, rfl, rfl⟩⟩

theorem witness_VectorPredicates :
    (∃ (s : State) (i : Issuer) (g : Nat → Bool), s.issuer? = some i ∧ compareValue (.vcmpEq 1 2 2 3 1) i.ctx = some (2, 1, 16, g) ∧ 0 < i.ctx.grant ∧ i.ctx.grant ≤ 64 ∧
      i.core.ringFree = true) ∧
    (∃ i, demo.issuer? = some i ∧ predicateValue i.ctx (.pmov 0 7) = some (0, 0)) := ⟨⟨demoOf (granted 64 0), _, _, rfl, rfl, by decide, by decide, by decide⟩, _, rfl, rfl⟩

theorem witness_VectorMemory :
    (∃ (s : State) (i : Issuer), s.issuer? = some i ∧ stridedForm i.ctx (.vsts 1 5 6 1) = some (1, 0x100, 8, 1, true) ∧ 0 < i.ctx.grant ∧ i.ctx.grant ≤ 64 ∧
      LocalForm 0x100 .tcm 0x100 ∧ (8 : Int) % 4 = 0 ∧ i.core.ringFree = true ∧ NoOwnEager s i ∧
      ∀ e, e < i.ctx.grant ∧ (i.ctx.getP 1).getLsbD e = true → ¬ ((0x100 : Int) + e * 8 < 0 ∨ (i.job.limitOf .tcm : Int) < 0x100 + e * 8 + 4 ∨
        ¬ MayStore i (localDest i .tcm (0x100 + e * 8)) 4)) ∧
    (∃ (s : State) (i : Issuer), s.issuer? = some i ∧ stridedForm i.ctx (.vlds 1 5 6 1) = some (1, 0x1FFFC, 8, 1, false) ∧ LocalForm 0x1FFFC .tcm 0x1FFFC ∧
      (63 < i.ctx.grant ∧ (i.ctx.getP 1).getLsbD 63 = true) ∧ (i.job.limitOf .tcm : Int) < 0x1FFFC + 63 * 8 + 4 ∧
      ∀ n, n < 63 → (n < i.ctx.grant ∧ (i.ctx.getP 1).getLsbD n = true) → ¬ ((0x1FFFC : Int) + n * 8 < 0 ∨ (i.job.limitOf .tcm : Int) < 0x1FFFC + n * 8 + 4)) ∧
    (∃ (s : State) (i : Issuer), s.issuer? = some i ∧ stridedForm i.ctx (.vld 1 5 1) = some (1, 2, 4, 1, false) ∧ 0 < i.ctx.grant ∧ LocalForm 2 .tcm 2) ∧
    (∃ (s : State) (i : Issuer), s.issuer? = some i ∧ stridedForm i.ctx (.vld 1 5 1) = some (1, 0x3000000000000000, 4, 1, false) ∧ 3 ≤ (0x3000000000000000 : Word).toNat / 2 ^ 60) :=
  ⟨⟨demoOf (granted 64 0x100), _, rfl, by decide, by decide, by decide, ⟨by decide, by decide⟩, by decide, by decide, nofun, by
      rintro e ⟨h, -⟩ (h1 | h1 | h1)
      · omega
      · change (0x20000 : Int) < _ at h1
        change e < 64 at h
        omega
      · exact h1 nofun⟩,
   ⟨demoOf (granted 64 0x1FFFC), _, rfl, by decide, ⟨by decide, by decide⟩, ⟨by decide, by decide⟩, by decide, by decide⟩,
   ⟨demoOf (granted 64 2), _, rfl, by decide, by decide, by decide, by decide⟩,
   ⟨demoOf (granted 64 0x3000000000000000), _, rfl, by decide, by decide⟩⟩

theorem witness_VectorGather :
    (∃ (s : State) (i : Issuer), s.issuer? = some i ∧ 0 < i.ctx.grant ∧ i.ctx.grant ≤ 64 ∧ LocalForm (i.ctx.getX 5) .qsp 0x33FFFC ∧ i.core.ringFree = true ∧ NoOwnEager s i ∧
      (0 < i.ctx.grant ∧ (i.ctx.getP 1).getLsbD 0 = true ∧ 0x33FFFC + 4 * (i.ctx.getV 2 0).toNat + 4 ≤ 0x340000)) ∧
    (∃ (s : State) (i : Issuer), s.issuer? = some i ∧ 0 < i.ctx.grant ∧ (i.ctx.getX 5).toNat / 2 ^ 36 ≠ 2 ^ 24) ∧
    (∃ (s : State) (i : Issuer), s.issuer? = some i ∧ LocalAt i (i.ctx.getX 5) 8 (tcmAt 8) ∧ i.core.ringFree = true ∧ NoOwnEager s i) ∧
    (∃ (s : State) (i : Issuer), s.issuer? = some i ∧ LocalAt i (i.ctx.getX 5) 8 (dssAt 65528) ∧ MayStore i (dssAt 65528) 8) :=
  ⟨⟨demoOf (granted 64 0x100000000033FFFC), _, rfl, by decide, by decide, ⟨by decide, by decide⟩, by decide, nofun, by decide, by decide, by decide⟩,
   ⟨demoOf (granted 4 8), _, rfl, by decide, by decide⟩,
   ⟨demoOf (withX 8), _, rfl, ⟨rfl, by decide, by decide, by decide, by decide⟩, by decide, nofun⟩,
   ⟨demoOf (withX 0x200000000000FFF8), _, rfl, ⟨rfl, by decide, by decide, by decide, by decide⟩, fun _ => by decide⟩⟩

theorem witness_VectorReductions :
    (∃ (s : State) (i : Issuer) (x : Half32) (fl : BitVec 7), s.issuer? = some i ∧ reduction (.vredMin 3 1 2 1) i.ctx = some (1, x, fl) ∧ 0 < i.ctx.grant ∧ i.ctx.grant ≤ 64 ∧
      i.core.ringFree = true ∧ (i.ctx.getX 6).toNat < i.ctx.grant) ∧
    (∃ (s : State) (i : Issuer), s.issuer? = some i ∧ 0 < i.ctx.grant ∧ i.core.ringFree = true ∧ i.ctx.grant ≤ (i.ctx.getX 6).toNat) ∧
    (∃ v1 g vd : R5, g.toNat % 4 = 0 ∧ g.toNat ≤ 20 ∧ ¬ (g.toNat ≤ vd.toNat ∧ vd.toNat ≤ g.toNat + 11) ∧ ¬ (g.toNat ≤ v1.toNat ∧ v1.toNat ≤ g.toNat + 11)) ∧
    (∃ g vd : R5, g.toNat ≤ vd.toNat ∧ vd.toNat ≤ g.toNat + 11 ∧ vd.toNat = g.toNat + 11) :=
  ⟨⟨demoOf (granted 64 0), _, _, _, rfl, rfl, by decide, by decide, by decide, by decide⟩, ⟨demoOf (granted 8 0), _, rfl, by decide, by decide, by decide⟩, ⟨0, 20, 19, by decide⟩, 20, 31,
   by decide⟩

/-- A claim by context 0 of position 0 at the head of its quad's order. -/
def claimState (free : Bool) : State :=
  { demoAt 0 [(0, { demoCtx with wait := some (.vclaim 6 64) }), (1, { demoCtx with grant := if free then 0 else 4 })] demoCore demoJob [] with
    modules := [(0, { Module.reset with quads := [(0, { claims := [{ core := 0, ctx := 0, n := 64, ticket := 0, entered := 0, spare := false }], headFrom := 0, spare := [] })] })] }
theorem witness_LaneClaims :
    (∃ (s : State) (i : Issuer), s.issuer? = some i ∧ (i.ctx.getX 5).toNat = 65 ∧ 64 < (i.ctx.getX 5).toNat) ∧ (∃ i, demo.issuer? = some i ∧ (i.ctx.getX 5).toNat = 0) ∧
    (∃ (s : State) (i : Issuer), s.issuer? = some i ∧ (i.ctx.getX 5).toNat = 64 ∧ i.ctx.grant = 0 ∧ (s.quad (coreQuad i.c)).claims = [] ∧ 64 ≤ s.freeLanes (coreQuad i.c) ∧
      (s.quad (coreQuad i.c)).headFrom ≤ s.clock) ∧
    (∃ (s : State) (i : Issuer), s.issuer? = some i ∧ (i.ctx.getX 5).toNat = 4 ∧ i.ctx.grant = 0 ∧ (s.quad (coreQuad i.c)).claims ≠ [] ∧
      ∃ d, s.module? (quadModule (coreQuad i.c)) = some d) ∧
    (∃ (s : State) (i : Issuer), s.issuer? = some i ∧ ∃ l ∈ i.core.lanes, l.ctx = i.k) ∧ (∃ i, demo.issuer? = some i ∧ ∀ l ∈ i.core.lanes, l.ctx ≠ i.k) ∧
    (∃ (core : Core) (cl : Claim), ((claimState true).quad 0).claims = [cl] ∧ (claimState true).core? cl.core = some core ∧ (core.ctx cl.ctx).wait = some (.vclaim 6 cl.n) ∧
      cl.n ≤ (claimState true).freeLanes 0 ∧ ((claimState true).quad 0).headFrom ≤ (claimState true).clock) ∧
    (∃ (core : Core) (cl : Claim), ((claimState false).quad 0).claims = [cl] ∧ (claimState false).core? cl.core = some core ∧ (claimState false).freeLanes 0 < cl.n) :=
  ⟨⟨demoOf (withX 65), _, rfl, by decide, by decide⟩, ⟨_, rfl, by decide⟩, ⟨demoOf (withX 64), _, rfl, by decide, rfl, rfl, by decide, by decide⟩,
   ⟨{ claimState true with cores := [(0, { demoCore with ctxs := [(0, withX 4)] })] }, _, rfl, by decide, rfl, by decide, _, rfl⟩,
   ⟨demoAt 0 [(0, demoCtx)] { demoCore with lanes := [{ seq := 0, ctx := 0, flags := 0, enabled := 0, fault := none, release := 0, gone := false, poison := none }] } demoJob [], _, rfl, _, .head _, rfl⟩,
   ⟨_, rfl, nofun⟩, ⟨_, _, rfl, rfl, rfl, by decide, by decide⟩, ⟨_, _, rfl, rfl, by decide⟩⟩

theorem witness_TaperOps : (∃ (i : Issuer) (o : FpResult) (fl : BitVec 7), demo.issuer? = some i ∧ taperForm i.ctx (.fcvtSQt8 1 0) = some (o, fl)) ∧ (∃ p : Nat, p < 2 ^ 8 ∧ p ≠ 0x80) :=
  ⟨⟨_, _, _, rfl, rfl⟩, 255, by decide, by decide⟩

/-- A booted module whose queue 0 is enabled with 16 slots and has fetched nothing. -/
def demoQueue : Queue := { Queue.reset with enabled := true, size := 4 }
def demoModule : Module := { Module.reset with ready := true, bootCode := 1, queues := [(0, demoQueue)] }
def withModule (s : State) (d : Module) : State := { s with modules := [(0, d)] }
theorem witness_HostRegisters :
    (∃ d, demo.module? 0 = some d ∧ d.jmen = false ∧ d.power = .d0 ∧ (true ≠ d.hostord)) ∧
    (∃ (d : Module) (e : Entry), (withModule demo { demoModule with slots := [(1, ⟨1, 1, 0, 1, 0, 0, 0, 0, 0⟩)] }).module? 0 = some d ∧ d.slots = [(e.jsn % 65536, e)] ∧ d.heldTab = []) ∧
    (∃ e ∈ demo.jobs, 0 ∈ e.2.modules) ∧ (∀ e ∈ ({ demo with jobs := [] } : State).jobs, 0 ∉ e.2.modules) ∧
    Accepted .ctl 0x7FFFC0 64 false ∧ ¬ Accepted .mgmt 0x14 8 false ∧ (∃ d, (withModule demo { Module.reset with power := .d3hot }).module? 0 = some d ∧ d.power ≠ .d0) :=
  ⟨⟨_, rfl, rfl, rfl, by decide⟩, ⟨_, ⟨1, 1, 0, 1, 0, 0, 0, 0, 0⟩, rfl, rfl, rfl⟩, ⟨_, .head _, by decide⟩, fun e h => (List.not_mem_nil h).elim, by unfold Accepted; decide, by unfold Accepted; decide,
   ⟨_, rfl, by decide⟩⟩
theorem witness_HostAccess :
    HostAt demo 0 0x1FFF8 8 0 (tcmAt 0x1FFF8) ∧ HostAt demo 0 (3 * 2 ^ 27 + 65532) 4 0 (dssAt 65532) ∧ (∀ asid d, ¬ HostAt demo 0 0x20000 8 asid d) :=
  ⟨⟨by decide, by decide, by decide, by decide, by decide, ⟨_, rfl, rfl⟩, _, _, rfl, rfl, rfl, by decide, by decide⟩,
   ⟨by decide, by decide, by decide, by decide, by decide, ⟨_, rfl, rfl⟩, _, _, rfl, rfl, rfl, by decide, by decide⟩,
   by
    rintro asid ⟨c, sp, off⟩ ⟨hc, ho, hs, -, -, -, k, j, -, -, hj, hl, -⟩
    cases sp <;> simp at hs
    have hj : demo.job? asid = some j := hj
    simp only at ho hl
    simp [Job.limitOf] at hl
    omega⟩

/-- A host command of 64 bytes at bus address 0, and the queue with it to be fetched. -/
def fetchState (host : Memory) (q : Queue) : State := { withModule demo { demoModule with queues := [(0, { q with tail := 1 })] } with host := host }
theorem witness_QueueSteps :
    (∃ d, demo.module? 0 = some d ∧ d.ready = false) ∧
    (∃ d, (fetchState [] demoQueue).module? 0 = some d ∧ d.nextQueue = some 0 ∧ d.ready = true ∧ (∀ e, dget? d.slots (d.jhead % 65536) = some e → e.final = true) ∧
      readMem (fetchState [] demoQueue).host 0 64 / 2 ^ 64 % 2 ^ 48 = 0) ∧
    (∃ d, (fetchState [(0, 7), (8, 1)] demoQueue).module? 0 = some d ∧ d.nextQueue = some 0 ∧ d.ready = true ∧
      readMem (fetchState [(0, 7), (8, 1)] demoQueue).host 0 64 / 2 ^ 64 % 2 ^ 48 = (d.queue 0).qexp ∧ badKind (readMem (fetchState [(0, 7), (8, 1)] demoQueue).host 0 64) = none) ∧
    (∃ (d : Module) (e : Entry), d = { demoModule with queues := [(0, { demoQueue with tail := 1, qexp := 2 })], slots := [(5, ⟨5, 1, 0, 1, 0, 4, 0, 0, 0⟩)] } ∧ d.nextQueue = some 0 ∧
      d.entryOf 0 1 = some e ∧ (1 : Nat) ≠ 0 ∧ 1 < (d.queue 0).qexp) ∧
    (∃ d, demo.module? 0 = some d ∧ (d.queue 63).pending = []) ∧
    (∃ (d : Module) (c : Completion), (withModule demo { demoModule with queues := [(0, { demoQueue with pending := [⟨0, 0, 1, 1⟩], chead := 5 })] }).module? 0 = some d ∧
      (d.queue 0).pending = [c] ∧ ((d.queue 0).cidx + 1) % 2 ^ (d.queue 0).size ≠ (d.queue 0).chead % 2 ^ (d.queue 0).size ∧ (d.queue 0).irq = false) :=
  ⟨⟨_, rfl, rfl⟩, ⟨_, rfl, by decide, rfl, nofun, by decide⟩, ⟨_, rfl, by decide, rfl, by decide, by decide⟩, ⟨_, _, rfl, by decide, rfl, by decide, by decide⟩, ⟨_, rfl, by decide⟩,
   ⟨_, _, rfl, rfl, by decide, rfl⟩⟩

/-- Command 1 of queue 0, with its bytes, is accepted and due; the job of ASID 0 is as given. -/
def dueState (b : Nat) (jobs : Dict Job) (host : Memory) : State :=
  { State.reset with
    modules := [(0, { demoModule with commands := [{ jsn := 1, queue := 0, prio := 0, bytes := b, busy := false }], slots := [(1, ⟨1, 1, 0, b % 256, 0, 0, 0, 0, 0⟩), (2, ⟨2, 2, 0, 1, 0, 2, 0, 0, 0⟩)], jhead := 3 })]
    jobs := jobs, host := host }
theorem dueState_due (b : Nat) (jobs : Dict Job) (host : Memory) (kind : Nat) (h : b % 256 = kind) :
    CommandDue (dueState b jobs host) 0 1 kind { jsn := 1, queue := 0, prio := 0, bytes := b, busy := false } := by
  refine ⟨?_, _, ⟨1, 1, 0, b % 256, 0, 0, 0, 0, 0⟩, rfl, rfl, rfl, rfl⟩
  have hk : cmdKind b = kind := by unfold cmdKind field; simpa using h
  simp [State.command?, dueState, State.module?, dget?, hk]
/-- A job image of one core: its header and one CODE section of 32 bytes at image offset 0xA0. -/
def imageMem : Memory :=
  [(0, 0x51), (1, 0x54), (2, 0x41), (3, 0x4A), (4, 1), (6, 0x80), (8, 0xC0), (16, 1), (39, 0x20), (47, 0x20), (64, 1), (68, 0x80), (128, 1), (129, 2), (144, 0xA0), (152, 0x20)]
/-- The job of ASID 0 as the host's commands find it: running, of the LAUNCH with JSN 2. -/
def liveJob : Job := { demoJob with jsn := 2 }
def launchBytes : Nat := 1 + 192 * 2 ^ 192
def asLaunched (j : Job) : Job := { j with home := 0, jsn := 1, queue := 0, prio := 0, root := 0 }
theorem imageMem_read : ∃ j, readImage imageMem (dueState launchBytes [] imageMem).hostBad 0 192 = .ok j ∧ (dueState launchBytes [] imageMem).candidates (asLaunched j) ≠ [] := by
  have h : (match readImage imageMem (dueState launchBytes [] imageMem).hostBad 0 192 with
    | .ok j => !((dueState launchBytes [] imageMem).candidates (asLaunched j)).isEmpty
    | .error _ => false) = true := by decide +kernel
  revert h
  cases readImage imageMem (dueState launchBytes [] imageMem).hostBad 0 192 with
  | error e => exact fun h => nomatch h
  | ok j => exact fun h => ⟨j, rfl, fun e => by simp [e] at h⟩
theorem readImage_error {m : Memory} {b : Nat → Nat → Bool} {a n c : Nat} (h : (match readImage m b a n with | .error e => e == c | .ok _ => false) = true) : readImage m b a n = .error c := by
  revert h
  cases readImage m b a n <;> simp
theorem witness_Launch :
    (∃ s c, CommandDue s 0 1 1 c ∧ BadFields c.bytes [3]) ∧
    (∃ s c, CommandDue s 0 1 1 c ∧ ¬ BadFields c.bytes [3] ∧ c.bytes / 2 ^ 128 % 2 ^ 64 % 4096 = 0 ∧ rootOk (c.bytes / 2 ^ 256 % 2 ^ 64) = true ∧
      s.poolsHeld 0 (c.bytes / 2 ^ 256 % 2 ^ 64) = false ∧ s.poolMeets 0 (c.bytes / 2 ^ 256 % 2 ^ 64) = false ∧
      readImage s.host s.hostBad (c.bytes / 2 ^ 128 % 2 ^ 64) (c.bytes / 2 ^ 192 % 2 ^ 64) = .error 0x42) ∧
    (∃ s c, CommandDue s 0 1 1 c ∧ ¬ BadFields c.bytes [3] ∧ c.bytes / 2 ^ 128 % 2 ^ 64 % 4096 = 0 ∧ rootOk (c.bytes / 2 ^ 256 % 2 ^ 64) = true ∧ s.poolsHeld 0 (c.bytes / 2 ^ 256 % 2 ^ 64) = true) ∧
    (∃ s c j, CommandDue s 0 1 1 c ∧ ¬ BadFields c.bytes [3] ∧ rootOk (c.bytes / 2 ^ 256 % 2 ^ 64) = true ∧ s.poolsHeld 0 (c.bytes / 2 ^ 256 % 2 ^ 64) = false ∧
      s.poolMeets 0 (c.bytes / 2 ^ 256 % 2 ^ 64) = false ∧ readImage s.host s.hostBad (c.bytes / 2 ^ 128 % 2 ^ 64) (c.bytes / 2 ^ 192 % 2 ^ 64) = .ok j ∧ s.job? 0 = none ∧
      s.candidates { j with home := 0, jsn := 1, queue := c.queue, prio := c.prio, root := c.bytes / 2 ^ 256 % 2 ^ 64 } ≠ []) :=
  ⟨⟨_, _, dueState_due (1 + 2 ^ 8) [] [] 1 (by decide), by unfold BadFields; decide⟩,
   ⟨_, _, dueState_due 1 [] [] 1 (by decide), by unfold BadFields; decide, by decide, by decide, by decide, by decide, readImage_error (by decide +kernel)⟩,
   ⟨(dueState 1 [] []).modModule 0 fun d => { d with banks := [(63, ⟨0, 0, some 9, 0⟩)] }, _, ⟨rfl, _, ⟨1, 1, 0, 1, 0, 0, 0, 0, 0⟩, rfl, rfl, rfl, rfl⟩, by unfold BadFields; decide, by decide, by decide, by decide⟩,
   by
    obtain ⟨j, hj, hc⟩ := imageMem_read
    exact ⟨_, _, j, dueState_due launchBytes [] imageMem 1 (by decide), by unfold BadFields; decide, by decide, by decide, by decide, hj, rfl, hc⟩⟩

theorem witness_Commands :
    (∃ s c, CommandDue s 0 1 2 c ∧ ¬ BadFields c.bytes [1, 2, 3] ∧ c.bytes / 2 ^ 128 % 2 ^ 64 ≤ 1 ∧ ∀ j, ¬ LiveJob s 0 (c.bytes / 2 ^ 32 % 2 ^ 14) j) ∧
    (∃ s c j, CommandDue s 0 1 2 c ∧ c.bytes / 2 ^ 128 % 2 ^ 64 = 1 ∧ LiveJob s 0 (c.bytes / 2 ^ 32 % 2 ^ 14) j ∧ j.stage = .running ∧ j.held = false) ∧
    (∃ s c j, CommandDue s 0 1 2 c ∧ c.bytes / 2 ^ 128 % 2 ^ 64 = 0 ∧ LiveJob s 0 (c.bytes / 2 ^ 32 % 2 ^ 14) j ∧ j.stage = .waiting ∧ j.pending = [] ∧ j.jsn ≠ 1 ∧
      ∃ e, s.entry? 0 j.jsn = some e ∧ e.final = false) ∧
    (∃ s c j, CommandDue s 0 1 3 c ∧ ¬ BadFields c.bytes [0, 1, 2, 3] ∧ LiveJob s 0 (c.bytes / 2 ^ 32 % 2 ^ 14) j ∧ j.paused = false ∧ ∀ r ∈ j.pending, r.cancel = true) ∧
    (∃ s c j, CommandDue s 0 1 3 c ∧ LiveJob s 0 (c.bytes / 2 ^ 32 % 2 ^ 14) j ∧ j.paused = true) ∧
    (∃ s c j, CommandDue s 0 1 4 c ∧ ¬ BadFields c.bytes [0, 1, 2, 3] ∧ LiveJob s 0 (c.bytes / 2 ^ 32 % 2 ^ 14) j ∧ j.paused = true ∧ j.jsn ≠ 1 ∧ ∃ e, s.entry? 0 j.jsn = some e) ∧
    (∃ s c j r, CommandDue s 0 1 4 c ∧ LiveJob s 0 (c.bytes / 2 ^ 32 % 2 ^ 14) j ∧ j.paused = false ∧ j.pending = [r] ∧ r.cancel = false ∧ r.jsn ≠ 1 ∧
      ∃ e, s.entry? 0 r.jsn = some e ∧ e.final = false) ∧
    (∃ s c, CommandDue s 0 1 6 c ∧ ¬ BadFields c.bytes [3] ∧ c.bytes / 2 ^ 192 % 2 ^ 64 = 4096 ∧ c.bytes / 2 ^ 256 % 2 ^ 64 % 64 = 0 ∧ ∃ d, s.module? 0 = some d ∧ d.jmen = false) ∧
    (∃ s c d, CommandDue s 0 1 7 c ∧ s.module? 0 = some d ∧ ¬ BadFields c.bytes [0, 1, 2, 3] ∧
      ∀ e, e ∈ d.slots.map Prod.snd ++ d.heldTab.map Prod.snd → e.queue = c.queue → e.jsn < 1 → e.final = true) :=
  ⟨⟨_, _, dueState_due 2 [] [] 2 (by decide), by unfold BadFields; decide, by decide, by rintro j ⟨h, -⟩; cases h⟩,
   ⟨_, _, liveJob, dueState_due (2 + 2 ^ 128) [(0, liveJob)] [] 2 (by decide), by decide, ⟨rfl, rfl, by decide⟩, rfl, rfl⟩,
   ⟨_, _, { liveJob with stage := .waiting }, dueState_due 2 [(0, { liveJob with stage := .waiting })] [] 2 (by decide), by decide, ⟨rfl, rfl, by decide⟩, rfl, rfl, by decide, _, rfl, rfl⟩,
   ⟨_, _, liveJob, dueState_due 3 [(0, liveJob)] [] 3 (by decide), by unfold BadFields; decide, ⟨rfl, rfl, by decide⟩, rfl, nofun⟩,
   ⟨_, _, { liveJob with paused := true }, dueState_due 3 [(0, { liveJob with paused := true })] [] 3 (by decide), ⟨rfl, rfl, by decide⟩, rfl⟩,
   ⟨_, _, { liveJob with paused := true }, dueState_due 4 [(0, { liveJob with paused := true })] [] 4 (by decide), by unfold BadFields; decide, ⟨rfl, rfl, by decide⟩, rfl, by decide, _, rfl⟩,
   ⟨_, _, { liveJob with pending := [⟨2, false⟩] }, ⟨2, false⟩, dueState_due 4 [(0, { liveJob with pending := [⟨2, false⟩] })] [] 4 (by decide), ⟨rfl, rfl, by decide⟩, rfl, rfl, rfl,
    by decide, _, rfl, rfl⟩,
   ⟨_, _, dueState_due (6 + 4096 * 2 ^ 192) [] [] 6 (by decide), by unfold BadFields; decide, by decide, by decide, _, rfl, rfl⟩,
   ⟨_, _, _, dueState_due 7 [] [] 7 (by decide), rfl, by unfold BadFields; decide, by decide⟩⟩

/-- The bytes of a LEASE: operation, slot 255, peer, base and length. -/
def leaseBytes (op peer base len : Nat) : Nat := 5 + op * 2 ^ 128 + 255 * 2 ^ 136 + peer * 2 ^ 144 + base * 2 ^ 192 + len * 2 ^ 256
/-- The state of a LEASE on module 0 and of its peer, module 1, with their lease tables. -/
def leaseState (b : Nat) (l0 l1 : Dict Lease) (net : List Msg) : State :=
  { dueState b [] [] with
    net := net
    modules := [(0, { demoModule with commands := [{ jsn := 1, queue := 0, prio := 0, bytes := b, busy := false }], slots := [(1, ⟨1, 1, 0, 5, 0, 0, 0, 0, 0⟩)], jhead := 2, leases := l0 }),
                (1, { demoModule with leases := l1 })] }
theorem leaseState_due (op peer base len : Nat) (l0 l1 : Dict Lease) (net : List Msg)
    (h : (leaseState (leaseBytes op peer base len) l0 l1 net).command? 0 1 5 = some { jsn := 1, queue := 0, prio := 0, bytes := leaseBytes op peer base len, busy := false })
    (h' : (leaseBytes op peer base len / 2 ^ 128 % 16 = op ∧ ¬ BadFields (leaseBytes op peer base len) [3] ∧ leaseBytes op peer base len / 2 ^ 32 % 2 ^ 14 = 0 ∧
      leaseBytes op peer base len / 2 ^ 132 % 16 = 0 ∧ leaseBytes op peer base len / 2 ^ 154 % 2 ^ 38 = 0)) :
    LeaseDue (leaseState (leaseBytes op peer base len) l0 l1 net) 0 1 op { jsn := 1, queue := 0, prio := 0, bytes := leaseBytes op peer base len, busy := false } :=
  ⟨⟨h, _, ⟨1, 1, 0, 5, 0, 0, 0, 0, 0⟩, rfl, rfl, rfl, rfl⟩, h'⟩
/-- An offer of 2 MiB at address 0 to a peer, and a window on it. -/
def offer0 (peer : Nat) : Lease := newLease true peer 0 0x200000
def window0 (peer : Nat) : Lease := newLease false peer 0 0x200000
theorem witness_LeaseCommands :
    (∃ s c d, LeaseDue s 0 1 1 c ∧ s.module? 0 = some d ∧ LeaseRange (c.bytes / 2 ^ 192 % 2 ^ 64) (c.bytes / 2 ^ 256 % 2 ^ 64) ∧ s.lease? 0 255 = none ∧ d.leases = []) ∧
    (∃ s c, LeaseDue s 0 1 1 c ∧ ¬ LeaseRange (c.bytes / 2 ^ 192 % 2 ^ 64) (c.bytes / 2 ^ 256 % 2 ^ 64)) ∧
    (∃ s c, LeaseDue s 0 1 3 c ∧ LeaseRange (c.bytes / 2 ^ 192 % 2 ^ 64) (c.bytes / 2 ^ 256 % 2 ^ 64) ∧ s.lease? 0 255 = none ∧ ∃ d', s.module? 1 = some d' ∧ ∃ e ∈ d'.leases,
      e.2.lender = true ∧ e.2.state = .offered ∧ e.2.peer = 0 ∧ e.2.base ≤ 0 ∧ 0 + 0x200000 ≤ e.2.base + e.2.len) ∧
    (∃ s c l, LeaseDue s 0 1 2 c ∧ s.lease? 0 255 = some l ∧ l.lender = true ∧ l.state = .offered ∧ s.windowsOn 0 l = []) ∧
    (∃ s c l, LeaseDue s 0 1 2 c ∧ s.lease? 0 255 = some l ∧ l.lender = true ∧ l.state = .offered ∧ s.windowsOn 0 l ≠ []) ∧
    (∃ s c l, LeaseDue s 0 1 4 c ∧ s.lease? 0 255 = some l ∧ l.lender = false ∧ l.state = .taken) ∧
    (∃ s c, LeaseDue s 0 1 4 c ∧ ∀ l, s.lease? 0 255 = some l → l.lender = true ∨ l.state ≠ .taken) :=
  ⟨⟨_, _, _, leaseState_due 1 1 0x200000 0x4000000000 [] [] [] (by decide) (by unfold BadFields; decide), rfl, by unfold LeaseRange; decide, rfl, rfl⟩,
   ⟨_, _, leaseState_due 1 1 0x1000 0x200000 [] [] [] (by decide) (by unfold BadFields; decide), by unfold LeaseRange; decide⟩,
   ⟨_, _, leaseState_due 3 1 0 0x200000 [] [(9, offer0 0)] [] (by decide) (by unfold BadFields; decide), by unfold LeaseRange; decide, rfl, _, rfl, _, .head _, rfl, rfl, rfl, by decide,
    by decide⟩,
   ⟨_, _, _, leaseState_due 2 0 0 0 [(255, offer0 1)] [] [] (by decide) (by unfold BadFields; decide), rfl, rfl, rfl, by decide⟩,
   ⟨_, _, _, leaseState_due 2 0 0 0 [(255, offer0 1)] [(3, window0 0)] [] (by decide) (by unfold BadFields; decide), rfl, rfl, rfl, by decide⟩,
   ⟨_, _, _, leaseState_due 4 0 0 0 [(255, window0 1)] [] [] (by decide) (by unfold BadFields; decide), rfl, rfl, rfl⟩,
   ⟨_, _, leaseState_due 4 0 0 0 [] [] [] (by decide) (by unfold BadFields; decide), nofun⟩⟩

/-- Module 0 asks module 1 to revoke its window 3; module 1's answer. -/
def revokeMsg : Msg := { src := 1024, ctx := 255, asid := noJob, uid := 0, seq := 0, cmd := some 0, kind := .revoke 3 }
def ackMsg : Msg := { src := 0, ctx := 255, asid := noJob, uid := 0, seq := 0, cmd := some 1, kind := .revokeAck 3 }
/-- Position 1024 of module 1 with a write to the window waiting for its commit. -/
def leaseWriter : Core := { demoCore with writeOuts := [{ va := 0, pa := 0x400000000000 + 3 * 0x4000000000, n := 32, val := 0, fill := none }] }
theorem witness_Leases :
    (∃ (s : State) (l : Lease) (d : Module), s.module? 1 = some d ∧ s.lease? 1 3 = some l ∧ l.lender = false ∧ l.state = .taken ∧ ∀ x ∈ s.net, ¬ (coreModule x.src = 1 ∧ x.kind = .revoke 3)) ∧
    (∃ (s : State) (l : Lease) (d : Module), s.module? 0 = some d ∧ s.lease? 0 3 = some l ∧ l.lender = false ∧ l.state = .revoking ∧ s.net = [] ∧ s.cores = [] ∧ l.jsn ≠ 0 ∧ risingFrom 0 d.heldTab = true ∧
      ∃ e, s.entry? 0 l.jsn = some e ∧ e.final = false) ∧
    (∃ (s : State) (l : Lease) (k : Core), s.lease? 1 3 = some l ∧ l.lender = false ∧ l.state = .revoking ∧ s.net = [] ∧ s.core? 1024 = some k ∧ coreModule 1024 = 1 ∧ k.open_ = true ∧ k.stopped = false ∧
      s.committedWriter k = false ∧ ∃ w ∈ k.writeOuts, overlaps w.pa w.n (0x400000000000 + 3 * 0x4000000000) l.len = true) ∧
    (∃ (s : State) (l : Lease) (x : Msg), s.lease? 1 3 = some l ∧ l.lender = false ∧ l.state = .taken ∧ l.jsn = 0 ∧
      (s.net.findIdx? fun y => coreModule y.src == 1 && match y.kind with | .revoke w => w == 3 | _ => false) = some 0 ∧ s.net[0]? = some x ∧ s.cores = [] ∧
      ∀ y ∈ s.net, ∀ w a n v, y.kind ≠ .lease w a n v) ∧
    (∃ (s : State) (l : Lease) (x : Msg), s.net[0]? = some x ∧ x.kind = .revokeAck 3 ∧ s.lease? (x.src / 1024) x.ctx = some l ∧ l.lender = true ∧ l.state = .revoking ∧ (∀ v ∈ l.waiting, v = (x.cmd.getD 0, 3)) ∧
      ∃ d e, s.module? (x.src / 1024) = some d ∧ risingFrom 0 d.heldTab = true ∧ d.entry? l.jsn = some e ∧ e.final = false) ∧
    (∃ (s : State) (l : Lease) (x : Msg), s.net[0]? = some x ∧ x.kind = .revokeAck 3 ∧ s.lease? (x.src / 1024) x.ctx = some l ∧ l.lender = true ∧ l.state = .revoking ∧ ∃ v ∈ l.waiting, v ≠ (x.cmd.getD 0, 3)) ∧
    (∃ (s : State) (l x : Lease), s.lease? 0 255 = some l ∧ l.lender = true ∧ l.state = .revoking ∧ l.waiting = [(1, 3)] ∧ s.lease? 1 3 = some x ∧ x.lender = false ∧ l.since + 1250000 ≤ s.clock) ∧
    (∃ (s : State) (d : Module) (x : Msg), s.net[0]? = some x ∧ x.kind = .lease true 0x7FBFFFFFF8 8 5 ∧ tierOf 0x7FBFFFFFF8 = .hbm ∧ s.module? (x.src / 1024) = some d) ∧
    (∃ (s : State) (d : Module), s.module? 0 = some d ∧ (∀ e ∈ s.cores, e.2.writeOuts = []) ∧ ∀ x ∈ s.net, ∀ w p n v, x.kind ≠ .lease w p n v) :=
  ⟨⟨leaseState 0 [] [(3, window0 0)] [], _, _, rfl, rfl, rfl, rfl, fun _ h => (List.not_mem_nil h).elim⟩,
   ⟨leaseState 0 [(3, { window0 1 with state := .revoking, jsn := 1 })] [] [], _, _, rfl, rfl, rfl, rfl, rfl, rfl, by decide, rfl, _, rfl, rfl⟩,
   ⟨{ leaseState 0 [] [(3, { window0 0 with state := .revoking })] [] with cores := [(1024, leaseWriter)] }, _, leaseWriter, rfl, rfl, rfl, rfl, rfl, rfl, rfl, rfl, rfl, _, .head _,
    by decide⟩,
   ⟨leaseState 0 [] [(3, window0 0)] [revokeMsg], _, _, rfl, rfl, rfl, rfl, by decide, rfl, rfl, by simp [leaseState, revokeMsg]⟩,
   ⟨leaseState 0 [(255, { offer0 1 with state := .revoking, waiting := [(1, 3)], jsn := 1 })] [] [ackMsg], _, _, rfl, rfl, rfl, rfl, rfl, by decide, _, _, rfl, rfl, rfl, rfl⟩,
   ⟨leaseState 0 [(255, { offer0 1 with state := .revoking, waiting := [(1, 3), (1, 4)], jsn := 1 })] [] [ackMsg], _, _, rfl, rfl, rfl, rfl, rfl, (1, 4), .tail _ (.head _), by decide⟩,
   ⟨{ leaseState 0 [(255, { offer0 1 with state := .revoking, waiting := [(1, 3)], jsn := 1 })] [(3, window0 0)] [] with clock := 1250000 }, _, _, rfl, rfl, rfl, rfl, rfl, rfl, by decide⟩,
   ⟨leaseState 0 [] [] [{ ackMsg with kind := .lease true 0x7FBFFFFFF8 8 5 }], _, _, rfl, rfl, by decide, rfl⟩, ⟨leaseState 0 [] [] [], _, rfl, fun _ h => (List.not_mem_nil h).elim, fun _ h => (List.not_mem_nil h).elim⟩⟩

theorem some_of {α : Type} (o : Option α) (p : α → Bool) (h : o.any p = true) : ∃ a, o = some a ∧ p a = true := by
  cases o with
  | none => cases h
  | some a => exact ⟨a, rfl, h⟩
theorem leaf_of (w : Walk) (p : TlbEntry → Nat → Bool) (h : (match w with | .leaf e n => p e n | .fault _ _ => false) = true) : ∃ e n, w = .leaf e n ∧ p e n = true := by
  cases w with
  | leaf e n => exact ⟨e, n, rfl, h⟩
  | fault _ _ => cases h

/-- A booted one-module pod with job 0 waiting for its place, staged, or about to run, of the LAUNCH with JSN 1. -/
def stageState (j : Job) (cores : Dict Core) : State :=
  { State.reset with modules := [(0, { demoModule with slots := [(1, ⟨1, 1, 0, 1, 0, 0, 0, 0, 0⟩)], jhead := 3 })], jobs := [(0, j)], cores := cores }
def waitingDemo : Job := { demoJob with stage := .waiting, rects := [] }
/-- A job that needs more of a die's share than the running job 1 leaves anywhere, and asks it to yield. -/
def greedy (limit : Nat) (rects : List Rect) (st : Stage) (jsn prio : Nat) : Job := { demoJob with limit := limit, rects := rects, n := max 1 rects.length, stage := st, jsn := jsn, prio := prio }
def crowded : State :=
  { stageState demoJob [] with
    jobs := [(0, greedy 65536 [] .waiting 1 1), (1, greedy (0x4000000 + 32) [⟨0, 0, 0⟩, ⟨1, 0, 0⟩, ⟨2, 0, 0⟩, ⟨3, 0, 0⟩] .running 2 0)] }
theorem witness_Placement :
    (∃ j, (stageState waitingDemo []).waitingJob 0 1 = some (0, j) ∧ j.parked = none ∧ (∃ p, (stageState waitingDemo []).findPlace j = some p ∧ true = true) ∧
      ∀ e ∈ (stageState waitingDemo []).jobs, e.2.stage = .waiting → e.2.before j = true → (stageState waitingDemo []).findPlace e.2 = none) ∧
    (∃ j, ({ stageState waitingDemo [] with modules := [] } : State).waitingJob 0 1 = some (0, j) ∧ ({ stageState waitingDemo [] with modules := [] } : State).findPlace j = none) ∧
    (∃ w x, crowded.waitingJob 0 1 = some (0, w) ∧ (crowded.candidates w).head? = some x ∧ crowded.findPlace w = none ∧
      ∃ gone, crowded.victims w x (crowded.below w) [] = some gone ∧ decide (1 ∈ gone) = true) :=
  ⟨⟨waitingDemo, by decide +kernel, rfl, some_of _ (fun _ => true) (by decide +kernel), by decide +kernel⟩, ⟨waitingDemo, by decide +kernel, by decide +kernel⟩,
   ⟨greedy 65536 [] .waiting 1 1, ⟨1, 1, 1⟩, by decide +kernel, by decide +kernel, by decide +kernel, some_of _ _ (by decide +kernel)⟩⟩

/-- The job at a stage after its placing, with these sections. -/
def placedDemo (st : Stage) (sections : List Section) : Job := { demoJob with stage := st, sections := sections, digest := sm3 [] }
def heldCore : Core := { Core.blank 0 0 0 with ssn := 1 }
def tcmSection : Section := { type := 2, space := 0, runpfl := false, addr := 0x1FFE0, off := 0, size := 32, body := [(31, 7)] }
theorem witness_Staging :
    (∃ s j d e, JobAt s 0 1 .staging 0 j ∧ s.module? 0 = some d ∧ risingFrom 0 d.heldTab = true ∧ d.entry? 1 = some e ∧ e.final = false ∧ j.home = 0 ∧ j.jsn = 1 ∧
      (∀ x ∈ j.sections, x.space < 3) ∧ j.digestOk s.host = true ∧ j.sections = [tcmSection] ∧ 0 ∈ j.places ∧ s.hostWf ∧ s.host ≠ [] ∧ j.image + tcmSection.off = 0 ∧
      s.imageBad j = false ∧ ∃ k, s.core? 0 = some k ∧ memWf k.tcm.cur = true) ∧
    (∃ s j, JobAt s 0 1 .staging 0 j ∧ (∀ x ∈ j.sections, x.space < 3) ∧ j.digestOk s.host = false ∧ j.pending = [] ∧ s.endBusy j = false) ∧
    (∃ s j, JobAt s 0 1 .staging 0 j ∧ (∃ s' cause, s.stageAll 0 (j.readBodies s.host) (j.readBodies s.host).sections = (s', some cause)) ∧ j.pending = []) ∧
    (∃ s j d e, JobAt s 0 1 .runpfl 0 j ∧ s.module? 0 = some d ∧ risingFrom 0 d.heldTab = true ∧ d.entry? 1 = some e ∧ e.final = false ∧ j.home = 0 ∧ j.jsn = 1 ∧ j.runList = [] ∧
      j.records = [] ∧ j.verdict = none ∧ j.paused = false ∧ j.parked = none ∧ j.yieldTo = none ∧ j.staged = [] ∧ j.lastAttempt = none ∧
      ∀ c ∈ j.places, (s.patch c).fenced = false ∧ ∃ k, s.core? c = some k ∧ k.asid = 0 ∧ k.repeatCause = none ∧ k.stagedPoison = []) ∧
    (∃ s j, JobAt s 0 1 .runpfl 0 j ∧ (s.runEntries 0 j.runList).2 = some 0x42 ∧ j.pending = []) :=
  ⟨⟨{ stageState (placedDemo .staging [tcmSection]) [(0, heldCore)] with host := [(31, 7)] }, _, _, _, ⟨rfl, rfl⟩, rfl, rfl, rfl, rfl, rfl, rfl, by decide, by decide +kernel, rfl, by decide,
    by unfold State.hostWf; decide, nofun, rfl, by decide, _, rfl, by decide⟩,
   ⟨stageState { placedDemo .staging [tcmSection] with digest := 0 } [(0, heldCore)], _, ⟨rfl, rfl⟩, by decide, by decide +kernel, rfl, by decide⟩,
   ⟨stageState (placedDemo .staging [{ tcmSection with space := 8 }]) [(0, heldCore)], placedDemo .staging [{ tcmSection with space := 8 }], ⟨rfl, rfl⟩,
    by
      obtain ⟨a, h, -⟩ := some_of ((stageState (placedDemo .staging [{ tcmSection with space := 8 }]) [(0, heldCore)]).stageAll 0 ((placedDemo .staging [{ tcmSection with space := 8 }]).readBodies [])
        ((placedDemo .staging [{ tcmSection with space := 8 }]).readBodies []).sections).2 (fun _ => true) (by decide +kernel)
      exact ⟨_, a, Prod.ext rfl h⟩, rfl⟩,
   ⟨stageState (placedDemo .runpfl demoJob.sections) [(0, heldCore)], _, _, _, ⟨rfl, rfl⟩, rfl, rfl, rfl, rfl, rfl, rfl, by decide, by decide, rfl, rfl, rfl, rfl, rfl, rfl, by
      intro c hc
      have : c = 0 := List.mem_singleton.1 ((show (placedDemo .runpfl demoJob.sections).places = [0] by decide +kernel) ▸ hc)
      subst this
      exact ⟨by decide, _, rfl, rfl, rfl, rfl⟩⟩,
   ⟨stageState (placedDemo .runpfl [{ tcmSection with type := 4, runpfl := true, body := [] }]) [(0, heldCore)], placedDemo .runpfl [{ tcmSection with type := 4, runpfl := true, body := [] }],
    ⟨rfl, rfl⟩, by decide +kernel, rfl⟩⟩

def heldJob (yieldTo : Option (Nat × Nat)) : Job := { demoJob with held := true, yieldTo := yieldTo, lastAttempt := some { commit := true, cause := 0, index := 0, origin := 0, val := 0 } }
theorem witness_ParkAndMove :
    (∃ (s : State) (j : Job), s.job? 0 = some j ∧ j.stage = .running ∧ j.held = true ∧ j.parked = none ∧ j.verdict = none ∧ s.mustPark j = false) ∧
    (∃ (s : State) (j : Job), s.job? 0 = some j ∧ j.stage = .running ∧ j.held = true ∧ j.parked = none ∧ j.verdict = none ∧ s.mustPark j = true) ∧
    (∃ (s : State) (j : Job), s.job? 0 = some j ∧ j.deadline = some 1 ∧ s.clock < 1) ∧
    (∃ (s : State) (j : Job), s.job? 0 = some j ∧ j.deadline = some 0 ∧ 0 ≤ s.clock ∧ j.stage = .running ∧ j.held = false ∧ j.verdict = none ∧ j.yieldTo = some (0, 9) ∧
      ∃ e ∈ s.jobs, e.2.jsn = 9 ∧ e.2.stage = .waiting) ∧
    (∃ (s : State) (j : Job) (old : Rect) (d : Module), s.job? 0 = some j ∧ j.rects[0]? = some old ∧ j.rects.length = 1 ∧ s.module? (old.die / 4) = some d ∧ 3 ≠ old.die ∧ 3 / 4 = old.die / 4 ∧
      old.row + j.rr ≤ 16 ∧ old.col + j.cc ≤ 16 ∧ j.stage = .running ∧ j.held = true ∧ j.parked = none ∧ j.verdict = none ∧ j.window = 0 ∧ (j.rr % 2 = 1 ∨ 15 % 2 = 0) ∧ (j.cc % 2 = 1 ∨ 15 % 2 = 0) ∧
      (∃ v, j.lastAttempt = some v ∧ v.commit = true) ∧ 0 ∉ j.patchedAt ∧ (∀ n ∈ j.modules, s.poolBusy n j.root none = false) ∧
      15 + j.rr ≤ 16 ∧ 15 + j.cc ≤ 16 ∧ s.shareUsed 3 + j.share ≤ sharePool ∧ s.codeUsed 3 + j.codeBytes ≤ codeRegion ∧ (s.die old.die).forwards.length + j.rr * j.cc ≤ 64 ∧
      (∀ f ∈ (s.die old.die).forwards, f.asid ≠ 0) ∧ s.upModules.contains (3 / 4) = true ∧ s.positionFree (3 * 256 + 15 * 16 + 15) = true) :=
  ⟨⟨stageState (heldJob none) [(0, heldCore)], _, rfl, rfl, rfl, rfl, rfl, by decide⟩,
   ⟨{ stageState (heldJob (some (0, 9))) [(0, heldCore)] with jobs := [(0, heldJob (some (0, 9))), (1, { waitingDemo with jsn := 9 })] }, heldJob (some (0, 9)), rfl, rfl, rfl, rfl, rfl, by decide +kernel⟩,
   ⟨stageState { demoJob with deadline := some 1 } [], _, rfl, rfl, by decide⟩,
   ⟨{ demo with jobs := [(0, { demoJob with deadline := some 0, yieldTo := some (0, 9) }), (1, { waitingDemo with jsn := 9 })] }, _, rfl, rfl, by decide, rfl, rfl, rfl, rfl, _, .tail _ (.head _), rfl,
    rfl⟩,
   ⟨stageState (heldJob none) [(0, heldCore)], heldJob none, ⟨0, 0, 0⟩, _, rfl, rfl, rfl, rfl, by decide, by decide, by decide, by decide, rfl, rfl, rfl, rfl, rfl, by decide, by decide, ⟨_, rfl, rfl⟩,
    nofun, by decide +kernel, by decide, by decide, by decide, by decide, by decide, by decide, by decide, by decide⟩⟩

/-- Page tables in tier 0 with root 0x10000: virtual address 0 in a direct 1 GiB page at 0x40000000 (W as given), 2^30 in a paged 4 KiB page of a CXL device, not resident; a pool
of two blocks at 0x80000000. -/
def tableMem (w : Bool) : Memory :=
  [(0x10002, 2), (0x10007, 0x40), (0x1FFFB, 0x80), (0x1FFFE, 2), (0x1FFFF, 0xC0), (0x20003, 0x40), (0x20007, if w then 0xA0 else 0x80), (0x2000A, 3), (0x2000F, 0x40), (0x30002, 4), (0x30007, 0x40),
   (0x40005, 0x80), (0x40007, 0xC0)]
def tableState (w : Bool) (poison : List Nat) : State :=
  withModule (demoAt 0 [(0, demoCtx)] demoCore { demoJob with root := 0x10000 } []) { demoModule with hbm := tableMem w, poison := poison, hdm := [(0x800000000000, 0x100000)] }
theorem witness_PageWalk :
    (∃ e entry, (tableState true []).walk 0 0 0x10000 0 = .leaf e entry ∧ (e.write && decide (entry / 2 ^ 62 % 4 = 2) && decide (e.size ≠ 65536) && (tierOf e.leaf == .hbm)) = true) ∧
    (∃ e entry, (tableState false []).walk 0 0 0x10000 0 = .leaf e entry ∧ (!e.write) = true) ∧
    (∃ e entry, (tableState true []).walk 0 0 0x10000 0x40000000 = .leaf e entry ∧ (decide (entry / 2 ^ 62 % 4 = 3) && !entry.testBit 57 && decide (e.size = 4096) && (tierOf e.leaf == .hbm) &&
      decide ((tableState true []).paCause 0 e.pa 4096 false = none)) = true) ∧
    (∃ p, (tableState true []).poolOf 0 0x10000 = some p ∧ decide (p.base % 4096 = 0 ∧ p.frame 0 < 2 ^ 48 ∧ (tableState true []).findFrame 0 p 1 = some 0) = true) ∧
    (tableState true []).walk 0 0 0x10000 0x80000000 = .fault 0x09 0 ∧ (tableState true [0x20]).walk 0 0 0x10000 0 = .fault 0x0A 0x20000 :=
  ⟨leaf_of _ _ (by decide +kernel), leaf_of _ _ (by decide +kernel), leaf_of _ _ (by decide +kernel), some_of _ _ (by decide +kernel), by decide +kernel, by decide +kernel⟩

def demoLink : List Msg := [demoMsg (.loadReq (tcmAt 0) 8 0), demoMsg .doom, demoMsg (.heartbeat 1), demoMsg (.eager (tcmAt 0) 8 5 0)]
theorem witness_MemorySystem :
    (∃ (s : State) (x : Module), s.module? 0 = some x ∧ 5 ∈ x.sparing ∧ (∀ b, dget? x.banks (5 % 2 ^ 13) = some b → b.holder = none) ∧ 6 ∉ x.sparing) ∧
    (∃ (s : State) (d : Module) (b : Bank), s.module? 0 = some d ∧ dget? d.banks 8191 = some b ∧ b.holder = some 0 ∧ b.since + 5000 ≤ s.clock) ∧
    (tierOf 0x7FBFFFFFFF = .hbm ∧ tierOf 0x7FC0000000 ≠ .hbm) ∧
    (∃ (s : State) (d : Module), s.module? 0 = some d ∧ dgetD d.corrected 0 0 + 1 = 16 ∧ dgetD d.spares 0 0 + (d.sparing.filter fun r => r % 2 ^ 13 = 0).length < 4) ∧
    (∃ (s : State) (d : Module), s.module? 0 = some d ∧ dgetD d.corrected 0 0 + 1 = 16 ∧ 4 ≤ dgetD d.spares 0 0 + (d.sparing.filter fun r => r % 2 ^ 13 = 0).length ∧ d.events.length < 256) ∧
    (∃ (s : State) (m : Msg) (k : Core), s.net[0]? = some m ∧ (∃ d l a, m.kind = .loadReq d l a) ∧ s.core? m.src = some k ∧ k.open_ = true ∧ k.stopped = false) ∧
    (∃ (s : State) (m : Msg), s.net[1]? = some m ∧ m.kind = .doom) ∧ (∃ (s : State) (m : Msg), s.net[2]? = some m ∧ ∃ d, m.kind = .heartbeat d) ∧
    (∃ (s : State) (m : Msg) (k : Core), s.net[3]? = some m ∧ m.kind = .eager (tcmAt 0) 8 5 0 ∧ m.cmd = none ∧ s.core? m.src = some k ∧ k.open_ = true ∧ k.stopped = false ∧
      s.target m.asid (tcmAt 0) = some (tcmAt 0) ∧ (∃ j, s.job? m.asid = some j) ∧ ∀ e ∈ k.eager, e.uid = m.uid → e.cmd = none) ∧
    (∃ (s : State) (k : Core) (m : Cmd), s.core? 0 = some k ∧ k.headOf 1 = some m) :=
  ⟨⟨withModule demo { demoModule with sparing := [5] }, _, rfl, by decide, nofun, by decide⟩,
   ⟨{ withModule demo { demoModule with banks := [(8191, ⟨0, 0, some 0, 0⟩)] } with clock := 5000 }, _, _, rfl, rfl, rfl, by decide⟩, ⟨by decide, by decide⟩,
   ⟨withModule demo { demoModule with corrected := [(0, 15)], spares := [(0, 3)] }, _, rfl, by decide, by decide⟩,
   ⟨withModule demo { demoModule with corrected := [(0, 15)], spares := [(0, 3)], sparing := [2 ^ 13] }, _, rfl, by decide, by decide, by decide⟩,
   ⟨{ demo with net := demoLink }, _, _, rfl, ⟨_, _, _, rfl⟩, rfl, rfl, rfl⟩, ⟨{ demo with net := demoLink }, _, rfl, rfl⟩, ⟨{ demo with net := demoLink }, _, rfl, _, rfl⟩,
   ⟨{ demo with net := demoLink }, _, _, rfl, rfl, rfl, rfl, rfl, rfl, by decide, ⟨_, rfl⟩, fun _ h => (List.not_mem_nil h).elim⟩,
   ⟨demoAt 0 [(0, demoCtx)] { demoCore with q := [(1, [cmdOf 0x23 0 0 0 0 0])] } demoJob [], _, _, rfl, rfl⟩⟩

def aRecord : TaskRec := { code := loadPc, frame := 0, join := 0, prio := 2, ceil := 255, ordered := false, nosteal := false, level := 2, seq := 0, lseq := 0, since := 0 }
def aLane : LaneOp := { seq := 0, ctx := 0, flags := 1, enabled := 0, fault := some 8, release := 0, gone := false, poison := none }
/-- Two cores of one quad; the second has a record and no idle pool helper. -/
def stealState : State :=
  { State.reset with
    jobs := [(0, { demoJob with n := 2, cc := 2 })]
    cores := [(0, { demoCore with ctxs := [(0, demoCtx)] }), (1, { demoCore with index := 1, pool := 0, tasks := [aRecord] })] }
theorem witness_TasksAndLanes :
    (∃ (s : State) (k : Core), s.core? 0 = some k ∧ k.active = true ∧ k.idlePool.head? = some 1 ∧ k.nextRecord = some aRecord ∧ (∀ t ∈ k.tasks, t.level < 256) ∧
      (k.tasks.map TaskRec.seq).Nodup ∧ aRecord.since + k.age < s.clock ∧ aRecord.level < aRecord.ceil ∧ k.age ≠ 0) ∧
    (∃ (k o : Core) (j : Job), stealState.core? 0 = some k ∧ k.active = true ∧ k.idlePool.head? = some 1 ∧ k.nextRecord = none ∧ stealState.job? k.asid = some j ∧ j.victims 0 k.index = [1] ∧
      stealState.core? 1 = some o ∧ o.active = true ∧ o.nextRecord = some aRecord ∧ aRecord.nosteal = false ∧ aRecord.join = 0 ∧ o.idlePool = []) ∧
    (∃ (s : State) (k : Core), s.core? 0 = some k ∧ k.lanes.find? (fun l => l.seq = 0) = some aLane ∧ aLane.flags &&& aLane.enabled = 0 ∧ ∀ l ∈ k.lanes, l.seq ≠ 1) ∧
    (∃ (s : State) (k : Core), s.core? 0 = some k ∧ (k.ctx 0).wait = some (.gang 255 8 0 true (some 1)) ∧ s.clock < 1) ∧
    (∃ (s : State) (k : Core), s.core? 0 = some k ∧ (k.ctx 0).wait = some (.gang 255 8 0 true (some 0)) ∧ 0 ≤ s.clock) :=
  ⟨⟨{ demoAt 0 [(0, demoCtx)] { demoCore with tasks := [aRecord] } demoJob [] with clock := 4097 }, _, rfl, rfl, by decide, by decide, by decide, by decide, by decide, by decide, by decide⟩,
   ⟨_, _, _, rfl, rfl, by decide, by decide, rfl, by decide, rfl, rfl, by decide, rfl, rfl, by decide⟩,
   ⟨demoAt 0 [(0, demoCtx)] { demoCore with lanes := [aLane] } demoJob [], _, rfl, rfl, by decide, by decide⟩,
   ⟨demoOf { demoCtx with wait := some (.gang 255 8 0 true (some 1)) }, _, rfl, rfl, by decide⟩,
   ⟨demoOf { demoCtx with wait := some (.gang 255 8 0 true (some 0)) }, _, rfl, rfl, by decide⟩⟩
/-- A job of 8 columns whose core 0 issues GANG: tag 0, width from x5, first column from x6. -/
def gangState (x5 x6 : Word) (w : Nat) (stagger : Nat) (q : Dict (List Cmd)) : State :=
  demoAt 0 [(0, { demoCtx with x := [(5, x5), (6, x6)] })] { demoCore with stagger := stagger, q := q } { demoJob with n := w, cc := w } []
theorem witness_Gangs :
    (∃ (s : State) (i : Issuer) (r : Rect), s.issuer? = some i ∧ i.job.rects[i.core.rect]? = some r ∧ i.k ≠ 0) ∧
    (∃ (s : State) (i : Issuer) (r : Rect), s.issuer? = some i ∧ i.job.rects[i.core.rect]? = some r ∧ i.k = 0 ∧ r.col ≤ 0 ∧ 0 + 8 ≤ r.col + i.job.cc ∧ (i.ctx.getX 5).toNat / 256 % 8 + 1 = 8 ∧
      (i.ctx.getX 6).toNat % 16 = 0 ∧ (∀ m ∈ i.core.queue 0, dGanged m.d0 = false) ∧ ∃ o, o < 8 ∧ o + 0 ≠ i.c % 16 ∧ ∀ p ∈ i.job.offers, p.core ≠ i.c - i.c % 16 + 0 + o) ∧
    (∃ (s : State) (i : Issuer) (r : Rect), s.issuer? = some i ∧ i.job.rects[i.core.rect]? = some r ∧ i.k = 0 ∧ (i.ctx.getX 5).toNat / 256 % 8 + 1 = 1 ∧ (i.ctx.getX 6).toNat % 16 = 0 ∧
      (∀ m ∈ i.core.queue 0, dGanged m.d0 = false) ∧ (i.c / 16 % 16 + i.c % 16) * i.core.stagger = 0) ∧
    (∃ (s : State) (i : Issuer) (r : Rect), s.issuer? = some i ∧ i.job.rects[i.core.rect]? = some r ∧ i.k = 0 ∧ r.col + i.job.cc < (i.ctx.getX 6).toNat % 16 + ((i.ctx.getX 5).toNat / 256 % 8 + 1)) ∧
    (∃ (s : State) (i : Issuer), s.issuer? = some i ∧ i.k = 0 ∧ ∃ m ∈ i.core.queue 0, dGanged m.d0 = true) :=
  ⟨⟨demoAt 1 [(1, demoCtx)] demoCore demoJob [], _, _, rfl, rfl, by decide⟩,
   ⟨gangState 0x700 0 8 2 [], _, _, rfl, rfl, rfl, by decide, by decide, by decide, by decide, fun _ h => (List.not_mem_nil h).elim, 1, by decide, by decide,
    fun _ h => (List.not_mem_nil h).elim⟩,
   ⟨gangState 0 0 1 2 [], _, _, rfl, rfl, rfl, by decide, by decide, fun _ h => (List.not_mem_nil h).elim, by decide⟩,
   ⟨gangState 0x100 0 1 2 [], _, _, rfl, rfl, rfl, by decide⟩,
   ⟨gangState 0 0 1 2 [(0, [cmdOf (0x05 + 2 ^ 28) 0 0 0 0 0])], _, rfl, rfl, _, .head _, by decide⟩⟩
theorem witness_LateTraps :
    (∃ (s : State) (m : Msg) (t0 : LateTrap) (k : Core) (j : Job), s.net[0]? = some m ∧ m.kind = .late t0 ∧ s.core? m.src = some k ∧ s.job? k.asid = some j ∧
      t0.cause ∉ [0x08, 0x0A, 0x0B, 0x0C, 0x0D, 0x0E] ∧ j.handler ≠ 0 ∧ k.stopped = false ∧ (k.ctx t0.ctx).live = true ∧ (k.ctx t0.ctx).level = .job) ∧
    (∃ (s : State) (m : Msg) (t0 : LateTrap) (k : Core) (j : Job), s.net[0]? = some m ∧ m.kind = .late t0 ∧ s.core? m.src = some k ∧ s.job? k.asid = some j ∧
      t0.cause ∈ [0x08, 0x0A, 0x0B, 0x0C, 0x0D, 0x0E] ∧ k.open_ = true ∧ k.stopped = false) ∧
    (∃ (s : State) (k : Core) (j : Job) (e : PendingEntry), s.core? 0 = some k ∧ s.job? k.asid = some j ∧ k.inService = false ∧ k.active = true ∧ k.entering = some (10, e)) ∧
    (∃ (s : State) (k : Core) (j : Job) (e : LateTrap), s.core? 0 = some k ∧ s.job? k.asid = some j ∧ k.inService = false ∧ k.active = true ∧ (∀ x ∈ k.ctxs, x.2.entry = none) ∧ j.handler ≠ 0 ∧
      (k.ctx 0).level = .job ∧ (k.ctx 0).wait = none ∧ (k.ctx 0).late = [e] ∧ ∀ m ∈ s.net, ¬ (m.src = 0 ∧ m.ctx = 0)) ∧
    (∃ (s : State) (k : Core), s.core? 0 = some k ∧ k.open_ = true ∧ k.stopped = false ∧ k.active = true ∧ k.lastProgress + 65536 ≤ s.clock ∧
      ∀ e ∈ k.ctxs, e.2.live = true → ∃ w, e.2.wait = some w ∧ w.starved = true) ∧
    (∃ (s : State) (k : Core), s.core? 0 = some k ∧ s.clock < k.lastProgress + 65536) ∧
    (∃ (s : State) (j : Job), s.job? 0 = some j ∧ j.ran s.clock ≤ j.wdog) ∧
    (∃ (s : State) (j : Job), s.job? 0 = some j ∧ j.wdog < j.ran s.clock ∧ j.stage = .running ∧ j.held = false ∧ j.endCause = none ∧ j.verdict = none) :=
  ⟨⟨demoAt 0 [(0, demoCtx)] demoCore demoJob [demoMsg (.late ⟨0x04, 0, 0, 0, false⟩)], _, _, _, _, rfl, rfl, rfl, rfl, by decide, by decide, rfl, rfl, rfl⟩,
   ⟨demoAt 0 [(0, demoCtx)] demoCore demoJob [demoMsg (.late ⟨0x0E, 0, 0, 0, false⟩)], _, _, _, _, rfl, rfl, rfl, rfl, by decide, rfl, rfl⟩,
   ⟨demoAt 0 [(0, demoCtx), (10, { demoCtx with entry := some ⟨0x12, none, false, false, 0, 10, loadPc, 0⟩ })] demoCore demoJob [], _, _, _, rfl, rfl, by decide, rfl, rfl⟩,
   ⟨demoOf { demoCtx with late := [⟨0x04, 0, 0, 0, false⟩] }, _, _, _, rfl, rfl, by decide, rfl, by decide, by decide, rfl, rfl, rfl, fun _ h => (List.not_mem_nil h).elim⟩,
   ⟨{ demoOf { demoCtx with wait := some (.deq 1 4) } with clock := 65536 }, _, rfl, rfl, rfl, rfl, by decide, by
      intro e he _
      cases List.mem_singleton.1 he
      exact ⟨_, rfl, rfl⟩⟩,
   ⟨demo, _, rfl, by decide⟩, ⟨demo, _, rfl, by decide⟩, ⟨{ demoAt 0 [(0, demoCtx)] demoCore { demoJob with wdog := 5, wdFrom := some 0 } [] with clock := 6 }, _, rfl, by decide, rfl, rfl, rfl, rfl⟩⟩

/-- The same state with every command of its cores started now. -/
def begun (s : State) : State :=
  { s with cores := s.cores.map fun e => (e.1, { e.2 with q := e.2.q.map fun x => (x.1, x.2.map fun m => { m with seen := some (s.homesOf e.2.asid e.1) }) }) }
theorem unraced_other {s : State} {c : CoreId} {kind : Nat} {k : Core} {m : Cmd} (h : kind ∉ [0x01, 0x02, 0x03, 0x20, 0x21, 0x25, 0x30, 0x40, 0x41]) :
    Unraced s c kind k m := fun x => absurd x h
/-- Context 0 of position 0 with the command at the head of a queue, started. -/
def withCore (k : Core) : State := begun (demoAt 0 [(0, demoCtx)] k demoJob [])
def withCmd (q : Nat) (m : Cmd) : State := withCore { demoCore with q := [(q, [m])] }
def doneCmd (d0 : Word) : Cmd := { cmdOf d0 0 0 0 0 0 with stage := .performed }
theorem witness_Products :
    (∃ (s : State) (k : Core) (m : Cmd) (j : Job), HeadDue s 0 0 0x01 k m j ∧ dGanged m.d0 = false ∧ m.a1.toNat / 2 ^ 36 = 0 ∧ m.a2.toNat / 2 ^ 36 = 0 ∧ m.a1.toNat % 32 ≠ 0) ∧
    (∃ (s : State) (k : Core) (m : Cmd) (j : Job), HeadDue s 0 0 0x02 k m j ∧ dGanged m.d0 = false ∧
      (let p := productOf k m m
       firstCause [operandCause j m.a1 p.aOffs p.aBytes, operandCause j m.a2 p.bOffs p.bBytes] = some (0x03, m.a1))) ∧
    (∃ (s : State) (k : Core) (m : Cmd) (j : Job), HeadDue s 0 0 0x01 k m j ∧ dGanged m.d0 = false ∧
      (let p := productOf k m m
       firstCause [operandCause j m.a1 p.aOffs p.aBytes, operandCause j m.a2 p.bOffs p.bBytes] = none) ∧ dPair m.d0 = 5 ∧ tKcnt m.d1 = 0 ∧ dTransB m.d0 = false) :=
  ⟨⟨withCmd 0 (cmdOf 0x501 0 0 0 8 0), _, _, _, ⟨⟨rfl, rfl, rfl⟩, rfl, fun _ => rfl⟩, by decide, by decide, by decide, by decide⟩,
   ⟨withCmd 0 (cmdOf 0x502 0 0 0 0x3000000000000000 0), _, _, _, ⟨⟨rfl, rfl, rfl⟩, rfl, fun _ => rfl⟩, by decide, by decide +kernel⟩,
   ⟨withCmd 0 (cmdOf 0x501 0 0 0 0 4096), _, _, _, ⟨⟨rfl, rfl, rfl⟩, rfl, fun _ => rfl⟩, by decide, by decide +kernel, by decide, by decide, by decide⟩⟩
def openGang (m : Cmd) : Core := { demoCore with gang := some (0, 2, 0), q := [(0, [m])] }
def crossOf (bit : Word) : Cmd := cmdOf (0x06 + 2 ^ 28) 0 0 bit 0 0
theorem witness_Accumulators :
    (∃ (s : State) (k : Core) (m : Cmd) (j : Job), HeadDue s 0 0 0x03 k m j ∧ firstCause [operandCause j m.a2 (d2Offs m) 256] = some (0x02, 8)) ∧
    (∃ (s : State) (k : Core) (m : Cmd) (j : Job), HeadDue s 0 0 0x03 k m j ∧ firstCause [operandCause j m.a2 (d2Offs m) 256] = none) ∧
    (∃ (s : State) (k : Core) (m : Cmd) (j : Job), HeadDue s 0 0 0x04 k m j ∧ m.d3.toNat / 256 % 8 = m.d3.toNat % 8 ∧ (fmtOf (m.d3.toNat % 8)).width = 32 ∧ m.a2.toNat / 2 ^ 36 = 2 ^ 24 ∧
      m.a2.toNat % 32 = 0 ∧ tRows m.d2 = 0 ∧ addrOff m.a2 + 256 ≤ j.limitOf (spaceOfForm m.a2) ∧ (∀ x ∈ s.net, ∀ n d, s.eagerOver x 0 m.ctx d n = false)) ∧
    (∃ (s : State) (k : Core) (m : Cmd) (j : Job), HeadDue s 0 0 0x05 k m j) ∧
    (∃ (s : State) (k : Core) (m : Cmd) (j : Job), HeadDue s 0 0 0x06 k m j ∧ s.jointOf 0 k m = none) ∧
    (∃ (s : State) (k : Core) (m : Cmd) (j : Job) (l : List (CoreId × Core × Cmd)), HeadDue s 0 0 0x06 k m j ∧ s.jointOf 0 k m = some l ∧ jointAgrees l = true ∧ m.d3.getLsbD 0 = true ∧
      l.length = 2) ∧
    (∃ (s : State) (k : Core) (m : Cmd) (j : Job) (l : List (CoreId × Core × Cmd)), HeadDue s 0 0 0x06 k m j ∧ s.jointOf 0 k m = some l ∧ jointAgrees l = false) :=
  ⟨⟨withCmd 0 (cmdOf 3 0 0 0 0 8), _, _, _, ⟨⟨rfl, rfl, rfl⟩, rfl, fun _ => rfl⟩, by decide⟩, ⟨withCmd 0 (cmdOf 3 0 0 0 0 0), _, _, _, ⟨⟨rfl, rfl, rfl⟩, rfl, fun _ => rfl⟩, by decide⟩,
   ⟨withCmd 0 (cmdOf 4 0 0 0 0 (BitVec.ofNat 64 (2 ^ 60))), _, _, _, ⟨⟨rfl, rfl, rfl⟩, rfl, fun _ => rfl⟩, by decide, by decide, by decide, by decide, by decide, by decide, fun _ h => (List.not_mem_nil h).elim⟩,
   ⟨withCmd 0 (cmdOf 5 0 0 7 0 0), _, _, _, ⟨⟨rfl, rfl, rfl⟩, rfl, fun _ => rfl⟩⟩, ⟨withCore (openGang (crossOf 1)), _, _, _, ⟨⟨rfl, rfl, rfl⟩, rfl, fun _ => rfl⟩, by decide +kernel⟩,
   ⟨{ withCore (openGang (crossOf 1)) with cores := [(0, openGang (crossOf 1)), (1, openGang (crossOf 1))] }, _, crossOf 1, demoJob, _, ⟨⟨rfl, rfl, rfl⟩, rfl, unraced_other (by decide)⟩, rfl, by decide +kernel, rfl, rfl⟩,
   ⟨{ withCore (openGang (crossOf 1)) with cores := [(0, openGang (crossOf 1)), (1, openGang (crossOf 0))] }, _, crossOf 1, demoJob, _, ⟨⟨rfl, rfl, rfl⟩, rfl, unraced_other (by decide)⟩, rfl, by decide +kernel⟩⟩
theorem witness_QueueControl :
    (∃ (s : State) (k : Core) (m : Cmd) (j : Job), HeadDue s 0 0 0x07 k m j ∧ ∃ u ∈ m.before, ∃ x ∈ k.commands, x.uid = u) ∧
    (∃ (s : State) (k : Core) (m : Cmd) (j : Job), HeadDue s 0 0 0x07 k m j ∧ ∀ u ∈ m.before, ∀ x ∈ k.commands, x.uid ≠ u) ∧
    (∃ (s : State) (k : Core) (m : Cmd) (j : Job), HeadDue s 0 2 0x08 k m j) :=
  ⟨⟨withCore { demoCore with q := [(0, [{ cmdOf 7 0 0 0 0 0 with before := [9] }]), (1, [{ cmdOf 0x23 0 0 0 0 0 with uid := 9 }])] }, _, _, _, ⟨⟨rfl, rfl, rfl⟩, rfl, fun _ => rfl⟩, 9, .head _, _, .tail _ (.head _), rfl⟩,
   ⟨withCmd 0 (cmdOf 7 0 0 0 0 0), _, _, _, ⟨⟨rfl, rfl, rfl⟩, rfl, fun _ => rfl⟩, fun _ h => (List.not_mem_nil h).elim⟩, ⟨withCmd 2 (cmdOf 8 0 0 0 0 0), _, _, _, ⟨⟨rfl, rfl, rfl⟩, rfl, fun _ => rfl⟩⟩⟩
theorem witness_Completion :
    (∃ (s : State) (k : Core) (m : Cmd), s.core? 0 = some k ∧ k.queue 1 = [m] ∧ k.engines = true ∧ m.stage ≠ .performed) ∧
    (∃ (s : State) (k : Core) (m : Cmd), s.core? 0 = some k ∧ k.queue 1 = [m] ∧ k.engines = true ∧ m.stage = .performed ∧ m.cause = 0 ∧ dSignal m.d0 = false ∧ m.flags &&& m.enabled = 0) ∧
    (∃ (s : State) (k : Core) (m : Cmd), s.core? 0 = some k ∧ k.queue 1 = [m] ∧ k.engines = true ∧ m.stage = .performed ∧ m.cause = 0 ∧ dSignal m.d0 = false ∧ m.flags &&& m.enabled ≠ 0) ∧
    (∃ (s : State) (k : Core) (m : Cmd), s.core? 0 = some k ∧ k.queue 1 = [m] ∧ k.engines = true ∧ m.stage = .performed ∧ m.cause ≠ 0 ∧ m.votesAbort = false ∧ dSignal m.d0 = false) ∧
    (∃ (s : State) (k : Core) (m : Cmd) (h : HamperFields), s.core? 0 = some k ∧ k.queue 1 = [m] ∧ k.engines = true ∧ m.stage = .performed ∧ m.cause = 0 ∧ dSignal m.d0 = true ∧ m.firing = none ∧
      HamperIs h 0 (s.bytesAt k.asid { core := 0, space := .tcm, off := dHamper m.d0 } 16)) ∧
    (∃ (s : State) (k : Core) (m : Cmd), s.core? 0 = some k ∧ k.queue 3 = [m] ∧ k.engines = true ∧ m.stage = .performed ∧ m.cause ≠ 0 ∧ m.votesAbort = true ∧ k.open_ = true ∧ k.stopped = false) ∧
    (∃ (s : State) (k : Core) (m : Cmd), s.core? 0 = some k ∧ k.queue 1 = [m] ∧ k.engines = true ∧ m.stage = .arrived ∧ 8 ≤ (dgetD k.status (statusQueue 1) []).length) ∧
    (∃ (s : State) (k : Core) (m : Cmd), s.core? 0 = some k ∧ k.queue 1 = [m] ∧ k.engines = true ∧ m.stage = .arrived ∧ (dgetD k.status (statusQueue 1) []).length < 8) :=
  ⟨⟨withCmd 1 (cmdOf 0x23 0 0 0 0 0), _, _, rfl, rfl, rfl, by decide⟩, ⟨withCmd 1 (doneCmd 0x23), _, _, rfl, rfl, rfl, rfl, rfl, by decide, by decide⟩,
   ⟨withCmd 1 { doneCmd 0x23 with flags := 1, enabled := 1 }, _, _, rfl, rfl, rfl, rfl, rfl, by decide, by decide⟩,
   ⟨withCmd 1 { doneCmd 0x20 with cause := 4 }, _, _, rfl, rfl, rfl, rfl, by decide, by decide, by decide⟩,
   ⟨withCmd 1 (doneCmd (0x23 + 2 ^ 27)), _, _, ⟨0, 0, false, false, 0⟩, rfl, rfl, rfl, rfl, rfl, by decide, rfl, by unfold HamperIs; decide⟩,
   ⟨withCmd 3 { doneCmd 0x41 with cause := 4 }, _, _, rfl, rfl, rfl, rfl, by decide, by decide, rfl, rfl⟩,
   ⟨withCore { demoCore with q := [(1, [{ doneCmd 0x23 with stage := .arrived }])], status := [(5, [0, 0, 0, 0, 0, 0, 0, 0])] }, _, _, rfl, rfl, rfl, rfl, by decide⟩,
   ⟨withCmd 1 { doneCmd 0x23 with stage := .arrived }, _, _, rfl, rfl, rfl, rfl, by decide⟩⟩

theorem ok_of {ε α : Type} (o : Except ε α) (p : α → Bool) (h : (match o with | .ok a => p a | .error _ => false) = true) : ∃ a, o = .ok a ∧ p a = true := by
  cases o with
  | ok a => exact ⟨a, rfl, h⟩
  | error e => cases h
/-- The command at the head of a queue, with these bytes in the TCM. -/
def withTcm (q : Nat) (m : Cmd) (t : Memory) : State := withCore { demoCore with q := [(q, [m])], tcm := ⟨t, t⟩ }
/-- The command at the head of q1, with these bytes in the TCM, over the page tables. -/
def overTables (m : Cmd) (t : Memory) : State :=
  begun { tableState true [] with cores := [(0, { demoCore with ctxs := [(0, demoCtx)], q := [(1, [m])], tcm := ⟨t, t⟩ })] }
def virt (off : Nat) : Word := BitVec.ofNat 64 (2 ^ 63 + off)
def qspAddr (off : Nat) : Word := BitVec.ofNat 64 (2 ^ 60 + off)
def dssAddr (off : Nat) : Word := BitVec.ofNat 64 (2 ^ 61 + off)
theorem witness_Copies :
    (∃ (s : State) (k : Core) (m : Cmd) (j : Job) (x : EFault), HeadDue s 0 3 0x40 k m j ∧ m.stage = .queued ∧ basesCause [([0, 1], m.a1), ([2, 4, 5], m.a2)] = some x) ∧
    (∃ (s : State) (k : Core) (m : Cmd) (j : Job), HeadDue s 0 1 0x20 k m j ∧ 32 = 32 * (m.d3.toNat % 2 ^ 16 + 1) ∧ tRows m.d1 = 0 ∧ RowAt s 0 k j m.a1 32 ∧ m.a2.toNat % 32 = 0 ∧
      m.d3.getLsbD 49 = false ∧ RowAt s 0 k j m.a2 32) ∧
    (∃ (s : State) (k : Core) (m : Cmd) (j : Job), HeadDue s 0 1 0x20 k m j ∧ 32 = 32 * (m.d3.toNat % 2 ^ 16 + 1) ∧ tRows m.d1 = 0 ∧ RowAt s 0 k j m.a1 32 ∧ m.a2.toNat % 32 = 0 ∧
      m.d3.getLsbD 49 = false ∧ m.a2.toNat / 2 ^ 36 = 2 ^ 25 ∧ addrOff m.a2 + 32 ≤ j.limit ∧ j.inCode (addrOff m.a2) 32 = false ∧ j.hasDie (coreDie 0) = true) ∧
    (∃ (s : State) (k : Core) (m : Cmd) (j : Job), HeadDue s 0 1 0x20 k m j ∧ 32 = 32 * (m.d3.toNat % 2 ^ 16 + 1) ∧ tRows m.d1 = 0 ∧ RowAt s 0 k j m.a1 32 ∧ m.a2.toNat % 32 = 0 ∧
      m.d3.getLsbD 49 = true ∧ (s.byteAt k.asid { core := 0, space := .tcm, off := m.d3.toNat / 2 ^ 32 % 2 ^ 17 }).getLsbD 0 = true ∧ RowAt s 0 k j m.a2 32) ∧
    (∃ (s : State) (k : Core) (m : Cmd) (j : Job), HeadDue s 0 1 0x24 k m j ∧ 32 = 32 * (m.d3.toNat / 2 ^ 32 % 2 ^ 16 + 1) ∧ tRows m.d2 = 0 ∧ RowAt s 0 k j m.a2 32) ∧
    (∃ (s : State) (k : Core) (m : Cmd) (j : Job), HeadDue s 0 1 0x24 k m j ∧ 32 = 32 * (m.d3.toNat / 2 ^ 32 % 2 ^ 16 + 1) ∧ tRows m.d2 = 0 ∧ m.a2.toNat / 2 ^ 52 = 2 ^ 11 ∧ m.a2.toNat % 32 = 0 ∧
      ∃ p, s.reach ⟨0, k, j, m⟩ m.a2 0 32 true = .ok p ∧ true = true) :=
  ⟨⟨withCmd 3 (cmdOf 0x40 0 0 0 0 0), _, _, _, _, ⟨⟨rfl, rfl, rfl⟩, rfl, fun _ => rfl⟩, rfl, rfl⟩,
   ⟨withCmd 1 (cmdOf 0x20 0 0 0 0 (qspAddr 64)), _, _, _, ⟨⟨rfl, rfl, rfl⟩, rfl, fun _ => rfl⟩, by decide, by decide, by unfold RowAt; decide, by decide, by decide, by unfold RowAt; decide⟩,
   ⟨withCmd 1 (cmdOf 0x20 0 0 0 0 (dssAddr 64)), _, _, _, ⟨⟨rfl, rfl, rfl⟩, rfl, fun _ => rfl⟩, by decide, by decide, by unfold RowAt; decide, by decide, by decide, by decide, by decide, by decide, by decide⟩,
   ⟨withTcm 1 (cmdOf 0x20 0 0 (BitVec.ofNat 64 (2 ^ 49 + 256 * 2 ^ 32)) 0 64) [(256, 1)], _, _, _, ⟨⟨rfl, rfl, rfl⟩, rfl, fun _ => rfl⟩, by decide, by decide, by unfold RowAt; decide, by decide, by decide,
    by decide, by unfold RowAt; decide⟩,
   ⟨withCmd 1 (cmdOf 0x24 0 0 0 0 64), _, _, _, ⟨⟨rfl, rfl, rfl⟩, rfl, fun _ => rfl⟩, by decide, by decide, by unfold RowAt; decide⟩,
   ⟨overTables (cmdOf 0x24 0 0 0 0 (virt 64)) [], _, _, _, ⟨⟨rfl, rfl, rfl⟩, rfl, fun _ => rfl⟩, by decide, by decide, by decide, by decide, ok_of _ (fun _ => true) (by decide +kernel)⟩⟩
/-- A page-fetch entry: VA 0, 32 bytes, DEST 0x40 of the TCM. -/
def fetchMem (next : Bool) : Memory := [(7, 0x80), (8, 32), (16, 64)] ++ if next then [(24, 1)] else []
def fetchGood (s : State) (v : Mover) (f : Fetch) (next : Bool) : Bool :=
  f.next == next && !f.signal && decide (fetchCause v f = none) && decide (v.j.claimable v.k.index f = none) &&
    (match s.readRow v f.va 0 f.len with | .ok _ => true | .error _ => false) && f.len == 32 && f.dest == 64
theorem witness_Fetches :
    (∃ (s : State) (k : Core) (m : Cmd) (j : Job), HeadDue s 0 1 0x21 k m j ∧ tRows m.d1 = 0 ∧ basesCause [([0, 1, 2], m.a1)] = none ∧
      (∃ f, s.fetchAt ⟨0, k, j, m⟩ 0 = .ok f ∧ fetchGood s ⟨0, k, j, m⟩ f false = true) ∧ RowAt s 0 k j 64 32) ∧
    (∃ (s : State) (k : Core) (m : Cmd) (j : Job), HeadDue s 0 1 0x21 k m j ∧ tRows m.d1 = 0 ∧ basesCause [([0, 1, 2], m.a1)] = none ∧
      ∃ f, s.fetchAt ⟨0, k, j, m⟩ 0 = .ok f ∧ fetchGood s ⟨0, k, j, m⟩ f true = true) ∧
    (∃ (s : State) (k : Core) (m : Cmd) (j : Job), HeadDue s 0 1 0x22 k m j ∧ tRows m.d1 = 0 ∧ basesCause [([8], m.a1), ([0, 1], m.a2)] = none ∧
      (∃ r, s.reach ⟨0, k, j, m⟩ m.a1 0 32 false = .ok r ∧ (tierOf r.2 == .hbm && decide (r.2 % 1024 ≠ 0) &&
        (match r.1.readRow ⟨0, k, j, m⟩ m.a1 0 1024 with | .ok _ => true | .error _ => false)) = true) ∧ RowAt s 0 k j m.a2 1024) ∧
    (∃ (s : State) (k : Core) (m : Cmd) (j : Job), HeadDue s 0 1 0x22 k m j ∧ tRows m.d1 = 0 ∧ basesCause [([8], m.a1), ([0, 1], m.a2)] = none ∧
      (∃ r, s.reach ⟨0, k, j, m⟩ m.a1 0 32 false = .ok r ∧ (tierOf r.2 == .hbm && decide (r.2 % 1024 = 0) &&
        (match (r.1.holdBank 0 r.2).readRow ⟨0, k, j, m⟩ m.a1 0 1024 with | .ok _ => true | .error _ => false)) = true) ∧ RowAt s 0 k j m.a2 1024) ∧
    (∃ (s : State) (k : Core) (m : Cmd) (j : Job) (d : Module) (r : Bank), HeadDue s 0 1 0x23 k m j ∧ k.reserved = some 3 ∧ s.module? 0 = some d ∧ dget? d.banks 3 = some r) :=
  ⟨⟨overTables (cmdOf 0x21 0 0 0 0 0) (fetchMem false), _, _, _, ⟨⟨rfl, rfl, rfl⟩, rfl, fun _ => rfl⟩, by decide, by decide, ok_of _ _ (by decide +kernel), by unfold RowAt; decide +kernel⟩,
   ⟨overTables (cmdOf 0x21 0 0 0 0 0) (fetchMem true), _, _, _, ⟨⟨rfl, rfl, rfl⟩, rfl, fun _ => rfl⟩, by decide, by decide, ok_of _ _ (by decide +kernel)⟩,
   ⟨overTables (cmdOf 0x22 0 0 1 (virt 32) 0) [], _, _, _, ⟨⟨rfl, rfl, rfl⟩, rfl, fun _ => rfl⟩, by decide, by decide, ok_of _ _ (by decide +kernel), by unfold RowAt; decide +kernel⟩,
   ⟨overTables (cmdOf 0x22 0 0 1 (virt 0) 0) [], _, _, _, ⟨⟨rfl, rfl, rfl⟩, rfl, fun _ => rfl⟩, by decide, by decide, ok_of _ _ (by decide +kernel), by unfold RowAt; decide +kernel⟩,
   ⟨withModule (withCore { demoCore with q := [(1, [cmdOf 0x23 0 0 0 0 0])], reserved := some 3 }) { demoModule with banks := [(3, ⟨0, 0, some 0, 0⟩)] }, _, _, _, _, _, ⟨⟨rfl, rfl, rfl⟩, rfl, fun _ => rfl⟩, rfl, rfl, rfl⟩⟩
/-- A ring block of two slots of 32 bytes at offset 1024 of the scratchpad. -/
def copyRing (free : Byte) : Memory := [(1, 4), (7, 0x10), (8, 32), (12, 1)] ++ if free = 0 then [] else [(16, free)]
def copySlots (free : Nat) : RingFields := ⟨2 ^ 60 + 1024, 32, 1, free, 0, 0, 0⟩
theorem witness_RingsAndRows :
    (∃ (s : State) (k : Core) (m : Cmd) (j : Job), HeadDue s 0 1 0x25 k m j ∧ m.stage = .queued ∧ m.progress = 0 ∧ tRows m.d1 = 0 ∧ RowAt s 0 k j m.a1 32 ∧ RowAt s 0 k j m.a2 32 ∧
      m.a1.toNat / 2 ^ 60 = 1 ∧ m.a2.toNat / 2 ^ 60 = 0 ∧ (copySlots 0).base / 2 ^ 60 = 1 ∧ RingIs (copySlots 0) 0 (s.bytesAt k.asid (localAt 0 m.a2 0) 32) ∧
      ringValid j 0 .job (s.bytesAt k.asid (localAt 0 m.a2 0) 32) = true) ∧
    (∃ (s : State) (k : Core) (m : Cmd) (j : Job), HeadDue s 0 1 0x25 k m j ∧ m.stage = .queued ∧ m.progress = 0 ∧ tRows m.d1 = 0 ∧ RowAt s 0 k j m.a1 32 ∧ RowAt s 0 k j m.a2 32 ∧
      m.a1.toNat / 2 ^ 60 = 1 ∧ m.a2.toNat / 2 ^ 60 = 0 ∧ RingIs (copySlots 2) 0 (s.bytesAt k.asid (localAt 0 m.a2 0) 32) ∧
      ringValid j 0 .job (s.bytesAt k.asid (localAt 0 m.a2 0) 32) = true) ∧
    (∃ (s : State) (k : Core) (m : Cmd) (j : Job), HeadDue s 0 2 0x30 k m j ∧ m.d3.getLsbD 63 = true) ∧
    (∃ (s : State) (k : Core) (m : Cmd) (j : Job), HeadDue s 0 2 0x30 k m j ∧ m.d3.getLsbD 63 = false ∧ m.d3.toNat / 2 ^ 22 % 2 ^ 10 = 0 ∧
      (let row := s.bytesAt k.asid { core := 0, space := .tcm, off := m.d3.toNat / 2 ^ 32 % 2 ^ 17 } 4 + tRows m.d1
       row = 1 ∧ RowAt s 0 k j m.a1 (row * 32 * tStride m.d1 + 32)) ∧ RowAt s 0 k j m.a2 32) :=
  ⟨⟨withTcm 1 (cmdOf 0x25 0 0 0 (qspAddr 0) 0) (copyRing 0), _, _, _, ⟨⟨rfl, rfl, rfl⟩, rfl, fun _ => rfl⟩, rfl, rfl, by decide, by unfold RowAt; decide, by unfold RowAt; decide, by decide, by decide, by decide,
    by unfold RingIs; decide, by decide⟩,
   ⟨withTcm 1 (cmdOf 0x25 0 0 0 (qspAddr 0) 0) (copyRing 2), _, _, _, ⟨⟨rfl, rfl, rfl⟩, rfl, fun _ => rfl⟩, rfl, rfl, by decide, by unfold RowAt; decide, by unfold RowAt; decide, by decide, by decide,
    by unfold RingIs; decide, by decide⟩,
   ⟨withCmd 2 (cmdOf 0x30 0 0 (BitVec.ofNat 64 (2 ^ 63)) 0 0), _, _, _, ⟨⟨rfl, rfl, rfl⟩, rfl, fun _ => rfl⟩, by decide⟩,
   ⟨withTcm 2 (cmdOf 0x30 (2 ^ 32) 0 0 (qspAddr 0) 64) [(0, 1)], _, _, _, ⟨⟨rfl, rfl, rfl⟩, rfl, fun _ => rfl⟩, by decide, by decide, ⟨by decide, by unfold RowAt; decide⟩, by unfold RowAt; decide⟩⟩
theorem witness_Network :
    (∃ (s : State) (k : Core) (m : Cmd) (j : Job) (d : Dest), HeadDue s 0 3 0x40 k m j ∧ m.stage = .queued ∧ tRows m.d1 = 0 ∧ m.d3.toNat % 2 ^ 16 = 0 ∧ RowAt s 0 k j m.a1 32 ∧
      formOk [2, 4, 5] m.a2 = true ∧ m.a2.toNat % 32 = 0 ∧ locate 0 m.a2 = some d ∧ d.space ≠ .dss ∧ d.off + 32 ≤ j.limitOf d.space ∧ ∀ e ∈ k.eager, e.cmd ≠ some m.uid) ∧
    (∃ (s : State) (k : Core) (m : Cmd) (j : Job), HeadDue s 0 3 0x40 k m j ∧ m.stage ≠ .queued ∧ m.outstanding = 0) ∧
    (∃ (s : State) (k : Core) (m : Cmd) (j : Job), HeadDue s 0 3 0x40 k m j ∧ m.stage ≠ .queued ∧ m.outstanding ≠ 0) ∧
    (∃ (s : State) (k : Core) (m : Cmd) (j : Job) (w slot n code : Nat), HeadDue s 0 3 0x41 k m j ∧ slot = m.d3.toNat % 2 ^ 12 ∧ code = m.d3.toNat / 2 ^ 16 % 8 ∧
      w = codeBytes code ∧ n = m.d3.toNat / 2 ^ 32 % 2 ^ 16 + 1 ∧ RowAt s 0 k j m.a1 (n * w) ∧ slot + n ≤ j.window) ∧
    (∃ (s : State) (k : Core) (m : Cmd) (j : Job) (w slot n code : Nat), HeadDue s 0 3 0x41 k m j ∧ slot = m.d3.toNat % 2 ^ 12 ∧ code = m.d3.toNat / 2 ^ 16 % 8 ∧
      w = codeBytes code ∧ n = m.d3.toNat / 2 ^ 32 % 2 ^ 16 + 1 ∧ RowAt s 0 k j m.a1 (n * w) ∧ j.window < slot + n) ∧
    (∃ (s : State) (k : Core) (m : Cmd), s.core? 0 = some k ∧ k.headOf 3 = some m ∧ m.firing = some (0, 0) ∧ m.stage ≠ .queued) ∧
    (∃ (s : State) (k : Core) (m : Cmd), s.core? 0 = some k ∧ k.headOf 3 = some m ∧ m.firing = some (0, 0) ∧ m.stage = .queued) ∧
    (∃ (s : State) (j : Job) (g : Staged), s.job? 0 = some j ∧ j.staged[0]? = some g) :=
  ⟨⟨withCmd 3 (cmdOf 0x40 0 0 0 0 (BitVec.ofNat 64 (4 * 2 ^ 60 + 64))), _, _, _, ⟨0, .tcm, 64⟩, ⟨⟨rfl, rfl, rfl⟩, rfl, fun _ => rfl⟩, rfl, by decide, by decide, by unfold RowAt; decide, by decide, by decide,
    by decide, by decide, by decide, fun _ h => (List.not_mem_nil h).elim⟩,
   ⟨withCmd 3 { cmdOf 0x40 0 0 0 0 0 with stage := .running }, _, _, _, ⟨⟨rfl, rfl, rfl⟩, rfl, fun _ => rfl⟩, by decide, rfl⟩,
   ⟨withCmd 3 { cmdOf 0x40 0 0 0 0 0 with stage := .running, outstanding := 2 }, _, _, _, ⟨⟨rfl, rfl, rfl⟩, rfl, fun _ => rfl⟩, by decide, by decide⟩,
   ⟨begun (demoAt 0 [(0, demoCtx)] { demoCore with q := [(3, [cmdOf 0x41 0 0 0 0 0])] } { demoJob with window := 1 } []), _, _, _, _, _, _, _, ⟨⟨rfl, rfl, rfl⟩, rfl, fun _ => rfl⟩, rfl, rfl, rfl, rfl,
    by unfold RowAt; decide, by decide⟩,
   ⟨withCmd 3 (cmdOf 0x41 0 0 0 0 0), _, _, _, _, _, _, _, ⟨⟨rfl, rfl, rfl⟩, rfl, fun _ => rfl⟩, rfl, rfl, rfl, rfl, by unfold RowAt; decide, by decide⟩,
   ⟨withCmd 3 { cmdOf 0 0 0 0 0 0 with firing := some (0, 0), stage := .running }, _, _, rfl, rfl, rfl, by decide⟩,
   ⟨withCmd 3 { cmdOf 0 0 0 0 0 0 with firing := some (0, 0) }, _, _, rfl, rfl, rfl, rfl⟩,
   ⟨demoAt 0 [(0, demoCtx)] demoCore { demoJob with staged := [⟨0, 0, 32, 64, 0, false, none, none, [(0, 1)], true, none⟩] } [], _, _, rfl, rfl⟩⟩

def commitVote : Vote := { index := 0, abort := false, cause := 0, op := 0, val := 7 }
def abortVote : Vote := { commitVote with abort := true, cause := 4 }
def aVerdict (commit : Bool) : Verdict := { commit := commit, cause := 0, index := 0, origin := 0, val := 0 }
/-- A barrier message alone in flight. -/
def voting (j : Job) (kind : MsgKind) : State := demoAt 0 [(0, demoCtx)] demoCore j [demoMsg kind]
def twoCores : Job := { demoJob with n := 2, cc := 2 }
theorem witness_Votes :
    (∃ (s : State) (j : Job), BarrierAt s 0 0 (.vote commitVote 1) j ∧ j.verdict ≠ none) ∧
    (∃ (s : State) (j : Job), BarrierAt s 0 0 (.vote commitVote 1) j ∧ j.verdict = none ∧ (takenVote s j commitVote 1).abort = false ∧
      ∃ i, i < j.n ∧ s.voteIn { j with votes := j.votes ++ [takenVote s j commitVote 1] } i = false) ∧
    (∃ (s : State) (j : Job), BarrierAt s 0 0 (.vote commitVote 3) j ∧ j.verdict = none ∧ (takenVote s j commitVote 3).abort = true ∧ j.doomed = false) ∧
    (∃ (s : State) (j : Job), BarrierAt s 0 0 (.vote commitVote 1) j ∧ j.verdict = none ∧ 0 < j.n ∧ j.proxies = [] ∧
      (let j' := { j with votes := j.votes ++ [takenVote s j commitVote 1] }
       (∀ i, i < j.n → s.voteIn j' i = true) ∧ ∀ u ∈ j'.votes, u.abort = false ∧ u.op = (takenVote s j commitVote 1).op)) ∧
    (∃ (s : State) (j : Job), BarrierAt s 0 0 (.vote abortVote 1) j ∧ j.verdict = none ∧
      (let j' := { j with votes := j.votes ++ [takenVote s j abortVote 1] }
       (∀ i, i < j.n → s.voteIn j' i = true) ∧ 0 < j.n ∧ j'.abortOf 0 = some 4 ∧ ∀ h, h < 0 → j'.abortOf h = none)) ∧
    (∃ (s : State) (j : Job), BarrierAt s 0 0 (.further abortVote) j ∧ j.verdict ≠ none) ∧ (∃ (s : State) (j : Job), BarrierAt s 0 0 (.further abortVote) j ∧ j.verdict = none) ∧
    (∃ (s : State) (j : Job), BarrierAt s 0 0 (.urgent 15 0 2) j ∧ j.verdict ≠ none) ∧ (∃ (s : State) (j : Job), BarrierAt s 0 0 (.urgent 15 0 2) j ∧ j.verdict = none) :=
  ⟨⟨voting { demoJob with verdict := some (aVerdict true) } (.vote commitVote 1), _, ⟨_, rfl, rfl, rfl, rfl⟩, nofun⟩,
   ⟨voting twoCores (.vote commitVote 1), _, ⟨_, rfl, rfl, rfl, rfl⟩, rfl, by decide, 1, by decide, by decide⟩,
   ⟨voting demoJob (.vote commitVote 3), _, ⟨_, rfl, rfl, rfl, rfl⟩, rfl, by decide, rfl⟩,
   ⟨voting demoJob (.vote commitVote 1), _, ⟨_, rfl, rfl, rfl, rfl⟩, rfl, by decide, rfl, by decide, by decide⟩,
   ⟨voting demoJob (.vote abortVote 1), _, ⟨_, rfl, rfl, rfl, rfl⟩, rfl, by decide, by decide, by decide, nofun⟩,
   ⟨voting { demoJob with verdict := some (aVerdict true) } (.further abortVote), _, ⟨_, rfl, rfl, rfl, rfl⟩, nofun⟩, ⟨voting demoJob (.further abortVote), _, ⟨_, rfl, rfl, rfl, rfl⟩, rfl⟩,
   ⟨voting { demoJob with verdict := some (aVerdict true) } (.urgent 15 0 2), _, ⟨_, rfl, rfl, rfl, rfl⟩, nofun⟩, ⟨voting demoJob (.urgent 15 0 2), _, ⟨_, rfl, rfl, rfl, rfl⟩, rfl⟩⟩

def phaseCore (p : Phase) : Core := { demoCore with phase := p, ctxs := [(0, demoCtx)] }
/-- The demo job alone on position 0. -/
def alone (j : Job) (k : Core) : State := stageState j [(0, k)]
theorem demo_only {j : Job} (k : Core) (P : CoreId → Core → Prop) (hp : j.places = [0]) (h : P 0 k) :
    ∀ d ∈ j.places, ∀ x, (alone j k).core? d = some x → P d x := by
  intro d hd x hx
  cases List.mem_singleton.1 (hp ▸ hd)
  cases hx
  exact h
theorem demo_places (j : Job) (h : j.places = [0]) (P : CoreId → Prop) (hp : P 0) : ∀ c ∈ j.places, P c := by
  intro c hc
  cases List.mem_singleton.1 (h ▸ hc)
  exact hp
theorem witness_Outcomes :
    (∃ (s : State) (x : Msg) (k : Core), s.net[0]? = some x ∧ s.core? x.src = some k ∧ x.kind = .doom ∧ k.dead = false ∧ k.asid = x.asid ∧ k.open_ = true) ∧
    (∀ b, ∃ (s : State) (x : Msg) (k : Core) (v : Verdict), s.net[0]? = some x ∧ s.core? x.src = some k ∧ x.kind = .outcome v ∧ v.commit = b) ∧
    (∃ (s : State) (k : Core) (j : Job), s.core? 0 = some k ∧ s.job? k.asid = some j ∧ k.phase ≠ .applying) ∧
    (∃ (s : State) (k : Core) (j : Job), s.core? 0 = some k ∧ s.job? k.asid = some j ∧ k.phase = .applying ∧ (∀ d ∈ j.places, ∀ x, s.core? d = some x → k.index ≤ x.index ∨ x.phase = .applied) ∧
      k.deferred = []) ∧
    (∀ op, op ∈ [DeferredOp.write 4 5, .delta .addW 1] → ∃ (s : State) (k : Core) (j : Job) (e : Deferred) (e' : Core), s.core? 0 = some k ∧ s.job? k.asid = some j ∧ k.phase = .applying ∧
      (∀ d ∈ j.places, ∀ x, s.core? d = some x → k.index ≤ x.index ∨ x.phase = .applied) ∧ k.deferred = [e] ∧ e.op = op ∧ s.forwarded k.asid e.dest.core = e.dest.core ∧
      s.core? e.dest.core = some e' ∧ e'.asid = k.asid) ∧
    (∃ (s : State) (k : Core) (j : Job), s.core? 0 = some k ∧ s.job? k.asid = some j ∧ k.phase ≠ .rolling) ∧
    (∃ (s : State) (k : Core) (j : Job), s.core? 0 = some k ∧ s.job? k.asid = some j ∧ k.phase = .rolling ∧
      (∀ d ∈ j.places, ∀ x, s.core? d = some x → x.phase = .rolling ∨ x.phase = .rolled) ∧ k.dead = false ∧ (s.patch 0).fenced = false) :=
  ⟨⟨voting demoJob .doom, _, _, rfl, rfl, rfl, rfl, rfl, rfl⟩, fun b => ⟨voting demoJob (.outcome (aVerdict b)), _, _, _, rfl, rfl, rfl, rfl⟩, ⟨demo, _, _, rfl, rfl, nofun⟩,
   ⟨alone demoJob (phaseCore .applying), _, _, rfl, rfl, rfl, demo_only _ _ (by decide) (.inl (Nat.le_refl _)), rfl⟩,
   fun op _ => ⟨alone demoJob { phaseCore .applying with deferred := [⟨dssAt 64, op⟩] }, _, demoJob, _, _, rfl, rfl, rfl,
      demo_only { phaseCore .applying with deferred := [⟨dssAt 64, op⟩] } (fun _ x => 0 ≤ x.index ∨ x.phase = .applied) (by decide) (.inl (Nat.zero_le _)), rfl, rfl, by
        show (alone demoJob _).forwarded 0 0 = 0
        rfl, rfl, rfl⟩,
   ⟨demo, _, _, rfl, rfl, nofun⟩,
   ⟨alone demoJob (phaseCore .rolling), _, _, rfl, rfl, rfl, demo_only _ (fun _ x => x.phase = .rolling ∨ x.phase = .rolled) (by decide) (.inl rfl), rfl, by decide⟩⟩
theorem witness_Boundary :
    (∃ (s : State) (j : Job), s.job? 0 = some j ∧ j.stage ≠ .running) ∧ (∃ (s : State) (j : Job), s.job? 0 = some j ∧ j.verdict = none ∧ j.held = false) ∧
    (∀ v, v ∈ [aVerdict true, aVerdict false] → ∃ (s : State) (j : Job), s.job? 0 = some j ∧ j.stage = .running ∧ j.verdict = some v ∧ s.boundaryReached j = true ∧ j.paused = true ∧
      j.pending = [] ∧ j.endCause = none ∧ j.totalAborts < 15 ∧ j.handler ≠ 0 ∧ ∀ x ∈ j.sections, x.type ≠ 5) ∧
    (∀ v, v ∈ [none, some (aVerdict true), some (aVerdict false)] → ∃ (s : State) (j : Job), s.job? 0 = some j ∧ j.stage = .running ∧ j.verdict = none ∧ j.held = true ∧ j.paused = false ∧
      j.parked = none ∧ j.yieldTo = none ∧ j.staged = [] ∧ (∀ c ∈ j.places, (s.patch c).fenced = false) ∧
      (∀ c ∈ j.places, ∀ k, s.core? c = some k → k.repeatCause = none ∧ k.stagedPoison = []) ∧ j.lastAttempt = v) ∧
    (∃ (s : State) (j : Job), s.job? 0 = some j ∧ j.stage ≠ .retiring) ∧
    (∃ (s : State) (j : Job) (d : Module) (e : Entry), s.job? 0 = some j ∧ j.stage = .retiring ∧ (∀ c ∈ j.places, ∀ k, s.core? c = some k → k.writeOuts = []) ∧ s.writing j = false ∧
      j.endCause = none ∧ j.pending = [] ∧ (∀ m ∈ j.modules, s.lostFrame m j.root = false) ∧ s.module? j.home = some d ∧ dget? d.slots (j.jsn % 65536) = some e ∧ e.jsn = j.jsn ∧
      e.final = false) :=
  ⟨⟨alone { demoJob with stage := .staging } heldCore, _, rfl, nofun⟩, ⟨demo, _, rfl, rfl, rfl⟩,
   fun v h => ⟨alone { demoJob with verdict := some v, paused := true } (phaseCore (if v.commit then .applied else .rolled)), _, rfl, rfl, rfl, by
      rcases List.mem_pair.1 h with rfl | rfl <;> decide, rfl, rfl, rfl, show demoJob.totalAborts < 15 by decide, show demoJob.handler ≠ 0 by decide,
    show ∀ x ∈ demoJob.sections, x.type ≠ 5 by decide⟩,
   fun v hv => by
    rcases List.mem_cons.1 hv with rfl | hv <;> [skip; rcases List.mem_pair.1 hv with rfl | rfl] <;> exact ⟨alone { demoJob with held := true, lastAttempt := _ } heldCore, _, rfl, rfl, rfl, rfl, rfl, rfl, rfl, rfl, demo_places _ (by decide) _ (by decide),
    demo_only heldCore (fun _ k => k.repeatCause = none ∧ k.stagedPoison = []) (by decide) ⟨rfl, rfl⟩, rfl⟩,
   ⟨demo, _, rfl, nofun⟩,
   ⟨alone { demoJob with stage := .retiring } (phaseCore .applied), _, _, _, rfl, rfl, demo_only _ (fun _ k => k.writeOuts = []) (by decide) rfl, by decide, rfl, rfl, by decide +kernel, rfl, rfl,
    rfl, rfl⟩⟩

def fencedDie (l : Dict Patch) : Module := { Module.reset with dies := [(0, { Die.reset 0 with patches := l })] }
/-- Positions and messages in flight at a cycle, on a module at reset. -/
def beatState (clock : Nat) (p : Dict Pos) (net : List Msg) : State := { demo with clock := clock, positions := p, net := net }
def msgFrom (c : CoreId) (kind : MsgKind) : Msg := { demoMsg kind with src := c }
theorem witness_Heartbeats :
    (∃ (s : State) (t : Nat), BeatIs s 0 t ∧ t = (s.pos 0).lastBeat) ∧ (∃ (s : State) (t : Nat), BeatIs s 0 t ∧ t ≠ (s.pos 0).lastBeat ∧ s.beats 0 = true) ∧
    (∃ (s : State) (t : Nat), BeatIs s 0 t ∧ t ≠ (s.pos 0).lastBeat ∧ s.beats 0 = false) ∧
    (∃ (s : State) (x : Msg) (i : Nat), s.net[0]? = some x ∧ x.kind = .heartbeat 1 ∧ directionOf 1 x.src = some i) ∧ (∃ (s : State) (t : Nat), BeatIs s 0 t ∧ t = (s.pos 0).lastCheck) ∧
    (∃ (s : State) (t : Nat), BeatIs s 0 t ∧ t ≠ (s.pos 0).lastCheck ∧ s.beats 0 = false) ∧
    (∀ m ∈ [0, 2], ∃ (s : State) (t : Nat), BeatIs s 0 t ∧ t ≠ (s.pos 0).lastCheck ∧ s.beats 0 = true ∧ (s.patch 0).fenced = false ∧ neighbour 0 1 = some 1 ∧ (s.patch 1).fenced = false ∧
      (s.pos 1).appealing = false ∧ (∀ h, h < 4 → h ≠ 1 → QuietSide s 0 h) ∧ (s.pos 0).heard.contains 1 = false ∧ dgetD (s.pos 0).misses 1 0 + 1 = m + 1 ∧
      max 1 ((s.pos 0).hbperiod.toNat / 2 ^ 16 % 16) = 3 ∧ dgetD (s.pos 0).crcs 1 0 = 0 ∧ dgetD (s.pos 0).headers 1 0 = 0) :=
  ⟨⟨beatState 0 [] [], 0, ⟨_, rfl, by decide⟩, by decide⟩, ⟨beatState 1024 [] [], 1, ⟨_, rfl, by decide⟩, by decide, by decide⟩,
   ⟨{ beatState 1024 [] [] with cores := [(0, { demoCore with dead := true })] }, 1, ⟨_, rfl, by decide⟩, by decide, by decide⟩,
   ⟨beatState 0 [] [demoMsg (.heartbeat 1)], _, 3, rfl, rfl, by decide⟩, ⟨beatState 0 [] [], 0, ⟨_, rfl, by decide⟩, by decide⟩,
   ⟨{ beatState 1024 [] [] with cores := [(0, { demoCore with dead := true })] }, 1, ⟨_, rfl, by decide⟩, by decide, by decide⟩,
   fun m hm => by
    rcases List.mem_pair.1 hm with rfl | rfl <;> exact ⟨beatState 1024 [(0, { Pos.reset with heard := [2], misses := [(1, _)] })] [], 1, ⟨_, rfl, by decide⟩, nofun, rfl, rfl, rfl, rfl, rfl, (by
      intro h h1 h2 d hd
      match h with
      | 0 => cases hd
      | 1 => exact absurd rfl h2
      | 2 => cases hd; exact ⟨rfl, .inr ⟨rfl, rfl⟩⟩
      | 3 => cases hd), rfl, rfl, by decide, rfl, rfl⟩⟩
theorem witness_Accusations :
    (∃ (s : State) (x : Msg), s.net[0]? = some x ∧ x.kind = .accuse 2 1 ∧
      (let l := (1, x.src, s.clock + 4 * max 256 ((s.pos 2).hbperiod.toNat % 2 ^ 16)) :: (s.pos 2).accused.filter fun a => a.1 ≠ 1 || a.2.1 ≠ x.src
       ¬ Enough s 1 ((l.filter fun a => a.1 = 1 && decide (s.clock < a.2.2)).map fun a => a.2.1))) ∧
    (∃ (s : State) (x : Msg) (k : Core) (m : Module), s.net[0]? = some x ∧ x.kind = .accuse 2 1 ∧
      (let l := (1, x.src, s.clock + 4 * max 256 ((s.pos 2).hbperiod.toNat % 2 ^ 16)) :: (s.pos 2).accused.filter fun a => a.1 ≠ 1 || a.2.1 ≠ x.src
       Enough s 1 ((l.filter fun a => a.1 = 1 && decide (s.clock < a.2.2)).map fun a => a.2.1)) ∧ 2 ∈ s.present 1 ∧ (s.patch 1).fenced = false ∧ s.core? 1 = some k ∧ s.module? 0 = some m) ∧
    (∃ s : State, (s.patch 0).perm = true) ∧ (∃ s : State, (s.patch 0).fenced = false ∧ (s.patch 0).slot ≠ 4) ∧
    (∃ (s : State) (m : Module), (s.patch 0).perm = false ∧ (s.patch 0).fenced = true ∧ s.module? 0 = some m ∧ m.events.length < 256) ∧
    (∃ (s : State) (x : Msg), s.net[0]? = some x ∧ x.kind = .accept 2 1 ∧ ¬ Enough s 1 [x.src]) ∧
    (∀ b, ∃ (s : State) (x : Msg) (m : Module), s.net[0]? = some x ∧ x.kind = .accept 2 1 ∧
      (let l := (1, x.src) :: (s.pos 2).accepted.filter (· ≠ (1, x.src))
       Enough s 1 ((l.filter fun a => a.1 = 1).map Prod.snd)) ∧ (s.patch 1).perm = false ∧ s.quadQuiet 0 = b ∧ s.module? 0 = some m) :=
  ⟨⟨beatState 0 [] [demoMsg (.accuse 2 1)], _, rfl, rfl, by unfold Enough; decide⟩,
   ⟨{ beatState 0 [(2, { Pos.reset with accused := [(1, 17, 100)] })] [demoMsg (.accuse 2 1)] with cores := [(1, demoCore)] }, _, _, _, rfl, rfl, by unfold Enough; decide, by decide, by decide, rfl,
    rfl⟩,
   ⟨withModule demo (fencedDie [(0, ⟨true, true, 4⟩)]), by decide⟩, ⟨demo, by decide, by decide⟩, ⟨withModule demo (fencedDie [(0, ⟨true, false, 0⟩)]), _, by decide, by decide, rfl, by decide⟩,
   ⟨beatState 0 [] [demoMsg (.accept 2 1)], _, rfl, rfl, by unfold Enough; decide⟩,
   fun b => match b with
    | true => ⟨{ withModule (beatState 0 [(2, { Pos.reset with accepted := [(1, 17)] })] [demoMsg (.accept 2 1)]) (fencedDie [(1, ⟨true, false, 4⟩)]) with jobs := [] }, _, _, rfl, rfl,
        by unfold Enough; decide, by decide, by decide, rfl⟩
    | false => ⟨withModule (beatState 0 [(2, { Pos.reset with accepted := [(1, 17)] })] [demoMsg (.accept 2 1)]) (fencedDie [(1, ⟨true, false, 4⟩)]), _, _, rfl, rfl,
        by unfold Enough; decide, by decide, by decide, rfl⟩⟩

/-- A firing of tile 0 with these entry bits at the head of q3, its message in flight, and the rounds of the job. -/
def fireState (j : Job) (e : Nat) (rounds : List Round) (kind : MsgKind) : State :=
  demoAt 0 [(0, demoCtx)] { demoCore with q := [(3, [{ cmdOf 0 0 0 0 0 0 with firing := some (0, e), stage := .running }])] } { j with rounds := rounds } [{ demoMsg kind with cmd := some 4 }]
def roundOf (tile e : Nat) (arrivals : List RoundArrival) : Round := { tile := tile, entry := e, arrivals := arrivals, held := [], partials := [], sent := [], blocks := [], delivered := [] }
def ownArrival (e : Nat) : RoundArrival := { index := 0, core := 0, ctx := 0, uid := 4, seq := 0, entry := e, values := [[(0, 5)]] }
def mayFire (rounds : List Round) : State := fireState demoJob 0 rounds (.fire 0 0 0 [[(0, 5)]])
theorem running_firing (s : State) (a : RoundArrival) (k : Core) (m : Cmd) (h : s.core? a.core = some k) (hq : k.queue 3 = [m]) (hf : m.firing ≠ none) (hu : m.uid = a.uid) : FiringRuns s a :=
  ⟨k, m, h, by simp [hq], hf, hu, by simp [hq]⟩
theorem witness_Rounds :
    (∃ (s : State) (x : Msg) (j : Job) (k : Core) (r : Round), s.net[0]? = some x ∧ x.kind = .fire 0 0 0 [[(0, 5)]] ∧ s.job? x.asid = some j ∧ s.core? x.src = some k ∧
      j.rounds.find? (fun r => r.tile == 0) = some r ∧ entryKey r.entry ≠ entryKey 0 ∧ FiringRuns s (arrivalOf k x 0 [[(0, 5)]])) ∧
    (∃ (s : State) (x : Msg) (j : Job) (k : Core), s.net[0]? = some x ∧ x.kind = .fire 0 0 0 [[(0, 5)]] ∧ s.job? x.asid = some j ∧ s.core? x.src = some k ∧ (∀ r ∈ j.rounds, r.tile ≠ 0) ∧
      ∃ r ∈ j.rounds, tlSlot r.entry < tlSlot 0 + tlVals 0 ∧ tlSlot 0 < tlSlot r.entry + tlVals r.entry) ∧
    (∃ (s : State) (x : Msg) (j : Job) (k : Core), s.net[0]? = some x ∧ x.kind = .fire 0 (2 ^ 160) 0 [[(0, 5)]] ∧ s.job? x.asid = some j ∧ s.core? x.src = some k ∧ (∀ r ∈ j.rounds, r.tile ≠ 0) ∧
      (∀ r ∈ j.rounds, tlSlot (2 ^ 160) + tlVals (2 ^ 160) ≤ tlSlot r.entry ∨ tlSlot r.entry + tlVals r.entry ≤ tlSlot (2 ^ 160)) ∧ ∃ c ∈ j.contributorsOn (2 ^ 160) 0, c ≠ x.src) ∧
    (∃ (s : State) (x : Msg) (j : Job) (k : Core) (r : Round), s.net[0]? = some x ∧ x.kind = .fire 0 (2 ^ 160) 0 [[(0, 5)]] ∧ s.job? x.asid = some j ∧ s.core? x.src = some k ∧
      j.rounds.find? (fun r => r.tile == 0) = some r ∧ entryKey r.entry = entryKey (2 ^ 160) ∧ (∀ b ∈ r.arrivals, b.index ≠ k.index) ∧
      ∃ c ∈ j.contributorsOn r.entry 0, c ≠ x.src ∧ ∀ b ∈ r.arrivals, b.core ≠ c) ∧
    (∃ (s : State) (x : Msg) (j : Job) (k : Core) (r : Round), s.net[0]? = some x ∧ x.kind = .fire 0 0 0 [[(0, 5)]] ∧ s.job? x.asid = some j ∧ s.core? x.src = some k ∧
      j.rounds.find? (fun r => r.tile == 0) = some r ∧ entryKey r.entry = entryKey 0 ∧ (∀ b ∈ r.arrivals, b.index ≠ k.index) ∧
      (let q := { r with arrivals := r.arrivals ++ [arrivalOf k x 0 [[(0, 5)]]] }
       (∀ c ∈ j.contributorsOn r.entry 0, ∃ b ∈ q.arrivals, b.core = c) ∧ j.tileModules r.entry = [0] ∧ j.byGateway r.entry 0 = false ∧ r.held = [] ∧ r.delivered = [] ∧
       (∀ b ∈ q.arrivals, coreModule b.core = 0 ∧ FiringRuns s b ∧ tlHmEn b.entry = false ∧ (tlDest b.entry).toNat / 2 ^ 60 = 0) ∧ (q.arrivals.map RoundArrival.core).Nodup ∧
       tlVals r.entry = 1 ∧ ∀ b ∈ q.arrivals, q.receives b = true)) :=
  ⟨⟨mayFire [roundOf 0 (2 ^ 128) []], _, _, _, _, rfl, rfl, rfl, rfl, rfl, by decide, running_firing _ _ _ _ rfl rfl nofun rfl⟩,
   ⟨mayFire [roundOf 1 0 []], _, _, _, rfl, rfl, rfl, rfl, by decide, by decide⟩,
   ⟨fireState twoCores (2 ^ 160) [] (.fire 0 (2 ^ 160) 0 [[(0, 5)]]), _, _, _, rfl, rfl, rfl, rfl, by decide, by decide, by decide⟩,
   ⟨fireState twoCores (2 ^ 160) [roundOf 0 (2 ^ 160) []] (.fire 0 (2 ^ 160) 0 [[(0, 5)]]), _, _, _, _, rfl, rfl, rfl, rfl, rfl, by decide, by decide, by decide⟩,
   ⟨mayFire [roundOf 0 0 []], _, _, _, _, rfl, rfl, rfl, rfl, rfl, by decide, by decide, by decide, by decide, by decide, by decide, rfl, (by
      intro b hb
      cases List.mem_singleton.1 hb
      exact ⟨by decide, running_firing _ _ _ _ rfl rfl nofun rfl, by decide, by decide⟩), by decide, by decide, by decide⟩⟩
/-- A round of 65 values that gateway cores combine. -/
def gatewayEntry : Nat := 64 * 2 ^ 240 + 2 ^ 268
theorem witness_Partials :
    (∃ (s : State) (x : Msg) (j : Job) (r : Round), s.net[0]? = some x ∧ x.kind = .partial_ 0 1 ∧ s.job? x.asid = some j ∧ j.rounds.find? (fun r => r.tile == 0) = some r ∧
      j.localFull r (j.roundRoot r.entry) = false) ∧
    (∃ (s : State) (x : Msg) (j : Job) (r : Round), s.net[0]? = some x ∧ x.kind = .result 0 0 ∧ s.job? x.asid = some j ∧ j.rounds.find? (fun r => r.tile == 0) = some r ∧ r.arrivals ≠ [] ∧
      (∀ b ∈ r.arrivals, FiringRuns s b) ∧ (r.arrivals.map RoundArrival.core).Nodup) ∧
    (∃ (s : State) (j : Job) (r : Round), s.job? 0 = some j ∧ j.rounds.find? (fun r => r.tile == 0) = some r ∧ j.byGateway r.entry 0 = false) ∧
    (∃ (s : State) (j : Job) (r : Round), s.job? 0 = some j ∧ j.rounds.find? (fun r => r.tile == 0) = some r ∧ j.byGateway r.entry 0 = true ∧ s.hasGateway 0 = true ∧ j.gathered r 0 = true ∧
      0 ∉ r.delivered ∧ dgetD r.blocks 0 0 + 1 < (tlVals r.entry + 63) / 64) ∧
    (∀ b, ∃ (s : State) (d : Module), s.module? 0 = some d ∧ d.mangleFailed = b) :=
  ⟨⟨fireState demoJob 0 [roundOf 0 0 []] (.partial_ 0 1), _, _, _, rfl, rfl, rfl, rfl, by decide⟩,
   ⟨fireState demoJob 0 [roundOf 0 0 [ownArrival 0]] (.result 0 0), _, _, _, rfl, rfl, rfl, rfl, nofun, (by
      intro b hb
      cases List.mem_singleton.1 hb
      exact running_firing _ _ _ _ rfl rfl nofun rfl), by decide⟩,
   ⟨fireState demoJob 0 [roundOf 0 0 []] .doom, _, _, rfl, rfl, by decide⟩,
   ⟨fireState demoJob 0 [roundOf 0 gatewayEntry [ownArrival gatewayEntry]] .doom, _, _, rfl, rfl, by decide, by decide, by decide, by decide, by decide⟩,
   fun b => ⟨withModule demo { demoModule with mangleFailed := b }, _, rfl, rfl⟩⟩

/-- The demo module serving a request. -/
def serving (op : Nat) (arg : Sparse 64) (j : Job) : State := withModule { demo with jobs := [(0, j)] } { demoModule with svcBusy := true, svcop := op, svcarg := arg }
theorem witness_Requests :
    (∃ (s : State) (d : Module), s.module? 0 = some d ∧ d.svcBusy = false) ∧
    (∃ (s : State) (d : Module), ServiceDue s 0 1 d ∧ (sget d.svcarg 1).toNat % 4 ≠ 0) ∧
    (∃ (s : State) (d : Module), ServiceDue s 0 1 d ∧ (sget d.svcarg 0).toNat < 2 ^ 14 ∧ (sget d.svcarg 1).toNat % 4 = 0 ∧ (sget d.svcarg 2).toNat = 4 ∧ s.job? (sget d.svcarg 0).toNat = none) ∧
    (∃ (s : State) (d : Module) (j : Job), ServiceDue s 0 1 d ∧ (sget d.svcarg 2).toNat = 4 ∧ s.job? (sget d.svcarg 0).toNat = some j ∧ j.rects = []) ∧
    (∀ b, ∃ (s : State) (d : Module) (j : Job), ServiceDue s 0 1 d ∧ (sget d.svcarg 2).toNat = 4 ∧ (sget d.svcarg 1).toNat % 4 = 0 ∧ s.job? (sget d.svcarg 0).toNat = some j ∧ j.rects ≠ [] ∧
      j.allCode (sget d.svcarg 1).toNat 4 = b) ∧
    (∃ (s : State) (d : Module), ServiceDue s 0 2 d ∧ (sget d.svcarg 0).toNat % 4096 ≠ 0) ∧
    (∃ (s : State) (d : Module), ServiceDue s 0 3 d ∧ (sget d.svcarg 0).toNat % 4096 = 0 ∧ (sget d.svcarg 0).toNat < 0x7FC0000000) ∧
    (∃ (s : State) (d : Module), ServiceDue s 0 4 d ∧ (sget d.svcarg 1).toNat % 4096 ≠ 0) ∧
    (∃ (s : State) (d : Module), ServiceDue s 0 4 d ∧ (sget d.svcarg 0).toNat = 1 ∧ (sget d.svcarg 1).toNat = 0 ∧ (sget d.svcarg 2).toNat = 4096) ∧
    (∃ (s : State) (d : Module), ServiceDue s 0 5 d) ∧ (∃ (s : State) (d : Module), ServiceDue s 0 6 d ∧ d.events = []) ∧
    (∃ (s : State) (d : Module), ServiceDue s 0 6 d ∧ d.events = [(1, 2)]) ∧ (∃ (s : State) (d : Module), ServiceDue s 0 (9 : BitVec 8).toNat d ∧ ¬ (1 ≤ (9 : BitVec 8).toNat ∧ (9 : BitVec 8).toNat ≤ 6)) :=
  ⟨⟨withModule demo demoModule, _, rfl, rfl⟩, ⟨serving 1 [(1, 2), (2, 4)] demoJob, _, ⟨rfl, rfl, rfl⟩, by decide⟩,
   ⟨serving 1 [(0, 3), (2, 4)] demoJob, _, ⟨rfl, rfl, rfl⟩, by decide, by decide, by decide, by decide⟩, ⟨serving 1 [(2, 4)] waitingDemo, _, _, ⟨rfl, rfl, rfl⟩, by decide, rfl, rfl⟩,
   fun b => match b with
    | true => ⟨serving 1 [(2, 4)] demoJob, _, _, ⟨rfl, rfl, rfl⟩, by decide, by decide, rfl, nofun, by decide⟩
    | false => ⟨serving 1 [(1, 4096), (2, 4)] demoJob, _, _, ⟨rfl, rfl, rfl⟩, by decide, by decide, rfl, nofun, by decide⟩,
   ⟨serving 2 [(0, 8)] demoJob, _, ⟨rfl, rfl, rfl⟩, by decide⟩, ⟨serving 3 [(0, 4096)] demoJob, _, ⟨rfl, rfl, rfl⟩, by decide, by decide⟩,
   ⟨serving 4 [(0, 2), (1, 8), (2, 4096)] demoJob, _, ⟨rfl, rfl, rfl⟩, by decide⟩, ⟨serving 4 [(0, 1), (2, 4096)] demoJob, _, ⟨rfl, rfl, rfl⟩, by decide, by decide, by decide⟩,
   ⟨serving 5 [] demoJob, _, ⟨rfl, rfl, rfl⟩⟩, ⟨serving 6 [] demoJob, _, ⟨rfl, rfl, rfl⟩, rfl⟩,
   ⟨withModule demo { demoModule with svcBusy := true, svcop := 6, events := [(1, 2)] }, _, ⟨rfl, rfl, rfl⟩, rfl⟩, ⟨serving 9 [] demoJob, _, ⟨rfl, rfl, rfl⟩, by decide⟩⟩
theorem witness_Modules :
    (∃ (s : State) (d : Module), s.module? 0 = some d ∧ d.attBusy = false) ∧ (∃ (s : State) (d : Module), s.module? 0 = some d ∧ d.attBusy = true ∧ d.ready = true) ∧
    (∃ (s : State) (d : Module), s.module? 0 = some d ∧ risingFrom 0 s.jobs = true ∧ (∃ c, coreModule c = 0 ∧ (s.patch c).perm = true) ∧
      ∃ a j, s.job? a = some j ∧ j.home = 0 ∧ j.stage = .running ∧ j.held = false) ∧
    (∃ (s : State) (d : Module) (j : Job), s.module? 0 = some d ∧ risingFrom 0 s.jobs = true ∧ s.job? 0 = some j ∧ j.home = 0 ∧ j.stage = .waiting) ∧ State.reset.hostWf ∧
    (∃ i : Instr, i.wellFormed = true ∧ hasWord i = true) :=
  ⟨⟨withModule demo demoModule, _, rfl, rfl⟩, ⟨withModule demo { demoModule with attBusy := true }, _, rfl, rfl, rfl⟩,
   ⟨withModule demo (fencedDie [(7, ⟨true, true, 4⟩)]), _, rfl, by decide, ⟨7, by decide, by decide⟩, 0, _, rfl, rfl, rfl, rfl⟩,
   ⟨stageState waitingDemo [], _, _, rfl, by decide, rfl, rfl, rfl⟩, by unfold State.hostWf; decide, .addi 1 2 0xFFF, by decide, by decide⟩

/-- Nothing that a scratchpad view reads is poisoned while no page is; where the hardware keeps a spilled page is open, so of a poisoned one there is a state for every place. -/
theorem spillPoison_clean {s : State} {a : Nat} {d : Dest} {n : Nat} (h : ∀ pa, s.poisoned (coreModule d.core) pa = false) : s.spillPoison a d n = none := by
  unfold State.spillPoison
  split <;> simp [h]
theorem spillPoison_at {s : State} {pa n : Nat} (h : Config.spillPage 0 0 0 = some pa) (ht : tierOf pa = .hw) (hp : s.poisoned 0 pa = true) (hn : n - 1 < 4095) :
    s.spillPoison 0 (qspAt 0) n = some pa := by
  have hq : coreQuad (qspAt 0).core = 0 := rfl
  have hm : coreModule (qspAt 0).core = 0 := rfl
  have ho : (qspAt 0).off = 0 := rfl
  have hs : (qspAt 0).space = .qsp := rfl
  unfold State.spillPoison
  rw [if_pos hs, hq, hm, ho]
  have h1 : n / 4096 = 0 := by omega
  have h2 : (0 + n - 1) / 4096 = 0 := by omega
  simp [h1, h2, List.range, List.range.loop, h, ht, hp]
/-- A module of which just the page at `pa` is poisoned. -/
def badPage (pa : Nat) : Module := { demoModule with poison := [pa / 4096] }
theorem badPage_poisoned {s : State} {pa : Nat} (hs : s.modules = [(0, badPage pa)]) : s.poisoned 0 pa = true := by
  have hd : s.module? 0 = some (badPage pa) := by rw [State.module?, hs]; rfl
  unfold State.poisoned State.poisonAt
  simp only [hd, badPage, pagesMeet, overlaps, List.any_cons, List.any_nil, Bool.or_false, Option.map_some, Option.getD_some, Bool.and_eq_true, decide_eq_true_eq]
  omega
/-- Bytes at the start of scratchpad 0 are spilled to that page. -/
theorem spilled {s : State} {pa n : Nat} (h : Config.spillPage 0 0 0 = some pa) (ht : tierOf pa = .hw) (hs : s.modules = [(0, badPage pa)]) (hn : n - 1 < 4095) :
    s.spillPoison 0 (qspAt 0) n = some pa := spillPoison_at h ht (badPage_poisoned hs) hn
theorem witness_SpilledLoads (pa : Nat) (h : Config.spillPage 0 0 0 = some pa) (ht : tierOf pa = .hw) :
    ∃ (s : State) (i : Issuer), s.issuer? = some i ∧ loadForm (.ld 6 5 0) = some (6, 5, 0, 8, false, false) ∧ LocalAt i (baseAddr i.ctx 5 0) 8 (qspAt 0) ∧
      NoEagerOver s i (qspAt 0) 8 ∧ s.spillPoison i.core.asid (qspAt 0) 8 = some pa ∧ i.ctx.level ≠ .firmware ∧ i.core.active = true := by
  obtain ⟨i, hi, hl, hv, ha, hs⟩ : ∃ i, (demoOf (withX 0x1000000000000000)).issuer? = some i ∧ LocalAt i (baseAddr i.ctx 5 0) 8 (qspAt 0) ∧
      i.ctx.level ≠ .firmware ∧ i.core.active = true ∧ i.core.asid = 0 :=
    ⟨_, rfl, ⟨rfl, by decide, by decide, by decide, by decide⟩, by decide, rfl, rfl⟩
  refine ⟨withModule (demoOf (withX 0x1000000000000000)) { demoModule with poison := [pa / 4096] }, i, hi, rfl, hl, fun _ hm => (List.not_mem_nil hm).elim, ?_, hv, ha⟩
  rw [hs]
  refine spillPoison_at h ht ?_ (by decide)
  show pagesMeet [pa / 4096] pa 1 = true
  simp only [pagesMeet, overlaps, List.any_cons, List.any_nil, Bool.or_false, Bool.and_eq_true, decide_eq_true_eq]
  omega
theorem witness_Loads :
    (∀ sp : Bool, ∃ (s : State) (i : Issuer) (d : Dest), s.issuer? = some i ∧ LocalAt i (baseAddr i.ctx 5 0) 8 d ∧ NoEagerOver s i d 8 ∧ (d.space = .qsp ↔ sp = true) ∧
      s.spillPoison i.core.asid d 8 = none) ∧
    (∃ (s : State) (m : Msg) (core : Core), s.net[0]? = some m ∧ m.kind = .poisoned 0x7FC0000000 ∧ s.core? m.src = some core ∧
      (core.ctx m.ctx).wait = some (.load 0 6 8 false true) ∧ (core.ctx m.ctx).level ≠ .firmware ∧ core.active = true) ∧
    (∃ (s : State) (m : Msg) (core : Core), s.net[0]? = some m ∧ m.kind = .response 255 ∧ s.core? m.src = some core ∧ (core.ctx m.ctx).wait = some (.load 0 6 4 true true)) :=
  ⟨fun sp => match sp with
    | true => ⟨demoOf (withX 0x100000000033FFF8), _, qspAt 0x33FFF8, rfl, ⟨rfl, by decide, by decide, by decide, by decide⟩, nofun, by decide, spillPoison_clean fun _ => rfl⟩
    | false => ⟨demoOf (withX 0x1FFF8), _, tcmAt 0x1FFF8, rfl, ⟨rfl, by decide, by decide, by decide, by decide⟩, nofun, by decide, rfl⟩,
   ⟨demoAt 0 [(0, { demoCtx with wait := some (.load 0 6 8 false true) })] demoCore demoJob [demoMsg (.poisoned 0x7FC0000000)], _, _, rfl, rfl, rfl, rfl, by decide, rfl⟩,
   ⟨demoAt 0 [(0, { demoCtx with wait := some (.load 0 6 4 true true) })] demoCore demoJob [demoMsg (.response 255)], _, _, rfl, rfl, rfl, rfl⟩⟩

theorem witness_ServiceCsrs :
    (∃ i v, demo.issuer? = some i ∧ csrRead (.csrrs 6 0 0x803) = some (6, 0x803) ∧ csrValue demo i 0x803 = some v) ∧ (∃ i v, demo.issuer? = some i ∧ csrValue demo i 0xC01 = some v) ∧
    (∃ (s : State) (i : Issuer) (v : Nat), s.issuer? = some i ∧ csrRead (.csrrs 6 0 0x5C0) = some (6, 0x5C0) ∧ serviceCsr s i 0x5C0 = some (v, .service) ∧ i.ctx.level ≠ .job) ∧
    (∃ (s : State) (i : Issuer) (v : Nat), s.issuer? = some i ∧ csrRead (.csrrs 6 0 0x7C0) = some (6, 0x7C0) ∧ serviceCsr s i 0x7C0 = some (v, .firmware) ∧ i.ctx.level = .firmware) ∧
    (∃ (s : State) (i : Issuer) (f : Word → Word), s.issuer? = some i ∧ i.k = 0 ∧ csrWrite i.ctx (.csrrw 5 5 0x805) = some (5, 0x805, f) ∧
      (f i.core.ssentry).toNat / 2 ^ 36 = 2 * 2 ^ 24 ∧ (f i.core.ssentry).toNat % 4 = 0 ∧
      ∀ r ∈ i.job.codes, ¬ (r.1 ≤ (f i.core.ssentry).toNat % 2 ^ 36 ∧ (f i.core.ssentry).toNat % 2 ^ 36 < r.1 + r.2)) ∧
    (∃ (s : State) (i : Issuer) (v : Nat) (f : Word → Word) (p : Pos), s.issuer? = some i ∧ csrWrite i.ctx (.csrrwi 5 31 0x5C1) = some (5, 0x5C1, f) ∧
      serviceCsr s i 0x5C1 = some (v, .service) ∧ i.ctx.level = .service ∧ serviceCsrSet 0x5C1 (f (BitVec.ofNat 64 v)) (s.pos i.c) = some p) ∧
    (∃ (s : State) (i : Issuer) (v : Nat) (f : Word → Word) (p : Pos), s.issuer? = some i ∧ csrWrite i.ctx (.csrrwi 5 31 0x7C0) = some (5, 0x7C0, f) ∧
      serviceCsr s i 0x7C0 = some (v, .firmware) ∧ i.ctx.level = .firmware ∧ serviceCsrSet 0x7C0 (f (BitVec.ofNat 64 v)) (s.pos i.c) = some p) ∧
    (∃ (s : State) (i : Issuer) (f : Word → Word), s.issuer? = some i ∧ csrWrite i.ctx (.csrrwi 5 31 0x5C2) = some (5, 0x5C2, f) ∧ i.ctx.level ≠ .job) ∧
    (∃ (s : State) (i : Issuer), s.issuer? = some i ∧ i.ctx.level = .service ∧ i.core.active = true ∧ i.job.verdict = none ∧ WritesSvact i (.svactFault 0x15) (.csrrw 0 5 0x5C5) 1 4 8 0x15) ∧
    (∀ busy : Bool, ∃ (s : State) (i : Issuer), s.issuer? = some i ∧ i.ctx.level = .service ∧ WritesSvact i (.svactClear 1) (.csrrw 0 5 0x5C5) 3 12 36 1 ∧ s.clearBusy i 1 = busy) ∧
    (∃ (s : State) (i : Issuer) (v : Nat), s.issuer? = some i ∧ serviceCsr s i 0x7C1 = some (v, .firmware) ∧ i.ctx.level = .firmware ∧ v ≠ 0) :=
  ⟨⟨_, _, rfl, rfl, rfl⟩, ⟨_, _, rfl, rfl⟩, ⟨demoOf serviceCtx, _, _, rfl, rfl, rfl, by decide⟩, ⟨demoOf firmwareCtx, _, _, rfl, rfl, rfl, rfl⟩,
   ⟨demoOf (withX 0x2000000000000020), _, _, rfl, rfl, rfl, by decide, by decide, by decide⟩,
   ⟨demoOf serviceCtx, _, _, _, _, rfl, rfl, rfl, rfl, rfl⟩, ⟨demoOf firmwareCtx, _, _, _, _, rfl, rfl, rfl, rfl, rfl⟩, ⟨demoOf serviceCtx, _, _, rfl, rfl, by decide⟩,
   ⟨demoOf { withX 0x151 with level := .service }, _, rfl, rfl, rfl, rfl, .inr ⟨5, rfl, by decide, by decide⟩⟩,
   fun busy => match busy with
    | true => ⟨withModule (demoAt 0 [(0, { withX 0x1003 with level := .service })] demoCore demoJob []) { demoModule with banks := [(0, ⟨0, 0, some 9, 0⟩)] }, _, rfl, rfl, .inr ⟨5, rfl, by decide, by decide⟩, by decide⟩
    | false => ⟨demoOf { withX 0x1003 with level := .service }, _, rfl, rfl, .inr ⟨5, rfl, by decide, by decide⟩, by decide⟩,
   ⟨withModule (demoOf firmwareCtx) (fencedDie [(7, ⟨true, true, 4⟩)]), _, _, rfl, rfl, rfl, by decide⟩⟩

/-- Position 1 of a two-core job issues in the quad of its leader, which has executed `a` FOLLOWs at the pc, this core `b`. -/
def followState (c a b : Nat) : State :=
  { State.reset with
    cur := (c, 0), jobs := [(0, { demoJob with n := 2, cc := 2 })]
    cores := [(0, { demoCore with ctxs := [(0, demoCtx)], follows := [(0, a)] }), (1, { demoCore with index := 1, ctxs := [(0, demoCtx)], follows := [(0, b)] })] }
theorem witness_Follow :
    (∃ (s : State) (i : Issuer), s.issuer? = some i ∧ i.k = 0 ∧ (i.job.inQuad (coreQuad i.c)).head? = some i.c ∧ ∃ d ∈ i.job.places, coreQuad d = coreQuad i.c ∧ d ≠ i.c) ∧
    (∃ (s : State) (i : Issuer) (l : Core), s.issuer? = some i ∧ i.k = 0 ∧ (i.job.inQuad (coreQuad i.c)).head? = some 0 ∧ s.core? 0 = some l ∧ i.c ≠ 0 ∧
      dgetD i.core.follows (i.ctx.pc.toNat % 2 ^ 36) 0 < dgetD l.follows (i.ctx.pc.toNat % 2 ^ 36) 0) :=
  ⟨⟨followState 0 0 0, _, rfl, rfl, by decide, 1, by decide, by decide, by decide⟩,
   ⟨followState 1 1 0, _, _, rfl, rfl, by decide, rfl, by decide, by decide +kernel⟩⟩

theorem witness_WakeEvents :
    (∃ (s : State) (m : Msg) (core : Core), s.net[0]? = some m ∧ m.kind = .post 1 15 5 ∧ (∀ e ∈ s.net.take 0, e.src ≠ m.src) ∧ s.belongs m.asid (s.forwarded m.asid 1) = true ∧
      s.core? (s.forwarded m.asid 1) = some core ∧ core.dead = false ∧ 15 ∉ core.present ∧ (core.ctx 0).live = true) ∧
    (∃ (s t : State) (i : Issuer), s.issuer? = some i ∧ LocalAt i (i.ctx.getX 5) 16 (tcmAt 16) ∧ NoEagerOver s i (tcmAt 16) 16 ∧ exec (.hmadd 7 5) s = .next t ∧
      t.bytesAt i.core.asid (tcmAt 16) 16 / 2 ^ 64 % 2 ≠ s.bytesAt i.core.asid (tcmAt 16) 16 / 2 ^ 64 % 2) :=
  ⟨⟨{ demo with jobs := [(0, { demoJob with n := 2, cc := 2 })], cores := [(0, demoCore), (1, { demoCore with index := 1, ctxs := [(0, demoCtx)] })], net := [demoMsg (.post 1 15 5)] }, _, _,
     rfl, rfl, nofun, by decide, rfl, rfl, by decide, rfl⟩,
   ⟨demoAt 0 [(0, { demoCtx with x := [(5, 16), (7, 1)] })] (memCore hamperMem) demoJob [], _, _, rfl, ⟨rfl, by decide, by decide, by decide, by decide⟩, nofun, rfl, by decide +kernel⟩⟩

/-- A record at 0x20 whose CODE and JOIN are as given. -/
def recordState (code join : Nat) : State := demoAt 0 [(0, withX 0x20)] { demoCore with tcm := { cur := writeMem (writeMem [] 0x20 8 code) 0x30 8 join, base := [] } } demoJob []
theorem witness_LocalAccess :
    (∃ (s : State) (i : Issuer), s.issuer? = some i ∧ localAccess (.vpst 1 5) = some (5, [0, 1, 2], 8) ∧ ∀ f ∈ [0, 1, 2], (i.ctx.getX 5).toNat / 2 ^ 36 ≠ f * 2 ^ 24) ∧
    (∃ (s : State) (i : Issuer), s.issuer? = some i ∧ localAccess (.hmarm 6 5) = some (5, [0, 1], 16) ∧ (i.ctx.getX 5).toNat / 2 ^ 36 = 1 * 2 ^ 24 ∧ (i.ctx.getX 5).toNat % 16 ≠ 0) ∧
    (∃ (s : State) (i : Issuer), s.issuer? = some i ∧ localAccess (.enq 0 5) = some (5, [0], 32) ∧ (i.ctx.getX 5).toNat / 2 ^ 36 = 0 * 2 ^ 24 ∧ (i.ctx.getX 5).toNat % 32 = 0 ∧
      i.job.limitOf .tcm < (i.ctx.getX 5).toNat % 2 ^ 36 + 32) ∧
    (∀ n : Fin 4, ∃ (s : State) (i : Issuer), s.issuer? = some i ∧ LocalAt i (i.ctx.getX 5) 32 (tcmAt 0x20) ∧ NoEagerOver s i (tcmAt 0x20) 32 ∧
      let r := recordAt (s.bytesAt i.core.asid (tcmAt 0x20) 32) i.core s.clock
      (n = 0 → r.code.toNat / 2 ^ 36 ≠ 2 * 2 ^ 24) ∧
      (n = 1 → r.code.toNat / 2 ^ 36 = 2 * 2 ^ 24 ∧ r.code.toNat % 4 = 0 ∧ ∀ c ∈ i.job.codes, ¬ (c.1 ≤ r.code.toNat % 2 ^ 36 ∧ r.code.toNat % 2 ^ 36 < c.1 + c.2)) ∧
      (n = 2 → GoodTarget i.job r.code ∧ r.join ≠ 0 ∧ ∀ f ∈ [0, 1], r.join.toNat / 2 ^ 36 ≠ f * 2 ^ 24) ∧
      (n = 3 → GoodTarget i.job r.code ∧ r.join.toNat / 2 ^ 36 = 0 ∧ r.join.toNat % 16 = 0 ∧ i.job.limitOf .tcm < r.join.toNat % 2 ^ 36 + 16)) :=
  ⟨⟨demoOf (withX 0x4000000000000000), _, rfl, rfl, by decide⟩, ⟨demoOf (withX 0x1000000000000008), _, rfl, rfl, by decide, by decide⟩,
   ⟨demoOf (withX 0x20000), _, rfl, rfl, by decide, by decide, by decide⟩,
   fun n => match n with
    | 0 => ⟨recordState 0 0, _, rfl, ⟨rfl, by decide, by decide, by decide, by decide⟩, nofun, by decide +kernel, nofun, nofun, nofun⟩
    | 1 => ⟨recordState 0x2000000000000020 0, _, rfl, ⟨rfl, by decide, by decide, by decide, by decide⟩, nofun, nofun, by decide +kernel, nofun, nofun⟩
    | 2 => ⟨recordState 0x200000000000001C 0x2000000000000000, _, rfl, ⟨rfl, by decide, by decide, by decide, by decide⟩, nofun, nofun, nofun,
        fun _ => ⟨⟨by decide +kernel, by decide +kernel, (0, 32), by decide, by decide +kernel⟩, by decide +kernel, by decide +kernel⟩, nofun⟩
    | 3 => ⟨recordState 0x200000000000001C 0x20000, _, rfl, ⟨rfl, by decide, by decide, by decide, by decide⟩, nofun, nofun, nofun, nofun,
        fun _ => ⟨⟨by decide +kernel, by decide +kernel, (0, 32), by decide, by decide +kernel⟩, by decide +kernel, by decide +kernel, by decide +kernel⟩⟩⟩

/-- A core whose NGET waits until cycle 0, at a clock, of a job with the watchdog at 5. -/
def ngetState (clock : Nat) : State := { demoAt 0 [(0, { demoCtx with wait := some (.nget 6 15 7 0) })] demoCore { demoJob with wdog := 5, wdFrom := some 0 } [] with clock := clock }
theorem witness_TimeOuts :
    (∃ (s : State) (core : Core), s.core? 0 = some core ∧ (core.ctx 0).wait = some (.nget 6 15 7 0) ∧ 0 ≤ s.clock ∧ (15 : BitVec 4).toNat ∉ core.present ∧
      ∀ j, s.job? core.asid = some j → j.ran s.clock ≤ j.wdog) ∧
    (∃ (s : State) (core : Core) (j : Job), s.core? 0 = some core ∧ s.job? core.asid = some j ∧ j.wdog < j.ran s.clock) :=
  ⟨⟨ngetState 5, _, rfl, rfl, by decide, by decide, by rintro j h; cases h; decide⟩, ⟨ngetState 6, _, _, rfl, rfl, by decide⟩⟩
theorem witness_RingSlots :
    ∃ (s : State) (i : Issuer), s.issuer? = some i ∧ LocalAt i (i.ctx.getX 5) 32 (tcmAt 32) ∧ RingIs twoSlots 0 (s.bytesAt i.core.asid (tcmAt 32) 32) ∧
      twoSlots.free + twoSlots.filled + (i.ctx.getX 0).toNat ≤ twoSlots.nslot + 1 ∧
      ∀ b, locate i.c (BitVec.ofNat 64 twoSlots.base) = some b → NoEagerOver s i b ((twoSlots.nslot + 1) * twoSlots.slotSize) :=
  ⟨demoAt 0 [(0, withX 32)] (memCore ringMem) demoJob [], _, rfl, ⟨rfl, by decide, by decide, by decide, by decide⟩, by unfold RingIs; decide, by decide, fun _ _ => nofun⟩
/-- The ring entry of the next sequence number is still held. -/
def heldEntry : Dict RingEntry := [(0, { seq := 0, ctx := 0, valid := true, done := false, pcoff := 0, uid := 0, owed := 0 })]
theorem witness_WaitingPush :
    (∃ (s : State) (i : Issuer), s.issuer? = some i ∧ LocalAt i (i.ctx.getX 5) 32 (tcmAt 32) ∧ NoEagerOver s i (tcmAt 32) 32 ∧ TemplateAt s i (tcmAt 32) 0 acczTemplate ∧
      (∀ x ∈ [acczTemplate.d1, acczTemplate.d2], tSpace x = 3 → NoEagerOver s i { core := i.c, space := .tcm, off := tOffset x } 8) ∧
      templateCause i.core 0 none acczTemplate = none ∧ i.core.ringFree = false) ∧
    (∃ (s : State) (core : Core) (m : Cmd) (lc : Option (Nat × Word)), s.core? 0 = some core ∧ core.active = true ∧ (core.ctx 0).wait = some (.ringPush 0 m lc) ∧ core.ringFree = false) ∧
    (∃ (s : State) (core : Core) (m : Cmd) (lc : Option (Nat × Word)), s.core? 0 = some core ∧ core.active = true ∧ (core.ctx 0).wait = some (.ringPush 0 m lc) ∧ core.ringFree = true ∧
      (core.queue 0).length < [16, 32, 16, 32].getD 0 0) :=
  ⟨⟨demoAt 0 [(0, withX 32)] { demoCore with tcm := ⟨acczMem, []⟩, ring := heldEntry } demoJob [], _, rfl, ⟨rfl, by decide, by decide, by decide, by decide⟩, nofun,
    by unfold TemplateAt Patched; decide, fun _ _ _ => nofun, by decide, by decide⟩,
   ⟨demoAt 0 [(0, { demoCtx with wait := some (.ringPush 0 (cmdOf 5 0 0 0 0 0) none) })] { demoCore with ring := heldEntry } demoJob [], _, _, _, rfl, rfl, rfl, by decide⟩,
   ⟨demoAt 0 [(0, { demoCtx with wait := some (.ringPush 0 (cmdOf 5 0 0 0 0 0) none) })] demoCore demoJob [], _, _, _, rfl, rfl, rfl, by decide, by decide⟩⟩
/-- In a state of one module with no poisoned page nothing is poisoned. -/
theorem unpoisoned {s : State} {d : Module} (h : s.modules = [(0, d)]) (hp : d.poison = []) (m pa : Nat) : s.poisoned m pa = false := by
  have hd : ∀ x, s.module? m = some x → x.poison = [] := by
    intro x hx
    rw [State.module?, h] at hx
    unfold dget? dget? at hx
    split at hx <;> simp at hx
    exact hx.2 ▸ hp
  unfold State.poisoned State.poisonAt
  cases hm : s.module? m with
  | none => rfl
  | some x => simp [hd x hm, pagesMeet]
theorem witness_Grants :
    (∃ i, demo.issuer? = some i ∧ i.ctx.grant = 0 ∧ Instr.baddrq 1 2 3 4 ∈ [Instr.vld 1 2 0, .baddrq 1 2 3 4]) ∧
    (∀ sp : Bool, ∃ (s : State) (i : Issuer) (a : Word), s.issuer? = some i ∧ stridedForm i.ctx (.vld 1 5 1) = some (1, a, 4, 1, false) ∧ 0 < i.ctx.grant ∧ i.ctx.grant ≤ 64 ∧
      LocalForm a (if sp then .qsp else .tcm) 0x100 ∧ i.core.ringFree = true ∧ NoOwnEager s i ∧
      ∀ e : Nat, s.spillPoison i.core.asid (localDest i (if sp then .qsp else .tcm) (0x100 + e * 4)) 4 = none) ∧
    (∃ (s : State) (i : Issuer), s.issuer? = some i ∧ stridedForm i.ctx (.vlds 1 5 6 1) = some (1, 0x100, 6, 1, false) ∧ 0 < i.ctx.grant ∧ LocalForm 0x100 .tcm 0x100 ∧ (6 : Int) % 4 ≠ 0) ∧
    (∃ (s : State) (i : Issuer) (l : LaneOp), s.issuer? = some i ∧ l ∈ i.core.lanes ∧ l.ctx = i.k ∧ l.gone = false) ∧
    (∃ (s : State) (i : Issuer), s.issuer? = some i ∧ i.core.lanes ≠ [] ∧ ∀ l ∈ i.core.lanes, l.ctx = i.k → l.gone = true) :=
  ⟨⟨_, rfl, rfl, .tail _ (.head _)⟩,
   fun sp => match sp with
    | true => ⟨demoOf (granted 64 0x1000000000000100), _, _, rfl, rfl, by decide, by decide, ⟨by decide, by decide⟩, by decide, nofun, fun _ => spillPoison_clean fun _ => unpoisoned rfl rfl _ _⟩
    | false => ⟨demoOf (granted 64 0x100), _, _, rfl, rfl, by decide, by decide, ⟨by decide, by decide⟩, by decide, nofun, fun _ => rfl⟩,
   ⟨demoOf { granted 64 0x100 with x := [(5, 0x100), (6, 6)] }, _, rfl, by decide, by decide, ⟨by decide, by decide⟩, by decide⟩,
   ⟨demoAt 0 [(0, demoCtx)] { demoCore with lanes := [aLane] } demoJob [], _, aLane, rfl, .head _, rfl, rfl⟩,
   ⟨demoAt 0 [(0, demoCtx)] { demoCore with lanes := [{ aLane with gone := true }] } demoJob [], _, rfl, nofun, by rintro l h -; cases List.mem_singleton.1 h; rfl⟩⟩
/-- Context 0 of position 16, of slot 2 of quad 0, claims 64 lanes in cycle 9 behind these claims. -/
def claimAt (claims : List Claim) : State :=
  { State.reset with
    cur := (16, 0), clock := 9, jobs := [(0, { demoJob with rects := [⟨0, 1, 0⟩] })], cores := [(16, { demoCore with ctxs := [(0, withX 64)] })]
    modules := [(0, { Module.reset with quads := [(0, { claims := claims, headFrom := 0, spare := [] })] })] }
def aClaim (c : CoreId) (entered : Nat) (spare : Bool) : Claim := { core := c, ctx := 10, n := 4, ticket := 0, entered := entered, spare := spare }
theorem witness_ClaimOrder :
    (∃ (s : State) (i : Issuer), s.issuer? = some i ∧ (i.ctx.getX 5).toNat = 64 ∧ i.ctx.grant = 0 ∧ (s.quad (coreQuad i.c)).claims ≠ [] ∧ (∃ d, s.module? (quadModule (coreQuad i.c)) = some d) ∧
      ∀ x ∈ (s.quad (coreQuad i.c)).claims, x.entered < s.clock ∧ x.ctx ≤ 10) ∧
    (∃ (s : State) (i : Issuer), s.issuer? = some i ∧ (i.ctx.getX 5).toNat = 64 ∧ i.ctx.grant = 0 ∧ (s.quad (coreQuad i.c)).claims ≠ [] ∧ i.k ≤ 10 ∧
      ∀ x ∈ (s.quad (coreQuad i.c)).claims, x.entered = s.clock ∧ x.spare = false ∧ coreSlot i.c < coreSlot x.core) ∧
    (∃ (s : State) (cl : Claim), (s.quad 0).claims = [cl] ∧ cl.spare = true ∧ cl.n ≤ s.freeLanes 0 ∧ (s.quad 0).headFrom ≤ s.clock) :=
  ⟨⟨claimAt [aClaim 0 8 false], _, rfl, by decide, by decide, by decide, ⟨_, rfl⟩, by decide⟩, ⟨claimAt [aClaim 17 9 false], _, rfl, by decide, by decide, by decide, by decide, by decide⟩,
   ⟨claimAt [aClaim 0 8 true], _, rfl, rfl, by decide, by decide⟩⟩
theorem witness_ModeS :
    (∃ (s : State) (asid : Nat), s.modeS 0 = false ∧ HostAt s 0 0x1FFF8 8 asid (tcmAt 0x1FFF8)) ∧
    (∃ (s : State) (x : Module), s.module? 0 = some x ∧ x.hostord = true) ∧
    (∀ w, ∃ (s : State) (x : Module) (r : HostReq), s.module? 0 = some x ∧ x.requestsOf 0 = [r] ∧ r.write = w ∧ HostAt s 0 r.off r.size 0 (tcmAt 0x1FFF8)) ∧
    (∃ (d : Module) (b : Nat), (fetchState [(0, 1), (8, 1)] demoQueue).module? 0 = some d ∧ d.nextQueue = some 0 ∧ b = readMem (fetchState [(0, 1), (8, 1)] demoQueue).host 0 64 ∧ b % 2 ^ 8 = 1 ∧
      badKind b = none ∧ b / 2 ^ 64 % 2 ^ 48 = (d.queue 0).qexp) :=
  ⟨⟨demo, 0, by decide, witness_HostAccess.1⟩, ⟨withModule demo { demoModule with hostord := true }, _, rfl, rfl⟩,
   fun w => match w with
    | true => ⟨withModule demo { demoModule with hostord := true, requests := [(0, [{ write := true, off := 0x1FFF8, size := 8, val := 5 }])] }, _, _, rfl, rfl, rfl,
        ⟨by decide, by decide, by decide, by decide, by decide, ⟨_, rfl, rfl⟩, _, _, rfl, rfl, rfl, by decide, by decide⟩⟩
    | false => ⟨withModule demo { demoModule with hostord := true, requests := [(0, [{ write := false, off := 0x1FFF8, size := 8, val := 0 }])] }, _, _, rfl, rfl, rfl,
        ⟨by decide, by decide, by decide, by decide, by decide, ⟨_, rfl, rfl⟩, _, _, rfl, rfl, rfl, by decide, by decide⟩⟩,
   ⟨_, _, rfl, by decide, rfl, by decide, by decide, by decide⟩⟩

theorem witness_LaunchBusy : ∃ s c, CommandDue s 0 1 1 c ∧ ¬ BadFields c.bytes [3] ∧ s.job? 0 = none ∧ c.busy = true := by
  refine ⟨{ dueState 1 [] [] with modules := [(0, { demoModule with commands := [{ jsn := 1, queue := 0, prio := 0, bytes := 1, busy := true }], slots := [(1, ⟨1, 1, 0, 1, 0, 0, 0, 0, 0⟩)], jhead := 2 })] }, _,
    ⟨rfl, _, ⟨1, 1, 0, 1, 0, 0, 0, 0, 0⟩, rfl, rfl, rfl, rfl⟩, by unfold BadFields; decide, rfl, rfl⟩

/-- A bank of module 0, the lender, that a core holds. -/
def bankedState (held : Bool) (m : Msg) : State :=
  { leaseState 0 [] [(3, window0 0)] [m] with
    modules := [(0, { demoModule with banks := if held then [(0, ⟨0, 0, some 0, 0⟩)] else [] }), (1, { demoModule with leases := [(3, window0 0)], hdm := [(0x800000000000, 0x100000)] })] }
theorem witness_Revocation :
    (∃ (s : State) (l : Lease) (k : Core), s.lease? 1 3 = some l ∧ l.lender = false ∧ l.state = .revoking ∧ s.net = [] ∧ s.core? 1024 = some k ∧ coreModule 1024 = 1 ∧ k.open_ = true ∧
      k.stopped = false ∧ k.abort = none ∧ s.committedWriter k = false ∧
      ∃ w ∈ k.writeOuts, s.writeMeets 1 (0x400000000000 + 3 * 0x4000000000) l.len (((s.job? k.asid).map Job.root).getD 0) w = true) ∧
    (∃ (s : State) (l : Lease), s.lease? 0 3 = some l ∧ l.lender = false ∧ l.state = .revoking ∧ s.net = [] ∧ s.cores = [] ∧ s.poolsBusy 0 = false) ∧
    (∃ (s : State) (x : Msg), s.net[0]? = some x ∧ x.kind = .lease true 0x7FBFFFFFF8 8 5 ∧ s.bankBusyOver (x.src / 1024) 0x7FBFFFFFF8 8 none = false) ∧
    (∀ b, ∃ (s : State) (x : Msg) (l : Lease) (d : Module), s.net[0]? = some x ∧ x.kind = .lease true (0x400000000000 + 3 * 0x4000000000) 8 5 ∧
      tierOf (0x400000000000 + 3 * 0x4000000000) = .lease ∧ s.lease? (x.src / 1024) ((0x400000000000 + 3 * 0x4000000000 - 0x400000000000) / 0x4000000000) = some l ∧ l.lender = false ∧
      l.refused = false ∧ s.module? l.peer = some d ∧ s.bankBusyOver (x.src / 1024) (0x400000000000 + 3 * 0x4000000000) 8 none = b) ∧
    (∃ (s : State) (x : Msg) (d : Module), s.module? 1 = some d ∧ x ∈ s.net ∧ x.kind = .lease true 0x800000000000 8 5 ∧ x.src / 1024 = 1 ∧
      overlaps 0x800000000000 8 0x800000000000 4096 = true ∧ 0x800000000000 < 2 ^ 48 ∧ ∃ r ∈ d.hdm, r.1 ≤ 0x800000000000 ∧ 0x800000000000 + 8 ≤ r.1 + r.2) ∧
    (∃ (s : State) (d : Module), s.module? 1 = some d ∧ s.cores = [] ∧ s.net = [] ∧ s.poolsBusy 1 = false ∧ 0xBFFFFFFFF000 < 2 ^ 48) :=
  ⟨⟨{ leaseState 0 [] [(3, { window0 0 with state := .revoking })] [] with cores := [(1024, leaseWriter)] }, _, leaseWriter, rfl, rfl, rfl, rfl, rfl, rfl, rfl, rfl, rfl, rfl, _, .head _,
    by decide⟩,
   ⟨leaseState 0 [(3, { window0 1 with state := .revoking, jsn := 1 })] [] [], _, rfl, rfl, rfl, rfl, rfl, rfl⟩,
   ⟨leaseState 0 [] [] [{ ackMsg with kind := .lease true 0x7FBFFFFFF8 8 5 }], _, rfl, rfl, by decide⟩,
   fun b => match b with
    | true => ⟨bankedState true { revokeMsg with kind := .lease true (0x400000000000 + 3 * 0x4000000000) 8 5 }, _, _, _, rfl, rfl, by decide, rfl, rfl, rfl, rfl, by decide +kernel⟩
    | false => ⟨bankedState false { revokeMsg with kind := .lease true (0x400000000000 + 3 * 0x4000000000) 8 5 }, _, _, _, rfl, rfl, by decide, rfl, rfl, rfl, rfl, by decide +kernel⟩,
   ⟨bankedState false { revokeMsg with kind := .lease true 0x800000000000 8 5 }, _, _, rfl, .head _, rfl, rfl, by decide, by decide, _, .head _, by decide⟩,
   ⟨leaseState 0 [] [] [], _, rfl, rfl, rfl, rfl, by decide⟩⟩

/-- The pod of `stageState` with the page tables of `tableMem` and, where said, the bank of the root table held by position 9. -/
def bankedStage (j : Job) (cores : Dict Core) (held : Bool) : State :=
  { stageState j cores with
    modules := [(0, { demoModule with hbm := tableMem true, slots := [(1, ⟨1, 1, 0, 1, 0, 0, 0, 0, 0⟩)], banks := if held then [(64, ⟨0, 0, some 9, 0⟩)] else [] })] }
def virtSection : Section := { type := 2, space := 8, runpfl := false, addr := 0x1000, off := 0, size := 32, body := [] }
/-- One RUNPFL entry: 32 bytes from virtual address 0 to TCM 0. -/
def entrySection : Section := { type := 4, space := 0, runpfl := true, addr := 0, off := 0, size := 32, body := [(7, 0x80), (8, 32)] }
def tabled (j : Job) : Job := { j with root := 0x10000 }
theorem withCause {α : Type} (o : α × Option Nat) (n : Nat) (h : (o.2 == some n) = true) : ∃ s, o = (s, some n) := ⟨o.1, Prod.ext rfl (by simpa using h)⟩
theorem witness_StagingWaits :
    (∃ s j s', JobAt s 0 1 .staging 0 j ∧ s.stageAll 0 (j.readBodies s.host) (j.readBodies s.host).sections = (s', some 0)) ∧
    (∃ s j, JobAt s 0 1 .runpfl 0 j ∧ s.requestsDue 0 j = false ∧ ∃ s', s.runEntries 0 j.runList = (s', some 0)) ∧
    (∃ s j, JobAt s 0 1 .runpfl 0 j ∧ s.requestsDue 0 j = false ∧ (∃ s', s.runEntries 0 j.runList = (s', some 9)) ∧ j.pending = []) ∧
    (∃ s j, JobAt s 0 1 .runpfl 0 j ∧ s.requestsDue 0 j = true) ∧
    (∃ s j, JobAt s 0 1 .runpfl 0 j ∧ s.requestsDue 0 j = false ∧ j.runList = [] ∧ (∃ c ∈ j.places, (s.patch c).fenced = true) ∧
      ∀ c ∈ j.places, (s.patch c).fenced = true → (s.patch c).perm = false ∧ s.quadQuiet (coreQuad c) = false) :=
  ⟨by
    obtain ⟨s', h⟩ := withCause ((bankedStage (tabled (placedDemo .staging [virtSection])) [(0, heldCore)] true).stageAll 0 ((tabled (placedDemo .staging [virtSection])).readBodies [])
      ((tabled (placedDemo .staging [virtSection])).readBodies []).sections) 0 (by decide +kernel)
    exact ⟨_, _, s', ⟨rfl, rfl⟩, h⟩,
   ⟨bankedStage (tabled (placedDemo .runpfl [entrySection])) [(0, heldCore)] true, _, ⟨rfl, rfl⟩, by decide, withCause _ 0 (by decide +kernel)⟩,
   ⟨bankedStage (tabled (placedDemo .runpfl [{ entrySection with body := [(3, 0x80), (7, 0x80), (8, 32)] }])) [(0, heldCore)] false, _, ⟨rfl, rfl⟩, by decide,
    withCause _ 9 (by decide +kernel), rfl⟩,
   ⟨{ dueState 2 [] [] with jobs := [(0, { placedDemo .runpfl [] with jsn := 1 })] }, _, ⟨rfl, rfl⟩, by decide⟩,
   ⟨{ withModule (stageState (placedDemo .runpfl demoJob.sections) []) (fencedDie [(0, ⟨true, false, 0⟩)]) with
      jobs := [(0, placedDemo .runpfl demoJob.sections), (1, { demoJob with rects := [⟨0, 0, 1⟩] })], cores := [(0, heldCore), (1, { demoCore with asid := 1 })] },
    placedDemo .runpfl demoJob.sections, ⟨rfl, rfl⟩, by decide, by decide, ⟨0, by decide, by decide⟩, by decide⟩⟩
def yielding (w : Option (Nat × Nat)) : State := { crowded with jobs := crowded.jobs.map fun e => if e.1 = 1 then (1, { e.2 with yieldTo := w }) else e }
theorem witness_Yielding :
    (∃ w x, crowded.waitingJob 0 1 = some (0, w) ∧ (crowded.candidates w).head? = some x ∧ crowded.findPlace w = none ∧ crowded.roomByMove w = none ∧
      ∃ gone, crowded.victims w x (crowded.below w) [] = some gone ∧ decide (1 ∈ gone) = true) ∧
    (∃ y : Nat × Nat, (yielding (some y)).wanted y = true) ∧ (∃ y : Nat × Nat, (yielding (some y)).wanted y = false) ∧
    (∃ (s : State) (j : Job), s.job? 0 = some j ∧ j.held = false) ∧ (∃ (s : State) (j : Job), s.job? 0 = some j ∧ j.held = true ∧ 0 ∈ j.patchedAt) ∧
    (∃ (s : State) (j : Job), s.job? 0 = some j ∧ j.held = true ∧ (∀ v, j.lastAttempt = some v → v.commit = false) ∧ ∀ c ∈ j.places, (s.patch c).perm = false) :=
  ⟨⟨greedy 65536 [] .waiting 1 1, ⟨1, 1, 1⟩, by decide +kernel, by decide +kernel, by decide +kernel, by decide +kernel, some_of _ _ (by decide +kernel)⟩,
   ⟨(0, 1), by decide⟩, ⟨(0, 7), by decide⟩, ⟨demo, _, rfl, rfl⟩, ⟨stageState { heldJob none with patchedAt := [0] } [], _, rfl, rfl, .head _⟩,
   ⟨stageState { heldJob none with lastAttempt := none } [], _, rfl, rfl, nofun, by decide⟩⟩

def twoModules : Job := { demoJob with n := 2, rects := [⟨0, 0, 0⟩, ⟨4, 0, 0⟩] }
def bankedTables (bank : Nat) : State :=
  withModule (demoAt 0 [(0, demoCtx)] demoCore { demoJob with root := 0x10000 } [])
    { demoModule with hbm := tableMem true, hdm := [(0x800000000000, 0x100000)], banks := [(bank, ⟨0, 0, some 9, 0⟩)] }
theorem witness_BankWaits :
    (bankedTables 64).walkBusy 0 0x10000 0 = true ∧ (tableState true []).walkBusy 0 0x10000 0 = false ∧ (tableState true [0x20]).walkBusy 0 0x10000 0 = false ∧
    (∃ e entry, (bankedTables 0).walkBusy 0 0x10000 0x40000000 = false ∧ (bankedTables 0).walk 0 0 0x10000 0x40000000 = .leaf e entry ∧
      (bankedTables 0).pagerBusy 0 0x10000 e (some 0) = true) ∧
    (∃ e entry, (tableState true []).walk 0 0 0x10000 0x40000000 = .leaf e entry ∧ (tableState true []).pagerBusy 0 0x10000 e (some 0) = false) ∧
    (∀ t, ∃ pa, tierOf pa = t) :=
  ⟨by decide +kernel, by decide +kernel, by decide +kernel,
   by
    obtain ⟨e, n, h, h'⟩ := leaf_of ((bankedTables 0).walk 0 0 0x10000 0x40000000) (fun e _ => (bankedTables 0).pagerBusy 0 0x10000 e (some 0)) (by decide +kernel)
    exact ⟨e, n, by decide +kernel, h, h'⟩,
   by
    obtain ⟨e, n, h, h'⟩ := leaf_of ((tableState true []).walk 0 0 0x10000 0x40000000) (fun e _ => !(tableState true []).pagerBusy 0 0x10000 e (some 0)) (by decide +kernel)
    exact ⟨e, n, h, by simpa using h'⟩,
   fun t => match t with
    | .hbm => ⟨0, by decide⟩ | .hw => ⟨0x7FC0000000, by decide⟩ | .reserved => ⟨2 ^ 48, by decide⟩ | .lease => ⟨0x400000000000, by decide⟩ | .cxl => ⟨0x800000000000, by decide⟩
    | .host => ⟨2 ^ 48 - 1, by decide⟩⟩
theorem witness_LinkLosses :
    (∃ (s : State) (m : Msg) (j : Job) (r : Round), s.net[0]? = some m ∧ m.kind = .partial_ 0 1 ∧ s.jobs = [(m.asid, j)] ∧ j.rounds.find? (fun r => r.tile = 0) = some r ∧ 1 ≠ j.roundRoot r.entry ∧
      1 ∈ j.tileModules r.entry ∧ j.roundRoot r.entry ∈ j.tileModules r.entry ∧ j.lowestOn 1 = some 1 ∧ j.lowestOn (j.roundRoot r.entry) = some 0) ∧
    (∀ kind, (∃ v b, kind = .vote v b) ∨ (∃ v, kind = .further v) ∨ (∃ t, kind = .late t) ∨ (∃ a b, kind = .urgent a b 1) →
      ∃ (s : State) (m : Msg) (k : Core), s.net[0]? = some m ∧ m.kind = kind ∧ s.core? m.src = some k ∧ k.dead = false ∧ k.phase = .voted ∧ ∀ c, (k.ctx c).level ≠ .firmware) ∧
    (∀ kind, ∃ (s : State) (m : Msg) (k : Core), s.net[0]? = some m ∧ m.kind = kind ∧ s.core? m.src = some k ∧ k.open_ = true ∧ k.stopped = false ∧ (∀ c, (k.ctx c).level ≠ .firmware) ∧
      (∀ e ∈ s.jobs, e.2.rounds = []) ∧ m.cmd = none ∧ s.target m.asid (tcmAt 0) = some (tcmAt 0) ∧ (∃ j, s.job? m.asid = some j) ∧ ∀ e ∈ k.eager, e.uid = m.uid → e.cmd = none) ∧
    (∀ n ∈ [0x20, 0x21, 0x22, 0x24, 0x25], ∃ (s : State) (k : Core) (m : Cmd), s.core? 0 = some k ∧ k.headOf 1 = some m ∧ m.firing = none ∧ (∃ j, s.job? k.asid = some j) ∧ dKind m.d0 = n) := by
  have level : ∀ c, (({ demoCore with ctxs := [] } : Core).ctx c).level ≠ .firmware := fun c => by
    show Level.job ≠ .firmware
    decide
  have target : ∀ kind, (demoAt 0 [] demoCore demoJob [demoMsg kind]).target 0 (tcmAt 0) = some (tcmAt 0) := fun kind => by
    change (demoAt 0 [] demoCore demoJob []).target 0 (tcmAt 0) = some (tcmAt 0)
    decide
  refine ⟨⟨{ demo with jobs := [(0, { twoModules with rounds := [roundOf 0 (2 ^ 160) []] })], net := [demoMsg (.partial_ 0 1)] }, _, _, _, rfl, rfl, rfl, rfl, by decide, by decide, by decide, by decide,
      by decide⟩,
    fun kind _ => ⟨demoAt 0 [] { demoCore with phase := .voted } demoJob [demoMsg kind], _, _, rfl, rfl, rfl, rfl, rfl, level⟩,
    fun kind => ⟨demoAt 0 [] demoCore demoJob [demoMsg kind], _, _, rfl, rfl, rfl, rfl, rfl, level, (by rintro e h; cases List.mem_singleton.1 h; rfl), rfl, target kind, ⟨_, rfl⟩, nofun⟩, fun n hn => ?_⟩
  have : ∀ n ∈ [0x20, 0x21, 0x22, 0x24, 0x25], dKind (BitVec.ofNat 64 n) = n := by decide
  exact ⟨demoAt 0 [] { demoCore with q := [(1, [cmdOf (BitVec.ofNat 64 n) 0 0 0 0 0])] } demoJob [], _, _, rfl, rfl, rfl, ⟨_, rfl⟩, this n hn⟩
/-- Context 0 of core 0 waits for the other members of a gang of width 2 with tag 255 from column 0; these offers stand. -/
def wiredState (offers : List Offer) : State :=
  demoAt 0 [(0, { demoCtx with wait := some (.gang 255 2 0 true none) })] demoCore { demoJob with n := 2, cc := 2, offers := offers } []
def anOffer (c : CoreId) : Offer := { core := c, tag := 255, width := 2, first := 0, number := 0 }
theorem witness_SpawnsAndGangs :
    (∃ (s : State) (k : Core), s.core? 0 = some k ∧ ∃ rd pc arg, (k.ctx 0).wait = some (.spawn rd pc arg)) ∧
    (∃ (s : State) (k : Core), s.core? 0 = some k ∧ k.active = true ∧ (∀ rd pc arg, (k.ctx 0).wait ≠ some (.spawn rd pc arg)) ∧ k.idlePool.head? = some 1 ∧ k.nextRecord = some aRecord) ∧
    (∃ (s : State) (k : Core) (l : LaneOp), s.core? 0 = some k ∧ k.lanes.find? (fun l => l.seq = 0) = some l ∧ l.gone = true) ∧
    (∀ b, ∃ (s : State) (k : Core) (j : Job) (o : Offer), s.core? 0 = some k ∧ k.active = true ∧ (k.ctx 0).wait = some (.gang 255 2 0 true none) ∧ s.job? k.asid = some j ∧
      (j.offers.filter fun p => p.core = 0).getLast? = some o ∧
      (b = true ↔ ∀ n, n < o.width → ∃ p ∈ j.offers, p.core = 0 - 0 % 16 + o.first + n ∧ p.tag = o.tag ∧ p.width = o.width ∧ p.first = o.first ∧ p.number = o.number)) ∧
    (∃ (s : State) (i : Issuer) (r : Rect), s.issuer? = some i ∧ i.job.rects[i.core.rect]? = some r ∧ i.k = 0 ∧ (i.ctx.getX 5).toNat / 256 % 8 + 1 = 2 ∧ (i.ctx.getX 6).toNat % 16 = 0 ∧
      (∀ m ∈ i.core.queue 0, dGanged m.d0 = false) ∧ ∀ o, o < 2 → o + 0 ≠ i.c % 16 → ∃ p ∈ i.job.offers, p.core = i.c - i.c % 16 + 0 + o ∧ p.tag = 0 ∧ p.width = 2 ∧ p.first = 0 ∧
        p.number = (i.job.offers.filter fun q => q.core = i.c ∧ q.width = 2 ∧ q.first = 0).length) :=
  ⟨⟨demoOf { demoCtx with wait := some (.spawn 6 loadPc 0) }, _, rfl, _, _, _, rfl⟩, ⟨demoAt 0 [(0, demoCtx)] { demoCore with tasks := [aRecord] } demoJob [], _, rfl, rfl, nofun, by decide, by decide⟩,
   ⟨demoAt 0 [(0, demoCtx)] { demoCore with lanes := [{ aLane with gone := true }] } demoJob [], _, _, rfl, rfl, rfl⟩,
   fun b => match b with
    | true => ⟨wiredState [anOffer 0, anOffer 1], _, _, anOffer 0, rfl, rfl, rfl, rfl, by decide, by decide⟩
    | false => ⟨wiredState [anOffer 0], _, _, anOffer 0, rfl, rfl, rfl, rfl, by decide, by decide⟩,
   ⟨demoAt 0 [(0, { demoCtx with x := [(5, 0x100), (6, 0)] })] demoCore { demoJob with n := 2, cc := 2, offers := [{ anOffer 1 with tag := 0 }] } [], _, _, rfl, rfl, rfl, by decide, by decide, nofun,
    by decide⟩⟩

theorem witness_LateTrapKinds :
    (∃ (s : State) (m : Msg) (t0 : LateTrap) (k : Core) (j : Job), s.net[0]? = some m ∧ m.kind = .late t0 ∧ s.core? m.src = some k ∧ s.job? k.asid = some j ∧ t0.cause = 0x04 ∧ j.handler ≠ 0 ∧
      k.stopped = false ∧ t0.ctx ≠ 0 ∧ (t0.orphan || !(k.ctx t0.ctx).live) = true ∧ (k.ctx 0).level = .job) ∧
    (∃ (s : State) (m : Msg) (t0 : LateTrap) (k : Core) (j : Job), s.net[0]? = some m ∧ m.kind = .late t0 ∧ s.core? m.src = some k ∧ s.job? k.asid = some j ∧ t0.orphan = false ∧
      (k.ctx t0.ctx).live = true ∧ (k.ctx t0.ctx).level = .firmware) ∧
    (∃ (s : State) (k : Core), s.core? 0 = some k ∧ k.inService = false ∧ k.active = true ∧ (∀ x ∈ k.ctxs, x.2.entry = none) ∧ ∃ w, (k.ctx 0).wait = some w ∧ w.held = true) ∧
    (∃ (s : State) (k : Core) (j : Job) (e : LateTrap), s.core? 0 = some k ∧ s.job? k.asid = some j ∧ k.inService = false ∧ k.active = true ∧ (∀ x ∈ k.ctxs, x.2.entry = none) ∧ j.handler ≠ 0 ∧ e.cause ≠ 0x0A ∧
      (k.ctx 0).level = .job ∧ (∃ w, (k.ctx 0).wait = some w) ∧ (∀ w, (k.ctx 0).wait = some w → w.held = false) ∧ (k.ctx 0).late = [e] ∧ ∃ m ∈ s.net, m.kind = .response 5 ∧ m.src = 0 ∧ m.ctx = 0) ∧
    (∃ (s : State) (k : Core) (j : Job), s.core? 0 = some k ∧ s.job? k.asid = some j ∧ j.verdict = none) ∧
    (∃ (s : State) (k : Core) (j : Job) (v : Verdict), s.core? 0 = some k ∧ s.job? k.asid = some j ∧ j.verdict = some v ∧ v.commit = false ∧ 0 ∈ j.places ∧ (s.patch 0).fenced = false) ∧
    (∃ (s : State) (k : Core), s.core? 0 = some k ∧ k.open_ = true ∧ k.stopped = false ∧ (∀ x, (k.ctx x).level ≠ .firmware) ∧ ∃ l ∈ k.lanes, l.ctx = 0 ∧ l.gone = false) ∧
    (∃ (s : State) (k : Core), s.core? 0 = some k ∧ k.open_ = true ∧ k.stopped = false ∧ (∀ x, (k.ctx x).level ≠ .firmware) ∧ ∀ q ∈ [0, 1, 2, 3], ∀ m, k.headOf q = some m → m.ctx ≠ 0 ∨ m.gone = true) ∧
    (∃ (s : State) (k : Core) (m : Cmd) (j : Job), s.core? 0 = some k ∧ (∀ l ∈ k.lanes, l.ctx ≠ 0 ∨ l.gone = true) ∧ s.job? k.asid = some j ∧ m.ctx = 0 ∧ m.gone = false ∧ k.headOf 0 = some m ∧
      dKind m.d0 = 0x01) ∧
    (∃ (s : State) (k : Core) (m : Cmd) (j : Job), s.core? 0 = some k ∧ (∀ l ∈ k.lanes, l.ctx ≠ 0 ∨ l.gone = true) ∧ s.job? k.asid = some j ∧ m.ctx = 0 ∧ m.gone = false ∧ k.headOf 0 = none ∧
      k.headOf 1 = some m ∧ m.firing = none ∧ dKind m.d0 = 0x20) :=
  have level : ∀ x, (({ demoCore with ctxs := [] } : Core).ctx x).level ≠ .firmware := fun x => by
    show Level.job ≠ .firmware
    decide
  ⟨⟨demoAt 0 [(0, demoCtx)] demoCore demoJob [demoMsg (.late ⟨0x04, 0, 0, 9, false⟩)], _, _, _, _, rfl, rfl, rfl, rfl, rfl, by decide, rfl, by decide, by decide, rfl⟩,
   ⟨demoAt 0 [(0, firmwareCtx)] demoCore demoJob [demoMsg (.late ⟨0x04, 0, 0, 0, false⟩)], _, _, _, _, rfl, rfl, rfl, rfl, rfl, rfl, rfl⟩,
   ⟨demoOf { demoCtx with wait := some (.spawn 6 loadPc 0) }, _, rfl, by decide, rfl, by decide, _, rfl, rfl⟩,
   ⟨demoAt 0 [(0, { demoCtx with wait := some (.atomic 0 6), late := [⟨0x04, 0, 0, 0, false⟩] })] demoCore demoJob [demoMsg (.response 5)], _, _, _, rfl, rfl, by decide, rfl, by decide, by decide, by decide, rfl,
    ⟨_, rfl⟩, (fun _ h => by cases h; rfl), rfl, _, .head _, rfl, rfl, rfl⟩,
   ⟨demo, _, _, rfl, rfl, rfl⟩, ⟨demoAt 0 [] demoCore { demoJob with verdict := some ⟨false, 4, 0, 0, 0⟩ } [], _, _, _, rfl, rfl, rfl, rfl, by decide, by decide⟩,
   ⟨demoAt 0 [] { demoCore with lanes := [aLane] } demoJob [], _, rfl, rfl, rfl, level, _, .head _, rfl, rfl⟩,
   ⟨demoAt 0 [] demoCore demoJob [], _, rfl, rfl, rfl, level, by
      intro q hq m h
      have : ∀ q ∈ [0, 1, 2, 3], (({ demoCore with ctxs := [] } : Core).headOf q) = none := by decide
      exact absurd h (by rw [this q hq]; nofun)⟩,
   ⟨withCmd 0 (cmdOf 0x501 0 0 0 0 0), _, _, _, rfl, nofun, rfl, rfl, rfl, rfl, by decide⟩, ⟨withCmd 1 (cmdOf 0x20 0 0 0 0 0), _, _, _, rfl, nofun, rfl, rfl, rfl, rfl, rfl, rfl, by decide⟩⟩
/-- A member of a gang of width 2, for its multiplication. -/
def gangProduct (d0 : Word) : Cmd := cmdOf (d0 + 2 ^ 28) 0 0 0 0 4096
/-- Two cores of a gang with these commands. -/
def gangOf (a b : Cmd) : State := { withCore (openGang a) with cores := [(0, openGang a), (1, openGang b)] }
theorem witness_JointProducts :
    (∃ (s : State) (k : Core) (m : Cmd) (j : Job), HeadDue s 0 0 0x01 k m j ∧ s.jointOf 0 k m = none) ∧
    (∃ (s : State) (k : Core) (m : Cmd) (j : Job) (l : List (CoreId × Core × Cmd)), HeadAt s 0 0 0x01 k m j ∧ s.jointOf 0 k m = some l ∧ jointAgrees l = false ∧ l.length = 2) ∧
    (∃ (s : State) (k : Core) (m : Cmd) (j : Job) (l : List (CoreId × Core × Cmd)), HeadAt s 0 0 0x01 k m j ∧ s.jointOf 0 k m = some l ∧ jointAgrees l = true ∧ l.length = 2 ∧
      ∃ z ∈ l, z.2.2.seen = none) ∧
    (∃ (s : State) (k : Core) (m : Cmd) (j : Job) (l : List (CoreId × Core × Cmd)), HeadAt s 0 0 0x01 k m j ∧ s.jointOf 0 k m = some l ∧ jointAgrees l = true ∧ (0, k, m) ∈ l ∧ l.length = 2 ∧
      ∀ z ∈ l, Steady s z.1 z.2.1 z.2.2) ∧
    (∃ (s : State) (k : Core) (m : Cmd) (j : Job), HeadDue s 0 0 0x02 k m j ∧ s.jointOf 0 k m = some [(0, k, m)] ∧ jointAgrees [(0, k, m)] = true) ∧
    (∃ (s : State) (k : Core) (m : Cmd) (j : Job) (l : List (CoreId × Core × Cmd)), HeadDue s 0 0 0x06 k m j ∧ s.jointOf 0 k m = some l ∧ jointAgrees l = true ∧ m.d3.getLsbD 0 = false ∧ l.length = 2) ∧
    (∃ (s : State) (k : Core) (m : Cmd) (r : RingEntry), s.core? 0 = some k ∧ k.queue 1 = [m] ∧ k.engines = true ∧ m.stage = .performed ∧ m.firing = none ∧ dSignal m.d0 = false ∧ dStatus m.d0 = true ∧
      m.cause = 0 ∧ m.flags &&& m.enabled = 0 ∧ dget? k.ring (m.seq % 64) = some r ∧ r.seq = m.seq ∧ r.valid = true ∧ r.done = false ∧ r.owed = 0) ∧
    (∃ (s : State) (k : Core) (m : Cmd), s.core? 0 = some k ∧ k.queue 1 = [m] ∧ k.engines = true ∧ m.stage = .performed ∧ m.gone = true ∧ m.cause = 0 ∧ m.flags &&& m.enabled ≠ 0) :=
  ⟨⟨withCore (openGang (gangProduct 0x501)), _, _, _, ⟨⟨rfl, rfl, rfl⟩, rfl, fun _ => rfl⟩, by decide +kernel⟩,
   ⟨gangOf (gangProduct 0x501) { gangProduct 0x501 with d1 := 2 ^ 48 }, _, gangProduct 0x501, demoJob, _, ⟨rfl, rfl, rfl⟩, rfl, by decide +kernel, rfl⟩,
   ⟨gangOf (gangProduct 0x501) (gangProduct 0x501), _, gangProduct 0x501, demoJob, _, ⟨rfl, rfl, rfl⟩, rfl, by decide +kernel, rfl, _, .head _, rfl⟩,
   ⟨begun (gangOf (gangProduct 0x501) (gangProduct 0x501)), _, _, demoJob, _, ⟨rfl, rfl, rfl⟩, rfl, by decide +kernel, .head _, rfl, by
      intro z hz
      rcases List.mem_pair.1 hz with rfl | rfl <;> rfl⟩,
   ⟨withCmd 0 (cmdOf 0x502 0 0 0 0 0), _, _, _, ⟨⟨rfl, rfl, rfl⟩, rfl, fun _ => rfl⟩, by decide, by decide⟩,
   ⟨{ withCore (openGang (crossOf 0)) with cores := [(0, openGang (crossOf 0)), (1, openGang (crossOf 0))] }, _, crossOf 0, demoJob, _, ⟨⟨rfl, rfl, rfl⟩, rfl, unraced_other (by decide)⟩, rfl, by decide +kernel, rfl, rfl⟩,
   ⟨withCore { demoCore with q := [(1, [doneCmd (0x23 + 2 ^ 29)])], ring := [((doneCmd 0).seq % 64, { seq := (doneCmd 0).seq, ctx := 0, valid := true, done := false, pcoff := 0, uid := 4, owed := 0 })] },
    _, _, _, rfl, rfl, rfl, rfl, rfl, by decide, by decide, rfl, by decide, rfl, rfl, rfl, rfl, rfl⟩,
   ⟨withCmd 1 { doneCmd 0x23 with flags := 1, enabled := 1, gone := true }, _, _, rfl, rfl, rfl, rfl, rfl, rfl, by decide⟩⟩

theorem unspilled {s : State} {d : Module} (h : s.modules = [(0, d)]) (hp : d.poison = []) (a : Nat) (x : Dest) : Unspilled s a x := fun _ => spillPoison_clean fun _ => unpoisoned h hp _ _
theorem witness_UnspilledRows :
    (∃ (s : State) (k : Core) (m : Cmd) (j : Job), HeadDue s 0 1 0x20 k m j ∧ 32 = 32 * (m.d3.toNat % 2 ^ 16 + 1) ∧ tRows m.d1 = 0 ∧ RowAt s 0 k j m.a1 32 ∧ m.a2.toNat % 32 = 0 ∧
      m.d3.getLsbD 49 = false ∧ RowAt s 0 k j m.a2 32 ∧ Unspilled s k.asid (localAt 0 m.a1 0)) ∧
    (∃ (s : State) (k : Core) (m : Cmd) (j : Job), HeadDue s 0 1 0x20 k m j ∧ 32 = 32 * (m.d3.toNat % 2 ^ 16 + 1) ∧ tRows m.d1 = 0 ∧ RowAt s 0 k j m.a1 32 ∧ m.a2.toNat % 32 = 0 ∧
      m.d3.getLsbD 49 = false ∧ m.a2.toNat / 2 ^ 36 = 2 ^ 25 ∧ addrOff m.a2 + 32 ≤ j.limit ∧ j.inCode (addrOff m.a2) 32 = false ∧ j.hasDie (coreDie 0) = true ∧
      Unspilled s k.asid (localAt 0 m.a1 0)) ∧
    (∃ (s : State) (k : Core) (m : Cmd) (j : Job), HeadDue s 0 1 0x25 k m j ∧ m.stage = .queued ∧ m.progress = 0 ∧ tRows m.d1 = 0 ∧ RowAt s 0 k j m.a1 32 ∧ RowAt s 0 k j m.a2 32 ∧
      m.a1.toNat / 2 ^ 60 = 1 ∧ m.a2.toNat / 2 ^ 60 = 0 ∧ RingIs (copySlots 2) 0 (s.bytesAt k.asid (localAt 0 m.a2 0) 32) ∧
      ringValid j 0 .job (s.bytesAt k.asid (localAt 0 m.a2 0) 32) = true ∧ Unspilled s k.asid (localAt 0 m.a1 0)) ∧
    (∃ (s : State) (k : Core) (m : Cmd) (j : Job), HeadDue s 0 2 0x30 k m j ∧ m.d3.getLsbD 63 = false ∧ m.d3.toNat / 2 ^ 22 % 2 ^ 10 = 0 ∧
      (let row := s.bytesAt k.asid { core := 0, space := .tcm, off := m.d3.toNat / 2 ^ 32 % 2 ^ 17 } 4 + tRows m.d1
       row = 1 ∧ RowAt s 0 k j m.a1 (row * 32 * tStride m.d1 + 32) ∧ Unspilled s k.asid (localAt 0 m.a1 (row * 32 * tStride m.d1))) ∧ RowAt s 0 k j m.a2 32) ∧
    (∃ (s : State) (k : Core) (m : Cmd) (j : Job) (d : Dest), HeadDue s 0 3 0x40 k m j ∧ m.stage = .queued ∧ tRows m.d1 = 0 ∧ m.d3.toNat % 2 ^ 16 = 0 ∧ RowAt s 0 k j m.a1 32 ∧
      Unspilled s k.asid (localAt 0 m.a1 0) ∧ formOk [2, 4, 5] m.a2 = true ∧ m.a2.toNat % 32 = 0 ∧ locate 0 m.a2 = some d ∧ d.space ≠ .dss ∧ d.off + 32 ≤ j.limitOf d.space ∧
      ∀ e ∈ k.eager, e.cmd ≠ some m.uid) ∧
    (∃ (s : State) (k : Core) (m : Cmd) (j : Job) (w slot n code : Nat), HeadDue s 0 3 0x41 k m j ∧ slot = m.d3.toNat % 2 ^ 12 ∧ code = m.d3.toNat / 2 ^ 16 % 8 ∧
      w = codeBytes code ∧ n = m.d3.toNat / 2 ^ 32 % 2 ^ 16 + 1 ∧ RowAt s 0 k j m.a1 (n * w) ∧ slot + n ≤ j.window ∧ s.spillPoison k.asid (localAt 0 m.a1 0) (n * w) = none) ∧
    (∃ (s : State) (k : Core) (m : Cmd) (e : Nat), s.core? 0 = some k ∧ k.headOf 3 = some m ∧ m.firing = some (0, e) ∧ m.stage = .queued ∧ tlSrcEn e = true ∧
      s.spillPoison k.asid (localAt 0 (tlSrc e) m.patch) (tlVals e * codeBytes (tlIn e)) = none) :=
  ⟨⟨withCmd 1 (cmdOf 0x20 0 0 0 0 (qspAddr 64)), _, _, _, ⟨⟨rfl, rfl, rfl⟩, rfl, fun _ => rfl⟩, by decide, by decide, by unfold RowAt; decide, by decide, by decide, by unfold RowAt; decide, unspilled rfl rfl _ _⟩,
   ⟨withCmd 1 (cmdOf 0x20 0 0 0 0 (dssAddr 64)), _, _, _, ⟨⟨rfl, rfl, rfl⟩, rfl, fun _ => rfl⟩, by decide, by decide, by unfold RowAt; decide, by decide, by decide, by decide, by decide, by decide, by decide,
    unspilled rfl rfl _ _⟩,
   ⟨withTcm 1 (cmdOf 0x25 0 0 0 (qspAddr 0) 0) (copyRing 2), _, _, _, ⟨⟨rfl, rfl, rfl⟩, rfl, fun _ => rfl⟩, rfl, rfl, by decide, by unfold RowAt; decide, by unfold RowAt; decide, by decide, by decide,
    by unfold RingIs; decide, by decide, unspilled rfl rfl _ _⟩,
   ⟨withTcm 2 (cmdOf 0x30 (2 ^ 32) 0 0 (qspAddr 0) 64) [(0, 1)], _, _, _, ⟨⟨rfl, rfl, rfl⟩, rfl, fun _ => rfl⟩, by decide, by decide, ⟨by decide, by unfold RowAt; decide, unspilled rfl rfl _ _⟩,
    by unfold RowAt; decide⟩,
   ⟨withCmd 3 (cmdOf 0x40 0 0 0 0 (BitVec.ofNat 64 (4 * 2 ^ 60 + 64))), _, _, _, ⟨0, .tcm, 64⟩, ⟨⟨rfl, rfl, rfl⟩, rfl, fun _ => rfl⟩, rfl, by decide, by decide, by unfold RowAt; decide, unspilled rfl rfl _ _,
    by decide, by decide, by decide, by decide, by decide, fun _ h => (List.not_mem_nil h).elim⟩,
   ⟨begun (demoAt 0 [(0, demoCtx)] { demoCore with q := [(3, [cmdOf 0x41 0 0 0 0 0])] } { demoJob with window := 1 } []), _, _, _, _, _, _, _, ⟨⟨rfl, rfl, rfl⟩, rfl, fun _ => rfl⟩, rfl, rfl, rfl, rfl,
    by unfold RowAt; decide, by decide, spillPoison_clean fun _ => unpoisoned rfl rfl _ _⟩,
   ⟨withCmd 3 { cmdOf 0 0 0 0 0 0 with firing := some (0, 2 ^ 267) }, _, _, _, rfl, rfl, rfl, rfl, by decide, spillPoison_clean fun _ => unpoisoned rfl rfl _ _⟩⟩
/-- A row of the scratchpad that is spilled to a poisoned page: a CPBOX of it. -/
theorem witness_SpilledRow (pa : Nat) (h : Config.spillPage 0 0 0 = some pa) (ht : tierOf pa = .hw) :
    ∃ (s : State) (k : Core) (m : Cmd) (j : Job), HeadDue s 0 1 0x20 k m j ∧ 32 = 32 * (m.d3.toNat % 2 ^ 16 + 1) ∧ tRows m.d1 = 0 ∧ RowAt s 0 k j m.a1 32 ∧ m.a2.toNat % 32 = 0 ∧
      m.d3.getLsbD 49 = false ∧ RowAt s 0 k j m.a2 32 ∧ s.spillPoison k.asid (localAt 0 m.a1 0) 32 ≠ none := by
  have hk : ∀ d, d.poison = [pa / 4096] → (withModule (withCmd 1 (cmdOf 0x20 0 0 0 (qspAddr 0) 0)) d).spillPoison 0 (localAt 0 (qspAddr 0) 0) 32 ≠ none := by
    intro d hd
    have hp : (withModule (withCmd 1 (cmdOf 0x20 0 0 0 (qspAddr 0) 0)) d).poisoned 0 pa = true := by
      show pagesMeet d.poison pa 1 = true
      simp only [hd, pagesMeet, overlaps, List.any_cons, List.any_nil, Bool.or_false, Bool.and_eq_true, decide_eq_true_eq]
      omega
    rw [show localAt 0 (qspAddr 0) 0 = qspAt 0 by decide, spillPoison_at h ht hp (by decide)]
    nofun
  exact ⟨withModule (withCmd 1 (cmdOf 0x20 0 0 0 (qspAddr 0) 0)) { demoModule with poison := [pa / 4096] }, _, _, demoJob, ⟨⟨rfl, rfl, rfl⟩, rfl, fun _ => rfl⟩, by decide, by decide,
    ⟨.inr (by decide), by decide, by decide, rfl, rfl, rfl⟩, by decide, by decide, ⟨.inl (by decide), by decide, by decide, rfl, rfl, rfl⟩, hk _ rfl⟩
theorem witness_Streams :
    (∃ (s : State) (k : Core) (m : Cmd) (j : Job) (x : EFault), HeadDue s 0 1 0x22 k m j ∧ tRows m.d1 = 0 ∧ k.kept = true ∧ k.reserved ≠ none ∧
      basesCause [([8], m.a1), ([0, 1], m.a2)] = some x) ∧
    (∀ kept, ∃ (s : State) (k : Core) (m : Cmd) (j : Job), HeadDue s 0 1 0x22 k m j ∧ tRows m.d1 = 0 ∧ k.kept = kept ∧ (k.kept = true → k.reserved ≠ none) ∧
      basesCause [([8], m.a1), ([0, 1], m.a2)] = none ∧
      (∃ r, s.reach ⟨0, k, j, m⟩ m.a1 0 32 false = .ok r ∧ (tierOf r.2 == .hbm && decide (r.2 % 1024 ≠ 0) &&
        (match (r.1.endStream 0).readRow ⟨0, k, j, m⟩ m.a1 0 1024 with | .ok _ => true | .error _ => false)) = true) ∧ RowAt s 0 k j m.a2 1024) :=
  ⟨⟨{ overTables (cmdOf 0x22 0 0 1 0 0) [] with cores := [(0, { demoCore with q := [(1, [cmdOf 0x22 0 0 1 0 0])], reserved := some 3, kept := true })] }, _, _, _, _, ⟨⟨rfl, rfl, rfl⟩, rfl, unraced_other (by decide)⟩, by decide, rfl,
    nofun, rfl⟩,
   fun b => match b with
    | false => ⟨overTables (cmdOf 0x22 0 0 1 (virt 32) 0) [], _, _, _, ⟨⟨rfl, rfl, rfl⟩, rfl, fun _ => rfl⟩, by decide, rfl, nofun, by decide, ok_of _ _ (by decide +kernel), by unfold RowAt; decide +kernel⟩
    | true => ⟨{ overTables (cmdOf 0x22 0 0 1 (virt 32) 0) [] with cores := [(0, { demoCore with q := [(1, [cmdOf 0x22 0 0 1 (virt 32) 0])], reserved := some 3, kept := true })] }, _, _, _,
        ⟨⟨rfl, rfl, rfl⟩, rfl, unraced_other (by decide)⟩, by decide, rfl, nofun, by decide, ok_of _ _ (by decide +kernel), by unfold RowAt; decide +kernel⟩⟩

theorem witness_BarrierWaits :
    (∃ (s : State) (j : Job), BarrierAt s 0 0 (.further abortVote) j ∧ j.held = true) ∧ (∃ (s : State) (j : Job), BarrierAt s 0 0 (.further abortVote) j ∧ j.verdict = none ∧ j.held = false) ∧
    (∃ (s : State) (j : Job), BarrierAt s 0 0 (.urgent 15 0 2) j ∧ j.held = true) ∧ (∃ (s : State) (j : Job), BarrierAt s 0 0 (.urgent 15 0 2) j ∧ j.verdict = none ∧ j.held = false) ∧
    (∃ (s : State) (k : Core) (j : Job), s.core? 0 = some k ∧ s.job? k.asid = some j ∧ k.phase ≠ .applying ∧ (k.writeOuts = [] ∨ k.phase ≠ .applied)) ∧
    (∃ (s : State) (k : Core) (j : Job), s.core? 0 = some k ∧ s.job? k.asid = some j ∧ k.phase = .applying ∧
      ¬ ∀ d ∈ j.places, ∀ x, s.core? d = some x → k.index ≤ x.index ∨ x.phase = .applied) ∧
    (∃ (s : State) (k : Core) (j : Job), s.core? 0 = some k ∧ s.job? k.asid = some j ∧ k.phase = .applied ∧
      (∃ w ∈ k.writeOuts, tierOf w.pa = .hbm ∧ s.bankBusyOver (coreModule 0) w.pa w.n (some 0) = true) ∧ 0 ∈ j.places) ∧
    (∃ (s : State) (k : Core) (j : Job) (w : WriteOut) (d : Module), s.core? 0 = some k ∧ s.job? k.asid = some j ∧ k.phase = .applied ∧ k.writeOuts = [w] ∧ tierOf w.pa = .hbm ∧
      s.bankBusyOver (coreModule 0) w.pa w.n (some 0) = false ∧ s.module? (coreModule 0) = some d ∧ (∀ e ∈ j.places, ∀ x, s.core? e = some x → x.phase = .applied) ∧ j.stage = .running) :=
  ⟨⟨voting { demoJob with held := true } (.further abortVote), _, ⟨_, rfl, rfl, rfl, rfl⟩, rfl⟩, ⟨voting demoJob (.further abortVote), _, ⟨_, rfl, rfl, rfl, rfl⟩, rfl, rfl⟩,
   ⟨voting { demoJob with held := true } (.urgent 15 0 2), _, ⟨_, rfl, rfl, rfl, rfl⟩, rfl⟩, ⟨voting demoJob (.urgent 15 0 2), _, ⟨_, rfl, rfl, rfl, rfl⟩, rfl, rfl⟩,
   ⟨demo, _, _, rfl, rfl, nofun, .inl rfl⟩,
   ⟨{ stageState twoCores [] with cores := [(0, { phaseCore .applying with index := 1 }), (1, phaseCore .applying)] }, _, _, rfl, rfl, rfl, fun h => by
      have := h 1 (by decide) _ rfl
      revert this
      decide⟩,
   ⟨bankedStage demoJob [(0, { phaseCore .applied with writeOuts := [⟨0, 0x10000, 32, 5, none⟩] })] true, _, _, rfl, rfl, rfl, ⟨_, .head _, by decide, by decide +kernel⟩, by decide⟩,
   ⟨bankedStage demoJob [(0, { phaseCore .applied with writeOuts := [⟨0, 0x10000, 32, 5, none⟩] })] false, _, demoJob, _, _, rfl, rfl, rfl, rfl, by decide, by decide +kernel, rfl, by
      intro e he x hx
      cases List.mem_singleton.1 ((show demoJob.places = [0] by decide) ▸ he)
      cases hx
      rfl, rfl⟩⟩
theorem witness_BoundaryRequests :
    (∃ (s : State) (j : Job), s.job? 0 = some j ∧ j.verdict = none ∧ j.held = true ∧ s.requestsDue 0 j = true) ∧
    (∃ (s : State) (j : Job), s.job? 0 = some j ∧ j.verdict = none ∧ j.held = true ∧ s.yields j = true) ∧
    (∃ (s : State) (j : Job) (v : Verdict), s.job? 0 = some j ∧ j.verdict = some v ∧ s.boundaryReached j = false) ∧
    (∃ (s : State) (j : Job) (v : Verdict), s.job? 0 = some j ∧ j.verdict = some v ∧ s.boundaryReached j = true ∧ s.requestsDue 0 j = true) ∧
    (∀ v ∈ [aVerdict true, aVerdict false], ∃ (s : State) (j : Job), s.job? 0 = some j ∧ j.stage = .running ∧ j.verdict = some v ∧ s.boundaryReached j = true ∧ s.requestsDue 0 j = false ∧
      j.pending = [] ∧ j.endCause = none ∧ j.totalAborts < 15 ∧ j.handler ≠ 0 ∧ ∀ x ∈ j.sections, x.type ≠ 5) ∧
    (∃ (s : State) (j : Job), s.job? 0 = some j ∧ j.stage = .running ∧ j.verdict = none ∧ j.held = true ∧ j.paused = false ∧ j.parked = none ∧ s.requestsDue 0 j = false ∧ s.yields j = false ∧
      s.noRounds j = false ∧ j.staged = [] ∧ (∀ c ∈ j.places, (s.patch c).fenced = false) ∧ ∀ c ∈ j.places, ∀ k, s.core? c = some k → k.repeatCause = none ∧ k.stagedPoison = []) ∧
    (∃ (s : State) (j : Job) (d : Module) (e : Entry), s.job? 0 = some j ∧ j.stage = .retiring ∧ (∀ c ∈ j.places, ∀ k, s.core? c = some k → k.writeOuts = []) ∧ s.writing j = false ∧
      j.endCause = none ∧ j.pending = [] ∧ s.endBusy j = false ∧ (∀ m ∈ j.modules, s.lostFrame m j.root = false) ∧ s.module? j.home = some d ∧
      dget? d.slots (j.jsn % 65536) = some e ∧ e.jsn = j.jsn ∧ e.final = false) :=
  ⟨⟨dueState 3 [(0, { liveJob with held := true })] [], _, rfl, rfl, rfl, by decide⟩,
   ⟨{ stageState (heldJob (some (0, 9))) [] with jobs := [(0, heldJob (some (0, 9))), (1, { waitingDemo with jsn := 9 })] }, _, rfl, rfl, rfl, by decide⟩,
   ⟨alone { demoJob with verdict := some (aVerdict true) } (phaseCore .applying), _, aVerdict true, rfl, rfl, by decide⟩,
   ⟨{ dueState 3 [] [] with jobs := [(0, { liveJob with verdict := some (aVerdict true) })], cores := [(0, phaseCore .applied)] }, _, aVerdict true, rfl, rfl, by decide, by decide⟩,
   fun v h => ⟨alone { demoJob with verdict := some v } (phaseCore (if v.commit then .applied else .rolled)), _, rfl, rfl, rfl, by
      rcases List.mem_pair.1 h with rfl | rfl <;> decide, rfl, rfl, rfl, show demoJob.totalAborts < 15 by decide, show demoJob.handler ≠ 0 by decide,
    show ∀ x ∈ demoJob.sections, x.type ≠ 5 by decide⟩,
   ⟨alone (heldJob none) heldCore, _, rfl, rfl, rfl, rfl, rfl, rfl, by decide, by decide, by decide, rfl, by decide, demo_only heldCore (fun _ k => k.repeatCause = none ∧ k.stagedPoison = []) (by decide) ⟨rfl, rfl⟩⟩,
   ⟨alone { demoJob with stage := .retiring } (phaseCore .applied), _, _, _, rfl, rfl, demo_only _ (fun _ k => k.writeOuts = []) (by decide) rfl, by decide, rfl, rfl, by decide +kernel, by decide +kernel, rfl, rfl,
    rfl, rfl⟩⟩

/-- Position 0 has missed its east neighbour for `n` periods, and hears its south one. -/
def silentState (n : Nat) : State := beatState 1024 [(0, { Pos.reset with heard := [2], misses := [(1, n)] })] []
theorem witness_Periods :
    (∃ (s : State) (x : Msg), s.net[0]? = some x ∧ x.kind = .heartbeat 1 ∧ directionOf 1 x.src = some 3 ∧ BeatIs s 1 1 ∧ 1 ≠ (s.pos 1).lastCheck) ∧
    (∃ (s : State) (x : Msg), s.net[0]? = some x ∧ x.kind = .heartbeat 1 ∧ directionOf 1 x.src = some 3 ∧ BeatIs s 1 (s.pos 1).lastCheck) ∧
    (∃ (s : State) (t : Nat), BeatIs s 0 t ∧ t ≠ (s.pos 0).lastCheck ∧ (s.patch 0).fenced = true) ∧
    (∀ judged : Bool, ∃ (s : State) (t : Nat), BeatIs s 0 t ∧ t ≠ (s.pos 0).lastCheck ∧ s.beats 0 = true ∧ (s.patch 0).fenced = false ∧ neighbour 0 1 = some 1 ∧ (s.patch 1).fenced = false ∧
      (s.pos 1).appealing = false ∧ (∀ h, h < 4 → h ≠ 1 → QuietSide s 0 h ∧ Calm s 0 h) ∧ Calm s 0 1 ∧ (s.pos 0).heard.contains 1 = false ∧
      (judged = true ↔ max 1 ((s.pos 0).hbperiod.toNat / 2 ^ 16 % 16) ≤ dgetD (s.pos 0).misses 1 0 + 1)) :=
  ⟨⟨beatState 1024 [] [demoMsg (.heartbeat 1)], _, rfl, rfl, by decide, ⟨_, rfl, by decide⟩, by decide⟩, ⟨beatState 0 [] [demoMsg (.heartbeat 1)], _, rfl, rfl, by decide, ⟨_, rfl, by decide⟩⟩,
   ⟨{ withModule demo (fencedDie [(0, ⟨true, false, 0⟩)]) with clock := 1024 }, 1, ⟨_, rfl, by decide⟩, by decide, by decide⟩,
   fun b => ⟨silentState (if b then 2 else 0), 1, ⟨_, rfl, by cases b <;> decide⟩, by cases b <;> decide, rfl, rfl, rfl, rfl, rfl, (by
      intro h h1 h2
      refine ⟨fun d hd => ?_, by unfold Calm; exact Nat.zero_le _⟩
      match h with
      | 0 => cases hd
      | 1 => exact absurd rfl h2
      | 2 => cases hd; exact ⟨rfl, .inr ⟨rfl, rfl⟩⟩
      | 3 => cases hd), by unfold Calm; exact Nat.zero_le _, rfl, by cases b <;> decide⟩⟩
def accusedState (j : Job) : State :=
  { beatState 0 [(2, { Pos.reset with accused := [(1, 17, 100)] })] [demoMsg (.accuse 2 1)] with jobs := [(0, j)], cores := [(1, demoCore)] }
theorem witness_Fences :
    (∃ (s : State) (x : Msg) (k : Core) (m : Module) (j : Job), s.net[0]? = some x ∧ x.kind = .accuse 2 1 ∧
      (let l := (1, x.src, s.clock + 4 * max 256 ((s.pos 2).hbperiod.toNat % 2 ^ 16)) :: (s.pos 2).accused.filter fun a => a.1 ≠ 1 || a.2.1 ≠ x.src
       Enough s 1 ((l.filter fun a => a.1 = 1 && decide (s.clock < a.2.2)).map fun a => a.2.1)) ∧ 2 ∈ s.present 1 ∧ (s.patch 1).fenced = false ∧ s.core? 1 = some k ∧
      s.module? (coreModule 1) = some m ∧ s.job? k.asid = some j ∧ (∀ g ∈ j.groups, g.dest.core ≠ 1) ∧ ∀ z ∈ s.net, dget? s.lastSent 1 ≠ some z) ∧
    (∃ (s : State) (x : Msg) (k : Core) (m : Module) (j : Job), s.net[0]? = some x ∧ x.kind = .accuse 2 1 ∧
      (let l := (1, x.src, s.clock + 4 * max 256 ((s.pos 2).hbperiod.toNat % 2 ^ 16)) :: (s.pos 2).accused.filter fun a => a.1 ≠ 1 || a.2.1 ≠ x.src
       Enough s 1 ((l.filter fun a => a.1 = 1 && decide (s.clock < a.2.2)).map fun a => a.2.1)) ∧ 2 ∈ s.present 1 ∧ (s.patch 1).fenced = false ∧ s.core? 1 = some k ∧
      s.module? (coreModule 1) = some m ∧ s.job? k.asid = some j ∧ ∃ g ∈ j.groups, g.dest.core = 1 ∧ g.members ++ g.held ≠ []) ∧
    (∃ (s : State) (x : Msg), s.net[0]? = some x ∧ x.kind = .accept 2 1 ∧ (2 : CoreId) ≠ 1 ∧
      (let l := (1, x.src) :: (s.pos 2).accepted.filter (· ≠ (1, x.src))
       Enough s 1 ((l.filter fun a => a.1 = 1).map Prod.snd)) ∧ (s.patch 1).perm = true) :=
  ⟨⟨accusedState demoJob, _, _, _, _, rfl, rfl, by unfold Enough; decide, by decide, by decide, rfl, rfl, rfl, nofun, by decide⟩,
   ⟨accusedState { demoJob with groups := [{ halfGroup with dest := { tcmAt 8 with core := 1 } }] }, _, _, _, _, rfl, rfl, by unfold Enough; decide, by decide, by decide, rfl, rfl, rfl, _, .head _,
    rfl, nofun⟩,
   ⟨withModule (beatState 0 [(2, { Pos.reset with accepted := [(1, 17)] })] [demoMsg (.accept 2 1)]) (fencedDie [(1, ⟨true, true, 4⟩)]), _, rfl, rfl, by decide, by unfold Enough; decide, by decide⟩⟩
/-- The rounds of a job of two modules, and a firing of tile 0 from module 1. -/
def farState (rounds : List Round) : State :=
  { fireState { twoModules with rounds := rounds } 0 rounds (.fire 0 (2 ^ 160) 0 [[(0, 5)]]) with
    net := [{ demoMsg (.fire 0 (2 ^ 160) 0 [[(0, 5)]]) with src := 1024, cmd := some 4 }], cores := [(0, demoCore), (1024, { demoCore with index := 1 })] }
theorem witness_RoundSteps :
    (∃ (s : State) (x : Msg) (j : Job) (k : Core) (r : Round), s.net[0]? = some x ∧ x.kind = .fire 0 (2 ^ 160) 0 [[(0, 5)]] ∧ s.job? x.asid = some j ∧ s.core? x.src = some k ∧
      j.rounds.find? (fun r => r.tile == 0) = some r ∧ entryKey r.entry = entryKey (2 ^ 160) ∧ (∃ b ∈ r.arrivals, b.index = k.index) ∧ j.localFull r (coreModule x.src) = false) ∧
    (∃ (s : State) (x : Msg) (j : Job) (k : Core) (r : Round), s.net[0]? = some x ∧ x.kind = .fire 0 (2 ^ 160) 0 [[(0, 5)]] ∧ s.job? x.asid = some j ∧ s.core? x.src = some k ∧
      j.rounds.find? (fun r => r.tile == 0) = some r ∧ entryKey r.entry = entryKey (2 ^ 160) ∧ (∀ b ∈ r.arrivals, b.index ≠ k.index) ∧ arrivalOf k x (2 ^ 160) [[(0, 5)]] ∉ r.held ∧
      (∀ c ∈ j.contributorsOn r.entry 1, ∃ b ∈ r.arrivals ++ [arrivalOf k x (2 ^ 160) [[(0, 5)]]], b.core = c) ∧ coreModule x.src = 1 ∧ 1 ≠ j.roundRoot r.entry ∧ j.byGateway r.entry 1 = false ∧
      1 ∉ r.delivered ∧ 1 ∉ r.sent) ∧
    (∀ last : Bool, ∃ (s : State) (x : Msg) (j : Job) (r : Round), s.net[0]? = some x ∧ x.kind = .result 0 0 ∧ s.job? x.asid = some j ∧ j.rounds.find? (fun r => r.tile == 0) = some r ∧ r.held = [] ∧
      (∀ b ∈ r.arrivals, FiringRuns s b) ∧ (r.arrivals.map RoundArrival.core).Nodup ∧ (last = true ↔ ∀ o ∈ j.tileModules r.entry, o = 0 ∨ o ∈ r.delivered) ∧
      (last = false ↔ ∃ o ∈ j.tileModules r.entry, o ≠ 0 ∧ o ∉ r.delivered)) ∧
    (∃ (s : State) (d : Module) (j : Job), s.module? 0 = some d ∧ d.mangleFailed = false ∧ s.job? 0 = some j ∧ j.openOn 0 = true ∧ j.lowestOn 0 = some 0) :=
  ⟨⟨fireState twoCores (2 ^ 160) [roundOf 0 (2 ^ 160) [ownArrival 0]] (.fire 0 (2 ^ 160) 0 [[(0, 5)]]), _, _, _, _, rfl, rfl, rfl, rfl, rfl, by decide, by decide, by decide⟩,
   ⟨farState [roundOf 0 (2 ^ 160) []], _, _, _, _, rfl, rfl, rfl, rfl, rfl, by decide, nofun, nofun, by decide, by decide, by decide, by decide, nofun, nofun⟩,
   fun b => match b with
    | true => ⟨fireState demoJob 0 [roundOf 0 0 [ownArrival 0]] (.result 0 0), _, _, _, rfl, rfl, rfl, rfl, rfl, (by
        intro b hb
        cases List.mem_singleton.1 hb
        exact running_firing _ _ _ _ rfl rfl nofun rfl), by decide, by decide, by decide⟩
    | false => ⟨fireState twoModules 0 [roundOf 0 (2 ^ 160) [ownArrival 0]] (.result 0 0), _, _, _, rfl, rfl, rfl, rfl, rfl, (by
        intro b hb
        cases List.mem_singleton.1 hb
        exact running_firing _ _ _ _ rfl rfl nofun rfl), by decide, by decide, by decide⟩,
   ⟨fireState demoJob 0 [roundOf 0 0 []] .doom, _, _, rfl, rfl, rfl, by decide, by decide⟩⟩

theorem witness_ServiceArguments :
    (∃ (s : State) (d : Module), ServiceDue s 0 1 d ∧ (sget d.svcarg 0).toNat / 2 ^ 14 ≠ 0 ∧ (sget d.svcarg 2).toNat = 4 ∧ s.job? ((sget d.svcarg 0).toNat % 2 ^ 14) ≠ none) ∧
    (∃ (s : State) (d : Module), ServiceDue s 0 4 d ∧ 1 < (sget d.svcarg 0).toNat ∧ (sget d.svcarg 1).toNat = 0xFFF000 ∧ (sget d.svcarg 2).toNat = 4096) :=
  ⟨⟨serving 1 [(0, 2 ^ 14), (2, 4)] demoJob, _, ⟨rfl, rfl, rfl⟩, by decide +kernel, by decide +kernel, by decide +kernel⟩,
   ⟨serving 4 [(0, 3), (1, 0xFFF000), (2, 4096)] demoJob, _, ⟨rfl, rfl, rfl⟩, by decide +kernel, by decide +kernel, by decide +kernel⟩⟩
theorem witness_PowerStates :
    (∃ (s : State) (d : Module) (c : Command) (e : Entry), s.module? 0 = some d ∧ risingFrom 0 s.jobs = true ∧ d.commands = [c] ∧ cmdKind c.bytes = 1 ∧ s.entry? 0 c.jsn = some e ∧ e.final = false ∧
      s.jobs = []) ∧
    (∃ (s : State) (d : Module) (c : CoreId), s.module? 0 = some d ∧ risingFrom 0 s.jobs = true ∧ coreModule c = 0 ∧ (s.patch c).perm = true) ∧ (∃ w e, 115 ≤ w ∧ e = Instr.thermalThrottle 0 w) :=
  ⟨⟨dueState 1 [] [], _, _, _, rfl, by decide, rfl, by decide, rfl, rfl, rfl⟩, ⟨withModule demo (fencedDie [(7, ⟨true, true, 4⟩)]), _, 7, rfl, by decide, by decide, by decide⟩, ⟨115, _, by decide, rfl⟩⟩

/-- Queue 0 holds one command with these bytes; the slot of the next JSN holds an entry that is not final. -/
def fullSlot (kind : Nat) (held : Dict Entry) (host : Memory) : State :=
  { withModule demo { demoModule with queues := [(0, { demoQueue with tail := 1 })], slots := [(1, ⟨1, 1, 0, kind, 0, 2, 0, 0, 0⟩)], jhead := 65537, heldTab := held } with host := host }
theorem witness_QueueEnds :
    (∃ d, (fetchState [(8, 1)] { demoQueue with qexp := 2 }).module? 0 = some d ∧ d.nextQueue = some 0 ∧ d.ready = true ∧ 1 < (d.queue 0).qexp ∧
      readMem (fetchState [(8, 1)] { demoQueue with qexp := 2 }).host 0 64 / 2 ^ 64 % 2 ^ 48 = 1 ∧ d.entryOf 0 1 = none) ∧
    (∀ b ∈ [(0, 0x40), (8, 0x40), (5, 0x41)], ∃ (s : State) (d : Module), s.module? 0 = some d ∧ d.nextQueue = some 0 ∧ d.ready = true ∧
      readMem s.host 0 64 / 2 ^ 64 % 2 ^ 48 = (d.queue 0).qexp ∧ badKind (readMem s.host 0 64) = some b.2 ∧ readMem s.host 0 64 % 2 ^ 8 = b.1) ∧
    (∀ kind ∈ [1, 2], ∃ (s : State) (d : Module) (e : Entry) (h : Nat), s.module? 0 = some d ∧ d.nextQueue = some 0 ∧ d.ready = true ∧ dget? d.slots (d.jhead % 65536) = some e ∧
      e.kind = kind ∧ e.final = false ∧ d.heldFor e = some h ∧ readMem s.host 0 64 / 2 ^ 64 % 2 ^ 48 = (d.queue 0).qexp ∧ badKind (readMem s.host 0 64) = none) :=
  ⟨⟨_, rfl, by decide, rfl, by decide, by decide, rfl⟩,
   fun b hb => by
    fin_cases hb
    exacts [⟨fetchState [(8, 1)] demoQueue, _, rfl, by decide, rfl, by decide, by decide, by decide⟩, ⟨fetchState [(0, 8), (8, 1)] demoQueue, _, rfl, by decide, rfl, by decide, by decide, by decide⟩,
      ⟨fetchState [(0, 5), (8, 1)] demoQueue, _, rfl, by decide, rfl, by decide, by decide, by decide⟩],
   fun b hb => by
    fin_cases hb
    exacts [⟨fullSlot 1 [] [(0, 7), (8, 1)], _, ⟨1, 1, 0, 1, 0, 2, 0, 0, 0⟩, 16384, rfl, by decide, rfl, rfl, rfl, rfl, by decide, by decide, by decide⟩,
      ⟨fullSlot 2 [] [(0, 7), (8, 1)], _, ⟨1, 1, 0, 2, 0, 2, 0, 0, 0⟩, 0, rfl, by decide, rfl, rfl, rfl, rfl, by decide, by decide, by decide⟩]⟩
/-- A job that a CANCEL finds idle while a bank that its pool's frames lie over is held. -/
def idleBusy : State := { bankedStage (tabled (heldJob none)) [(0, heldCore)] true with jobs := [(0, tabled (heldJob none))] }
theorem witness_Removals :
    (∃ (s : State) (d : Module), s.module? 1 = some d ∧ ¬ (tierOf 0x7FC0000000 = .cxl) ∧ 0 < 4096) ∧
    (∃ (s : State) (d : Module), s.module? 1 = some d ∧ tierOf 0x800000000000 = .cxl ∧ 0x800000000000 + 4096 ≤ 0xC00000000000 ∧
      ∀ r ∈ d.releasing, overlaps r.1 r.2 0x800000000000 4096 = false) ∧
    (∃ (s : State) (j : Job), s.waitingJob 0 1 = some (0, j) ∧ s.requestsDue 0 j = true) ∧
    (∃ (s : State) (j : Job), JobAt s 0 1 .staging 0 j ∧ s.requestsDue 0 j = true) ∧
    (∃ (s : State) (j : Job), JobAt s 0 1 .staging 0 j ∧ s.requestsDue 0 j = false ∧ s.imageBad j = true ∧ j.pending = [] ∧ s.endBusy j = false) :=
  ⟨⟨leaseState 0 [] [] [], _, rfl, by decide, by decide⟩, ⟨leaseState 0 [] [] [], _, rfl, by decide, by decide, nofun⟩,
   ⟨{ dueState 2 [] [] with jobs := [(0, { waitingDemo with jsn := 1 })] }, _, rfl, by decide⟩,
   ⟨{ dueState 2 [] [] with jobs := [(0, { placedDemo .staging [] with jsn := 1 })] }, _, ⟨rfl, rfl⟩, by decide⟩,
   ⟨{ stageState { placedDemo .staging [] with imgsize := 192 } [(0, heldCore)] with hostPoison := [hostBase / 4096] }, _, ⟨rfl, rfl⟩, by decide, by decide, rfl, by decide⟩⟩

/-- Position 9 holds the bank of module 0 with the last entry of a root table at 0. -/
def rootBusy (s : State) : State := s.modModule 0 fun d => { d with banks := [(63, ⟨0, 0, some 9, 0⟩)] }
theorem witness_EndWaits :
    (∃ s c j, CommandDue s 0 1 2 c ∧ ¬ BadFields c.bytes [1, 2, 3] ∧ LiveJob s 0 (c.bytes / 2 ^ 32 % 2 ^ 14) j ∧ j.stage = .staging ∧ s.endBusy j = true) ∧
    (∃ s c j, CommandDue s 0 1 2 c ∧ ¬ BadFields c.bytes [1, 2, 3] ∧ LiveJob s 0 (c.bytes / 2 ^ 32 % 2 ^ 14) j ∧ j.stage = .waiting ∧ j.pending = [] ∧ j.jsn ≠ 1 ∧
      (∃ e, s.entry? 0 j.jsn = some e ∧ e.final = false) ∧ s.endBusy j = false) ∧
    (∃ (s : State) (j : Job), JobAt s 0 1 .staging 0 j ∧ s.requestsDue 0 j = false ∧ s.imageBad j = true ∧ j.pending = [] ∧ s.endBusy j = true) ∧
    (∃ (s : State) (j : Job) (o : State × Option Nat), JobAt s 0 1 .staging 0 j ∧ s.requestsDue 0 j = false ∧ s.imageBad j = false ∧ j.pending = [] ∧
      s.stageAll 0 (j.readBodies s.host) (j.readBodies s.host).sections = o ∧ o.2.any (· ≠ 0) = true ∧ s.endBusy j = true) ∧
    (∃ (s : State) (j : Job), JobAt s 0 1 .runpfl 0 j ∧ s.requestsDue 0 j = false ∧ (∃ s', s.runEntries 0 j.runList = (s', some 0x42)) ∧ j.pending = [] ∧ s.endBusy j = true) :=
  ⟨⟨rootBusy (dueState 2 [(0, { liveJob with stage := .staging })] []), _, { liveJob with stage := .staging }, by
      refine ⟨rfl, _, ⟨1, 1, 0, 2, 0, 0, 0, 0, 0⟩, rfl, rfl, rfl, rfl⟩, by unfold BadFields; decide, ⟨rfl, rfl, by decide⟩, rfl, by decide⟩,
   ⟨_, _, { liveJob with stage := .waiting, rects := [] }, dueState_due 2 [(0, { liveJob with stage := .waiting, rects := [] })] [] 2 (by decide), by unfold BadFields; decide, ⟨rfl, rfl, by decide⟩, rfl, rfl, by decide, ⟨_, rfl, rfl⟩,
    by decide⟩,
   ⟨rootBusy { stageState { placedDemo .staging [] with imgsize := 192 } [(0, heldCore)] with hostPoison := [hostBase / 4096] }, _, ⟨rfl, rfl⟩, by decide, by decide, rfl, by decide⟩,
   ⟨rootBusy (stageState (placedDemo .staging [virtSection]) [(0, heldCore)]), _, _, ⟨rfl, rfl⟩, by decide, by decide, rfl, rfl, by decide +kernel, by decide⟩,
   ⟨rootBusy (stageState (placedDemo .runpfl [{ tcmSection with type := 4, runpfl := true, body := [] }]) [(0, heldCore)]), _, ⟨rfl, rfl⟩, by decide, withCause _ _ (by decide +kernel), rfl, by decide⟩⟩
/-- A load request between the modules of a job with an open round on their link. -/
theorem witness_LinkClauses :
    (∃ (s : State) (m : Msg) (k : Core) (j : Job), s.net[0]? = some m ∧ m.kind = .loadReq { core := 1024, space := .tcm, off := 0 } 8 0 ∧ s.core? m.src = some k ∧ m.ctx ≠ 11 ∧ k.open_ = true ∧
      s.jobs = [(k.asid, j)] ∧ m.asid = k.asid ∧ m.src / 1024 ≠ 1024 / 1024 ∧ j.openLink (m.src / 1024) 1 = true ∧ j.lowestOn (m.src / 1024) = some 0 ∧ j.lowestOn 1 = some 1) ∧
    (∀ hit ∈ [0, 0x0B], ∃ (s : State) (k : Core) (m : Cmd), s.core? 0 = some k ∧ k.headOf 1 = some m ∧ m.firing = none ∧ (∃ j, s.job? k.asid = some j) ∧ dKind m.d0 = 0x25 ∧
      m.hit = hit) ∧
    tierOf 0x800000000000 = .cxl ∧ tierOf hostBase = .host :=
  ⟨⟨{ demo with jobs := [(0, { twoModules with rounds := [roundOf 0 (2 ^ 160) []] })], net := [demoMsg (.loadReq { core := 1024, space := .tcm, off := 0 } 8 0)] }, _, _, _, rfl, rfl, rfl, by decide, rfl, rfl, rfl,
    by decide, by decide, by decide, by decide⟩,
   fun n hn => ⟨demoAt 0 [] { demoCore with q := [(1, [{ cmdOf 0x25 0 0 0 0 0 with hit := n }])] } demoJob [], _, _, rfl, rfl, rfl, ⟨_, rfl⟩, (show dKind (BitVec.ofNat 64 0x25) = 0x25 by decide), rfl⟩, by decide, by decide⟩

/-- A core of the spare position `n` of die 0 of module 0 with these roles, and a control state error there. -/
def spareState (roles : Dict Role) : State := withModule demo { demoModule with dies := [(0, { Die.reset 0 with roles := roles })] }
theorem witness_SoftErrors :
    (∀ p : Option Nat, ∃ (s : State) (k : Core) (l : LaneOp), s.core? 0 = some k ∧ k.lanes.find? (fun l => l.seq = 0) = some l ∧ l.flags &&& l.enabled = 0 ∧ l.poison = p) ∧
    (∃ (s : State) (k : Core) (j : Job) (e : LateTrap), s.core? 0 = some k ∧ s.job? k.asid = some j ∧ k.inService = false ∧ k.active = true ∧ (∀ x ∈ k.ctxs, x.2.entry = none) ∧ j.handler ≠ 0 ∧
      e.cause ≠ 0x0A ∧ (k.ctx 0).level = .job ∧ (∀ w, (k.ctx 0).wait = some w → w.held = false) ∧ (k.ctx 0).late = [e] ∧ ∀ m ∈ s.net, ¬ (m.src = 0 ∧ m.ctx = 0)) ∧
    (∃ (s : State) (k : Core) (j : Job), 0 < 2 ^ 20 ∧ s.core? 0 = some k ∧ s.job? k.asid = some j ∧ j.verdict = none) ∧
    (∃ (s : State) (k : Core) (j : Job) (v : Verdict), 0 < 2 ^ 20 ∧ s.core? 0 = some k ∧ s.job? k.asid = some j ∧ j.verdict = some v ∧ v.commit = false ∧ 0 ∈ j.places ∧ (s.patch 0).fenced = false) ∧
    (∃ (s : State) (k : Core) (l : LaneOp), s.core? 0 = some k ∧ k.open_ = true ∧ k.stopped = false ∧ (∀ x, (k.ctx x).level ≠ .firmware) ∧ l ∈ k.lanes ∧ l.ctx = 0) ∧
    (∃ (s : State) (k : Core), s.core? 0 = some k ∧ k.open_ = true ∧ k.stopped = false ∧ (∀ x, (k.ctx x).level ≠ .firmware) ∧ ∀ q ∈ [0, 1, 2, 3], ∀ m, k.headOf q = some m → m.ctx ≠ 0) ∧
    (∀ firing, ∃ (s : State) (k : Core) (m : Cmd), s.core? 0 = some k ∧ (∀ l ∈ k.lanes, l.ctx ≠ 0) ∧ k.headOf 1 = some m ∧ m.ctx = 0 ∧ (∀ p, p < 1 → ∀ x, k.headOf p = some x → x.ctx ≠ 0) ∧ m.hit = 0 ∧
      m.firing = firing) ∧
    (∀ v : Option Verdict, ∃ (s : State) (j : Job), s.job? 0 = some j ∧ j.wdog < j.ran s.clock ∧ j.stage = .running ∧ j.held = false ∧ j.endCause = some 0x04 ∧ j.verdict = v) ∧
    (∃ (s : State) (j : Job), s.job? 0 = some j ∧ j.endCause = some 0x0F) :=
  ⟨fun p => ⟨withCore { demoCore with lanes := [{ aLane with flags := 0, fault := none, poison := p }] }, _, { aLane with flags := 0, fault := none, poison := p }, rfl, rfl, (show (0 : BitVec 7) &&& 0 = 0 by decide), rfl⟩,
   ⟨demoOf { demoCtx with late := [⟨0x04, 0, 0, 0, false⟩] }, _, _, _, rfl, rfl, by decide, rfl, by decide, by decide, by decide, rfl, nofun, rfl, fun _ h => (List.not_mem_nil h).elim⟩,
   ⟨demo, _, _, by decide, rfl, rfl, rfl⟩, ⟨demoAt 0 [(0, demoCtx)] demoCore { demoJob with verdict := some (aVerdict false) } [], _, _, _, by decide, rfl, rfl, rfl, rfl, by decide, by decide⟩,
   ⟨demoAt 0 [] { demoCore with lanes := [aLane] } demoJob [], _, aLane, rfl, rfl, rfl, nofun, .head _, rfl⟩,
   ⟨demoAt 0 [] demoCore demoJob [], _, rfl, rfl, rfl, nofun, by decide⟩,
   fun f => ⟨demoAt 0 [(0, demoCtx)] { demoCore with q := [(1, [{ cmdOf 0x23 0 0 0 0 0 with firing := f }])] } demoJob [], _, _, rfl, fun _ h => (List.not_mem_nil h).elim, rfl, rfl,
     fun p hp x h => by cases p with | zero => cases h | succ p => omega, rfl, rfl⟩,
   fun v => ⟨{ demoAt 0 [(0, demoCtx)] demoCore { demoJob with wdog := 5, wdFrom := some 0, endCause := some 0x04, verdict := v } [] with clock := 6 }, _, rfl, by simp [Job.ran], rfl, rfl, rfl, rfl⟩,
   ⟨demoAt 0 [(0, demoCtx)] demoCore { demoJob with endCause := some 0x0F } [], _, rfl, rfl⟩⟩
theorem witness_SpareFailures :
    ∀ (r : Role) (other : Dict Role), other.isEmpty ∨ other = [(5, .standby)] → ∃ (s : State) (d : Module) (die : Die), s.module? (0 / 1024) = some d ∧ dget? d.dies (0 / 256 % 4) = some die ∧
      risingFrom 0 die.roles = true ∧ dget? die.roles (quadIn 0) = some r ∧ (other.isEmpty → r ≠ .standby → ∀ x, dget? die.roles x ≠ some .standby) ∧
      (other = [(5, .standby)] → ∃ x, dget? die.roles x = some .standby) ∧ d.events.length < 256 := by
  rintro r other (h | rfl)
  · have : other = [] := by simpa using h
    subst this
    refine ⟨spareState [(0, r)], _, _, rfl, rfl, rfl, rfl, fun _ hr x => ?_, nofun, Nat.zero_lt_succ _⟩
    by_cases hx : x = 0
    · subst hx
      exact fun e => hr (by simpa [dget?] using e)
    · rw [show dget? [((0 : Nat), r)] x = none by simp [dget?, hx]]
      nofun
  · exact ⟨spareState [(0, r), (5, .standby)], _, _, rfl, rfl, rfl, rfl, nofun, fun _ => ⟨5, rfl⟩, Nat.zero_lt_succ _⟩

/-- `ACCST` of two rows of 64 words to an address of the scratchpad or elsewhere. -/
def twoRows (a : Word) : Cmd := cmdOf 4 0 (2 ^ 54 + 8 * 2 ^ 32) 0 0 a
def struck (m : Cmd) : Cmd := { m with hit := 0x0B }
theorem two_rows {P : Nat → Prop} (h0 : P 0) (h1 : P 1) : ∀ i, i < 2 → P i
  | 0, _ => h0
  | 1, _ => h1
  | n + 2, h => absurd h (by omega)
theorem witness_AccstStores :
    (∃ (s : State) (k : Core) (m : Cmd) (j : Job), HeadAt s 0 0 0x04 k m j ∧ m.a2.toNat / 2 ^ 36 ≠ 2 ^ 25 ∧ ¬ (m.a2.toNat / 2 ^ 36 = 0 ∨ m.a2.toNat / 2 ^ 36 = 2 ^ 24)) ∧
    (∃ (s : State) (k : Core) (m : Cmd) (j : Job), HeadAt s 0 0 0x04 k m j ∧ m.a2.toNat / 2 ^ 36 = 2 ^ 24 ∧ m.a2.toNat % 32 ≠ 0) ∧
    (∀ hit, ∃ (s : State) (k : Core) (m : Cmd) (j : Job), HeadAt s 0 0 0x04 k m j ∧ m.a2.toNat / 2 ^ 36 = 2 ^ 24 ∧ m.a2.toNat % 32 = 0 ∧ 64 * storedWidth m ≤ 32 * tStride m.d2 ∧ tRows m.d2 + 1 = 2 ∧
      (∀ x ∈ s.net, ∀ n d, s.eagerOver x 0 m.ctx d n = false) ∧ (∀ i, i < 2 → RowGood j m i) ∧ m.hit = hit) ∧
    (∃ (s : State) (k : Core) (m : Cmd) (j : Job), HeadAt s 0 0 0x04 k m j ∧ m.a2.toNat / 2 ^ 36 = 2 ^ 24 ∧ m.a2.toNat % 32 = 0 ∧ 64 * storedWidth m ≤ 32 * tStride m.d2 ∧ tRows m.d2 + 1 = 2 ∧
      (∀ x ∈ s.net, ∀ n d, s.eagerOver x 0 m.ctx d n = false) ∧ (∀ h, h < 1 → RowGood j m h) ∧ ¬ RowGood j m 1 ∧ m.hit = 0) ∧
    (∃ (s : State) (k : Core) (m : Cmd) (j : Job), HeadAt s 0 0 0x04 k m j ∧ m.a2.toNat / 2 ^ 36 = 2 ^ 25 ∧ m.a2.toNat % 32 = 0 ∧ tRows m.d2 + 1 = 2 ∧ (∀ i, i < 2 → RowGood j m i) ∧ m.hit = 0) :=
  ⟨⟨withCmd 0 (twoRows (virt 0)), _, _, _, ⟨rfl, rfl, rfl⟩, by decide, by decide⟩, ⟨withCmd 0 (twoRows (qspAddr 8)), _, _, _, ⟨rfl, rfl, rfl⟩, by decide, by decide⟩,
   fun h => ⟨withCmd 0 { twoRows (qspAddr (0x340000 - 512)) with hit := h }, _, _, _, ⟨rfl, rfl, rfl⟩,
     show (twoRows (qspAddr (0x340000 - 512))).a2.toNat / 2 ^ 36 = 2 ^ 24 by decide, show (twoRows (qspAddr (0x340000 - 512))).a2.toNat % 32 = 0 by decide,
     show 64 * storedWidth (twoRows 0) ≤ 32 * tStride (twoRows 0).d2 by decide, show tRows (twoRows 0).d2 + 1 = 2 by decide, fun _ h => (List.not_mem_nil h).elim,
     show ∀ i, i < 2 → RowGood demoJob (twoRows (qspAddr (0x340000 - 512))) i from two_rows (by unfold RowGood; decide) (by unfold RowGood; decide), rfl⟩,
   ⟨withCmd 0 (twoRows (qspAddr (0x340000 - 480))), _, _, _, ⟨rfl, rfl, rfl⟩, by decide, by decide, by decide, by decide, fun _ h => (List.not_mem_nil h).elim,
    fun h hh => by rw [Nat.lt_one_iff.1 hh]; unfold RowGood; decide, by unfold RowGood; decide, rfl⟩,
   ⟨withCmd 0 (twoRows (dssAddr 0x1000)), _, _, _, ⟨rfl, rfl, rfl⟩, by decide, by decide, by decide, two_rows (by unfold RowGood; decide) (by unfold RowGood; decide), rfl⟩⟩
theorem witness_StruckCommands :
    (∀ kind ∈ [0x01, 0x02], ∃ (s : State) (k : Core) (m : Cmd) (j : Job), HeadStruck s 0 0 kind k m j ∧ dGanged m.d0 = false ∧
      firstCause [operandCause j m.a1 (productOf k m m).aOffs (productOf k m m).aBytes, operandCause j m.a2 (productOf k m m).bOffs (productOf k m m).bBytes] = none) ∧
    (∃ (s : State) (k : Core) (m : Cmd) (j : Job), HeadStruck s 0 0 0x03 k m j ∧ firstCause [operandCause j m.a2 (d2Offs m) 256] = none) ∧
    (∃ (s : State) (k : Core) (m : Cmd) (j : Job), HeadStruck s 0 0 0x05 k m j) ∧
    (∃ (s : State) (k : Core) (m : Cmd) (j : Job) (l : List (CoreId × Core × Cmd)), HeadStruck s 0 0 0x06 k m j ∧ s.jointOf 0 k m = some l ∧ jointAgrees l = true ∧ l.length = 2) ∧
    (∃ (s : State) (k : Core) (m : Cmd) (j : Job), HeadStruck s 0 1 0x20 k m j ∧ tRows m.d1 = 0 ∧ m.d3.getLsbD 49 = false ∧ 32 = 32 * (m.d3.toNat % 2 ^ 16 + 1) ∧
      basesCause [([0, 1, 2, 4, 5, 8], m.a1), ([0, 1, 2, 4, 5, 8], m.a2)] = none ∧ ∃ t, s.draw.2.copyRow ⟨0, k, j, m⟩ m.a1 0 m.a2 0 32 = .ok t ∧ true = true) ∧
    (∃ (s : State) (k : Core) (m : Cmd) (j : Job) (l : List (CoreId × Core × Cmd)), HeadAt s 0 0 0x01 k m j ∧ s.jointOf 0 k m = some l ∧ jointAgrees l = true ∧ (0, k, m) ∈ l ∧ l.length = 2 ∧ m.hit ≠ 0) ∧
    (∃ (s : State) (k : Core) (m : Cmd) (j : Job), HeadStruck s 0 0 0x07 k m j ∧ ∀ u ∈ m.before, ∀ x ∈ k.commands, x.uid ≠ u) ∧
    (∃ (s : State) (k : Core) (m : Cmd) (j : Job), HeadStruck s 0 2 0x08 k m j) ∧
    (∀ n hit, ∃ (s : State) (k : Core) (m : Cmd) (j : Job), HeadAt s 0 3 0x40 k m j ∧ m.seen ≠ none ∧ m.stage ≠ .queued ∧ m.outstanding = n ∧ m.hit = hit) :=
  ⟨fun n hn => by
    rcases List.mem_pair.1 hn with rfl | rfl
    exacts [⟨withCmd 0 (struck (cmdOf 0x501 0 0 0 0 4096)), _, _, _, ⟨⟨rfl, rfl, rfl⟩, by decide, fun _ => rfl⟩, by decide, by decide +kernel⟩,
      ⟨withCmd 0 (struck (cmdOf 0x502 0 0 0 0 4096)), _, _, _, ⟨⟨rfl, rfl, rfl⟩, by decide, fun _ => rfl⟩, by decide, by decide +kernel⟩],
   ⟨withCmd 0 (struck (cmdOf 3 0 0 0 0 0)), _, _, _, ⟨⟨rfl, rfl, rfl⟩, by decide, fun _ => rfl⟩, by decide⟩, ⟨withCmd 0 (struck (cmdOf 5 0 0 7 0 0)), _, _, _, ⟨⟨rfl, rfl, rfl⟩, by decide, fun _ => rfl⟩⟩,
   ⟨{ withCore (openGang (struck (crossOf 1))) with cores := [(0, openGang (struck (crossOf 1))), (1, openGang (crossOf 1))] }, _, struck (crossOf 1), demoJob, _, ⟨⟨rfl, rfl, rfl⟩, by decide, unraced_other (by decide)⟩, rfl, by decide +kernel, rfl⟩,
   ⟨withCmd 1 (struck (cmdOf 0x20 0 0 0 0 (qspAddr 64))), _, _, _, ⟨⟨rfl, rfl, rfl⟩, by decide, fun _ => rfl⟩, by decide, by decide, by decide, by decide, ok_of _ (fun _ => true) (by decide +kernel)⟩,
   ⟨{ withCore (openGang (struck (gangProduct 0x501))) with cores := [(0, openGang (struck (gangProduct 0x501))), (1, openGang (gangProduct 0x501))] }, _, struck (gangProduct 0x501), demoJob, _, ⟨rfl, rfl, rfl⟩, rfl,
    by decide +kernel, .head _, rfl, by decide⟩,
   ⟨withCmd 0 (struck (cmdOf 7 0 0 0 0 0)), _, _, _, ⟨⟨rfl, rfl, rfl⟩, by decide, fun _ => rfl⟩, fun _ h => (List.not_mem_nil h).elim⟩,
   ⟨withCmd 2 (struck (cmdOf 8 0 0 0 0 0)), _, _, _, ⟨⟨rfl, rfl, rfl⟩, by decide, fun _ => rfl⟩⟩,
   fun n h => ⟨withCmd 3 { cmdOf 0x40 0 0 0 0 0 with stage := .running, outstanding := n, hit := h }, _, _, _, ⟨rfl, rfl, rfl⟩, nofun, nofun, rfl, rfl⟩⟩
/-- The bytes of the list entry of `fetchMem`, and its staged read, by the command with number 4. -/
def fetchBytes : Nat := 2 ^ 63 + 32 * 2 ^ 64 + 64 * 2 ^ 128
def readBy4 (poison : Option Nat) : Staged := ⟨0, 0, 32, 64, 0, false, none, poison, [(0, 1)], true, some 4⟩
theorem witness_ListFetches :
    (∀ next, ∃ (s : State) (k : Core) (m : Cmd) (j : Job), HeadDue s 0 1 0x21 k m j ∧ m.stage = .queued ∧ m.list = [] ∧ m.progress = 0 ∧ tRows m.d1 = 0 ∧ basesCause [([0, 1, 2], m.a1)] = none ∧
      (∃ f, s.fetchAt ⟨0, k, j, m⟩ 0 = .ok f ∧ fetchGood s ⟨0, k, j, m⟩ f next = true) ∧ j.reading k.index m.uid = none ∧ RowAt s 0 k j 64 32) ∧
    (∀ pa, ∃ (s : State) (k : Core) (m : Cmd) (j : Job) (g : Staged), HeadDue s 0 1 0x21 k m j ∧ m.stage = .running ∧ m.list[0]? = some fetchBytes ∧ m.progress = 0 ∧ tRows m.d1 = 0 ∧
      basesCause [([0, 1, 2], m.a1)] = none ∧ fetchCause ⟨0, k, j, m⟩ (fetchOf fetchBytes) = none ∧ (fetchOf fetchBytes).next = false ∧
      (j.reading k.index m.uid).or (j.claimable k.index (fetchOf fetchBytes)) = some 0 ∧ j.staged[0]? = some g ∧ g.poison = pa ∧ (fetchOf fetchBytes).signal = false ∧
      RowAt s 0 k j (fetchOf fetchBytes).dest (fetchOf fetchBytes).len) :=
  ⟨fun next => match next with
    | true => ⟨overTables (cmdOf 0x21 0 0 0 0 0) (fetchMem true), _, _, _, ⟨⟨rfl, rfl, rfl⟩, rfl, fun _ => rfl⟩, rfl, rfl, rfl, by decide, by decide, ok_of _ _ (by decide +kernel), by decide, by unfold RowAt; decide +kernel⟩
    | false => ⟨overTables (cmdOf 0x21 0 0 0 0 0) (fetchMem false), _, _, _, ⟨⟨rfl, rfl, rfl⟩, rfl, fun _ => rfl⟩, rfl, rfl, rfl, by decide, by decide, ok_of _ _ (by decide +kernel), by decide, by unfold RowAt; decide +kernel⟩,
   fun pa => ⟨begun (demoAt 0 [] { demoCore with q := [(1, [{ cmdOf 0x21 0 0 0 0 0 with stage := .running, list := [fetchBytes] }])] } { demoJob with staged := [readBy4 pa] } []), _, _, _, readBy4 pa, ⟨⟨rfl, rfl, rfl⟩, rfl, fun _ => rfl⟩, rfl, rfl, rfl,
    show tRows 0 = 0 by decide, show basesCause [([0, 1, 2], 0)] = none by decide, rfl, show (fetchOf fetchBytes).next = false by decide, rfl, rfl, rfl, show (fetchOf fetchBytes).signal = false by decide,
    ⟨.inl rfl, rfl, (show addrOff (fetchOf fetchBytes).dest + (fetchOf fetchBytes).len ≤ demoJob.limitOf (spaceOfForm (fetchOf fetchBytes).dest) by decide), rfl, rfl, rfl⟩⟩⟩

theorem witness_VotesDiffer :
    ∃ (s : State) (j : Job) (v0 u : Vote), BarrierAt s 0 0 (.vote commitVote 1) j ∧ j.verdict = none ∧ j.proxies = [] ∧ 0 < j.n ∧
      (let j' := { j with votes := j.votes ++ [takenVote s j commitVote 1] }
       (∀ i, i < j.n → s.voteIn j' i = true) ∧ (∀ x ∈ j'.votes, x.abort = false) ∧ j'.voteOf 0 = some v0 ∧ u ∈ j'.votes ∧ u.op ≠ v0.op ∧ ∀ x ∈ j'.votes, x.op ≠ v0.op → u.index ≤ x.index) :=
  ⟨voting { twoCores with votes := [{ commitVote with index := 1, op := 1 }] } (.vote commitVote 1), _, commitVote, { commitVote with index := 1, op := 1 }, ⟨_, rfl, rfl, rfl, rfl⟩, rfl, rfl, by decide,
    by decide, by decide, rfl, .head _, by decide, by decide⟩
/-- A core whose rollback is due on a die with these patches and roles. -/
def rollingOn (l : Dict Patch) (roles : Dict Role) (p : Dict Pos) : State :=
  { alone demoJob (phaseCore .rolling) with
    modules := [(0, { demoModule with dies := [(0, { Die.reset 0 with patches := l, roles := roles })] })], positions := p, cores := [(0, phaseCore .rolling), (1, { demoCore with asid := 1 })] }
theorem witness_Rollbacks :
    (∀ ring : Bool, ∃ (s : State) (x : Msg) (k : Core) (z : Ctx), s.net[0]? = some x ∧ s.core? x.src = some k ∧ x.kind = .doom ∧ k.dead = false ∧ k.asid = x.asid ∧ k.open_ = true ∧ k.ctxs = [(0, z)] ∧
      z.wait = if ring then some (.ringPush 0 (cmdOf 5 0 0 0 0 0) (some (3, 7))) else some (.push 0 (cmdOf 5 0 0 0 0 0) (some (3, 7)))) ∧
    (∃ (s : State) (k : Core) (j : Job) (e : Staged), s.core? 0 = some k ∧ s.job? k.asid = some j ∧ k.phase = .rolling ∧
      (∀ d ∈ j.places, ∀ x, s.core? d = some x → x.phase = .rolling ∨ x.phase = .rolled) ∧ k.dead = false ∧ (s.patch 0).fenced = false ∧ j.staged = [e] ∧ e.reader = some 4 ∧ e.index = k.index) ∧
    (∀ r : Role, ∃ (s : State) (k : Core) (j : Job) (d : Module) (die : Die), s.core? 0 = some k ∧ s.job? k.asid = some j ∧ k.phase = .rolling ∧
      (∀ d ∈ j.places, ∀ x, s.core? d = some x → x.phase = .rolling ∨ x.phase = .rolled) ∧ (s.patch 0).fenced = true ∧ s.module? (coreModule 0) = some d ∧ dget? d.dies (coreDie 0 % 4) = some die ∧
      dget? die.roles (quadIn 0) = some r ∧ ∀ x, ¬ Earlier s 0 x) ∧
    (∃ s : State, Earlier s 0 1 ∧ (s.patch 0).fenced = true) :=
  ⟨fun ring => match ring with
    | true => ⟨demoAt 0 [(0, { demoCtx with wait := some (.ringPush 0 (cmdOf 5 0 0 0 0 0) (some (3, 7))) })] demoCore demoJob [demoMsg .doom], _, _, _, rfl, rfl, rfl, rfl, rfl, rfl, rfl, rfl⟩
    | false => ⟨demoAt 0 [(0, { demoCtx with wait := some (.push 0 (cmdOf 5 0 0 0 0 0) (some (3, 7))) })] demoCore demoJob [demoMsg .doom], _, _, _, rfl, rfl, rfl, rfl, rfl, rfl, rfl, rfl⟩,
   ⟨alone { demoJob with staged := [readBy4 none] } (phaseCore .rolling), _, _, readBy4 none, rfl, rfl, rfl, demo_only _ (fun _ x => x.phase = .rolling ∨ x.phase = .rolled) (by decide) (.inl rfl), rfl, by decide, rfl, rfl, rfl⟩,
   fun r => ⟨rollingOn [(0, ⟨true, false, 0⟩)] [(0, r)] [], _, _, _, _, rfl, rfl, rfl, by
      intro d hd x hx
      cases List.mem_singleton.1 ((show demoJob.places = [0] by decide) ▸ hd)
      cases hx
      exact .inl rfl, rfl, rfl, rfl, rfl, fun x h => by
      have := h.2.2.2.2.2.2
      simp [rollingOn, State.pos, dgetD, dget?, Pos.reset] at this⟩,
   ⟨rollingOn [(0, ⟨true, false, 0⟩), (1, ⟨true, false, 1⟩)] [] [(0, { Pos.reset with fencedAt := 2 }), (1, { Pos.reset with fencedAt := 1 })], by unfold Earlier; decide, by decide⟩⟩
theorem witness_BoundaryWaits :
    (∃ (s : State) (j : Job) (v : Verdict), s.job? 0 = some j ∧ j.verdict = some v ∧ s.boundaryReached j = true ∧ s.requestsDue 0 j = false ∧ j.endCause = some 4 ∧ s.endBusy j = true) ∧
    (∃ (s : State) (k : Core) (j : Job) (w : WriteOut), s.core? 0 = some k ∧ s.job? k.asid = some j ∧ k.phase = .applied ∧ k.writeOuts = [w] ∧ tierOf w.pa = .hbm ∧
      s.bankBusyOver (coreModule 0) w.pa w.n (some 0) = false ∧ s.tablesBusy (coreModule 0) j.root w.va (some 0) = false) ∧
    (∃ (s : State) (j : Job) (d : Module), s.job? 0 = some j ∧ j.stage = .running ∧ j.held = true ∧ 0 ∈ j.modules ∧ s.module? 0 = some d ∧ d.mangleFailed = true) ∧
    (∃ s : State, ∃ e ∈ s.jobs, e.2.home = 0 ∧ e.2.idle = true ∧ e.2.stage ≠ .retiring ∧ s.endBusy e.2 = true) ∧
    (∃ (s : State) (d : Module), s.module? 0 = some d ∧ risingFrom 0 s.jobs = true ∧ s.jobs ≠ [] ∧ ∀ e ∈ s.jobs, e.2.home = 0 ∨ 0 ∈ e.2.modules → e.2.idle = true → s.endBusy e.2 = false) ∧
    State.reset.hostWf :=
  ⟨⟨rootBusy (alone { demoJob with verdict := some (aVerdict true), endCause := some 4 } (phaseCore .applied)), _, aVerdict true, rfl, rfl, by decide, by decide, rfl, by decide⟩,
   ⟨bankedStage demoJob [(0, { phaseCore .applied with writeOuts := [⟨0, 0x10000, 32, 5, none⟩] })] false, _, demoJob, _, rfl, rfl, rfl, rfl, by decide, by decide +kernel, by decide +kernel⟩,
   ⟨withModule (alone (heldJob none) heldCore) { demoModule with mangleFailed := true }, _, _, rfl, rfl, rfl, by decide, rfl, rfl⟩,
   ⟨rootBusy (alone (heldJob none) heldCore), _, .head _, rfl, by decide, by decide, by decide⟩,
   ⟨alone (heldJob none) heldCore, _, rfl, by decide, nofun, by decide⟩, by unfold State.hostWf; decide⟩
/-- Position 1 is fenced and appeals, its first heartbeat in period `b`; position 0 has heard its south neighbour. -/
def appealState (b : Option Nat) (rejections : Nat) : State :=
  { beatState 1024 [(0, { Pos.reset with heard := [2] }), (1, { Pos.reset with appealing := true, firstBeat := b, rejections := rejections })] [] with
    modules := [(0, fencedDie [(1, ⟨true, false, 1⟩)])] }
theorem witness_Appeals :
    ∀ b : Option Nat, ∀ n : Nat, ∃ (s : State) (t : Nat), BeatIs s 0 t ∧ t = 1 ∧ t ≠ (s.pos 0).lastCheck ∧ s.beats 0 = true ∧ (s.patch 0).fenced = false ∧ neighbour 0 1 = some 1 ∧
      (s.patch 1).fenced = true ∧ (s.pos 1).appealing = true ∧ (∀ h, h < 4 → h ≠ 1 → QuietSide s 0 h ∧ Calm s 0 h) ∧ Calm s 0 1 ∧ (s.pos 1).firstBeat = b ∧ (s.pos 0).heard.contains 1 = false ∧
      (s.pos 1).rejections = n :=
  fun b n => ⟨appealState b n, 1, ⟨_, rfl, show 1 = (1024 - 0) / max 256 (Pos.reset.hbperiod.toNat % 2 ^ 16) by decide⟩, rfl, by show (1 : Nat) ≠ 0; decide, rfl, rfl, rfl, rfl, rfl, (by
      intro h h1 h2
      refine ⟨fun d hd => ?_, by unfold Calm; exact Nat.zero_le _⟩
      match h with
      | 0 => cases hd
      | 1 => exact absurd rfl h2
      | 2 => cases hd; exact ⟨rfl, .inr ⟨rfl, rfl⟩⟩
      | 3 => cases hd), by unfold Calm; exact Nat.zero_le _, rfl, rfl, rfl⟩
theorem witness_FailedMangles :
    (∃ (s : State) (x : Msg) (j : Job) (k : Core), s.net[0]? = some x ∧ x.kind = .fire 0 0 0 [[(0, 5)]] ∧ s.job? x.asid = some j ∧ s.core? x.src = some k ∧ (∀ r ∈ j.rounds, r.tile ≠ 0) ∧
      j.byGateway 0 (coreModule x.src) = false ∧ (∃ d, s.module? (coreModule x.src) = some d ∧ d.mangleFailed = true) ∧ j.lowestOn (coreModule x.src) = some 0) ∧
    (∃ (s : State) (j : Job), s.job? 0 = some j ∧ s.mangleDown j 0 0 = false) :=
  ⟨⟨withModule (mayFire []) { demoModule with mangleFailed := true }, _, _, _, rfl, rfl, rfl, rfl, nofun, by decide, ⟨_, rfl, rfl⟩, by decide⟩, ⟨mayFire [], _, rfl, by decide⟩⟩

/-- Clauses of one step each: an episode with a fenced participant, and a BARAW at core scope. -/
theorem witness_FencedEpisodes :
    (∀ sc ∈ [1, 3], ∃ (s : State) (j : Job) (e : Episode), s.job? 0 = some j ∧ e ∈ j.episodes ∧ e.done = none ∧ (s.patch 0).fenced = true ∧ e.scope = sc ∧ e.arrivals ≠ [] ∧
      (e.scope = 1 ∧ e.extent = 0 ∨ e.scope ≠ 1 ∧ 0 ∈ j.places ∧ extentOf e.scope 0 = e.extent)) ∧ (demo.patch 0).fenced = false := by
  refine ⟨fun sc h => ⟨withModule (demoAt 0 [(0, demoCtx)] demoCore { demoJob with episodes := [{ dieEpisode [⟨0, 0, 0, 5⟩] none false with scope := sc }] } []) (fencedDie [(0, ⟨true, false, 0⟩)]), _,
    { dieEpisode [⟨0, 0, 0, 5⟩] none false with scope := sc }, rfl, .head _, rfl, rfl, rfl, nofun, ?_⟩, by decide⟩
  fin_cases h <;> decide
/-- A job 0 that waits, asked for by the yield of job 1. -/
theorem witness_Withdrawals :
    (∃ (s : State) (w j : Job), s.waitingJob 0 1 = some (0, w) ∧ w.parked = none ∧ s.requestsDue 0 w = false ∧ s.job? 1 = some j ∧ j.yieldTo = some (w.home, w.jsn) ∧
      (∃ p, s.findPlace w = some p ∧ true = true) ∧ ∀ e ∈ s.jobs, e.2.stage = .waiting → e.2.before w = true → s.findPlace e.2 = none) ∧
    ((tableState true []).walk 0 0 0x10000 0x80000000 = .fault 0x09 0 ∧ (tableState true []).walkBusy 0 0x10000 0x80000000 = false) ∧
    ∃ e entry, (tableState false []).walk 0 0 0x10000 0 = .leaf e entry ∧ (!e.write && decide (entry / 2 ^ 62 % 4 ≠ 3)) = true :=
  ⟨⟨{ stageState waitingDemo [] with jobs := [(0, waitingDemo), (1, { demoJob with jsn := 2, yieldTo := some (0, 1) })] }, waitingDemo, _, by decide +kernel, rfl, by decide, rfl, rfl,
      some_of _ (fun _ => true) (by decide +kernel), by decide +kernel⟩, ⟨by decide +kernel, by decide +kernel⟩, leaf_of _ _ (by decide +kernel)⟩
/-- A job on two modules with an open round that both take part in. -/
def openJob : Job := { twoModules with rounds := [roundOf 0 (2 ^ 160) []] }
/-- An answer that position 1024 sends to position 0 on a link with an open round; messages of a hub, of a core that is gone and of a stopped one for the closing barrier. -/
theorem witness_LinkAnswers :
    (∀ kind ∈ [MsgKind.response 5, .poisoned 0, .orderBad, .returned true 0, .returned false 0, .eagerAck], ∃ (s : State) (m : Msg) (k : Core) (j : Job), s.net[0]? = some m ∧ s.core? m.src = some k ∧
      m.ctx ≠ 11 ∧ m.kind = kind ∧ m.home = some 1024 ∧ s.jobs = [(k.asid, j)] ∧ m.asid = k.asid ∧ m.src / 1024 ≠ 1024 / 1024 ∧ j.openLink (m.src / 1024) (1024 / 1024) = true ∧
      j.lowestOn (m.src / 1024) = some 0 ∧ j.lowestOn (1024 / 1024) = some 1) ∧
    (∀ h : Fin 3, ∃ (s : State) (m : Msg), s.net[0]? = some m ∧ m.kind = .further abortVote ∧ (∀ e ∈ s.jobs, e.2.rounds = []) ∧
      match h with
      | 0 => m.ctx = 11
      | 1 => s.core? m.src = none
      | 2 => ∃ k, s.core? m.src = some k ∧ k.dead = true) ∧
    (∃ (s : State) (x : Msg) (j : Job) (r : Round), s.net[0]? = some x ∧ x.kind = .result 0 0 ∧ s.job? x.asid = some j ∧ j.rounds.find? (fun r => r.tile == 0) = some r ∧ s.mangleDown j r.entry 0 = true) ∧
    (∃ (s : State) (x : Msg) (j : Job) (r : Round), s.net[0]? = some x ∧ x.kind = .result 0 0 ∧ s.job? x.asid = some j ∧ j.rounds.find? (fun r => r.tile == 0) = some r ∧ s.mangleDown j r.entry 0 = false ∧
      r.held = [] ∧ (∀ b ∈ r.arrivals, FiringRuns s b) ∧ (r.arrivals.map RoundArrival.core).Nodup ∧ ∀ o ∈ j.tileModules r.entry, o = 0 ∨ o ∈ r.delivered) := by
  have none_open : ∀ e ∈ [((0 : Nat), demoJob)], e.2.rounds = [] := by rintro e h; cases List.mem_singleton.1 h; rfl
  have link : openJob.openLink (0 / 1024) (1024 / 1024) = true ∧ openJob.lowestOn (0 / 1024) = some 0 ∧ openJob.lowestOn (1024 / 1024) = some 1 := by decide
  refine ⟨fun kind h => ⟨{ demo with jobs := [(0, openJob)], net := [{ demoMsg kind with home := some 1024 }] }, { demoMsg kind with home := some 1024 }, _, openJob, rfl, rfl, nofun, rfl, rfl, rfl, rfl,
      (show (0 : Nat) / 1024 ≠ 1024 / 1024 by decide), link.1, link.2.1, link.2.2⟩, fun h => ?_,
    ⟨withModule (fireState demoJob 0 [roundOf 0 0 [ownArrival 0]] (.result 0 0)) { demoModule with mangleFailed := true }, _, _, _, rfl, rfl, rfl, rfl, by decide⟩,
    ⟨fireState demoJob 0 [roundOf 0 0 [ownArrival 0]] (.result 0 0), _, _, _, rfl, rfl, rfl, rfl, by decide, rfl, ?_, by decide, by decide⟩⟩
  · match h with
    | 0 => exact ⟨voting demoJob (.further abortVote) |> fun s => { s with net := [{ demoMsg (.further abortVote) with ctx := 11 }] }, _, rfl, rfl, none_open, rfl⟩
    | 1 => exact ⟨{ voting demoJob (.further abortVote) with cores := [] }, _, rfl, rfl, none_open, rfl⟩
    | 2 => exact ⟨demoAt 0 [(0, demoCtx)] { demoCore with dead := true } demoJob [demoMsg (.further abortVote)], _, rfl, rfl, none_open, _, rfl, rfl⟩
  · intro b hb
    cases List.mem_singleton.1 hb
    exact running_firing _ _ _ _ rfl rfl nofun rfl
/-- A section with a tile table whose only entry gives every core of the job a contribution. -/
def tileSection : Section := { type := 5, space := 0, runpfl := false, addr := 0, off := 0, size := 64, body := [(20, 1)] }
/-- A job of one core at its boundary, its entry in the journal's slot not final; its module has no gateway core, and its mangle has failed, or not. -/
def boundary (failed : Bool) (j : Job) (k : Core) : State :=
  { alone j k with modules := [(0, { demoModule with slots := [(1, ⟨1, 1, 0, 1, 0, 0, 0, 0, 0⟩)], mangleFailed := failed, dies := [] })] }
def votedJob (commit : Bool) : Job := { demoJob with verdict := some (aVerdict commit), dss := [(0, { cur := [(20, 1)], base := [] })] }
/-- The same held, with its tile table. -/
def releaseJob : Job := { votedJob true with verdict := none, held := true, sections := [tileSection] }
def JobAtBoundary (s : State) (j : Job) : Prop :=
  s.job? 0 = some j ∧ j.stage = .running ∧ j.verdict.isSome = true ∧ s.boundaryReached j = true ∧ s.requestsDue 0 j = false ∧ j.endCause = none ∧ j.totalAborts < 15 ∧ j.handler ≠ 0 ∧
    s.endBusy j = false ∧ (∃ d e, s.module? j.home = some d ∧ dget? d.slots (j.jsn % 65536) = some e ∧ e.jsn = j.jsn ∧ e.final = false) ∧ ∀ c ∈ j.quadMates, (s.pos c).readmit = false
/-- Held, with nothing in the way of its release but its tile tables. -/
def JobAtRelease (s : State) (j : Job) : Prop :=
  s.job? 0 = some j ∧ j.stage = .running ∧ j.verdict = none ∧ j.held = true ∧ j.paused = false ∧ j.parked = none ∧ s.requestsDue 0 j = false ∧ s.yields j = false ∧ j.staged = [] ∧
    (∀ c ∈ j.places, (s.patch c).fenced = false) ∧ ∃ x ∈ j.sections, x.type = 5
theorem witness_BoundaryEnds :
    (∀ cancel : Bool, ∃ (s : State) (j : Job), JobAtBoundary s j ∧ j.pending = [{ jsn := 2, cancel := cancel }] ∧ 2 ≠ j.jsn ∧ j.paused = false) ∧
    (∃ (s : State) (j : Job) (k : Core), s.job? 0 = some j ∧ j.verdict.isSome = true ∧ 0 ∈ j.places ∧ s.core? 0 = some k ∧ k.dead = true ∧ k.phase = .rolling ∧ (s.patch 0).fenced = false ∧
      j.endCause = some 0x04 ∧ j.removeAt = false) ∧
    (∃ (s : State) (j : Job) (d : Module) (e : Entry), JobAtRelease s j ∧ s.noRounds j = true ∧ s.endBusy j = false ∧ j.pending = [] ∧ s.module? j.home = some d ∧
      dget? d.slots (j.jsn % 65536) = some e ∧ e.jsn = j.jsn ∧ e.final = false) ∧
    (∃ (s : State) (j : Job), JobAtRelease s j ∧ s.noRounds j = true ∧ s.endBusy j = true) ∧
    (∃ (s : State) (j : Job), JobAtRelease s j ∧ s.noRounds j = false ∧ ∀ c ∈ j.places, ∀ k, s.core? c = some k → k.repeatCause = none ∧ k.stagedPoison = []) :=
  ⟨fun cancel => match cancel with
    | true => ⟨boundary false { votedJob true with pending := [⟨2, true⟩] } (phaseCore .applied), _,
        ⟨rfl, rfl, rfl, by decide, by decide, rfl, by decide, by decide, by decide, ⟨_, _, rfl, rfl, rfl, rfl⟩, by decide⟩, rfl, by decide, rfl⟩
    | false => ⟨boundary false { votedJob true with pending := [⟨2, false⟩] } (phaseCore .applied), _,
        ⟨rfl, rfl, rfl, by decide, by decide, rfl, by decide, by decide, by decide, ⟨_, _, rfl, rfl, rfl, rfl⟩, by decide⟩, rfl, by decide, rfl⟩,
   ⟨alone { votedJob false with endCause := some 0x04 } { phaseCore .rolling with dead := true }, _, _, rfl, rfl, by decide, rfl, rfl, rfl, by decide, rfl, rfl⟩,
   ⟨boundary true releaseJob heldCore, _, _, _, ⟨rfl, rfl, rfl, rfl, rfl, rfl, by decide, by decide, rfl, by decide, _, .head _, rfl⟩, by decide +kernel, by decide, rfl, rfl, rfl, rfl, rfl⟩,
   ⟨rootBusy (boundary true releaseJob heldCore), _, ⟨rfl, rfl, rfl, rfl, rfl, rfl, by decide, by decide, rfl, by decide, _, .head _, rfl⟩, by decide +kernel, by decide⟩,
   ⟨boundary false releaseJob heldCore, _, ⟨rfl, rfl, rfl, rfl, rfl, rfl, by decide, by decide, rfl, by decide, _, .head _, rfl⟩, by decide +kernel,
    demo_only heldCore (fun _ k => k.repeatCause = none ∧ k.stagedPoison = []) (by decide) ⟨rfl, rfl⟩⟩⟩

/-- A command that has not started, at the head of a queue. -/
def freshCmd (q kind : Nat) : State := demoAt 0 [(0, demoCtx)] { demoCore with q := [(q, [cmdOf (BitVec.ofNat 64 kind) 0 0 0 0 0])] } demoJob []
/-- An ACCLD of a TCM that held nothing when it started, and holds 7 in byte 0 now. -/
def racedLoad : State :=
  demoAt 0 [(0, demoCtx)] { demoCore with tcm := ⟨[(0, 7)], []⟩, q := [(0, [{ cmdOf 3 0 0 0 0 0 with seen := some ⟨[(0, [])], [], [], []⟩ }])] } demoJob []
theorem rowsPoison_clean {s : State} (h : ∀ m pa, s.poisoned m pa = false) (asid c : Nat) (a : Word) (n : Nat) (offs : List Nat) : s.rowsPoison asid c a n offs = none := by
  unfold State.rowsPoison
  induction offs with
  | nil => rfl
  | cons o l ih => simpa [firstSome, spillPoison_clean fun pa => h _ pa] using ih
theorem productPoison_clean {s : State} (h : ∀ m pa, s.poisoned m pa = false) (asid c0 : Nat) (m0 : Cmd) (c : Nat) (m : Cmd) (p : Product) : productPoison s asid c0 m0 c m p = none := by
  unfold productPoison
  rw [rowsPoison_clean h, rowsPoison_clean h]
  rfl
theorem witness_BeginsAndRaces :
    (∀ x ∈ [(0, 0x03), (1, 0x20), (1, 0x21), (1, 0x25), (2, 0x30), (3, 0x40), (3, 0x41)], ∃ (s : State) (k : Core) (m : Cmd) (j : Job), HeadAt s 0 x.1 x.2 k m j ∧ m.seen = none) ∧
    (∃ (s : State) (k : Core) (m : Cmd), s.core? 0 = some k ∧ k.headOf 3 = some m ∧ m.firing = some (0, 0) ∧ m.stage = .queued ∧ m.seen = none) ∧
    (∃ (s : State) (k : Core) (m : Cmd) (j : Job) (h : Homes), HeadAt s 0 0 0x03 k m j ∧ m.hit = 0 ∧ m.seen = some h ∧ firstCause [operandCause j m.a2 (d2Offs m) 256] = none ∧
      s.rowsPoison k.asid 0 m.a2 256 (d2Offs m) = none ∧ h.rd (localAt 0 m.a2 0) 4 ≠ s.bytesAt k.asid (localAt 0 m.a2 0) 4) ∧
    (∀ kind ∈ [0x01, 0x02], ∃ (s : State) (k : Core) (m : Cmd) (j : Job), HeadStruck s 0 0 kind k m j ∧ dGanged m.d0 = false ∧
      firstCause [operandCause j m.a1 (productOf k m m).aOffs (productOf k m m).aBytes, operandCause j m.a2 (productOf k m m).bOffs (productOf k m m).bBytes] = none ∧
      productPoison s k.asid 0 m 0 m (productOf k m m) = none) ∧
    (∃ (s : State) (k : Core) (m : Cmd) (j : Job), HeadStruck s 0 0 0x03 k m j ∧ firstCause [operandCause j m.a2 (d2Offs m) 256] = none ∧ s.rowsPoison k.asid 0 m.a2 256 (d2Offs m) = none) ∧
    (∃ (s : State) (k : Core) (m : Cmd) (j : Job), HeadDue s 0 0 0x01 k m j ∧ dGanged m.d0 = false ∧
      (let p := productOf k m m
       firstCause [operandCause j m.a1 p.aOffs p.aBytes, operandCause j m.a2 p.bOffs p.bBytes] = none ∧ productPoison s k.asid 0 m 0 m p = none) ∧ dPair m.d0 = 5 ∧ tKcnt m.d1 = 0 ∧ dTransB m.d0 = false) ∧
    (∃ (s : State) (k : Core) (m : Cmd) (j : Job), HeadDue s 0 0 0x03 k m j ∧ firstCause [operandCause j m.a2 (d2Offs m) 256] = none ∧ s.rowsPoison k.asid 0 m.a2 256 (d2Offs m) = none) := by
  refine ⟨fun x hx => ⟨freshCmd x.1 x.2, ?_⟩, ⟨demoAt 0 [(0, demoCtx)] { demoCore with q := [(3, [{ cmdOf 0 0 0 0 0 0 with firing := some (0, 0) }])] } demoJob [], _, _, rfl, rfl, rfl, rfl, rfl⟩,
    ⟨racedLoad, _, _, _, _, ⟨rfl, rfl, rfl⟩, rfl, rfl, by decide, rowsPoison_clean (fun _ _ => unpoisoned rfl rfl _ _) _ _ _ _ _, by decide⟩, fun n hn => ?_,
    ⟨withCmd 0 (struck (cmdOf 3 0 0 0 0 0)), _, _, _, ⟨⟨rfl, rfl, rfl⟩, by decide, fun _ => rfl⟩, by decide, rowsPoison_clean (fun _ _ => unpoisoned rfl rfl _ _) _ _ _ _ _⟩,
    ⟨withCmd 0 (cmdOf 0x501 0 0 0 0 4096), _, _, _, ⟨⟨rfl, rfl, rfl⟩, rfl, fun _ => rfl⟩, by decide, ⟨by decide +kernel, productPoison_clean (fun _ _ => unpoisoned rfl rfl _ _) _ _ _ _ _ _⟩, by decide,
      by decide, by decide⟩,
    ⟨withCmd 0 (cmdOf 3 0 0 0 0 0), _, _, _, ⟨⟨rfl, rfl, rfl⟩, rfl, fun _ => rfl⟩, by decide, rowsPoison_clean (fun _ _ => unpoisoned rfl rfl _ _) _ _ _ _ _⟩⟩
  · simp only [List.mem_cons, List.not_mem_nil, or_false] at hx
    rcases hx with rfl | rfl | rfl | rfl | rfl | rfl | rfl <;> exact ⟨_, _, _, ⟨rfl, rfl, rfl⟩, rfl⟩
  · rcases List.mem_pair.1 hn with rfl | rfl
    exacts [⟨withCmd 0 (struck (cmdOf 0x501 0 0 0 0 4096)), _, _, _, ⟨⟨rfl, rfl, rfl⟩, by decide, fun _ => rfl⟩, by decide, by decide +kernel,
        productPoison_clean (fun _ _ => unpoisoned rfl rfl _ _) _ _ _ _ _ _⟩,
      ⟨withCmd 0 (struck (cmdOf 0x502 0 0 0 0 4096)), _, _, _, ⟨⟨rfl, rfl, rfl⟩, by decide, fun _ => rfl⟩, by decide, by decide +kernel,
        productPoison_clean (fun _ _ => unpoisoned rfl rfl _ _) _ _ _ _ _ _⟩]

/-- Operands of commands that are spilled to a poisoned page: A of a product, the rows of ACCLD, the block of CPRING, the values of a firing. -/
theorem witness_PoisonedOperands (pa : Nat) (h : Config.spillPage 0 0 0 = some pa) (ht : tierOf pa = .hw) :
    (∃ (s : State) (k : Core) (m : Cmd) (j : Job), HeadDue s 0 0 0x01 k m j ∧ dGanged m.d0 = false ∧
      (let p := productOf k m m
       firstCause [operandCause j m.a1 p.aOffs p.aBytes, operandCause j m.a2 p.bOffs p.bBytes] = none ∧ productPoison s k.asid 0 m 0 m p = some pa)) ∧
    (∃ (s : State) (k : Core) (m : Cmd) (j : Job), HeadDue s 0 0 0x03 k m j ∧ firstCause [operandCause j m.a2 (d2Offs m) 256] = none ∧
      s.rowsPoison k.asid 0 m.a2 256 (d2Offs m) = some pa) ∧
    (∃ (s : State) (k : Core) (m : Cmd) (j : Job), HeadDue s 0 1 0x25 k m j ∧ RowAt s 0 k j m.a1 32 ∧ RowAt s 0 k j m.a2 32 ∧ s.spillPoison k.asid (localAt 0 m.a2 0) 32 = some pa) ∧
    (∃ (s : State) (k : Core) (m : Cmd) (e : Nat), s.core? 0 = some k ∧ k.headOf 3 = some m ∧ m.firing = some (0, e) ∧ m.stage = .queued ∧ m.seen ≠ none ∧ tlSrcEn e = true ∧
      s.spillPoison k.asid (localAt 0 (tlSrc e) m.patch) (tlVals e * codeBytes (tlIn e)) = some pa) := by
  have at0 : localAt 0 (qspAddr 0) 0 = qspAt 0 := by decide
  refine ⟨⟨withModule (withCmd 0 (cmdOf 0x501 0 0 0 (qspAddr 0) 4096)) (badPage pa), _, _, demoJob, ⟨⟨rfl, rfl, rfl⟩, rfl, fun _ => rfl⟩, by decide, by decide +kernel, ?_⟩,
    ⟨withModule (withCmd 0 (cmdOf 3 0 0 0 0 (qspAddr 0))) (badPage pa), _, _, demoJob, ⟨⟨rfl, rfl, rfl⟩, rfl, fun _ => rfl⟩, by decide, ?_⟩,
    ⟨withModule (withCmd 1 (cmdOf 0x25 0 0 0 0 (qspAddr 0))) (badPage pa), _, _, demoJob, ⟨⟨rfl, rfl, rfl⟩, rfl, fun _ => rfl⟩, ⟨.inl (by decide), by decide, by decide, rfl, rfl, rfl⟩,
      ⟨.inr (by decide), by decide, by decide, rfl, rfl, rfl⟩, ?_⟩,
    ⟨withModule (withCmd 3 { cmdOf 0 0 0 0 0 0 with firing := some (0, 2 ^ 267 + 2 ^ 60) }) (badPage pa), _, _, _, rfl, rfl, rfl, rfl, nofun, by decide, ?_⟩⟩
  · show (firstSome [State.spillPoison _ 0 (localAt 0 (qspAddr 0) 0) 64]).or _ = _
    rw [at0, spilled h ht rfl (by decide)]
    rfl
  · show firstSome [State.spillPoison _ 0 (localAt 0 (qspAddr 0) 0) 256] = _
    rw [at0, spilled h ht rfl (by decide)]
    rfl
  · show State.spillPoison _ 0 (localAt 0 (qspAddr 0) 0) 32 = _
    rw [at0]
    exact spilled h ht rfl (by decide)
  · show State.spillPoison _ 0 (localAt 0 (tlSrc (2 ^ 267 + 2 ^ 60)) 0) (tlVals (2 ^ 267 + 2 ^ 60) * codeBytes (tlIn (2 ^ 267 + 2 ^ 60))) = _
    rw [show localAt 0 (tlSrc (2 ^ 267 + 2 ^ 60)) 0 = qspAt 0 by decide, show tlVals (2 ^ 267 + 2 ^ 60) * codeBytes (tlIn (2 ^ 267 + 2 ^ 60)) = 4 by decide]
    exact spilled h ht rfl (by decide)

/-- A full order group but for the message in flight, at the start of scratchpad 0. -/
def groupState : State := demoAt 0 [(0, demoCtx)] demoCore { demoJob with groups := [{ halfGroup with dest := qspAt 0 }] } [demoMsg (.order (qspAt 0) 1 2 0)]
/-- What the instructions that read local memory, and the waits that do, need to meet poison: their bytes at the start of scratchpad 0 are spilled to the poisoned page. The pairs are
the size of the address check and that of the read. -/
theorem witness_PoisonedReads (pa : Nat) (h : Config.spillPage 0 0 0 = some pa) (ht : tierOf pa = .hw) :
    (∀ n ∈ [(4, 4), (8, 8), (16, 4), (16, 16), (32, 32)], ∃ (s : State) (i : Issuer), s.issuer? = some i ∧ LocalAt i (i.ctx.getX 5) n.1 (qspAt 0) ∧ NoEagerOver s i (qspAt 0) n.2 ∧
      s.spillPoison i.core.asid (qspAt 0) n.2 = some pa ∧ i.ctx.level ≠ .firmware ∧ i.core.active = true) ∧
    (∃ (s : State) (i : Issuer), s.issuer? = some i ∧ i.k ≠ 0 ∧ (∀ e ∈ i.core.eager, e.ctx = i.k → e.slot = none) ∧ i.ctx.life = .task 0 0 (qspAddr 0) ∧ LocalAt i (qspAddr 0) 16 (qspAt 0) ∧
      qspAddr 0 ≠ 0 ∧ NoEagerOver s i (qspAt 0) 4 ∧ s.spillPoison i.core.asid (qspAt 0) 4 = some pa ∧ i.ctx.level ≠ .firmware ∧ i.core.active = true) ∧
    (∀ w n, (w, n) ∈ [(Wait.cjoin (qspAt 0), 4), (.waitf (qspAt 0) 1, 8), (.hmwait (qspAt 0) true, 16), (.rget 6 (qspAt 0), 32)] → ∃ (s : State) (core : Core), s.core? 0 = some core ∧
      core.active = true ∧ (core.ctx 0).wait = some w ∧ (core.ctx 0).level ≠ .firmware ∧ s.spillPoison core.asid (qspAt 0) n = some pa) ∧
    (∃ (s : State) (x : Msg), s.net[0]? = some x ∧ x.kind = .atomic (qspAt 0) 1 1 0 0 ∧ s.overtaken 0 x (qspAt 0) 8 = false ∧ s.target x.asid (qspAt 0) = some (qspAt 0) ∧
      s.silentHome (qspAt 0) = false ∧ s.spillPoison x.asid (qspAt 0) 8 = some pa) ∧
    (∃ (s : State) (x : Msg), s.net[0]? = some x ∧ x.kind = .loadReq (qspAt 0) 8 0 ∧ s.overtaken 0 x (qspAt 0) 8 = false ∧ s.target x.asid (qspAt 0) = some (qspAt 0) ∧
      s.silentHome (qspAt 0) = false ∧ s.spillPoison x.asid (qspAt 0) 8 = some pa) ∧
    (∃ (s : State) (x : Msg) (k : Core) (j : Job) (g : OrderGroup), s.net[0]? = some x ∧ x.kind = .order (qspAt 0) 1 2 0 ∧ s.overtaken 0 x (qspAt 0) 8 = false ∧
      s.target x.asid (qspAt 0) = some (qspAt 0) ∧ s.silentHome (qspAt 0) = false ∧ s.core? x.src = some k ∧ s.job? x.asid = some j ∧
      j.groups.find? (fun g => sameHome g.dest (qspAt 0) && g.dest.off == 0) = some g ∧ g.count = 2 ∧ (∀ q ∈ g.members, q.index ≠ k.index) ∧ g.members.length + 1 = 2 ∧ g.held = [] ∧
      g.dest = qspAt 0 ∧ s.spillPoison x.asid (qspAt 0) 8 = some pa) := by
  have dies : ∀ (s : State) d, (withModule s (badPage pa)).die d = (withModule s demoModule).die d := fun s d => by
    unfold State.die State.module? withModule
    simp only [dget?]
    split <;> [rfl; (split <;> rfl)]
  have same : ∀ s : State, (withModule s (badPage pa)).target 0 (qspAt 0) = (withModule s demoModule).target 0 (qspAt 0) := fun s => by
    unfold State.target State.belongs State.forwarded State.patch
    simp only [dies]
    rfl
  have target : (withModule groupState demoModule).target 0 (qspAt 0) = some (qspAt 0) := by decide
  have target' : ∀ kind, (withModule (demoAt 0 [(0, demoCtx)] demoCore demoJob [demoMsg kind]) demoModule).target 0 (qspAt 0) = some (qspAt 0) := fun kind => by
    change (withModule (demoAt 0 [(0, demoCtx)] demoCore demoJob []) demoModule).target 0 (qspAt 0) = some (qspAt 0)
    decide
  obtain ⟨i, hi, hk, he, hf, hl, hv, ha, hs⟩ : ∃ i, (demoAt 1 [(1, { demoCtx with life := .task 0 0 (qspAddr 0) })] demoCore demoJob []).issuer? = some i ∧ i.k ≠ 0 ∧ i.core.eager = [] ∧
      i.ctx.life = .task 0 0 (qspAddr 0) ∧ LocalAt i (qspAddr 0) 16 (qspAt 0) ∧ i.ctx.level ≠ .firmware ∧ i.core.active = true ∧ i.core.asid = 0 :=
    ⟨_, rfl, by decide, rfl, rfl, ⟨rfl, by decide, by decide, by decide, by decide⟩, by decide, rfl, rfl⟩
  refine ⟨fun n hn => ?_, ⟨withModule (demoAt 1 [(1, { demoCtx with life := .task 0 0 (qspAddr 0) })] demoCore demoJob []) (badPage pa), i, hi, hk,
      fun _ hm => absurd (he ▸ hm) List.not_mem_nil, hf, hl, by decide, fun _ hm => (List.not_mem_nil hm).elim, by rw [hs]; exact spilled h ht rfl (by decide), hv, ha⟩, fun w n hw => ?_,
    ⟨withModule (demoAt 0 [(0, demoCtx)] demoCore demoJob [demoMsg (.atomic (qspAt 0) 1 1 0 0)]) (badPage pa), _, rfl, rfl, rfl, (same _).trans (target' _), rfl, spilled h ht rfl (by decide)⟩,
    ⟨withModule (demoAt 0 [(0, demoCtx)] demoCore demoJob [demoMsg (.loadReq (qspAt 0) 8 0)]) (badPage pa), _, rfl, rfl, rfl, (same _).trans (target' _), rfl, spilled h ht rfl (by decide)⟩,
    ⟨withModule groupState (badPage pa), _, _, _, _, rfl, rfl, rfl,
      (same _).trans target, rfl, rfl, rfl, rfl, rfl, by decide, by decide, rfl, rfl, spilled h ht rfl (by decide)⟩⟩
  · have sizes : ∀ n ∈ [(4, 4), (8, 8), (16, 4), (16, 16), (32, 32)], (∃ i, (demoOf (withX 0x1000000000000000)).issuer? = some i ∧ LocalAt i (i.ctx.getX 5) n.1 (qspAt 0) ∧
        i.ctx.level ≠ .firmware ∧ i.core.active = true ∧ i.core.asid = 0) ∧ n.2 - 1 < 4095 := by
      intro n hn
      simp only [List.mem_cons, List.not_mem_nil, or_false] at hn
      rcases hn with rfl | rfl | rfl | rfl | rfl <;> exact ⟨⟨_, rfl, ⟨rfl, by decide, by decide, by decide, by decide⟩, by decide, rfl, rfl⟩, by decide⟩
    obtain ⟨⟨i, hi, hl, hv, ha, hs⟩, hn⟩ := sizes n hn
    exact ⟨withModule (demoOf (withX 0x1000000000000000)) (badPage pa), i, hi, hl, fun _ hm => (List.not_mem_nil hm).elim, by rw [hs]; exact spilled h ht rfl hn, hv, ha⟩
  · refine ⟨withModule (demoOf { demoCtx with wait := some w }) (badPage pa), _, rfl, rfl, rfl, by show Level.job ≠ .firmware; decide, spilled h ht rfl ?_⟩
    simp only [List.mem_cons, Prod.mk.injEq, List.not_mem_nil, or_false] at hw
    rcases hw with ⟨-, rfl⟩ | ⟨-, rfl⟩ | ⟨-, rfl⟩ | ⟨-, rfl⟩ <;> decide

/-- An arrival of the core at a group barrier in flight, with an SSN. -/
def arrivingState (ssn : Nat) : State := demoAt 0 [(0, demoCtx)] demoCore { demoJob with episodes := [dieEpisode [] none false] } [sentArrival ssn]
theorem witness_ArrivalsAndLosses :
    (∃ (s : State) (m : Msg) (j : Job) (e : Episode), s.net[0]? = some m ∧ m.kind = .arrival 3 0 4 ⟨0, 1, 0, 5⟩ 1 ∧ s.job? m.asid = some j ∧ j.verdict = none ∧ j.held = false ∧ e ∈ j.episodes ∧
      e.scope = 3 ∧ e.extent = 0 ∧ e.number = 4 ∧ e.done = none ∧ 1 = s.ssnOf j) ∧
    (∃ (s : State) (m : Msg) (j : Job), s.net[0]? = some m ∧ m.kind = .arrival 3 0 4 ⟨0, 1, 0, 5⟩ 3 ∧ s.job? m.asid = some j ∧ j.verdict = none ∧ j.held = false ∧ 3 ≠ s.ssnOf j) ∧
    (∀ voted : Bool, ∃ (s : State) (m : Msg) (k : Core), s.net[0]? = some m ∧ s.core? m.src = some k ∧ m.ctx ≠ 11 ∧ (∃ sc n i a u, m.kind = .arrival sc n i a u) ∧
      (if voted then k.dead = false ∧ k.phase = .voted else k.open_ = true ∧ k.stopped = false) ∧ (∀ c, (k.ctx c).level ≠ .firmware) ∧ ∀ e ∈ s.jobs, e.2.rounds = []) ∧
    (∀ kind ∈ [MsgKind.doom, .outcome (aVerdict false), .urgent 15 0 2], ∃ (s : State) (m : Msg), s.net[0]? = some m ∧ m.kind = kind ∧ ∀ e ∈ s.jobs, e.2.rounds = []) ∧
    (∃ (s : State) (x : Msg), s.net[0]? = some x ∧ x.kind = .accuse 2 1 ∧
      (let l := (1, x.src, s.clock + 4 * max 256 ((s.pos 2).hbperiod.toNat % 2 ^ 16)) :: (s.pos 2).accused.filter fun a => a.1 ≠ 1 || a.2.1 ≠ x.src
       Enough s 1 ((l.filter fun a => a.1 = 1 && decide (s.clock < a.2.2)).map fun a => a.2.1)) ∧ 2 ∈ s.present 1 ∧ (s.patch 1).fenced = false ∧ s.core? 1 = none) ∧
    (∃ (s : State) (j : Job) (r : Round), s.job? 0 = some j ∧ j.rounds.find? (fun r => r.tile == 0) = some r ∧ j.verdict ≠ none) ∧
    (∃ (s : State) (k : Core) (m : Cmd), s.core? 0 = some k ∧ k.queue 3 = [m] ∧ k.engines = true ∧ m.stage = .performed ∧ m.firing ≠ none ∧ m.cause = 1) ∧
    (∃ (s : State) (k : Core) (m : Cmd), s.core? 0 = some k ∧ k.queue 3 = [m] ∧ k.engines = true ∧ m.stage = .performed ∧ dSignal m.d0 = false ∧ m.firing = none ∧ m.d0.toNat % 256 = 0x41 ∧ m.cause = 4 ∧
      m.tval = 0) ∧
    (∃ (s : State) (i : Issuer), s.issuer? = some i ∧ i.k = 0 ∧ i.core.active = true ∧ CoreQuiet s i ∧ i.core.voteFault = some 4) ∧
    (∃ (s : State) (k : Core) (m : Cmd) (e : Nat), s.core? 0 = some k ∧ k.headOf 3 = some m ∧ m.firing = some (0, e) ∧ m.stage = .queued ∧ Steady s 0 k m ∧ tlSrcEn e = true ∧
      s.spillPoison k.asid (localAt 0 (tlSrc e) m.patch) (tlVals e * codeBytes (tlIn e)) = none) ∧
    (∃ p, (tableState true []).poolOf 0 0x10000 = some p ∧ decide ((tableState true []).poisonOver 0 p.base (16 * p.frames) = false) = true) := by
  have none_open : ∀ e ∈ [((0 : Nat), demoJob)], e.2.rounds = [] := by rintro e h; cases List.mem_singleton.1 h; rfl
  have level : ∀ c, (({ demoCore with ctxs := [] } : Core).ctx c).level ≠ .firmware := fun c => by
    show Level.job ≠ .firmware
    decide
  refine ⟨⟨arrivingState 1, _, _, _, rfl, rfl, rfl, rfl, rfl, .head _, rfl, rfl, rfl, rfl, by decide⟩, ⟨arrivingState 3, _, _, rfl, rfl, rfl, rfl, rfl, by decide⟩, fun b => ?_,
    fun kind _ => ⟨demoAt 0 [] demoCore demoJob [demoMsg kind], _, rfl, rfl, none_open⟩,
    ⟨beatState 0 [(2, { Pos.reset with accused := [(1, 17, 100)] })] [demoMsg (.accuse 2 1)], _, rfl, rfl, by unfold Enough; decide, by decide, by decide, rfl⟩,
    ⟨fireState { demoJob with verdict := some (aVerdict false) } 0 [roundOf 0 gatewayEntry [ownArrival gatewayEntry]] .doom, _, _, rfl, rfl, nofun⟩,
    ⟨withCmd 3 { doneCmd 0 with firing := some (0, 0), cause := 1 }, _, _, rfl, rfl, rfl, rfl, nofun, rfl⟩,
    ⟨withCmd 3 { doneCmd 0x41 with cause := 4 }, _, _, rfl, rfl, rfl, rfl, by decide, rfl, by decide, rfl, rfl⟩,
    ⟨demoAt 0 [(0, demoCtx)] { demoCore with voteFault := some 4 } demoJob [], _, rfl, rfl, rfl, ?_, rfl⟩,
    ⟨withCmd 3 { cmdOf 0 0 0 0 0 0 with firing := some (0, 2 ^ 267) }, _, _, _, rfl, rfl, rfl, rfl, rfl, by decide, spillPoison_clean fun _ => unpoisoned rfl rfl _ _⟩,
    some_of _ _ (by decide +kernel)⟩
  · cases b
    · exact ⟨demoAt 0 [] demoCore demoJob [sentArrival 1], _, _, rfl, rfl, by decide, ⟨_, _, _, _, _, rfl⟩, ⟨rfl, rfl⟩, level, none_open⟩
    · exact ⟨demoAt 0 [] { demoCore with phase := .voted } demoJob [sentArrival 1], _, _, rfl, rfl, by decide, ⟨_, _, _, _, _, rfl⟩, ⟨rfl, rfl⟩, level, none_open⟩
  · exact ⟨nofun, rfl, fun n h1 _ => by
      have : ∀ n, n ≤ 10 → 1 ≤ n → ((demoCore).ctx n).live = false := by decide
      exact this n ‹_› h1, rfl, rfl, rfl, rfl, rfl, nofun⟩
/-- The same job at RUNPFL, its LAUNCH entry in state 1. -/
def runpflState (failed : Bool) : State :=
  let s := boundary failed { releaseJob with stage := .runpfl, held := false } heldCore
  { s with modules := s.modules.map fun e => (e.1, { e.2 with slots := [(1, ⟨1, 1, 0, 1, 0, 1, 0, 0, 0⟩)] }) }
theorem witness_FirstRelease : ∀ rounds : Bool, ∃ (s : State) (j : Job) (d : Module) (e : Entry), JobAt s 0 1 .runpfl 0 j ∧ s.module? 0 = some d ∧ risingFrom 0 d.heldTab = true ∧
    d.entry? 1 = some e ∧ e.final = false ∧ j.home = 0 ∧ j.jsn = 1 ∧ s.requestsDue 0 j = false ∧ j.runList = [] ∧ j.records = [] ∧ j.verdict = none ∧ j.paused = false ∧ j.parked = none ∧ j.yieldTo = none ∧
    j.staged = [] ∧ j.lastAttempt = none ∧ e.state = 1 ∧ (∀ c ∈ j.places, ∃ k, s.core? c = some k ∧ k.asid = 0 ∧ k.repeatCause = none ∧ k.stagedPoison = []) ∧
    (∀ c ∈ j.places, (s.patch c).fenced = false) ∧ s.noRounds j = rounds ∧ j.pending = [] ∧ s.endBusy j = false := by
  have here : ∀ c ∈ ({ releaseJob with stage := .runpfl, held := false } : Job).places, c = 0 := by decide
  intro b
  cases b
  · exact ⟨runpflState false, _, _, _, ⟨rfl, rfl⟩, rfl, rfl, rfl, rfl, rfl, rfl, by decide, by decide, rfl, rfl, rfl, rfl, rfl, rfl, rfl, rfl,
      fun c hc => by cases here c hc; exact ⟨_, rfl, rfl, rfl, rfl⟩, by decide, by decide +kernel, rfl, by decide⟩
  · exact ⟨runpflState true, _, _, _, ⟨rfl, rfl⟩, rfl, rfl, rfl, rfl, rfl, rfl, by decide, by decide, rfl, rfl, rfl, rfl, rfl, rfl, rfl, rfl,
      fun c hc => by cases here c hc; exact ⟨_, rfl, rfl, rfl, rfl⟩, by decide, by decide +kernel, rfl, by decide⟩

/-! Worked examples of the spec, with the results that it prints. -/

/-- Section 02, worked conversions: 15.75 as QT16, exact; 11, 13 and 15 as QT8, rounded. -/
theorem test_convert_exact : convert .f32 .qt16 0x417C0000 = (0x6FC0, 0) ∧ convert .f32 .qt16 0xC17C0000 = (0x9040, 0) := by decide +kernel
theorem test_convert_rounded : convert .f32 .qt8 0x41300000 = (0x7A, flagNX) ∧ convert .f32 .qt8 0x41500000 = (0x7A, flagNX) ∧ convert .f32 .qt8 0x41700000 = (0x7C, flagNX) := by decide +kernel
/-- Section 02: 1.25 × 2^27 rounds up to maxpos; 2^−40 is clamped to minpos; infinity and NaN give NaR, and NaR gives a NaN. -/
theorem test_convert_ends : convert .f32 .qt16 0x4D200000 = (0x7FFF, flagNX) ∧ convert .f32 .qt16 0x2B800000 = (1, flagUF ||| flagNX) ∧ convert .f32 .qt16 0x7F800000 = (0x8000, flagNV) ∧
    convert .f32 .qt16 0xFFC00000 = (0x8000, 0) ∧ convert .qt16 .f32 0x8000 = (0x7FC00000, 0) := by decide +kernel
/-- Section 02: QT32 0x4000_0018 to FP32, a tie that goes to the even pattern. -/
theorem test_convert_tie : convert .qt32 .f32 0x40000018 = (0x3F800002, flagNX) := by decide +kernel
/-- Section 02, exact sums: 2^100, 1.0 and −2^100 give 1.0 without a flag. -/
theorem test_exact_sum : xsumRound (([0x71800000, 0x3F800000, 0xF1800000].map fp32.decode).foldl xsumAdd XRec.empty) .f32 = (0x3F800000, 0) := by decide +kernel
/-- Section 02, R61: three chunks holding 2^24, 1.0 and 1.0 in BF16 give 0x4B80_0000 with NX; both ones in one chunk give 0x4B80_0001. -/
theorem test_chunks : elementOf 1 ([0x4B80] ++ List.replicate 63 0 ++ [0x3F80] ++ List.replicate 63 0 ++ [0x3F80] ++ List.replicate 63 0) (List.replicate 192 0x3F80) 0
    0x3F8000003F800000 0x3F8000003F800000 = (0x4B800000, flagNX) := by decide +kernel
theorem test_one_chunk : elementOf 1 ([0x4B80] ++ List.replicate 63 0 ++ [0x3F80, 0x3F80] ++ List.replicate 62 0) (List.replicate 128 0x3F80) 0
    0x3F8000003F800000 0x3F8000003F800000 = (0x4B800001, 0) := by decide +kernel
/-- Section 04: TCM offset 0x100 of the east neighbour of module 3, die 2, row 5, column 9. -/
theorem test_relative_address : locate (coreKey 3 2 5 9) 0x5000004000000100 = some { core := coreKey 3 2 5 10, space := .tcm, off := 0x100 } := by decide
/-- Section 04: VA 0x81_4060_7ABC by root index 1, L2 index 5 and L1 index 3 to PA 0x12_3440_7ABC. -/
theorem test_translation :
    (match ({ demoAt 0 [(0, demoCtx)] demoCore { demoJob with root := 0x10000 } [] with
        modules := [(0, { demoModule with hbm := [(0x1000A, 2), (0x1000F, 0x40), (0x2002A, 3), (0x2002F, 0x40), (0x3001A, 0x40), (0x3001B, 0x34), (0x3001C, 0x12), (0x3001F, 0xA0)] })] } : State).translate
          0 0 0x8140607ABC true with
     | .ok r => some r.2
     | .error _ => none) = some 0x1234407ABC := by decide +kernel
/-- What register `r` of context 0 holds after one instruction, from these registers. -/
def afterWord (w : Half32) (x : Sparse 64) (r : R5) : Option Word :=
  match exec (decode w) (demoOf { demoCtx with x := x }) with
  | .next t => (t.core? 0).map fun k => (k.ctx 0).getX r
  | _ => none
/-- Section 06, neighbour words: the rotations of 0x38, and the sum and carry words of 0x70, 0x38 and 0x1C. -/
theorem test_rotations : afterWord 0x3852C37B [(5, 0x38), (7, 1)] 6 = some 0x70 ∧ afterWord 0x3A52C47B [(5, 0x38), (7, 1)] 8 = some 0x1C := by decide +kernel

end Sys2Proof.Machine

end
end

/-! Frames of the shared updates, what registers and memory depend on, and completing an instruction. -/

namespace Sys2Proof.Machine

open Sys2Proof.Laws

variable {s t u : State} {i : Issuer} {c : CoreId} {core : Core} {w w' : List Part}

-- parts of the state
theorem Keeps.refl (w : List Part) (s : State) : Keeps w s s :=
  ⟨fun _ => rfl, fun _ => rfl, fun _ => rfl, fun _ => rfl, fun _ => rfl, fun _ => ⟨rfl, rfl⟩, fun _ => ⟨rfl, rfl⟩, fun _ => rfl⟩

theorem Keeps.trans (h : Keeps w s t) (g : Keeps w t u) : Keeps w s u where
  cores n := (g.cores n).trans (h.cores n)
  jobs n := (g.jobs n).trans (h.jobs n)
  modules n := (g.modules n).trans (h.modules n)
  positions n := (g.positions n).trans (h.positions n)
  net n := (g.net n).trans (h.net n)
  host n := ⟨(g.host n).1.trans (h.host n).1, (g.host n).2.trans (h.host n).2⟩
  cxl n := ⟨(g.cxl n).1.trans (h.cxl n).1, (g.cxl n).2.trans (h.cxl n).2⟩
  replies n := (g.replies n).trans (h.replies n)

/-- More parts may be left out of a frame. -/
theorem Keeps.mono (h : Keeps w s t) (hw : w ⊆ w') : Keeps w' s t where
  cores n := h.cores fun m => n (hw m)
  jobs n := h.jobs fun m => n (hw m)
  modules n := h.modules fun m => n (hw m)
  positions n := h.positions fun m => n (hw m)
  net n := h.net fun m => n (hw m)
  host n := h.host fun m => n (hw m)
  cxl n := h.cxl fun m => n (hw m)
  replies n := h.replies fun m => n (hw m)

theorem modCore_keeps (s : State) (c : CoreId) (f : Core → Core) : Keeps [.cores] s (s.modCore c f) := by
  constructor <;> simp
theorem modCtx_keeps (s : State) (c : CoreId) (n : Nat) (f : Ctx → Ctx) : Keeps [.cores] s (s.modCtx c n f) :=
  modCore_keeps s c _
theorem finish_keeps (s : State) (i : Issuer) (x : Ctx) : Keeps [.cores] s (s.finish i x) := modCore_keeps s i.c _
theorem modPos_keeps (s : State) (c : CoreId) (f : Pos → Pos) : Keeps [.positions] s (s.modPos c f) := by
  constructor <;> simp
theorem modJob_keeps (s : State) (a : Nat) (f : Job → Job) : Keeps [.jobs] s (s.modJob a f) := by
  constructor <;> simp
theorem modQuad_keeps (s : State) (q : QuadId) (f : Quad → Quad) : Keeps [.modules] s (s.modQuad q f) := by
  constructor <;> simp
theorem send_keeps (s : State) (c : CoreId) (k a q : Nat) (m : Option Nat) (d : MsgKind) : Keeps [.net] s (s.send c k a q m d).2 := by
  constructor <;> simp

theorem OtherCores.refl (c : CoreId) (s : State) : OtherCores c s s := fun _ _ => rfl
theorem OtherCores.trans (h : OtherCores c s t) (g : OtherCores c t u) : OtherCores c s u := fun d hd => (g d hd).trans (h d hd)
theorem modCore_otherCores (s : State) (c : CoreId) (f : Core → Core) : OtherCores c s (s.modCore c f) := fun _ => core?_modCore_ne s f
/-- An update outside the cores leaves every core. -/
theorem otherCores_of_cores (c : CoreId) (h : t.cores = s.cores) : OtherCores c s t := fun d _ => by simp only [State.core?, h]

theorem pos_modPos_same (s : State) (c : CoreId) (f : Pos → Pos) : (s.modPos c f).pos c = f (s.pos c) := dgetD_dset_same _ _ _ _
theorem modPos_otherPositions (s : State) (c : CoreId) (f : Pos → Pos) : OtherPositions c s (s.modPos c f) :=
  fun _ h => dgetD_dset_ne _ _ _ h
theorem OtherPositions.trans (h : OtherPositions c s t) (g : OtherPositions c t u) : OtherPositions c s u :=
  fun d hd => (g d hd).trans (h d hd)

-- what registers and memory depend on
theorem home_congr (hj : t.jobs = s.jobs) (hc : ∀ d, (t.core? d).map Core.tcm = (s.core? d).map Core.tcm) (a : Nat) (d : Dest) :
    t.home a d = s.home a d := by
  unfold State.home
  simp only [State.job?, hj, hc]

/-- Memory is as before where every core has its TCM and every job its scratchpads and shares. -/
theorem sameMemory_of_tcm (hj : t.jobs = s.jobs) (hc : ∀ d, (t.core? d).map Core.tcm = (s.core? d).map Core.tcm) : SameMemory s t :=
  fun a d => by unfold State.byteAt; rw [home_congr hj hc]

/-- The same where only core `c` differs and has its TCM. -/
theorem sameMemory_of_core (hj : t.jobs = s.jobs) (ho : OtherCores c s t) (hc : (t.core? c).map Core.tcm = (s.core? c).map Core.tcm) :
    SameMemory s t :=
  sameMemory_of_tcm hj fun d => by
    by_cases h : d = c
    · exact h ▸ hc
    · rw [ho d h]

theorem ctxOf_of_core? (h : s.core? c = some core) (n : Nat) : s.ctxOf c n = core.ctx n := by simp [State.ctxOf, h]

theorem ctxOf_congr (h : t.core? c = s.core? c) (n : Nat) : t.ctxOf c n = s.ctxOf c n := by simp only [State.ctxOf, h]

-- contexts of a core
theorem ctx_modCtx_same (k : Core) (n : Nat) (f : Ctx → Ctx) : (k.modCtx n f).ctx n = f (k.ctx n) := ctx_setCtx_same k n _
theorem ctx_modCtx_ne (k : Core) {n m : Nat} (f : Ctx → Ctx) (h : m ≠ n) : (k.modCtx n f).ctx m = k.ctx m := ctx_setCtx_ne k _ h

/-- Who issues, from what `issuer?` reads. -/
theorem issuer?_eq {k : Nat} {j : Job} (hcur : s.cur = (c, k)) (hc : s.core? c = some core) (hj : s.job? core.asid = some j)
    (hl : (core.ctx k).live = true) : s.issuer? = some { c := c, k := k, core := core, ctx := core.ctx k, job := j } := by
  simp [State.issuer?, hcur, hc, hj, hl]

-- completing an instruction
/-- Moving past an instruction leaves every register. -/
theorem advance_frame (k : Ctx) : CtxFrame [] k k.advance :=
  ⟨fun _ _ => rfl, fun _ _ => rfl, fun _ _ => rfl, fun _ => ⟨rfl, rfl⟩, fun _ _ => rfl, fun _ => rfl, fun _ => rfl, rfl, rfl, rfl, rfl, rfl, rfl, rfl⟩

/-- A context past its instruction: what was computed for it kept the pc and the count. -/
theorem completed_of_advance {x : Ctx} (h : t.ctxOf i.c i.k = x.advance) (hpc : x.pc = i.ctx.pc) (hin : x.instret = i.ctx.instret) :
    Completed i t := by
  unfold Completed
  rw [h]
  exact ⟨congrArg (· + 4) hpc, congrArg (· + 1) hin, rfl⟩

theorem setX_pc (k : Ctx) (r : R5) (v : Word) : (k.setX r v).pc = k.pc := by unfold Ctx.setX; split_ifs <;> rfl
theorem setX_instret (k : Ctx) (r : R5) (v : Word) : (k.setX r v).instret = k.instret := by unfold Ctx.setX; split_ifs <;> rfl

/-- What a write of an f register leaves of a context. -/
theorem setF_frame (k : Ctx) (fd : R5) (v : Half32) : CtxFrame [.f fd, .fcsr] k (k.setF fd v).advance :=
  have f (r : R5) (hr : CtxPart.f r ∉ [.f fd, .fcsr]) : (k.setF fd v).advance.getF r = k.getF r :=
    (getF_setF k fd r v).trans (if_neg fun h => hr (by simp [h]))
  ⟨fun _ _ => rfl, f, fun _ _ => rfl, fun _ => ⟨rfl, rfl⟩, fun _ _ => rfl, fun _ => rfl, fun _ => rfl, rfl, rfl, rfl, rfl, rfl, rfl, rfl⟩

/-- An instruction that puts a pattern into `f[fd]` and raises no exception. -/
theorem setF_writesF (h : s.issuer? = some i) (fd : R5) (v : Half32) : WritesF s i fd v 0 (.next (s.finish i (i.ctx.setF fd v))) := by
  have hx := finish_ctxOf h (i.ctx.setF fd v)
  refine ⟨_, rfl, completed_of_advance hx rfl rfl, ?_, ?_, finish_onlyCtx h _, ?_⟩
  · rw [hx]
    exact (getF_setF i.ctx fd fd v).trans (if_pos rfl)
  · rw [hx]
    exact (BitVec.or_zero).symm
  · rw [hx]
    exact setF_frame i.ctx fd v

end Sys2Proof.Machine

/-! The trace unit (R355, R356): what a record, a trigger and the entries of accesses and traps may change. -/

namespace Sys2Proof.Machine

open Sys2Proof.Laws

/-- Between two states only the trace unit of core `c` has moved: its `tracectl`, its entries and the count after a trigger (R355, R356). -/
structure OnlyTrace (c : CoreId) (s t : State) : Prop where
  cur : t.cur = s.cur
  clock : t.clock = s.clock
  tickets : t.tickets = s.tickets
  keeps : Keeps [.cores, .positions] s t
  others : OtherCores c s t
  core : ∃ w, t.core? c = (s.core? c).map fun x => { x with tracectl := w }
  positions : OtherPositions c s t
  pos : ∃ tr n, t.pos c = { s.pos c with trace := tr, tracePost := n }

variable {s t u : State} {i : Issuer} {c : CoreId} {core : Core}

theorem map_tracectl_self (o : Option Core) (w : Word) (h : ∀ x, o = some x → x.tracectl = w) :
    (o.map fun x => { x with tracectl := w }) = o := by
  cases o with
  | none => rfl
  | some x => simp [← h x rfl]

theorem OnlyTrace.refl (c : CoreId) (s : State) : OnlyTrace c s s where
  cur := rfl
  clock := rfl
  tickets := rfl
  keeps := Keeps.refl _ s
  others := OtherCores.refl c s
  core := ⟨((s.core? c).map Core.tracectl).getD 0, (map_tracectl_self _ _ fun x hx => by simp [hx]).symm⟩
  positions _ _ := rfl
  pos := ⟨_, _, rfl⟩

theorem OnlyTrace.trans (h : OnlyTrace c s t) (g : OnlyTrace c t u) : OnlyTrace c s u where
  cur := g.cur.trans h.cur
  clock := g.clock.trans h.clock
  tickets := g.tickets.trans h.tickets
  keeps := h.keeps.trans g.keeps
  others := h.others.trans g.others
  core := by
    obtain ⟨w, hw⟩ := h.core
    obtain ⟨v, hv⟩ := g.core
    exact ⟨v, by rw [hv, hw, Option.map_map]; rfl⟩
  positions := h.positions.trans g.positions
  pos := by
    obtain ⟨_, _, hp⟩ := h.pos
    obtain ⟨tr, n, hq⟩ := g.pos
    exact ⟨tr, n, by rw [hq, hp]⟩

/-- A write of the trace's entries or count at the position. -/
theorem onlyTrace_modPos (s : State) (c : CoreId) (f : Pos → Pos) (hf : ∀ p, ∃ tr n, f p = { p with trace := tr, tracePost := n }) :
    OnlyTrace c s (s.modPos c f) :=
  { OnlyTrace.refl c s with
    keeps := (modPos_keeps s c f).mono (by simp)
    positions := modPos_otherPositions s c f
    pos := by rw [pos_modPos_same]; exact hf _ }

/-- A trigger's end: FROZEN is set. -/
theorem onlyTrace_freeze (s : State) (c : CoreId) :
    OnlyTrace c s (s.modCore c fun k => { k with tracectl := k.tracectl ||| frozenBit }) :=
  { OnlyTrace.refl c s with
    keeps := (modCore_keeps s c _).mono (by simp)
    others := modCore_otherCores s c _
    core := by
      rw [core?_modCore_same]
      cases hc : s.core? c with
      | none => exact ⟨0, rfl⟩
      | some core => exact ⟨_, rfl⟩ }

theorem record_onlyTrace (s : State) (c : CoreId) (k kind : Nat) (write : Bool) (payload : Word) :
    OnlyTrace c s (s.record c k kind write payload) := by
  unfold State.record
  split
  · exact OnlyTrace.refl c s
  · split
    · have entry (e : Nat × Nat) : OnlyTrace c s (s.modPos c fun p => { p with trace := (e :: p.trace).take 1024 }) :=
        onlyTrace_modPos s c _ fun _ => ⟨_, _, rfl⟩
      dsimp only
      split
      · exact entry _
      · split
        · exact ((entry _).trans (onlyTrace_modPos _ c _ fun _ => ⟨_, _, rfl⟩)).trans (onlyTrace_freeze _ c)
        · exact (entry _).trans (onlyTrace_modPos _ c _ fun _ => ⟨_, _, rfl⟩)
    · exact OnlyTrace.refl c s

theorem trigger_onlyTrace (s : State) (c : CoreId) : OnlyTrace c s (s.trigger c) := by
  unfold State.trigger
  split
  · exact OnlyTrace.refl c s
  · split
    · dsimp only
      split
      · exact onlyTrace_freeze s c
      · exact onlyTrace_modPos s c _ fun _ => ⟨_, _, rfl⟩
    · exact OnlyTrace.refl c s

theorem recordMem_onlyTrace (s : State) (c : CoreId) (k : Nat) (write : Bool) (a : Word) : OnlyTrace c s (s.recordMem c k write a) := by
  unfold State.recordMem
  split
  · exact record_onlyTrace s c k 3 write a
  · exact OnlyTrace.refl c s

theorem recordTrap_onlyTrace (s : State) (c : CoreId) (k seq cause : Nat) : OnlyTrace c s (s.recordTrap c k seq cause) := by
  unfold State.recordTrap
  dsimp only
  split
  · exact (record_onlyTrace s c k 5 false _).trans (trigger_onlyTrace _ c)
  · exact record_onlyTrace s c k 5 false _

-- what follows from it
theorem OnlyTrace.core_some (h : OnlyTrace c s t) (hc : s.core? c = some core) : ∃ w, t.core? c = some { core with tracectl := w } := by
  obtain ⟨w, hw⟩ := h.core
  exact ⟨w, by rw [hw, hc]; rfl⟩

theorem OnlyTrace.jobs (h : OnlyTrace c s t) : t.jobs = s.jobs := h.keeps.jobs (by simp)
theorem OnlyTrace.modules (h : OnlyTrace c s t) : t.modules = s.modules := h.keeps.modules (by simp)
theorem OnlyTrace.net (h : OnlyTrace c s t) : t.net = s.net := h.keeps.net (by simp)

theorem OnlyTrace.tcm (h : OnlyTrace c s t) (d : CoreId) : (t.core? d).map Core.tcm = (s.core? d).map Core.tcm := by
  by_cases hd : d = c
  · obtain ⟨w, hw⟩ := h.core
    rw [hd, hw, Option.map_map]
    rfl
  · rw [h.others d hd]

theorem OnlyTrace.home (h : OnlyTrace c s t) (a : Nat) (d : Dest) : t.home a d = s.home a d := home_congr h.jobs h.tcm a d

/-- The issuer still issues; its core's `tracectl` may differ. -/
theorem OnlyTrace.issuer (h : OnlyTrace i.c s t) (hi : s.issuer? = some i) :
    ∃ w, t.issuer? = some { i with core := { i.core with tracectl := w } } := by
  obtain ⟨hcur, hc, hj, hx, hl⟩ := issuer_spec hi
  obtain ⟨w, hw⟩ := h.core_some hc
  refine ⟨w, (issuer?_eq (h.cur.trans hcur) hw (j := i.job) ?_ (hx ▸ hl)).trans ?_⟩
  · simp only [State.job?, h.jobs]; exact hj
  · rw [← hx]; rfl

end Sys2Proof.Machine

/-! Addresses of base accesses (R102 to R106), the bytes at a home (R10, R240), and eager writes in flight (R292). -/

namespace Sys2Proof.Machine

open Sys2Proof.Laws

variable {s t : State} {i : Issuer} {c : CoreId} {a : Word} {n : Nat} {d : Dest}

-- addresses of base accesses (R102 to R106)
theorem baseAddr_eq (k : Ctx) (rs1 : R5) (imm : BitVec 12) : baseAddr k rs1 imm = k.getX rs1 + sext12 imm := by
  unfold baseAddr sext12 BitVec.signExtend
  rw [BitVec.ofInt_add, BitVec.ofInt_toInt]

/-- The form code of a local space (R102). -/
def Space.form : Space → Nat
  | .tcm => 0
  | .qsp => 1
  | .dss => 2

theorem LocalAt.toNat_eq (h : LocalAt i a n d) : a.toNat = d.space.form * 2 ^ 60 + d.off := by
  obtain ⟨-, ha, -⟩ := h
  rw [ha]
  cases d.space <;> rfl

theorem LocalAt.form (h : LocalAt i a n d) : addrForm a = d.space.form := by
  have ha := h.toNat_eq
  obtain ⟨-, -, hoff, -⟩ := h
  unfold addrForm
  omega

theorem LocalAt.addrOff (h : LocalAt i a n d) : addrOff a = d.off := by
  have ha := h.toNat_eq
  obtain ⟨-, -, hoff, -⟩ := h
  unfold Machine.addrOff
  omega

theorem LocalAt.not_mesh (h : LocalAt i a n d) : isMesh a = false := by
  unfold isMesh
  rw [h.form]
  cases d.space <;> rfl

theorem LocalAt.formOk (h : LocalAt i a n d) : formOk baseForms a = true := by
  have hr : a.toNat / 2 ^ 36 % 2 ^ 24 = 0 := by
    have ha := h.toNat_eq
    obtain ⟨-, -, hoff, -⟩ := h
    omega
  unfold Machine.formOk
  rw [h.form]
  cases d.space <;> simpa [Space.form, baseForms] using hr

theorem LocalAt.locate (h : LocalAt i a n d) : locate i.c a = some d := by
  have hf := h.form
  have ho := h.addrOff
  obtain ⟨hc, -⟩ := h
  unfold Machine.locate
  obtain ⟨dc, ds, doff⟩ := d
  subst hc
  simp only [hf, ho]
  cases ds <;> rfl

/-- The widths of base loads and stores (R128). -/
def isWidth (n : Nat) : Prop := n = 1 ∨ n = 2 ∨ n = 4 ∨ n = 8

theorem isWidth.dvd (h : isWidth n) : n ∣ 2 ^ 60 := by
  obtain rfl | rfl | rfl | rfl := h <;> decide

theorem LocalAt.aligned (h : LocalAt i a n d) (hn : isWidth n) : a.toNat % n = 0 := by
  rw [h.toNat_eq]
  obtain ⟨-, -, -, hal, -⟩ := h
  exact Nat.mod_eq_zero_of_dvd (dvd_add (hn.dvd.mul_left _) (Nat.dvd_of_mod_eq_zero hal))

/-- An access that meets none of the traps of R106 goes to the location that its address names. -/
theorem checkAddr_ok {j : Job} {l : Level} {store : Bool} (hf : formOk baseForms a = true) (ha : a.toNat % n = 0) (hl : locate c a = some d)
    (hlim : d.off + n ≤ j.limitOf d.space) (hg : store = true → j.guarded d.space d.off n l = false) :
    checkAddr j c l baseForms n n store a = .ok d := by
  have hs : (store && j.guarded d.space d.off n l) = false := by
    cases store
    · rfl
    · exact hg rfl
  simp [checkAddr, hf, ha, hl, hlim, hs]

theorem LocalAt.checkAddr {l : Level} {store : Bool} (h : LocalAt i a n d) (hn : isWidth n)
    (hg : store = true → i.job.guarded d.space d.off n l = false) : checkAddr i.job i.c l baseForms n n store a = .ok d := by
  have hf := h.formOk
  have ha := h.aligned hn
  have hl := h.locate
  obtain ⟨-, -, -, -, hlim⟩ := h
  exact checkAddr_ok hf ha hl hlim hg

theorem MeshAt.isMesh (h : MeshAt i a n d) : isMesh a = true := by
  obtain ⟨hf, -⟩ := h
  unfold Machine.isMesh
  rcases hf with hf | ⟨hf, -⟩ <;> simp [hf]

theorem MeshAt.formOk (h : MeshAt i a n d) : formOk baseForms a = true := by
  obtain ⟨hf, -⟩ := h
  unfold Machine.formOk
  rcases hf with hf | ⟨hf, hr⟩
  · simp [hf, baseForms]
  · simpa [hf, baseForms] using hr

theorem MeshAt.checkAddr {l : Level} {store : Bool} (h : MeshAt i a n d) (hg : store = true → i.job.guarded d.space d.off n l = false) :
    checkAddr i.job i.c l baseForms n n store a = .ok d := by
  have hf := h.formOk
  obtain ⟨-, hl, ha, hlim⟩ := h
  exact checkAddr_ok hf ha hl hlim hg

-- the bytes of a location
/-- The number that a read at a home gives is that of its bytes, the lowest first. -/
theorem readMem_eq_sum (m : Memory) : ∀ (n a : Nat), readMem m a n = ((List.range n).map fun k => (readByte m (a + k)).toNat * 256 ^ k).sum
  | 0, _ => rfl
  | n + 1, a => by
    have next (k : Nat) : (readByte m (a + (k + 1))).toNat * 256 ^ (k + 1) = 256 * ((readByte m (a + 1 + k)).toNat * 256 ^ k) := by
      rw [show a + (k + 1) = a + 1 + k by omega]; ring
    rw [List.range_succ_eq_map, List.map_cons, List.map_map, List.sum_cons, readMem, readMem_eq_sum m n (a + 1), ← List.sum_map_mul_left]
    simp only [Function.comp_def, Nat.succ_eq_add_one, next, pow_zero, mul_one, Nat.add_zero]

theorem bytesAt_eq_rd (s : State) (asid : Nat) (d : Dest) (n : Nat) : s.bytesAt asid d n = s.rd asid d n := by
  unfold State.bytesAt State.rd
  rw [readMem_eq_sum]
  rfl

-- eager writes in flight and poisoned spills depend on messages and modules
theorem settled_congr (hm : t.modules = s.modules) (asid : Nat) (d : Dest) : t.settled asid d = s.settled asid d := by
  simp only [State.settled, State.forwarded, State.die, State.module?, hm]

theorem eagerOver_congr (hm : t.modules = s.modules) (m : Msg) (c : CoreId) (k : Nat) (d : Dest) (n : Nat) :
    t.eagerOver m c k d n = s.eagerOver m c k d n := by
  simp only [State.eagerOver, settled_congr hm]

theorem spillPoison_congr (hm : t.modules = s.modules) (asid : Nat) (d : Dest) (n : Nat) : t.spillPoison asid d n = s.spillPoison asid d n := by
  simp only [State.spillPoison, State.poisoned, State.poisonAt, State.module?, hm]

/-- With no eager write of the context to the bytes in flight, an access to them performs at once (R292). -/
theorem settleOwn_none {k : Nat} (h : ∀ m ∈ s.net, s.eagerOver m c k d n = false) : s.settleOwn c k d n = s := by
  have hf : s.net.findIdx? (fun m => s.eagerOver m c k d n) = none := by
    rw [List.findIdx?_eq_none_iff]
    exact h
  unfold State.settleOwn
  cases s.net.length with
  | zero => rfl
  | succ f => simp only [State.flushOwn, hf]

theorem NoEagerOver.settleOwn (h : NoEagerOver s i d n) (ht : OnlyTrace i.c s t) : t.settleOwn i.c i.k d n = t :=
  settleOwn_none fun m hm => (eagerOver_congr ht.modules m i.c i.k d n).trans (h m (ht.net ▸ hm))

end Sys2Proof.Machine

/-! Abort conditions (R331): ending the waits of a core, its vote, and traps and poison that end so (R322, R336). -/

namespace Sys2Proof.Machine

open Sys2Proof.Laws

variable {s t u : State} {i : Issuer} {c : CoreId} {core k k' k'' : Core}

-- ending the waits of a core (R331)
/-- Between two cores only loop counters and the coprocessor ring differ: what a push that is undone gives back (R151). -/
def OnlyRestores (k k' : Core) : Prop :=
  (∃ cs r, k' = { k with ctxs := cs, ring := r }) ∧ ∀ n, ∃ l, k'.ctx n = { k.ctx n with lc := l }

theorem OnlyRestores.refl (k : Core) : OnlyRestores k k := ⟨⟨k.ctxs, k.ring, rfl⟩, fun n => ⟨(k.ctx n).lc, rfl⟩⟩

theorem OnlyRestores.trans (h : OnlyRestores k k') (g : OnlyRestores k' k'') : OnlyRestores k k'' := by
  obtain ⟨⟨_, _, rfl⟩, hx⟩ := h
  obtain ⟨⟨cs, r, rfl⟩, gx⟩ := g
  refine ⟨⟨cs, r, rfl⟩, fun n => ?_⟩
  obtain ⟨l, hl⟩ := hx n
  obtain ⟨m, hm⟩ := gx n
  exact ⟨m, by rw [hm, hl]⟩

theorem restoreLc_onlyRestores (k : Core) (n : Nat) (lc : Option (Nat × Word)) : OnlyRestores k (k.restoreLc n lc) := by
  unfold Core.restoreLc
  split
  · refine ⟨⟨_, k.ring, rfl⟩, fun m => ?_⟩
    by_cases h : m = n
    · subst h
      exact ⟨_, ctx_modCtx_same k m _⟩
    · exact ⟨_, ctx_modCtx_ne k _ h⟩
  · exact OnlyRestores.refl k

theorem onlyRestores_ring (k : Core) (r : Dict RingEntry) : OnlyRestores k { k with ring := r } := ⟨⟨k.ctxs, r, rfl⟩, fun n => ⟨(k.ctx n).lc, rfl⟩⟩

theorem abandonPush_onlyRestores (k : Core) (n : Nat) (w : Wait) : OnlyRestores k (k.abandonPush n w) := by
  unfold Core.abandonPush
  split
  · exact (restoreLc_onlyRestores k n _).trans (onlyRestores_ring _ _)
  · exact restoreLc_onlyRestores k n _
  · exact OnlyRestores.refl k

theorem foldl_onlyRestores {α : Type} {f : Core → α → Core} (hf : ∀ k a, OnlyRestores k (f k a)) : ∀ (l : List α) (k : Core), OnlyRestores k (l.foldl f k)
  | [], k => OnlyRestores.refl k
  | a :: l, k => (hf k a).trans (foldl_onlyRestores hf l (f k a))

/-- A context whose wait has ended. -/
def Ctx.unwait (x : Ctx) : Ctx := { x with wait := none }

/-- Ending the waits of a core: what they had taken is given back, then no context waits. -/
theorem endWaits_spec (k : Core) : ∃ m, OnlyRestores k m ∧ k.endWaits = { m with ctxs := dmap m.ctxs fun _ x => x.unwait } := by
  refine ⟨_, foldl_onlyRestores (fun m e => ?_) k.ctxs k, rfl⟩
  split
  · exact abandonPush_onlyRestores m _ _
  · exact OnlyRestores.refl m

theorem endWaits_eq (k : Core) : ∃ cs r, k.endWaits = { k with ctxs := cs, ring := r } := by
  obtain ⟨_, ⟨⟨cs, r, rfl⟩, -⟩, h⟩ := endWaits_spec k
  exact ⟨_, _, h⟩

theorem endWaits_ctx (k : Core) (n : Nat) : ∃ l, k.endWaits.ctx n = { k.ctx n with wait := none, lc := l } := by
  obtain ⟨m, ⟨-, hm⟩, h⟩ := endWaits_spec k
  obtain ⟨l, hl⟩ := hm n
  have unwaited : k.endWaits.ctx n = (m.ctx n).unwait := by
    rw [h]
    simp only [Core.ctx, dgetD, dget?_dmap]
    cases dget? m.ctxs n <;> rfl
  exact ⟨l, by rw [unwaited, hl]; rfl⟩

-- an abort condition (R331)
/-- A core that has recorded its first abort condition: it has voted and stopped, and no context waits. -/
def Core.aborted (k : Core) (cause : Nat) : Core := { ({ k with abort := some (k.abort.getD cause), phase := .voted } : Core).endWaits with stopped := true }

theorem aborted_eq (k : Core) (cause : Nat) : ∃ cs r, k.aborted cause =
    { k with abort := some (k.abort.getD cause), phase := .voted, stopped := true, ctxs := cs, ring := r } := by
  obtain ⟨cs, r, h⟩ := endWaits_eq { k with abort := some (k.abort.getD cause), phase := .voted }
  exact ⟨cs, r, by rw [Core.aborted, h]⟩

theorem aborted_ctx (k : Core) (cause n : Nat) : ∃ l, (k.aborted cause).ctx n = { k.ctx n with wait := none, lc := l } :=
  endWaits_ctx { k with abort := some (k.abort.getD cause), phase := .voted } n

/-- The vote to abort of a core (R283). -/
def Core.abortVote (k : Core) (cause : Nat) : MsgKind := .vote { index := k.index, abort := true, cause := cause, op := 0, val := 0 } k.ssn

/-- The first abort condition of an active core stops it and sends its vote. -/
theorem abortCondition_active (cause : Nat) (hc : s.core? c = some core) (ha : core.active = true) :
    s.abortCondition c cause =
      ((s.modCore c fun k => { k with abort := some (k.abort.getD cause), phase := .voted }).stopCore c).post c core.asid (core.abortVote cause) := by
  have ho : (core.open_ && !core.stopped) = true := ha
  have hd : core.dead = false := by
    simp only [Core.active, Core.open_, Bool.and_eq_true, Bool.not_eq_true'] at ha
    obtain ⟨⟨-, hdead⟩, -⟩ := ha
    exact hdead
  simp only [State.abortCondition, hc, hd, ho, Core.abortVote]
  rfl

theorem abortCondition_core (cause : Nat) (hc : s.core? c = some core) (ha : core.active = true) :
    (s.abortCondition c cause).core? c = some (core.aborted cause) := by
  rw [abortCondition_active cause hc ha]
  change (((s.modCore c _).modCore c _).core? c) = _
  rw [core?_modCore_same, core?_modCore_same, hc]
  rfl

theorem abortCondition_others (cause : Nat) (hc : s.core? c = some core) (ha : core.active = true) : OtherCores c s (s.abortCondition c cause) := by
  rw [abortCondition_active cause hc ha]
  exact (modCore_otherCores s c _).trans ((modCore_otherCores _ c _).trans (otherCores_of_cores c rfl))

theorem abortCondition_net (cause : Nat) (hc : s.core? c = some core) (ha : core.active = true) :
    (s.abortCondition c cause).net = s.net ++
      [{ src := c, ctx := 0, asid := core.asid, uid := s.tickets, seq := 0, cmd := none, kind := core.abortVote cause }] := by
  rw [abortCondition_active cause hc ha]
  rfl

theorem abortCondition_keeps (cause : Nat) (hc : s.core? c = some core) (ha : core.active = true) :
    Keeps [.cores, .net, .modules] s (s.abortCondition c cause) := by
  rw [abortCondition_active cause hc ha]
  have h1 := modCore_keeps s c fun k => { k with abort := some (k.abort.getD cause), phase := .voted }
  have h2 := modCore_keeps (s.modCore c fun k => { k with abort := some (k.abort.getD cause), phase := .voted }) c fun k => { k.endWaits with stopped := true }
  exact (((h1.trans h2).mono (by simp)).trans ((modQuad_keeps _ _ _).mono (by simp))).trans ((send_keeps _ _ _ _ _ _ _).mono (by simp))

theorem sameRegisters_of_core (ho : OtherCores c s t) (hc : ∀ n, ∃ w l, t.ctxOf c n = { s.ctxOf c n with wait := w, lc := l }) : SameRegisters s t := by
  intro d n
  by_cases h : d = c
  · obtain ⟨w, l, hx⟩ := hc n
    rw [h, hx]
    exact ⟨fun _ => rfl, fun _ => rfl, fun _ => rfl, rfl, rfl⟩
  · rw [ctxOf_congr (ho d h)]
    exact ⟨fun _ => rfl, fun _ => rfl, fun _ => rfl, rfl, rfl⟩

/-- An abort condition that the issuing core records, after changes to its trace and the page of poison it met, is one that `AbortsAttempt` describes. -/
theorem abortCondition_aborts {w : Word} {p : Option Nat} (cause : Nat) (hi : s.issuer? = some i) (ha : i.core.active = true)
    (ht : t.core? i.c = some { i.core with tracectl := w, poisonMet := p }) (ho : OtherCores i.c s t) (hk : Keeps [.cores, .positions] s t) :
    AbortsAttempt s i cause (.next (t.abortCondition i.c cause)) ∧
      ∃ core', (t.abortCondition i.c cause).core? i.c = some core' ∧ core'.poisonMet = p := by
  obtain ⟨-, hc, -, hx, -⟩ := issuer_spec hi
  have hu := abortCondition_core cause ht ha
  have ctxs (n : Nat) : ∃ l, (t.abortCondition i.c cause).ctxOf i.c n = { s.ctxOf i.c n with wait := none, lc := l } := by
    rw [ctxOf_of_core? hu, ctxOf_of_core? hc]
    exact aborted_ctx _ cause n
  have others := ho.trans (abortCondition_others cause ht ha)
  have keeps := (hk.mono (w' := [.cores, .net, .modules, .positions]) (by simp)).trans ((abortCondition_keeps cause ht ha).mono (by simp))
  obtain ⟨cs, r, heq⟩ := aborted_eq { i.core with tracectl := w, poisonMet := p } cause
  have waits (n : Nat) := aborted_ctx { i.core with tracectl := w, poisonMet := p } cause n
  obtain ⟨l, hl⟩ := ctxs i.k
  rw [issuer_ctxOf hi] at hl
  refine ⟨⟨_, _, rfl, hu, ?_, ?_, ?_, ?_, fun n => ?_, by rw [hl], by rw [hl], ⟨t.tickets, ?_⟩, others, ?_, ?_, keeps⟩, _, hu, ?_⟩
  · rw [heq]
  · rw [heq]
  · rw [heq]
  · rw [heq]; simp [Core.active]
  · obtain ⟨l, hl⟩ := waits n
    rw [hl]
  · rw [abortCondition_net cause ht ha, hk.net (by simp)]
    rfl
  · exact sameRegisters_of_core others fun n => ⟨none, ctxs n⟩
  · refine sameMemory_of_core (keeps.jobs (by simp)) others ?_
    rw [hu, hc, heq]
    rfl
  · rw [heq]

/-- A precise trap whose disposition is an abort condition (R322): at service level, with no handler, or for POISON. -/
theorem trap_eq_abort {n cause : Nat} {tval : Word} (hc : s.core? c = some core)
    (hd : (core.ctx n).level = .service ∨ (core.ctx n).level = .job ∧ (((s.job? core.asid).map Job.handler).getD 0 = 0 ∨ cause = cPOISON)) :
    s.trap c n cause tval = (s.recordTrap c n 0 cause).abortCondition c cause := by
  have ht := recordTrap_onlyTrace s c n 0 cause
  obtain ⟨w, hw⟩ := ht.core_some hc
  have hj : (s.recordTrap c n 0 cause).job? core.asid = s.job? core.asid := by simp only [State.job?, ht.jobs]
  have hx : ({ core with tracectl := w } : Core).ctx n = core.ctx n := rfl
  simp only [State.trap, hc, State.takeTrap, Option.getD_none, hw, hj, hx]
  rcases hd with hl | ⟨hl, hh⟩
  · simp only [hl]
  · have hb : (decide (((s.job? core.asid).map Job.handler).getD 0 = 0) || cause == cPOISON) = true := by simpa using hh
    simp only [hl, hb, if_true]

/-- Poison that an access of the issuing context meets, whatever it has traced: an abort condition, and the page is kept (R106, R331, R336). -/
theorem metPoison_trap_meetsPoison (hi : s.issuer? = some i) (ht : OnlyTrace i.c s t) (pa : Nat) :
    MeetsPoison s i pa (.next ((t.metPoison i.c pa).trap i.c i.k cPOISON 0)) := by
  intro hlevel hactive
  obtain ⟨-, hc, -, hx, -⟩ := issuer_spec hi
  obtain ⟨w, hw⟩ := ht.core_some hc
  have hp : (t.metPoison i.c pa).core? i.c = some { i.core with tracectl := w, poisonMet := some (pa / 4096 * 4096) } := by
    rw [State.metPoison, core?_modCore_same, hw]
    rfl
  have hd : (i.core.ctx i.k).level = .service ∨ (i.core.ctx i.k).level = .job := by
    rw [hx]
    cases h : i.ctx.level <;> simp_all
  have hr := recordTrap_onlyTrace (t.metPoison i.c pa) i.c i.k 0 cPOISON
  obtain ⟨v, hv⟩ := hr.core_some hp
  rw [trap_eq_abort hp (hd.imp_right fun h => ⟨h, .inr rfl⟩)]
  obtain ⟨aborts, core', hu, hmet⟩ := abortCondition_aborts cPOISON hi hactive hv (ht.others.trans ((modCore_otherCores _ _ _).trans hr.others))
    (ht.keeps.trans (((modCore_keeps _ _ _).mono (by simp)).trans hr.keeps))
  exact ⟨aborts, _, core', rfl, hu, hmet⟩

end Sys2Proof.Machine

/-! Base loads by a local form (R128, R240). -/

namespace Sys2Proof.Machine

open Sys2Proof.Laws

variable {s t : State} {i : Issuer} {d : Dest}

/-- An instruction of the base loads is the load of its form. -/
theorem exec_of_loadForm {ins : Instr} {rd rs1 : R5} {imm : BitVec 12} {n : Nat} {signed float : Bool}
    (h : loadForm ins = some (rd, rs1, imm, n, signed, float)) (s : State) : isWidth n ∧ exec ins s = load s rd rs1 imm n signed float := by
  unfold loadForm at h
  split at h <;> cases h <;> exact ⟨by simp [isWidth], rfl⟩

theorem loadWord_eq_extended (n v : Nat) (signed : Bool) : loadWord n v signed = extended n v signed := by
  unfold loadWord extended
  split
  · exact congrArg (BitVec.ofInt 64) (BitVec.toInt_ofNat _)
  · rfl

theorem reading_of_none {c : CoreId} {k asid n : Nat} (h : s.spillPoison asid d n = none) : s.reading c k asid d n t = t := by
  simp only [State.reading, h]

theorem reading_of_some {c : CoreId} {k asid n pa : Nat} (h : s.spillPoison asid d n = some pa) :
    s.reading c k asid d n t = (s.metPoison c pa).trap c k cPOISON 0 := by
  simp only [State.reading, h]

/-- A load by a local form with no eager write of its own in flight reads at the home, or meets poison, in the state `t` with its trace entry. -/
theorem load_local {rd rs1 : R5} {imm : BitVec 12} {n : Nat} {signed float : Bool} (hi : s.issuer? = some i) (hn : isWidth n)
    (ha : LocalAt i (baseAddr i.ctx rs1 imm) n d) (he : NoEagerOver s i d n) (ht : t = s.recordMem i.c i.k false (baseAddr i.ctx rs1 imm)) :
    load s rd rs1 imm n signed float =
      .next (t.reading i.c i.k i.core.asid d n (t.finish i (i.ctx.setLoad rd n signed float (s.bytesAt i.core.asid d n)))) := by
  have htrace : OnlyTrace i.c s t := ht ▸ recordMem_onlyTrace s i.c i.k false _
  have hok : checkAddr i.job i.c i.ctx.level baseForms n n false (baseAddr i.ctx rs1 imm) = .ok d := ha.checkAddr hn nofun
  have hv : t.rd i.core.asid d n = s.bytesAt i.core.asid d n := by
    rw [bytesAt_eq_rd, State.rd, htrace.home]
    rfl
  rw [load, issue_eq hi]
  simp only [← baseAddr_eq, hok, ha.not_mesh, ← ht, he.settleOwn htrace, hv]
  rfl

/-- Settles O8: such a load reads the bytes at their home and completes, or meets poison where they are spilled. -/
theorem localLoads : Obligations.LocalLoads := by
  intro s i ins rd rs1 imm n signed float d hi hform ha he s0
  obtain ⟨hn, hexec⟩ := exec_of_loadForm hform s
  have ht : OnlyTrace i.c s s0 := recordMem_onlyTrace s i.c i.k false _
  have hload := hexec.trans (load_local (t := s0) hi hn ha he rfl)
  have hspill := spillPoison_congr ht.modules i.core.asid d n
  unfold Reads
  cases hp : s.spillPoison i.core.asid d n with
  | none =>
    obtain ⟨w, hi0⟩ := ht.issuer hi
    rw [hload, reading_of_none (hspill.trans hp)]
    refine ⟨fun hf => ?_, fun hf => ?_⟩
    · subst hf
      rw [← loadWord_eq_extended]
      exact setRd_writesX hi0 rd _
    · subst hf
      exact setF_writesF hi0 rd _
  | some pa =>
    intro e he
    obtain rfl := List.mem_singleton.mp he
    rw [hload, reading_of_some (hspill.trans hp)]
    exact metPoison_trap_meetsPoison hi ht pa

end Sys2Proof.Machine

/-! Writes at a home (R238, R239). -/

namespace Sys2Proof.Machine

open Sys2Proof.Laws

variable {s t u : State} {i : Issuer} {d : Dest} {k : Core}

-- writes at a home
theorem core?_modCore (s : State) (c d : CoreId) (f : Core → Core) : (s.modCore c f).core? d = if c = d then (s.core? d).map f else s.core? d := by
  unfold State.core? State.modCore
  rw [dget?_dmod]
  by_cases h : c = d
  · simp [h]
  · simp [h, Ne.symm h]
theorem job?_modJob (s : State) (a b : Nat) (f : Job → Job) : (s.modJob a f).job? b = if a = b then (s.job? b).map f else s.job? b := by
  unfold State.job? State.modJob
  rw [dget?_dmod]
  by_cases h : a = b
  · simp [h]
  · simp [h, Ne.symm h]
theorem modJob_otherJobs (s : State) (a : Nat) (f : Job → Job) : OtherJobs a s (s.modJob a f) := fun b hb => by rw [job?_modJob, if_neg (Ne.symm hb)]
theorem dgetD_dset {α : Type} (d : Dict α) (k e : Nat) (a z : α) : dgetD (dset d k a) e z = if k = e then a else dgetD d e z := by
  by_cases h : k = e
  · rw [if_pos h, h, dgetD_dset_same]
  · rw [if_neg h, dgetD_dset_ne _ _ _ (Ne.symm h)]

/-- The location has a home: its core is placed, or the job is. -/
def State.hasHome (s : State) (asid : Nat) (d : Dest) : Prop :=
  match d.space with
  | .tcm => ∃ core, s.core? d.core = some core
  | _ => ∃ j, s.job? asid = some j

/-- Changing the memory at a home changes it for every location of that home and for no other (R238, R239). -/
theorem home_modHome {asid : Nat} (h : s.hasHome asid d) (f : Mem → Mem) (a : Nat) (d' : Dest) :
    (s.modHome asid d f).home a d' = if (d.space = .tcm ∨ a = asid) ∧ sameHome d d' = true then f (s.home a d') else s.home a d' := by
  obtain ⟨dc, ds, doff⟩ := d
  obtain ⟨dc', ds', doff'⟩ := d'
  cases ds with
  | tcm =>
    obtain ⟨core, hc⟩ := h
    cases ds' with
    | tcm => by_cases hd : dc = dc' <;> simp_all [State.modHome, State.home, sameHome, core?_modCore]
    | qsp | dss => simp [State.modHome, State.home, sameHome, State.job?]
  | qsp =>
    obtain ⟨j, hj⟩ := h
    by_cases ha : asid = a
    · subst ha
      cases ds' with
      | qsp => by_cases hq : coreQuad dc = coreQuad dc' <;> simp [State.modHome, State.home, sameHome, job?_modJob, hj, dgetD_dset, hq]
      | tcm | dss => simp [State.modHome, State.home, sameHome, job?_modJob, hj, State.core?]
    · cases ds' <;> simp [State.modHome, State.home, job?_modJob, State.core?, ha, Ne.symm ha]
  | dss =>
    obtain ⟨j, hj⟩ := h
    by_cases ha : asid = a
    · subst ha
      cases ds' with
      | dss => by_cases hq : coreDie dc = coreDie dc' <;> simp [State.modHome, State.home, sameHome, job?_modJob, hj, dgetD_dset, hq]
      | tcm | qsp => simp [State.modHome, State.home, sameHome, job?_modJob, hj, State.core?]
    · cases ds' <;> simp [State.modHome, State.home, job?_modJob, State.core?, ha, Ne.symm ha]

/-- The job-side and core-side frame of a change at a home. -/
theorem modHome_keeps (s : State) (asid : Nat) (d : Dest) (f : Mem → Mem) : Keeps [.cores, .jobs] s (s.modHome asid d f) := by
  unfold State.modHome
  split
  · exact (modCore_keeps s _ _).mono (by simp)
  · exact (modJob_keeps s _ _).mono (by simp)
  · exact (modJob_keeps s _ _).mono (by simp)

theorem modHome_otherJobs (s : State) (asid : Nat) (d : Dest) (f : Mem → Mem) : OtherJobs asid s (s.modHome asid d f) := by
  unfold State.modHome
  split
  · exact fun _ _ => rfl
  · exact modJob_otherJobs s _ _
  · exact modJob_otherJobs s _ _

theorem modHome_otherCores (s : State) (asid : Nat) (d : Dest) (f : Mem → Mem) : OtherCores d.core s (s.modHome asid d f) := by
  unfold State.modHome
  split
  · exact modCore_otherCores s _ _
  · exact otherCores_of_cores _ rfl
  · exact otherCores_of_cores _ rfl

/-- A change at a home leaves all of the core but its TCM. -/
theorem modHome_core (asid : Nat) (d : Dest) (f : Mem → Mem) (hc : s.core? d.core = some k) :
    ∃ m, (s.modHome asid d f).core? d.core = some { k with tcm := m } := by
  unfold State.modHome
  split
  · exact ⟨f k.tcm, by rw [core?_modCore, if_pos rfl, hc]; rfl⟩
  · exact ⟨k.tcm, hc⟩
  · exact ⟨k.tcm, hc⟩

/-- A write at a home: its bytes are there, every byte that it does not store is as before (R10, R239). -/
theorem wr_storesBytes {asid n : Nat} (v : Nat) (h : s.hasHome asid d) : StoresBytes s (s.wr asid d n v) asid d n v := by
  have hs : sameHome d d = true := by cases hd : d.space <;> simp [sameHome, hd]
  refine ⟨?_, fun a d' hout => ?_⟩
  · rw [bytesAt_eq_rd, State.rd, State.wr, home_modHome h, if_pos ⟨.inr rfl, hs⟩]
    exact (readMem_writeMem_same n _ _ v).trans (by rw [pow_mul]; norm_num)
  · unfold State.byteAt
    rw [State.wr, home_modHome h]
    split_ifs with hin
    · refine readByte_writeMem_ne n _ _ _ _ ?_
      by_contra hr
      exact hout ⟨hin.1, hin.2, by omega, by omega⟩
    · rfl

/-- A store is measured by the bytes that stood before it, whatever else changed meanwhile. -/
theorem StoresBytes.congr {s' t' : State} {asid n v : Nat} (h : StoresBytes s t asid d n v) (hs : SameMemory s' s) (ht : SameMemory t t') :
    StoresBytes s' t' asid d n v := by
  refine ⟨?_, fun a d' hout => (ht a d').trans ((h.2 a d' hout).trans (hs a d'))⟩
  have : t'.bytesAt asid d n = t.bytesAt asid d n := by simp only [State.bytesAt, ht asid _]
  rw [this]
  exact h.1

end Sys2Proof.Machine

/-! Base stores, at once and deferred (R105, R239). -/

namespace Sys2Proof.Machine

open Sys2Proof.Laws

variable {s t u : State} {i : Issuer} {d : Dest} {core : Core} {a : Word} {n v : Nat}

-- completing with the issuing context as it was
theorem finish_core (hc : u.core? i.c = some core) (x : Ctx) : (u.finish i x).core? i.c = some (core.setCtx i.k x.advance) := by
  rw [State.finish, core?_setCtx_same, hc]
  rfl
theorem finish_otherCores (u : State) (i : Issuer) (x : Ctx) : OtherCores i.c u (u.finish i x) := modCore_otherCores u i.c _
theorem finish_sameMemory (u : State) (i : Issuer) (x : Ctx) : SameMemory u (u.finish i x) := by
  refine sameMemory_of_core rfl (finish_otherCores u i x) ?_
  rw [State.finish, core?_setCtx_same, Option.map_map]
  rfl
theorem finish_ctxOf_same (hc : u.core? i.c = some core) (x : Ctx) : (u.finish i x).ctxOf i.c i.k = x.advance := ctxOf_setCtx_same hc i.k _
/-- The other contexts of the core are as they were before the instruction. -/
theorem finish_ctxOf_ne (hi : s.issuer? = some i) (hc : u.core? i.c = some core) (hx : core.ctxs = i.core.ctxs) (x : Ctx) {k : Nat} (hk : k ≠ i.k) :
    (u.finish i x).ctxOf i.c k = s.ctxOf i.c k := by
  obtain ⟨-, hcore, -⟩ := issuer_spec hi
  rw [ctxOf_of_core? (finish_core hc x), ctxOf_of_core? hcore, ctx_setCtx_ne _ _ hk]
  simp only [Core.ctx, hx]

/-- The issuing context, past its instruction and otherwise as it was. -/
theorem finish_self_completed (hc : u.core? i.c = some core) : Completed i (u.finish i i.ctx) :=
  completed_of_advance (finish_ctxOf_same hc i.ctx) rfl rfl
theorem finish_self_frame (hc : u.core? i.c = some core) : CtxFrame [] i.ctx ((u.finish i i.ctx).ctxOf i.c i.k) := by
  rw [finish_ctxOf_same hc]
  exact advance_frame i.ctx

-- base stores
/-- The value that a base store takes from a context. -/
def storeValue : Instr → Ctx → Nat
  | .sb rs2 _ _ | .sh rs2 _ _ | .sw rs2 _ _ | .sd rs2 _ _ => fun k => (k.getX rs2).toNat
  | .fsw fs2 _ _ => fun k => (k.getF fs2).toNat
  | _ => fun _ => 0

/-- An instruction of the base stores is the store of its form. -/
theorem exec_of_storeForm {ins : Instr} {k : Ctx} {rs1 : R5} {imm : BitVec 12} (h : storeForm k ins = some (rs1, imm, n, v)) (s : State) :
    isWidth n ∧ storeValue ins k = v ∧ exec ins s = store s rs1 imm n (storeValue ins) := by
  unfold storeForm at h
  split at h <;> cases h <;> exact ⟨by simp [isWidth], rfl, rfl⟩

theorem mod_two_pow_bytes (n v : Nat) : v % 2 ^ (8 * n) = v % 256 ^ n := by
  rw [pow_mul]
  norm_num

/-- A store that the placement map and the CODE ranges allow is not guarded (R97, R106, R326). -/
theorem not_guarded_of_mayStore (h : MayStore i d n) : i.job.guarded d.space d.off n i.ctx.level = false := by
  by_cases hd : d.space = .dss
  · obtain ⟨hlim, hcode⟩ := h hd
    have hcodes : i.ctx.level = .job → i.job.inCode d.off n = false := by
      intro hl
      simp only [Job.inCode, List.any_eq_false, Bool.and_eq_true, decide_eq_true_eq, not_and]
      intro r hr
      have := hcode hl r hr
      omega
    by_cases hl : i.ctx.level = .job
    · simp [Job.guarded, hcodes hl, hlim]
    · simp [Job.guarded, hl, hlim]
  · simp [Job.guarded, hd]

/-- A store that is checked and traced, before it completes. -/
theorem store_ok {rs1 : R5} {imm : BitVec 12} {value : Ctx → Nat} (hi : s.issuer? = some i)
    (hok : checkAddr i.job i.c i.ctx.level baseForms n n true (baseAddr i.ctx rs1 imm) = .ok d) :
    store s rs1 imm n value = .next (((s.recordMem i.c i.k true (baseAddr i.ctx rs1 imm)).storeClass i.c i.k i.core.asid 0 none
      (baseAddr i.ctx rs1 imm) d n (value i.ctx % 256 ^ n)).finish i i.ctx) := by
  rw [store, issue_eq hi]
  simp only [← baseAddr_eq, hok, mod_two_pow_bytes]

/-- By a local form to TCM or quad scratchpad a store performs now (R239). -/
theorem storeClass_now {c : CoreId} {k asid seq : Nat} {cmd : Option Nat} (hm : isMesh a = false) (hd : d.space ≠ .dss) (he : s.settleOwn c k d n = s) :
    s.storeClass c k asid seq cmd a d n v = s.wr asid d n v := by
  simp [State.storeClass, hm, hd, he]

theorem immediateStoresRule : ImmediateStoresRule := by
  intro s i ins rs1 imm n v d hi hform ha hd he
  obtain ⟨hn, hv, hexec⟩ := exec_of_storeForm hform s
  obtain ⟨-, hcore, hjob, -⟩ := issuer_spec hi
  have hdc : d.core = i.c := by obtain ⟨h, -⟩ := ha; exact h
  have ht := recordMem_onlyTrace s i.c i.k true (baseAddr i.ctx rs1 imm)
  set s0 := s.recordMem i.c i.k true (baseAddr i.ctx rs1 imm)
  obtain ⟨w, hw⟩ := ht.core_some hcore
  have hhome : s0.hasHome i.core.asid d := by
    unfold State.hasHome
    split
    · exact ⟨_, hdc ▸ hw⟩
    · exact ⟨_, by simp only [State.job?, ht.jobs]; exact hjob⟩
  obtain ⟨m, hm⟩ := modHome_core i.core.asid d (fun m => m.put d.off n (v % 256 ^ n)) (hdc ▸ hw)
  have hu : (s0.wr i.core.asid d n (v % 256 ^ n)).core? i.c = some { i.core with tracectl := w, tcm := m } := hdc ▸ hm
  have hguard : i.job.guarded d.space d.off n i.ctx.level = false := by simp [Job.guarded, hd]
  rw [hexec, store_ok hi (ha.checkAddr hn fun _ => hguard), hv, storeClass_now ha.not_mesh hd (he.settleOwn ht)]
  refine ⟨_, rfl, finish_self_completed hu, finish_self_frame hu, ?_, ?_, ?_, ?_, fun k hk => finish_ctxOf_ne hi hu rfl _ hk, ?_, ?_⟩
  · have := (wr_storesBytes (n := n) (v % 256 ^ n) hhome).congr (s' := s) (sameMemory_of_tcm ht.jobs ht.tcm) (finish_sameMemory _ i i.ctx)
    rwa [StoresBytes, Nat.mod_mod] at this
  · exact (modHome_keeps s0 _ d _).trans ((finish_keeps _ i _).mono (by simp))
  · exact ht.others.trans ((hdc ▸ modHome_otherCores s0 i.core.asid d _).trans (finish_otherCores _ i _))
  · exact fun b hb => (modHome_otherJobs s0 i.core.asid d _ b hb).trans (by simp only [State.job?, ht.jobs])
  · rw [finish_core hu]
    rfl
  · rw [finish_core hu]
    rfl

/-- By a mesh form, or to die shared SRAM, a store is added to the deferred writes, and by a mesh form a check of membership sets out (R105, R239). -/
theorem storeClass_deferred {c : CoreId} {k asid seq : Nat} {cmd : Option Nat} {mesh : Bool} (hm : isMesh a = mesh) (hd : mesh = true ∨ d.space = .dss)
    (hc : s.core? c = some core) (hu : u = s.storeClass c k asid seq cmd a d n v) :
    u.core? c = some { core with deferred := core.deferred ++ [{ dest := d, op := .write n v }] } ∧
      u.net = s.net ++ (if mesh then [{ src := c, ctx := k, asid := asid, uid := s.tickets, seq := seq, cmd := cmd, kind := .check d a }] else []) ∧
      Keeps [.cores, .net] s u ∧ OtherCores c s u := by
  have hcore (f : Core → Core) : (s.modCore c f).core? c = some (f core) := by rw [core?_modCore_same, hc]; rfl
  subst hu
  cases mesh with
  | true =>
    simp only [State.storeClass, hm, Bool.not_true, Bool.false_and]
    exact ⟨hcore _, rfl, ((modCore_keeps s c _).mono (by simp)).trans ((send_keeps _ _ _ _ _ _ _).mono (by simp)), modCore_otherCores s c _⟩
  | false =>
    have hdss : d.space = .dss := hd.resolve_left nofun
    simp only [State.storeClass, hm, hdss]
    exact ⟨hcore _, by simp, (modCore_keeps s c _).mono (by simp), modCore_otherCores s c _⟩

theorem deferredStoresRule : DeferredStoresRule := by
  intro s i ins rs1 imm n v d mesh hi hform hplace hmay
  obtain ⟨hn, hv, hexec⟩ := exec_of_storeForm hform s
  obtain ⟨-, hcore, -⟩ := issuer_spec hi
  have hguard := not_guarded_of_mayStore hmay
  obtain ⟨hm, hd, hok⟩ : isMesh (baseAddr i.ctx rs1 imm) = mesh ∧ (mesh = true ∨ d.space = .dss) ∧
      checkAddr i.job i.c i.ctx.level baseForms n n true (baseAddr i.ctx rs1 imm) = .ok d := by
    rcases hplace with ⟨rfl, h⟩ | ⟨rfl, h, hd⟩
    · exact ⟨h.isMesh, .inl rfl, h.checkAddr fun _ => hguard⟩
    · exact ⟨h.not_mesh, .inr hd, h.checkAddr hn fun _ => hguard⟩
  have ht := recordMem_onlyTrace s i.c i.k true (baseAddr i.ctx rs1 imm)
  rw [hexec, store_ok hi hok, hv]
  set s0 := s.recordMem i.c i.k true (baseAddr i.ctx rs1 imm)
  obtain ⟨w, hw⟩ := ht.core_some hcore
  obtain ⟨u, hu⟩ : ∃ u, u = s0.storeClass i.c i.k i.core.asid 0 none (baseAddr i.ctx rs1 imm) d n (v % 256 ^ n) := ⟨_, rfl⟩
  rw [← hu]
  obtain ⟨hcu, hnet, hkeeps, hothers⟩ := storeClass_deferred hm hd hw hu
  have hmem : SameMemory s u := by
    refine sameMemory_of_core ((hkeeps.jobs (by simp)).trans ht.jobs) (ht.others.trans hothers) ?_
    rw [hcu, hcore]
    rfl
  refine ⟨_, _, rfl, finish_self_completed hcu, finish_self_frame hcu, fun a e => (finish_sameMemory u i i.ctx a e).trans (hmem a e),
    finish_core hcu _, rfl, ?_, hkeeps.trans ((finish_keeps u i _).mono (by simp)), ?_, fun k hk => finish_ctxOf_ne hi hcu rfl _ hk, rfl, rfl⟩
  · rw [finish_net, hnet, ht.net, ht.tickets]
    rfl
  · exact ht.others.trans (hothers.trans (finish_otherCores u i _))

/-- Settles O57: by a local form to TCM or quad scratchpad the bytes are there at once, every other base store waits for commit. -/
theorem stores : Obligations.Stores := ⟨immediateStoresRule, deferredStoresRule⟩

end Sys2Proof.Machine

/-! CSR instructions that write (R130, R136): their checks and what they do. -/

namespace Sys2Proof.Machine

open Sys2Proof.Laws

variable {s t u : State} {i : Issuer} {core : Core} {ins : Instr} {rd : R5} {a v cause : Nat} {f : Word → Word} {w : Word}

-- CSR instructions that write (R130, R136)
/-- The new value of a CSR instruction that writes, from the issuing context and the old value. -/
def csrNew : Instr → Ctx → Word → Word
  | .csrrw _ rs1 _ => fun k _ => k.getX rs1
  | .csrrs _ rs1 _ => fun k v => v ||| k.getX rs1
  | .csrrc _ rs1 _ => fun k v => v &&& ~~~ (k.getX rs1)
  | .csrrwi _ u _ => fun _ _ => u.setWidth 64
  | .csrrsi _ u _ => fun _ v => v ||| u.setWidth 64
  | .csrrci _ u _ => fun _ v => v &&& ~~~ (u.setWidth 64)
  | _ => fun _ v => v
/-- A CSR instruction reads, unless it only writes and rd is x0. -/
def csrReads : Instr → Bool
  | .csrrw rd _ _ | .csrrwi rd _ _ => rd != 0
  | _ => true

/-- A CSR instruction that writes, as the operation that the six share: where it does not read, rd is x0 and the new value does not need the old. -/
theorem exec_of_csrWrite {k : Ctx} (h : csrWrite k ins = some (rd, a, f)) (s : State) :
    ∃ csr : BitVec 12, csr.toNat = a ∧ csrNew ins k = f ∧ exec ins s = csrOp s rd csr (csrReads ins) (some (csrNew ins)) ∧
      (csrReads ins = false → rd = 0 ∧ ∀ x y, f x = f y) := by
  unfold csrWrite at h
  split at h
  case h_1 => cases h; exact ⟨_, rfl, rfl, rfl, fun hr => ⟨by simpa [csrReads] using hr, fun _ _ => rfl⟩⟩
  case h_4 => cases h; exact ⟨_, rfl, by simp [csrNew], rfl, fun hr => ⟨by simpa [csrReads] using hr, fun _ _ => rfl⟩⟩
  case h_7 => cases h
  all_goals
    split at h
    · cases h
    · next hne => cases h; exact ⟨_, rfl, by simp [csrNew], by simp only [exec, execCsrrs, execCsrrc, execCsrrsi, execCsrrci, hne]; rfl, nofun⟩

/-- Only a read of `trread` changes the state. -/
theorem readCsr_state (s : State) (i : Issuer) (h : a ≠ 0x5C7) : (s.readCsr i a).2 = s := by
  unfold State.readCsr
  simp only [if_neg h]

/-- The checks that a write of a CSR passes: allocated, not `ssentry` of a helper, the level, not read-only. -/
structure MayWriteCsr (i : Issuer) (a : Nat) : Prop where
  level : ∃ l, csrLevel a = some l ∧ l ≤ i.ctx.level.rank
  writable : csrReadOnly a = false
  helper : a = 0x805 → i.k = 0

/-- A write of a read-only CSR that the level may read is ILLEGAL. -/
theorem exec_csrWrite_readOnly (hi : s.issuer? = some i) (h : csrWrite i.ctx ins = some (rd, a, f)) (hl : ∃ l, csrLevel a = some l ∧ l ≤ i.ctx.level.rank)
    (hr : csrReadOnly a = true) : exec ins s = .next (s.trapW i cILLEGAL) := by
  obtain ⟨csr, rfl, -, hexec, -⟩ := exec_of_csrWrite h s
  obtain ⟨l, hl, hle⟩ := hl
  have hne : csr.toNat ≠ 0x805 := fun e => by rw [e] at hr; exact absurd hr (by decide)
  rw [hexec, csrOp, issue_eq hi]
  simp [hl, hne, hr, Nat.not_lt.mpr hle]

/-- Whether or not the instruction reads the CSR, its new value, the state and what rd gets are those of a read. -/
theorem csrReads_irrelevant {x : Ctx} (hf : csrNew ins x = f) (hreads : csrReads ins = false → rd = 0 ∧ ∀ x y, f x = f y) (ha : a ≠ 0x5C7) :
    csrNew ins x (if csrReads ins then s.readCsr i a else (0, s)).1 = f (s.readCsr i a).1 ∧
      (if csrReads ins then s.readCsr i a else (0, s)).2 = s ∧
      ∀ y : Ctx, y.setX rd (if csrReads ins then s.readCsr i a else (0, s)).1 = y.setX rd (s.readCsr i a).1 := by
  cases hr : csrReads ins with
  | true => simp [hf, readCsr_state s i ha]
  | false =>
    obtain ⟨rfl, hconst⟩ := hreads hr
    exact ⟨by simp [hf, hconst _ (s.readCsr i a).1], by simp, fun y => by simp [Ctx.setX]⟩

/-- A write that passes the checks and, to `ssentry`, has a legal start address: the old value goes to rd and the new one to the CSR. -/
theorem exec_csrWrite (hi : s.issuer? = some i) (h : csrWrite i.ctx ins = some (rd, a, f)) (hm : MayWriteCsr i a) (hv : (s.readCsr i a).1 = w)
    (he : a = 0x805 → entryCause i.job (f w) = none) (ha : a ≠ 0x5C5) :
    exec ins s = .next ((s.writeCsr i a (f w)).finishWith i fun x => x.setX rd w) := by
  obtain ⟨csr, rfl, hf, hexec, hreads⟩ := exec_of_csrWrite h s
  obtain ⟨⟨l, hl, hle⟩, hw, hk⟩ := hm
  obtain ⟨hnew, hs, hx⟩ := csrReads_irrelevant (s := s) (i := i) (a := csr.toNat) hf hreads fun e => by rw [e] at hw; exact absurd hw (by decide)
  rw [hv] at hnew hx
  have hentry : (if csr.toNat = 0x805 then entryCause i.job (f w) else none) = none := ite_eq_right_iff.mpr he
  have hill : ¬ (csr.toNat = 0x805 ∧ i.k ≠ 0) := fun ⟨e, hne⟩ => hne (hk e)
  rw [hexec, csrOp, issue_eq hi]
  simp only [hl, hill, Nat.not_lt.mpr hle, hw, hnew, hs, hx, hentry, ha, Bool.and_false, Bool.false_eq_true, ne_eq, not_false_eq_true, if_true, if_false]

/-- A write of `ssentry` by context 0 that is not a legal start address traps with the new value (R278). -/
theorem exec_csrWrite_ssentry_trap (hi : s.issuer? = some i) (h : csrWrite i.ctx ins = some (rd, 0x805, f)) (hk : i.k = 0)
    (hv : (s.readCsr i 0x805).1 = w) (he : entryCause i.job (f w) = some cause) : exec ins s = .next (s.trapI i cause (f w)) := by
  obtain ⟨csr, hcsr, hf, hexec, hreads⟩ := exec_of_csrWrite h s
  obtain ⟨hnew, -, -⟩ := csrReads_irrelevant (s := s) (i := i) (a := 0x805) hf hreads (by decide)
  rw [hv] at hnew
  rw [hexec, csrOp, issue_eq hi]
  have hl : csrLevel 0x805 = some 0 := by decide
  have hw : csrReadOnly 0x805 = false := by decide
  simp only [hcsr, hl, hw, hk, hnew, he, Nat.not_lt_zero, ne_eq, not_true_eq_false, and_false, Bool.and_false, Bool.false_eq_true, if_true, if_false]

end Sys2Proof.Machine

/-! The writable user CSRs (R3, R54, R131, R136): their field maps. -/

namespace Sys2Proof.Machine

open Sys2Proof.Laws

variable {s t u : State} {i : Issuer} {k core : Core} {ins : Instr} {rd : R5} {a v cause : Nat} {f : Word → Word} {w mask : Word} {g : Ctx → Ctx}

-- completing with the issuing context as it then stands
theorem finishWith_core (hc : u.core? i.c = some k) (g : Ctx → Ctx) :
    (u.finishWith i g).core? i.c = some (k.modCtx i.k fun x => (g x).advance) := by
  rw [State.finishWith, State.modCtx, core?_modCore_same, hc]
  rfl
theorem finishWith_otherCores (u : State) (i : Issuer) (g : Ctx → Ctx) : OtherCores i.c u (u.finishWith i g) := modCore_otherCores u i.c _
theorem finishWith_keeps (u : State) (i : Issuer) (g : Ctx → Ctx) : Keeps [.cores] u (u.finishWith i g) := modCore_keeps u i.c _
theorem finishWith_ctxOf (hc : u.core? i.c = some k) (g : Ctx → Ctx) : (u.finishWith i g).ctxOf i.c i.k = (g (k.ctx i.k)).advance := by
  rw [ctxOf_of_core? (finishWith_core hc g), ctx_modCtx_same]
theorem finishWith_ctxOf_ne (hc : u.core? i.c = some k) (g : Ctx → Ctx) {n : Nat} (hn : n ≠ i.k) : (u.finishWith i g).ctxOf i.c n = k.ctx n := by
  rw [ctxOf_of_core? (finishWith_core hc g), ctx_modCtx_ne _ _ hn]

-- the user CSRs that can be written (R3, R54, R131, R136)
/-- The values behind the writable user CSRs other than `ssentry`. -/
structure UserCsrs where
  fcsr : BitVec 8
  flags : BitVec 7
  enables : BitVec 7
  age : Nat
  pool : Nat
  nbwait : Nat
  stagger : Nat
  tracectl : Word

def Issuer.userCsrs (i : Issuer) : UserCsrs :=
  { fcsr := i.ctx.fcsr, flags := i.ctx.flags, enables := i.ctx.enables, age := i.core.age, pool := i.core.pool, nbwait := i.core.nbwait
    stagger := i.core.stagger, tracectl := i.core.tracectl }
/-- What an instruction reads. -/
def UserCsrs.read (u : UserCsrs) : Nat → Nat
  | 0x001 => u.fcsr.toNat % 32
  | 0x002 => u.fcsr.toNat / 32
  | 0x003 => u.fcsr.toNat
  | 0x802 => u.enables.toNat * 2 ^ 32 + u.flags.toNat
  | 0x808 => u.pool * 2 ^ 32 + u.age
  | 0x809 => u.nbwait
  | 0x80A => u.stagger
  | _ => u.tracectl.toNat
/-- What a write of `v` leaves. -/
def UserCsrs.write (u : UserCsrs) (a : Nat) (v : Word) : UserCsrs :=
  match a with
  | 0x001 => { u with fcsr := (u.fcsr &&& (0xE0 : BitVec 8)) ||| (v.setWidth 8 &&& (0x1F : BitVec 8)) }
  | 0x002 => { u with fcsr := (u.fcsr &&& (0x1F : BitVec 8)) ||| (v.setWidth 8 <<< 5) }
  | 0x003 => { u with fcsr := v.setWidth 8 }
  | 0x802 => { u with flags := v.extractLsb' 0 7, enables := v.extractLsb' 32 7 }
  | 0x808 => { u with pool := v.toNat / 2 ^ 32 % 16, age := v.toNat % 2 ^ 32 }
  | 0x809 => { u with nbwait := v.toNat % 2 ^ 32 }
  | 0x80A => { u with stagger := v.toNat % 256 }
  | _ => { u with tracectl := v &&& tracectlMask }

-- their fields
theorem and_fflags (x : BitVec 8) : (x &&& (0x1F : BitVec 8)).toNat = x.toNat % 32 := by
  rw [BitVec.toNat_and]
  exact Nat.and_two_pow_sub_one_eq_mod x.toNat 5
theorem and_frm : ∀ x : BitVec 8, (x &&& (0xE0 : BitVec 8)).toNat = 2 ^ 5 * (x.toNat / 32) := by decide
theorem shift_frm : ∀ x : BitVec 8, (x <<< 5).toNat = 2 ^ 5 * (x.toNat % 8) := by decide
/-- `fflags` written over `fcsr`. -/
theorem fflags_over (x y : BitVec 8) : ((x &&& (0xE0 : BitVec 8)) ||| (y &&& (0x1F : BitVec 8))).toNat = 2 ^ 5 * (x.toNat / 32) + y.toNat % 32 := by
  rw [BitVec.toNat_or, and_frm, and_fflags, Nat.two_pow_add_eq_or_of_lt (by omega)]
/-- `frm` written over `fcsr`. -/
theorem frm_over (x y : BitVec 8) : ((x &&& (0x1F : BitVec 8)) ||| (y <<< 5)).toNat = 2 ^ 5 * (y.toNat % 8) + x.toNat % 32 := by
  rw [BitVec.toNat_or, shift_frm, and_fflags, Nat.or_comm, Nat.two_pow_add_eq_or_of_lt (by omega)]

theorem and_low (v m : Word) (n : Nat) (hm : m.toNat = 2 ^ n - 1) : (v &&& m).toNat = v.toNat % 2 ^ n := by
  rw [BitVec.toNat_and, hm, Nat.and_two_pow_sub_one_eq_mod]

theorem qflags_fields (v : Word) : (v.extractLsb' 32 7).toNat * 2 ^ 32 + (v.extractLsb' 0 7).toNat = (v &&& 0x7F0000007F).toNat := by
  have hi : (v &&& 0x7F0000007F).toNat / 2 ^ 32 = v.toNat / 2 ^ 32 % 2 ^ 7 := by
    rw [BitVec.toNat_and, Nat.and_div_two_pow]
    exact Nat.and_two_pow_sub_one_eq_mod _ 7
  have lo : (v &&& 0x7F0000007F).toNat % 2 ^ 32 = v.toNat % 2 ^ 32 % 2 ^ 7 := by
    rw [BitVec.toNat_and, Nat.and_mod_two_pow]
    exact Nat.and_two_pow_sub_one_eq_mod _ 7
  simp only [BitVec.extractLsb'_toNat, Nat.shiftRight_eq_div_pow]
  omega

/-- Each is read by its field map. -/
theorem csrValue_userCsrs (h : csrMask a = some mask) (s : State) (i : Issuer) : csrValue s i a = some (i.userCsrs.read a) := by
  unfold csrMask at h
  split at h <;> cases h <;> rfl

theorem readCsr_userCsrs (h : csrMask a = some mask) (s : State) (i : Issuer) : (s.readCsr i a).1 = BitVec.ofNat 64 (i.userCsrs.read a) := by
  unfold csrMask at h
  unfold State.readCsr
  split at h <;> cases h <;> simp only [Issuer.userCsrs, UserCsrs.read, Ctx.qflagsCsr, BitVec.ofNat_toNat, BitVec.setWidth_eq] <;> rfl

/-- A write leaves in each the bits that are not reserved (R3). -/
theorem read_write (h : csrMask a = some mask) (u : UserCsrs) (v : Word) : (u.write a v).read a = (v &&& mask).toNat := by
  unfold csrMask at h
  split at h <;> cases h
  case h_1 =>
    have := fflags_over u.fcsr (v.setWidth 8)
    simp only [UserCsrs.read, UserCsrs.write, this, and_low v 0x1F 5 (by decide), BitVec.toNat_setWidth]
    omega
  case h_2 =>
    have := frm_over u.fcsr (v.setWidth 8)
    simp only [UserCsrs.read, UserCsrs.write, this, and_low v 0x7 3 (by decide), BitVec.toNat_setWidth]
    omega
  case h_3 => simp only [UserCsrs.read, UserCsrs.write, and_low v 0xFF 8 (by decide), BitVec.toNat_setWidth]
  case h_4 => simp only [UserCsrs.read, UserCsrs.write, qflags_fields v]
  case h_5 =>
    simp only [UserCsrs.read, UserCsrs.write, and_low v 0xFFFFFFFFF 36 (by decide)]
    omega
  case h_6 => simp only [UserCsrs.read, UserCsrs.write, and_low v 0xFFFFFFFF 32 (by decide)]
  case h_7 => simp only [UserCsrs.read, UserCsrs.write, and_low v 0xFF 8 (by decide)]; rfl
  case h_8 => simp only [UserCsrs.read, UserCsrs.write, tracectlMask]

/-- What a write of one leaves of the others. -/
structure UserCsrs.Frame (a : Nat) (u u' : UserCsrs) : Prop where
  frm : a = 0x001 → u'.fcsr.toNat / 32 = u.fcsr.toNat / 32
  fflags : a = 0x002 → u'.fcsr.toNat % 32 = u.fcsr.toNat % 32
  fcsr : a ≠ 0x001 → a ≠ 0x002 → a ≠ 0x003 → u'.fcsr = u.fcsr
  qflags : a ≠ 0x802 → u'.flags = u.flags ∧ u'.enables = u.enables
  qage : a ≠ 0x808 → u'.age = u.age ∧ u'.pool = u.pool
  nbwait : a ≠ 0x809 → u'.nbwait = u.nbwait
  stagger : a ≠ 0x80A → u'.stagger = u.stagger
  tracectl : a ≠ 0x80C → u'.tracectl = u.tracectl

theorem write_frame (h : csrMask a = some mask) (u : UserCsrs) (v : Word) : u.Frame a (u.write a v) := by
  have frm : (u.write 0x001 v).fcsr.toNat / 32 = u.fcsr.toNat / 32 := by
    simp only [UserCsrs.write, fflags_over]
    omega
  have fflags : (u.write 0x002 v).fcsr.toNat % 32 = u.fcsr.toNat % 32 := by
    simp only [UserCsrs.write, frm_over]
    omega
  unfold csrMask at h
  split at h <;> cases h
  case h_1 => exact ⟨fun _ => frm, nofun, fun h => absurd rfl h, fun _ => ⟨rfl, rfl⟩, fun _ => ⟨rfl, rfl⟩, fun _ => rfl, fun _ => rfl, fun _ => rfl⟩
  case h_2 => exact ⟨nofun, fun _ => fflags, fun _ h => absurd rfl h, fun _ => ⟨rfl, rfl⟩, fun _ => ⟨rfl, rfl⟩, fun _ => rfl, fun _ => rfl, fun _ => rfl⟩
  all_goals constructor <;> simp [UserCsrs.write]

end Sys2Proof.Machine

/-! What a write of a user CSR changes. -/

namespace Sys2Proof.Machine

open Sys2Proof.Laws

variable {s t : State} {i : Issuer} {k : Core} {ins : Instr} {rd : R5} {a v cause : Nat} {f : Word → Word} {w mask : Word} {u : UserCsrs}

/-- A context with these `fcsr` and `qflags`. -/
def Ctx.withCsrs (x : Ctx) (u : UserCsrs) : Ctx := { x with fcsr := u.fcsr, flags := u.flags, enables := u.enables }
/-- A core with these `qage`, `nbwait`, `mxstagger` and `tracectl`. -/
def Core.withCsrs (k : Core) (u : UserCsrs) : Core := { k with age := u.age, pool := u.pool, nbwait := u.nbwait, stagger := u.stagger, tracectl := u.tracectl }

/-- The issuing core with these values in its writable user CSRs, and otherwise as it was. -/
structure HasCsrs (i : Issuer) (u : UserCsrs) (k : Core) : Prop where
  ctx : k.ctx i.k = i.ctx.withCsrs u
  others : ∀ n, n ≠ i.k → k.ctx n = i.core.ctx n
  core : ∃ cs, k = { i.core.withCsrs u with ctxs := cs }

theorem hasCsrs_modCtx (hi : s.issuer? = some i) (g : Ctx → Ctx) (hg : g i.ctx = i.ctx.withCsrs u) (hk : i.core.withCsrs u = i.core) :
    ∃ k, (s.modCtx i.c i.k g).core? i.c = some k ∧ HasCsrs i u k := by
  obtain ⟨-, hc, -, hx, -⟩ := issuer_spec hi
  refine ⟨i.core.modCtx i.k g, ?_, ?_, fun n hn => ctx_modCtx_ne _ _ hn, _, by rw [hk]; rfl⟩
  · rw [State.modCtx, core?_modCore_same, hc]
    rfl
  · rw [ctx_modCtx_same, hx, hg]

theorem hasCsrs_modCore (hi : s.issuer? = some i) (g : Core → Core) (hg : g i.core = i.core.withCsrs u) (hx : i.ctx.withCsrs u = i.ctx) :
    ∃ k, (s.modCore i.c g).core? i.c = some k ∧ HasCsrs i u k := by
  obtain ⟨-, hc, -, hctx, -⟩ := issuer_spec hi
  refine ⟨i.core.withCsrs u, ?_, hctx.trans hx.symm, fun _ _ => rfl, _, rfl⟩
  rw [core?_modCore_same, hc, ← hg]
  rfl

/-- A write of `tracectl` that clears FROZEN restarts the position's trace (R356). -/
theorem writeCsr_tracectl (s : State) (i : Issuer) (v : Word) :
    s.writeCsr i 0x80C v = if traceBit v 11 then s.modCore i.c fun k => { k with tracectl := v &&& tracectlMask }
      else (s.modCore i.c fun k => { k with tracectl := v &&& tracectlMask }).modPos i.c fun p => { p with tracePos := 0, tracePost := none } := rfl

/-- A write of a user CSR changes its value, and with `tracectl` the position's trace. -/
theorem writeCsr_hasCsrs (h : csrMask a = some mask) (hi : s.issuer? = some i) (v : Word) :
    (∃ k, (s.writeCsr i a v).core? i.c = some k ∧ HasCsrs i (i.userCsrs.write a v) k) ∧ Keeps [.cores, .positions] s (s.writeCsr i a v) ∧
      OtherCores i.c s (s.writeCsr i a v) ∧ (s.writeCsr i a v).cur = s.cur := by
  have ofCtx (g : Ctx → Ctx) : Keeps [.cores, .positions] s (s.modCtx i.c i.k g) ∧ OtherCores i.c s (s.modCtx i.c i.k g) ∧ (s.modCtx i.c i.k g).cur = s.cur :=
    ⟨(modCtx_keeps s _ _ g).mono (by simp), modCore_otherCores s _ _, rfl⟩
  have ofCore (g : Core → Core) : Keeps [.cores, .positions] s (s.modCore i.c g) ∧ OtherCores i.c s (s.modCore i.c g) ∧ (s.modCore i.c g).cur = s.cur :=
    ⟨(modCore_keeps s _ g).mono (by simp), modCore_otherCores s _ _, rfl⟩
  unfold csrMask at h
  split at h
  case h_8 =>
    rw [writeCsr_tracectl]
    obtain ⟨hkeeps, hothers, hcur⟩ := ofCore fun k => { k with tracectl := v &&& tracectlMask }
    split
    · exact ⟨hasCsrs_modCore hi _ rfl rfl, hkeeps, hothers, hcur⟩
    · exact ⟨hasCsrs_modCore hi _ rfl rfl, hkeeps.trans ((modPos_keeps _ _ _).mono (by simp)), hothers.trans (otherCores_of_cores _ rfl), hcur⟩
  case h_9 => cases h
  case h_5 | h_6 | h_7 => exact ⟨hasCsrs_modCore hi _ rfl rfl, ofCore _⟩
  all_goals exact ⟨hasCsrs_modCtx hi _ rfl rfl, ofCtx _⟩

/-- A completed write of a user CSR: who issues then, and with what. -/
theorem csrWrite_user (hi : s.issuer? = some i) (h : csrWrite i.ctx ins = some (rd, a, f)) (hm : csrMask a = some mask)
    (hw : (s.readCsr i a).1 = w) : ∃ t k, exec ins s = .next t ∧ t.core? i.c = some k ∧ t.issuer? = some { i with core := k, ctx := k.ctx i.k } ∧
      k.ctx i.k = ((i.ctx.withCsrs (i.userCsrs.write a (f w))).setX rd w).advance ∧ (∀ n, n ≠ i.k → t.ctxOf i.c n = s.ctxOf i.c n) ∧
      (∃ cs, k = { i.core.withCsrs (i.userCsrs.write a (f w)) with ctxs := cs }) ∧ Keeps [.cores, .positions] s t ∧ OtherCores i.c s t := by
  have hne : a ≠ 0x805 ∧ a ≠ 0x5C5 ∧ MayWriteCsr i a := by
    unfold csrMask at hm
    split at hm <;> cases hm <;> exact ⟨by decide, by decide, ⟨⟨0, by decide, Nat.zero_le _⟩, by decide, nofun⟩⟩
  obtain ⟨h805, h5C5, hmay⟩ := hne
  have hexec := exec_csrWrite hi h hmay hw (fun e => absurd e h805) h5C5
  obtain ⟨⟨k, hk, hctx, hothers, cs, hcore⟩, hkeeps, hoc, hcur⟩ := writeCsr_hasCsrs hm hi (f w)
  obtain ⟨hscur, hc, hj, hx, hlive⟩ := issuer_spec hi
  have htk := finishWith_core hk fun x => x.setX rd w
  have htx : (k.modCtx i.k fun x => (x.setX rd w).advance).ctx i.k = ((i.ctx.withCsrs (i.userCsrs.write a (f w))).setX rd w).advance := by
    rw [ctx_modCtx_same, hctx]
  have htkeeps := hkeeps.trans ((finishWith_keeps (s.writeCsr i a (f w)) i fun x => x.setX rd w).mono (w' := [.cores, .positions]) (by simp))
  refine ⟨_, _, hexec, htk, issuer?_eq (j := i.job) ?_ htk ?_ ?_, htx, fun n hn => ?_, ⟨_, by rw [hcore]; rfl⟩, htkeeps,
    hoc.trans (finishWith_otherCores _ i _)⟩
  · exact hcur.trans hscur
  · rw [hcore, State.job?, htkeeps.jobs (by simp)]
    exact hj
  · rw [htx]
    unfold Ctx.setX
    split_ifs <;> exact hlive
  · rw [finishWith_ctxOf_ne hk _ hn, hothers n hn, ctxOf_of_core? hc]

end Sys2Proof.Machine

/-! Start addresses (R132, R278), and the writes of user CSRs in full. -/

namespace Sys2Proof.Machine

open Sys2Proof.Laws

variable {s t : State} {i : Issuer} {k : Core} {ins : Instr} {rd : R5} {a v cause : Nat} {f : Word → Word} {w mask : Word} {u : UserCsrs}

/-- The user CSRs of the issuer once it has completed a write of one. -/
theorem userCsrs_written {cs : Dict Ctx} (hk : k = { i.core.withCsrs u with ctxs := cs }) (hx : k.ctx i.k = ((i.ctx.withCsrs u).setX rd w).advance) :
    ({ i with core := k, ctx := k.ctx i.k } : Issuer).userCsrs = u := by
  have frame := setX_frame (i.ctx.withCsrs u) rd w
  rw [← hx] at frame
  have hf : (k.ctx i.k).fcsr = u.fcsr := frame.fcsr (by simp)
  have hl : (k.ctx i.k).flags = u.flags := frame.flags (by simp)
  have he : (k.ctx i.k).enables = u.enables := frame.enables
  have hcore : k.age = u.age ∧ k.pool = u.pool ∧ k.nbwait = u.nbwait ∧ k.stagger = u.stagger ∧ k.tracectl = u.tracectl := by
    rw [hk]
    exact ⟨rfl, rfl, rfl, rfl, rfl⟩
  simp only [Issuer.userCsrs, hf, hl, he, hcore]

-- start addresses (R132, R278)
/-- The code form with no reserved bit, as `GoodTarget` says it. -/
theorem formOk_code_iff (a : Word) : formOk [2] a = true ↔ a.toNat / 2 ^ 36 = 2 * 2 ^ 24 := by
  unfold formOk
  by_cases hf : addrForm a = 2
  · have hr : a.toNat / 2 ^ 36 % 2 ^ 24 = 0 ↔ a.toNat / 2 ^ 36 = 2 * 2 ^ 24 := by
      unfold addrForm at hf
      omega
    simp only [hf, List.contains_cons, beq_self_eq_true, Bool.true_or, Bool.true_and, beq_iff_eq, hr]
  · have hne : ¬ a.toNat / 2 ^ 36 = 2 * 2 ^ 24 := by
      unfold addrForm at hf
      omega
    simp only [hne, iff_false]
    simp [hf]

theorem inCodeAt_iff (j : Job) (a : Word) : inCodeAt j a = true ↔ ∃ r ∈ j.codes, r.1 ≤ a.toNat % 2 ^ 36 ∧ a.toNat % 2 ^ 36 < r.1 + r.2 := by
  unfold inCodeAt Job.inCode
  rw [List.any_eq_true]
  refine exists_congr fun r => and_congr_right fun _ => ?_
  rw [Bool.and_eq_true, decide_eq_true_iff, decide_eq_true_iff, Nat.lt_succ_iff]
  exact and_comm

theorem entryCause_good {j : Job} (h : GoodTarget j w) : entryCause j w = none := by
  obtain ⟨hal, hform, hcode⟩ := h
  simp [entryCause, (formOk_code_iff w).mpr hform, hal, (inCodeAt_iff j w).mpr hcode]

theorem entryCause_form {j : Job} (h : w.toNat / 2 ^ 36 ≠ 2 * 2 ^ 24) : entryCause j w = some cFORM := by
  simp [entryCause, mt (formOk_code_iff w).mp h]

theorem entryCause_align {j : Job} (hf : w.toNat / 2 ^ 36 = 2 * 2 ^ 24) (h : w.toNat % 4 ≠ 0) : entryCause j w = some cALIGN := by
  simp [entryCause, (formOk_code_iff w).mpr hf, h]

theorem entryCause_bounds {j : Job} (hf : w.toNat / 2 ^ 36 = 2 * 2 ^ 24) (ha : w.toNat % 4 = 0)
    (h : ∀ r ∈ j.codes, ¬ (r.1 ≤ w.toNat % 2 ^ 36 ∧ w.toNat % 2 ^ 36 < r.1 + r.2)) : entryCause j w = some cBOUNDS := by
  have hc : ¬ inCodeAt j w = true := fun hin => by
    obtain ⟨r, hr, hrange⟩ := (inCodeAt_iff j w).mp hin
    exact h r hr hrange
  simp [entryCause, (formOk_code_iff w).mpr hf, ha, hc]

/-- A write of a writable user CSR completes, in the terms of `CsrWrites`. -/
theorem csrWrites_user (hi : s.issuer? = some i) (h : csrWrite i.ctx ins = some (rd, a, f)) (hv : csrValue s i a = some v) (hm : csrMask a = some mask) :
    ∃ t i', exec ins s = .next t ∧ t.issuer? = some i' ∧ i'.c = i.c ∧ i'.k = i.k ∧ Completed i t ∧
      csrValue t i' a = some (f (BitVec.ofNat 64 v) &&& mask).toNat ∧
      i'.ctx.getX rd = (if rd = 0 then 0 else BitVec.ofNat 64 v) ∧ (∀ r, r ≠ rd → i'.ctx.getX r = i.ctx.getX r) ∧
      (∀ r, i'.ctx.getF r = i.ctx.getF r) ∧ (∀ p, i'.ctx.getP p = i.ctx.getP p) ∧ i'.ctx.v = i.ctx.v ∧
      (a = 0x001 → i'.ctx.fcsr.toNat / 32 = i.ctx.fcsr.toNat / 32) ∧ (a = 0x002 → i'.ctx.fcsr.toNat % 32 = i.ctx.fcsr.toNat % 32) ∧
      (a ≠ 0x001 → a ≠ 0x002 → a ≠ 0x003 → i'.ctx.fcsr = i.ctx.fcsr) ∧ (a ≠ 0x802 → i'.ctx.flags = i.ctx.flags ∧ i'.ctx.enables = i.ctx.enables) ∧
      (a ≠ 0x808 → i'.core.age = i.core.age ∧ i'.core.pool = i.core.pool) ∧ (a ≠ 0x809 → i'.core.nbwait = i.core.nbwait) ∧
      (a ≠ 0x80A → i'.core.stagger = i.core.stagger) ∧ (a ≠ 0x80C → i'.core.tracectl = i.core.tracectl) ∧ i'.core.ssentry = i.core.ssentry ∧
      Keeps [.cores, .positions] s t ∧ OtherCores i.c s t ∧ (∀ n, n ≠ i.k → t.ctxOf i.c n = s.ctxOf i.c n) ∧ SameMemory s t := by
  have hread : (s.readCsr i a).1 = BitVec.ofNat 64 v := by
    rw [csrValue_userCsrs hm] at hv
    rw [readCsr_userCsrs hm, Option.some.inj hv]
  obtain ⟨t, k, hexec, htk, hti, hx, hothers, ⟨cs, hk⟩, hkeeps, hoc⟩ := csrWrite_user hi h hm hread
  have regs := setX_frame (i.ctx.withCsrs (i.userCsrs.write a (f (BitVec.ofNat 64 v)))) rd (BitVec.ofNat 64 v)
  rw [← hx] at regs
  have csrs := write_frame hm i.userCsrs (f (BitVec.ofNat 64 v))
  have written := userCsrs_written hk hx
  rw [← written] at csrs
  refine ⟨t, _, hexec, hti, rfl, rfl, ?_, ?_, ?_, fun r hr => regs.x r (by simpa using hr), fun r => regs.f r (by simp), fun p => regs.p p (by simp),
    (regs.v (by simp)).1, csrs.frm, csrs.fflags, csrs.fcsr, csrs.qflags, csrs.qage, csrs.nbwait, csrs.stagger, csrs.tracectl, ?_,
    hkeeps, hoc, hothers, sameMemory_of_core (hkeeps.jobs (by simp)) hoc ?_⟩
  · exact completed_of_advance ((ctxOf_of_core? htk _).trans hx) (setX_pc _ _ _) (setX_instret _ _ _)
  · rw [csrValue_userCsrs hm, written, read_write hm]
  · show (k.ctx i.k).getX rd = _
    rw [hx]
    exact (getX_setX _ rd rd _).trans (if_pos rfl)
  · show k.ssentry = _
    rw [hk]
    rfl
  · obtain ⟨-, hc, -⟩ := issuer_spec hi
    rw [htk, hc, hk]
    rfl

end Sys2Proof.Machine

/-! Writes of `ssentry` and of the service CSRs (R278, R327, R330, R343). -/

namespace Sys2Proof.Machine

open Sys2Proof.Laws

variable {s t : State} {i : Issuer} {k : Core} {ins : Instr} {rd : R5} {a v cause : Nat} {f : Word → Word} {w mask : Word} {p : Pos} {l : Level}

/-- A context that has completed with a result in rd. -/
theorem setRd_completed (h : t.ctxOf i.c i.k = (i.ctx.setX rd w).advance) :
    Completed i t ∧ (t.ctxOf i.c i.k).getX rd = (if rd = 0 then 0 else w) ∧ CtxFrame [.x rd] i.ctx (t.ctxOf i.c i.k) := by
  refine ⟨completed_of_advance h (setX_pc _ _ _) (setX_instret _ _ _), ?_, ?_⟩
  · rw [h]
    exact (getX_setX i.ctx rd rd w).trans (if_pos rfl)
  · rw [h]
    exact setX_frame i.ctx rd w

-- `ssentry` (R278)
theorem readCsr_ssentry (s : State) (i : Issuer) : (s.readCsr i 0x805).1 = i.core.ssentry := by
  unfold State.readCsr
  simp only [BitVec.ofNat_toNat, BitVec.setWidth_eq]
  rfl

theorem csrWrites_ssentry (hi : s.issuer? = some i) (hk : i.k = 0) (h : csrWrite i.ctx ins = some (rd, 0x805, f)) (hg : GoodTarget i.job (f i.core.ssentry)) :
    ∃ t i', exec ins s = .next t ∧ t.issuer? = some i' ∧ Completed i t ∧ i'.core.ssentry = f i.core.ssentry ∧
      i'.ctx.getX rd = (if rd = 0 then 0 else i.core.ssentry) ∧ CtxFrame [.x rd] i.ctx i'.ctx ∧ Keeps [.cores] s t ∧ OtherCores i.c s t := by
  obtain ⟨hcur, hc, hj, hx, hlive⟩ := issuer_spec hi
  have hmay : MayWriteCsr i 0x805 := ⟨⟨0, by decide, Nat.zero_le _⟩, by decide, fun _ => hk⟩
  have hexec := exec_csrWrite hi h hmay (readCsr_ssentry s i) (fun _ => entryCause_good hg) (by decide)
  have hu : (s.writeCsr i 0x805 (f i.core.ssentry)).core? i.c = some { i.core with ssentry := f i.core.ssentry } := by
    show (s.modCore i.c _).core? i.c = _
    rw [core?_modCore_same, hc]
    rfl
  have htk := finishWith_core hu fun x => x.setX rd i.core.ssentry
  have htx := finishWith_ctxOf hu fun x => x.setX rd i.core.ssentry
  have hctx : ({ i.core with ssentry := f i.core.ssentry } : Core).ctx i.k = i.ctx := hx
  rw [hctx] at htx
  have hxk := (ctxOf_of_core? htk i.k).symm.trans htx
  obtain ⟨hcompleted, hget, hframe⟩ := setRd_completed htx
  rw [htx, ← hxk] at hget hframe
  refine ⟨_, _, hexec, issuer?_eq (j := i.job) hcur htk hj ?_, hcompleted, rfl, hget, hframe,
    (modCore_keeps s i.c _).trans (finishWith_keeps _ i _), (modCore_otherCores s i.c _).trans (finishWith_otherCores _ i _)⟩
  unfold Ctx.live
  rw [hframe.life]
  exact hlive

-- the service CSRs (R327, R330, R343)
/-- The bits of `hbperiod` that are not reserved (R343). -/
theorem hbperiod_bits (w : Word) : w &&& 0xFFFFFFFF = BitVec.ofNat 64 (w.toNat % 2 ^ 32) := by
  rw [← and_low w 0xFFFFFFFF 32 (by decide), BitVec.ofNat_toNat, BitVec.setWidth_eq]

/-- A writable service CSR is read by its field map, and a write of it leaves the position as the field map says. -/
theorem serviceCsr_write (hread : serviceCsr s i a = some (v, l)) (hlevel : i.ctx.level = .firmware ∨ i.ctx.level = .service ∧ l = .service)
    (hp : serviceCsrSet a w (s.pos i.c) = some p) :
    MayWriteCsr i a ∧ a ≠ 0x805 ∧ a ≠ 0x5C5 ∧ (s.readCsr i a).1 = BitVec.ofNat 64 v ∧ s.writeCsr i a w = s.modPos i.c fun _ => p := by
  unfold serviceCsrSet at hp
  unfold State.readCsr
  split at hp
  case h_1 | h_2 | h_3 =>
    cases hp; cases hread
    have hservice : 1 ≤ i.ctx.level.rank := by
      rcases hlevel with h | ⟨h, -⟩ <;> simp [h, Level.rank]
    exact ⟨⟨⟨1, by decide, hservice⟩, by decide, nofun⟩, by decide, by decide, rfl, rfl⟩
  case h_4 =>
    cases hp; cases hread
    have hfirmware : i.ctx.level = .firmware := hlevel.resolve_right fun h => nomatch h.2
    have hwrite : s.writeCsr i 0x7C0 w = s.modPos i.c fun p => { p with hbperiod := w &&& 0xFFFFFFFF } := rfl
    rw [hbperiod_bits] at hwrite
    exact ⟨⟨⟨2, by decide, by simp [hfirmware, Level.rank]⟩, by decide, nofun⟩, by decide, by decide, rfl, hwrite⟩
  case h_5 => cases hp

theorem csrWrites_service (hi : s.issuer? = some i) (h : csrWrite i.ctx ins = some (rd, a, f)) (hread : serviceCsr s i a = some (v, l))
    (hlevel : i.ctx.level = .firmware ∨ i.ctx.level = .service ∧ l = .service) (hp : serviceCsrSet a (f (BitVec.ofNat 64 v)) (s.pos i.c) = some p) :
    ∃ t, exec ins s = .next t ∧ Completed i t ∧ (t.ctxOf i.c i.k).getX rd = (if rd = 0 then 0 else BitVec.ofNat 64 v) ∧
      CtxFrame [.x rd] i.ctx (t.ctxOf i.c i.k) ∧ t.pos i.c = p ∧ OtherPositions i.c s t ∧ Keeps [.cores, .positions] s t ∧ OtherCores i.c s t ∧
      (∀ n, n ≠ i.k → t.ctxOf i.c n = s.ctxOf i.c n) := by
  obtain ⟨-, hc, -, hx, -⟩ := issuer_spec hi
  obtain ⟨hmay, h805, h5C5, hv, hwrite⟩ := serviceCsr_write hread hlevel hp
  have hexec := exec_csrWrite hi h hmay hv (fun e => absurd e h805) h5C5
  rw [hwrite] at hexec
  have hu : (s.modPos i.c fun _ => p).core? i.c = some i.core := hc
  have htx := finishWith_ctxOf hu fun x => x.setX rd (BitVec.ofNat 64 v)
  rw [hx] at htx
  obtain ⟨hcompleted, hget, hframe⟩ := setRd_completed htx
  exact ⟨_, hexec, hcompleted, hget, hframe, pos_modPos_same s i.c fun _ => p, modPos_otherPositions s i.c fun _ => p,
    ((modPos_keeps s i.c _).mono (by simp)).trans ((finishWith_keeps _ i _).mono (by simp)), finishWith_otherCores _ i _,
    fun n hn => (finishWith_ctxOf_ne hu _ hn).trans (ctxOf_of_core? hc n).symm⟩

/-- Above job level the service CSRs that cannot be written trap ILLEGAL. -/
theorem csrWrites_readOnly (hi : s.issuer? = some i) (h : csrWrite i.ctx ins = some (rd, a, f)) (hl : i.ctx.level ≠ .job)
    (ha : a ∈ [0x5C0, 0x5C2, 0x5C4, 0x5C7]) : exec ins s = .next (s.trapI i 0x01 (s.ir.setWidth 64)) := by
  have hservice : 1 ≤ i.ctx.level.rank := by
    cases hlevel : i.ctx.level <;> simp_all [Level.rank]
  have hro : csrLevel a = some 1 ∧ csrReadOnly a = true := by
    simp only [List.mem_cons, List.not_mem_nil, or_false] at ha
    rcases ha with rfl | rfl | rfl | rfl <;> decide
  exact exec_csrWrite_readOnly hi h ⟨1, hro.1, hservice⟩ hro.2

/-- Settles O14: each of the six reads, checks, writes by the CSR's field map and completes, or traps by the check that fails. -/
theorem csrWrites : Obligations.CsrWrites := by
  refine ⟨fun s i ins rd a v f mask hi h hv hm => csrWrites_user hi h hv hm, fun s i ins rd f hi hk h => ?_,
    fun s i ins rd a v f l p hi h hread hlevel hp => csrWrites_service hi h hread hlevel hp,
    fun s i ins rd a f hi h hl ha => csrWrites_readOnly hi h hl ha⟩
  have traps {cause : Nat} (he : entryCause i.job (f i.core.ssentry) = some cause) := exec_csrWrite_ssentry_trap hi h hk (readCsr_ssentry s i) he
  exact ⟨csrWrites_ssentry hi hk h, fun hf => traps (entryCause_form hf), fun hf ha => traps (entryCause_align hf ha),
    fun hf ha hc => traps (entryCause_bounds hf ha hc)⟩

end Sys2Proof.Machine

/-! Reads of CSRs (R25, R54, R95, R130, R131, R136, R327, R330, R343, R351). -/

namespace Sys2Proof.Machine

open Sys2Proof.Laws

variable {s : State} {i : Issuer} {ins : Instr} {rd : R5} {a v : Nat} {l : Level} {w : Word}

/-- A CSR instruction that only reads, as the operation that the four share. -/
theorem exec_of_csrRead (h : csrRead ins = some (rd, a)) (s : State) :
    ∃ csr : BitVec 12, csr.toNat = a ∧ exec ins s = csrOp s rd csr true none := by
  unfold csrRead at h
  split at h
  case h_5 => cases h
  all_goals
    split at h
    · next hz => cases h; exact ⟨_, rfl, by simp only [exec, execCsrrs, execCsrrc, execCsrrsi, execCsrrci, hz, if_true]⟩
    · cases h

theorem finishWith_eq_finish (hi : s.issuer? = some i) (g : Ctx → Ctx) : s.finishWith i g = s.finish i (g i.ctx) := by
  obtain ⟨-, hc, -, hx, -⟩ := issuer_spec hi
  simp only [State.core?] at hc
  simp only [State.finishWith, State.finish, State.modCtx, State.setCtx, State.modCore, dmod, hc, Core.modCtx, hx]

/-- The checks that a read of a CSR passes: allocated, the level, not `ssentry` of a helper; and the value it has. -/
structure Readable (s : State) (i : Issuer) (a v : Nat) : Prop where
  level : ∃ l, csrLevel a = some l ∧ l ≤ i.ctx.level.rank
  helper : a = 0x805 → i.k = 0
  value : s.readCsr i a = (BitVec.ofNat 64 v, s)

theorem Readable.writesX (h : Readable s i a v) (hi : s.issuer? = some i) (hins : csrRead ins = some (rd, a)) :
    WritesX s i rd (BitVec.ofNat 64 v) (exec ins s) := by
  obtain ⟨csr, rfl, hexec⟩ := exec_of_csrRead hins s
  obtain ⟨⟨l, hl, hle⟩, hk, hv⟩ := h
  have hill : ¬ (csr.toNat = 0x805 ∧ i.k ≠ 0) := fun ⟨e, hne⟩ => hne (hk e)
  rw [hexec, csrOp, issue_eq hi]
  simp only [hl, hill, Nat.not_lt.mpr hle, hv, Option.isSome_none, Bool.false_and, Bool.false_eq_true, if_true, if_false]
  rw [finishWith_eq_finish hi]
  exact setRd_writesX hi rd _

-- the CSRs whose field map is a function of its own
theorem readCsr_lshape (s : State) (i : Issuer) : s.readCsr i 0x803 = (BitVec.ofNat 64 (lshapeCsr i.job i.core), s) := rfl
theorem readCsr_lcoord (s : State) (i : Issuer) : s.readCsr i 0x801 = (BitVec.ofNat 64 (lcoordCsr i.c), s) := rfl
theorem readCsr_time (s : State) (i : Issuer) : s.readCsr i 0xC01 = (BitVec.ofNat 64 (s.timeOf (coreModule i.c)), s) := rfl
theorem readCsr_cpring (s : State) (i : Issuer) : s.readCsr i 0x5C0 = (BitVec.ofNat 64 (cpringCsr i.core (s.pos i.c).cpsel), s) := rfl
theorem readCsr_patchst (s : State) (i : Issuer) : s.readCsr i 0x7C1 = (BitVec.ofNat 64 (patchstCsr (s.die (coreDie i.c))), s) := rfl

theorem lshapeCsr_eq {j : Job} {core : Core} {r : Rect} (h : j.rects[core.rect]? = some r) : lshapeCsr j core =
    (j.rects.length - 1) * 2 ^ 48 + core.rect * 2 ^ 32 + (j.rr - 1) * 2 ^ 20 + (j.cc - 1) * 2 ^ 16 + r.row * 2 ^ 4 + r.col := by
  simp only [lshapeCsr, h, Option.getD_some]

theorem timeOf_eq {m : Nat} {d : Module} (h : s.module? m = some d) : s.timeOf m = (s.clock - d.resetClock) / 10 := by
  simp only [State.timeOf, h, Option.map_some, Option.getD_some]

theorem patchstCsr_eq (d : Die) : patchstCsr d =
    d.lastPos * 2 ^ 32 + d.patches.countP (fun e => e.2.slot == 4) * 2 ^ 24 + d.patches.countP (fun e => e.2.fenced) * 2 ^ 16
      + d.patches.countP (fun e => e.2.perm) * 2 ^ 8 + d.roles.countP (fun e => e.2 == .standby) := by
  simp only [patchstCsr, List.countP_eq_length_filter, beq_eq_decide]

/-- The user CSRs are readable at every level. -/
theorem readable_user (h : csrValue s i a = some v) : Readable s i a v := by
  unfold csrValue at h
  split at h
  case h_7 => cases h; exact ⟨⟨0, by decide, Nat.zero_le _⟩, nofun, readCsr_lcoord s i⟩
  case h_8 =>
    cases h
    exact ⟨⟨0, by decide, Nat.zero_le _⟩, nofun, Prod.ext (readCsr_userCsrs (a := 0x802) rfl s i) (readCsr_state s i (by decide))⟩
  case h_10 =>
    split at h <;> cases h
    next hk => exact ⟨⟨0, by decide, Nat.zero_le _⟩, fun _ => hk, rfl⟩
  case h_18 =>
    obtain ⟨r, hr, rfl⟩ := Option.map_eq_some_iff.mp h
    refine ⟨⟨0, by decide, Nat.zero_le _⟩, nofun, ?_⟩
    rw [readCsr_lshape, lshapeCsr_eq hr]
  case h_19 =>
    obtain ⟨d, hd, rfl⟩ := Option.map_eq_some_iff.mp h
    refine ⟨⟨0, by decide, Nat.zero_le _⟩, nofun, ?_⟩
    rw [readCsr_time, timeOf_eq (m := coreModule i.c) hd]
  case h_21 => cases h
  all_goals
    cases h
    exact ⟨⟨0, by decide, Nat.zero_le _⟩, nofun, rfl⟩

/-- The service CSRs, `hbperiod` and `patchst` are readable at the level that they need. -/
theorem readable_service (h : serviceCsr s i a = some (v, l)) (hl : l.rank ≤ i.ctx.level.rank) : Readable s i a v := by
  unfold serviceCsr at h
  split at h
  case h_1 => cases h; exact ⟨⟨1, by decide, hl⟩, nofun, readCsr_cpring s i⟩
  case h_8 =>
    cases h
    refine ⟨⟨2, by decide, hl⟩, nofun, ?_⟩
    rw [readCsr_patchst, patchstCsr_eq]
    rfl
  case h_9 => cases h
  all_goals
    cases h
    exact ⟨⟨_, by decide, hl⟩, nofun, rfl⟩

/-- Settles O13: each CSR that the level may read has the value of its field map, and a read completes with it. -/
theorem csrReads_writesX : Obligations.CsrReads := by
  intro s i ins rd a v hi hins hread
  rcases hread with huser | ⟨hservice, hlevel⟩ | ⟨hfirmware, hlevel⟩
  · exact (readable_user huser).writesX hi hins
  · refine (readable_service hservice ?_).writesX hi hins
    cases hl : i.ctx.level <;> simp_all [Level.rank]
  · exact (readable_service hfirmware (by rw [hlevel])).writesX hi hins

end Sys2Proof.Machine

/-! Who issues and what an issue runs (R37, R132, R173). -/

namespace Sys2Proof.Machine

open Sys2Proof.Laws

variable {s : State} {c : CoreId} {core : Core} {k m : Nat} {j : Job} {w : Half32} {p : Ctx → Bool}

/-- The choice in round-robin order: a context for which `p` holds, none such nearer after the one that issued last. -/
theorem nextWhere_spec (hlast : core.lastIssued ≤ 10) (h : core.nextWhere p = some m) :
    m ≤ 10 ∧ p (core.ctx m) = true ∧
      ∀ n, n ≤ 10 → p (core.ctx n) = true → (m + 10 - core.lastIssued) % 11 ≤ (n + 10 - core.lastIssued) % 11 := by
  unfold Core.nextWhere at h
  rw [List.find?_map, Option.map_eq_some_iff] at h
  obtain ⟨a, ha, rfl⟩ := h
  obtain ⟨hpa, hlt, hfirst⟩ := List.find?_range_eq_some.mp ha
  rw [List.mem_range] at hlt
  refine ⟨by omega, hpa, fun n hn hpn => ?_⟩
  have hplace : (core.lastIssued + 1 + (n + 10 - core.lastIssued) % 11) % 11 = n := by omega
  by_contra hnear
  have := hfirst ((n + 10 - core.lastIssued) % 11) (by omega)
  simp [hplace, hpn] at this

theorem nextWhere_isSome (h : ∃ n, n ≤ 10 ∧ p (core.ctx n) = true) (hlast : core.lastIssued ≤ 10) : (core.nextWhere p).isSome = true := by
  obtain ⟨n, hn, hp⟩ := h
  unfold Core.nextWhere
  rw [List.find?_isSome]
  exact ⟨n, List.mem_map.mpr ⟨(n + 10 - core.lastIssued) % 11, List.mem_range.mpr (by omega), by omega⟩, hp⟩

/-- Settles O5: the choice is the first ready context that has not yielded, else the first that has. -/
theorem roundRobin : Obligations.RoundRobin := by
  intro core hactive hlast
  unfold Core.chosen
  rw [if_pos hactive]
  cases hfresh : core.nextWhere fun x => x.mayIssue && x.wait.isNone with
  | some m =>
    obtain ⟨hle, hm, hfirst⟩ := nextWhere_spec hlast hfresh
    simp only [Bool.and_eq_true, Option.isNone_iff_eq_none] at hm hfirst
    refine ⟨fun n hn => ?_, fun _ => rfl⟩
    cases hn
    exact ⟨hle, hm.1, fun n hn hi hw => ⟨hm.2, hfirst n hn ⟨hi, hw⟩⟩⟩
  | none =>
    refine ⟨fun m hm => ?_, fun h => nextWhere_isSome h hlast⟩
    obtain ⟨hle, hmay, -⟩ := nextWhere_spec hlast hm
    refine ⟨hle, hmay, fun n hn hi hw => ?_⟩
    have := nextWhere_isSome (p := fun x => x.mayIssue && x.wait.isNone) ⟨n, hn, by simp [hi, hw]⟩ hlast
    simp [hfresh] at this

theorem begin_cores (s : State) (c : CoreId) (k : Nat) (w : Half32) : (s.begin c k w).cores = (s.modCore c fun x => x.issuing k s.clock).cores := rfl

theorem begin_keeps (s : State) (c : CoreId) (k : Nat) (w : Half32) : Keeps [.cores] s (s.begin c k w) := by
  constructor <;> simp [State.begin]

theorem begin_otherCores (s : State) (c : CoreId) (k : Nat) (w : Half32) : OtherCores c s (s.begin c k w) := fun d hd => by
  rw [← modCore_otherCores s c _ d hd, State.core?, begin_cores]
  rfl

/-- With no late trap due, a pc in CODE and no old word in a buffer, the word at the pc is decoded and run (R132, R133). -/
theorem issueOn_eq (hc : s.core? c = some core) (hj : s.job? core.asid = some j) (hk : core.chosen = some k) (hl : core.lateReady k = none)
    (hpc : inCodeAt j (core.ctx k).pc = true) (hold : j.oldWords c (addrOff (core.ctx k).pc) = [])
    (hw : w.toNat = s.bytesAt core.asid { core := c, space := .dss, off := addrOff (core.ctx k).pc } 4) :
    s.issueOn c = exec (decode w) (s.begin c k w) := by
  have hnew : s.newWord c core.asid (addrOff (core.ctx k).pc) = w := by
    rw [State.newWord, ← bytesAt_eq_rd, ← hw, BitVec.ofNat_toNat, BitVec.setWidth_eq]
  simp only [State.issueOn, hc, hj, hk, State.issueFrom, hl, hpc, if_true, State.fetch, hold, hnew]

/-- Settles O4: in both cases the step takes the issue slot of the core, and one cycle and the waits follow. -/
theorem stepRunsDecoded : Obligations.StepRunsDecoded := by
  rintro s s0 c core j k w i hturn hc hj hk hl hpc hold hw rfl
  refine ⟨?_, rfl, rfl, begin_keeps s0 c k w, begin_otherCores s0 c k w⟩
  rw [← issueOn_eq hc hj hk hl hpc hold hw]
  rcases hturn with ⟨rest, hagenda, rfl⟩ | ⟨hagenda, hdue, hhead, rfl⟩
  · simp only [step, hagenda, State.takeTurn, issueState]
  · obtain ⟨l, hissuers⟩ := List.head?_eq_some_iff.mp hhead
    simp only [step, hagenda, hdue, hissuers]

end Sys2Proof.Machine

/-! Waits (R38, R128, R129): what ends them, and poison met meanwhile (R20, R123). -/

namespace Sys2Proof.Machine

open Sys2Proof.Laws

variable {s t u : State} {i : Issuer} {c : CoreId} {core : Core} {k : Nat} {d : Dest}

-- a change of one context
theorem dset_dset {α : Type} (d : Dict α) (k : Nat) (a b : α) : dset (dset d k a) k b = dset d k b := by
  induction d with
  | nil => simp [dset]
  | cons e t ih =>
    obtain ⟨j, x⟩ := e
    simp only [dset]
    split_ifs with hlt heq
    · simp [dset]
    · simp [dset]
    · simp [dset, hlt, heq, ih]

theorem setCtx_setCtx (k : Core) (n : Nat) (x y : Ctx) : (k.setCtx n x).setCtx n y = k.setCtx n y := by
  simp only [Core.setCtx, dset_dset]

theorem Keeps.sameOutside (h : Keeps [.cores] s t) : SameOutside s t where
  jobs := h.jobs (by simp)
  modules := h.modules (by simp)
  positions := h.positions (by simp)
  net := h.net (by simp)
  host := (h.host (by simp)).1
  hostPoison := (h.host (by simp)).2
  cxl := (h.cxl (by simp)).1
  cxlPoison := (h.cxl (by simp)).2
  replies := h.replies (by simp)

/-- Nothing but a context differs where its core differs in nothing else. -/
theorem onlyCtx_of_core {x : Ctx} (hk : Keeps [.cores] s t) (ho : OtherCores c s t) (hc : s.core? c = some core) (ht : t.core? c = some (core.setCtx k x)) :
    OnlyCtx c k s t ∧ t.ctxOf c k = x := by
  have hx : t.ctxOf c k = x := by rw [ctxOf_of_core? ht, ctx_setCtx_same]
  exact ⟨⟨hk.sameOutside, ho, by rw [hx, ht, hc]; rfl⟩, hx⟩

theorem modCtx_core (hc : s.core? c = some core) (k : Nat) (f : Ctx → Ctx) : (s.modCtx c k f).core? c = some (core.setCtx k (f (core.ctx k))) := by
  rw [State.modCtx, core?_modCore_same, hc]
  rfl

theorem modCtx_onlyCtx (hc : s.core? c = some core) (k : Nat) (f : Ctx → Ctx) :
    OnlyCtx c k s (s.modCtx c k f) ∧ (s.modCtx c k f).ctxOf c k = f (core.ctx k) :=
  onlyCtx_of_core (modCtx_keeps s c k f) (modCore_otherCores s c _) hc (modCtx_core hc k f)

theorem modCtx_sameMemory (s : State) (c : CoreId) (k : Nat) (f : Ctx → Ctx) : SameMemory s (s.modCtx c k f) := by
  refine sameMemory_of_core rfl (modCore_otherCores s c _) ?_
  rw [State.modCtx, core?_modCore_same]
  cases s.core? c <;> rfl

theorem OnlyTrace.sameMemory (h : OnlyTrace c s t) : SameMemory s t := sameMemory_of_tcm h.jobs h.tcm

-- WFI (R128, R129)
theorem wfi_waits (hi : s.issuer? = some i) : ∃ t, exec .wfi s = .next t ∧ WaitsFor i .wfi t ∧ OnlyCtx i.c i.k s t ∧
    (t.ctxOf i.c i.k).woken = (if i.ctx.woken = some s.clock then some s.clock else none) := by
  obtain ⟨-, hc, -, -, -⟩ := issuer_spec hi
  have hset : (s.setCtx i.c i.k { i.ctx with woken := i.ctx.woken.filter (· = s.clock) }).core? i.c =
      some (i.core.setCtx i.k { i.ctx with woken := i.ctx.woken.filter (· = s.clock) }) := by
    rw [core?_setCtx_same, hc]
    rfl
  refine ⟨_, issue_eq hi _, ?_⟩
  have hblock : ((s.setCtx i.c i.k { i.ctx with woken := i.ctx.woken.filter (· = s.clock) }).block i.c i.k .wfi).core? i.c =
      some (i.core.setCtx i.k { i.ctx with woken := i.ctx.woken.filter (· = s.clock), wait := some .wfi, ticket := s.tickets }) := by
    change ((s.setCtx i.c i.k _).modCtx i.c i.k _).core? i.c = _
    rw [modCtx_core hset, setCtx_setCtx, ctx_setCtx_same]
    rfl
  have hkeeps : Keeps [.cores] s ((s.setCtx i.c i.k { i.ctx with woken := i.ctx.woken.filter (· = s.clock) }).block i.c i.k .wfi) := by
    constructor <;> simp
  have hothers : OtherCores i.c s ((s.setCtx i.c i.k { i.ctx with woken := i.ctx.woken.filter (· = s.clock) }).block i.c i.k .wfi) :=
    (modCore_otherCores s i.c _).trans (modCore_otherCores _ i.c _)
  obtain ⟨honly, hx⟩ := onlyCtx_of_core hkeeps hothers hc hblock
  rw [WaitsFor, hx]
  refine ⟨⟨rfl, rfl, rfl, ⟨fun _ _ => rfl, fun _ _ => rfl, fun _ _ => rfl, fun _ => ⟨rfl, rfl⟩, fun _ _ => rfl, fun _ => rfl, fun _ => rfl, rfl, rfl, rfl, rfl,
    rfl, rfl, rfl⟩⟩, honly, ?_⟩
  cases i.ctx.woken with
  | none => rfl
  | some w => by_cases h : w = s.clock <;> simp [Option.filter, h]

-- waits that end by themselves (R38)
/-- A `WFI` that ends uses its wake event up (R129). -/
def Wait.useWake (w : Wait) (x : Ctx) : Ctx := if w = .wfi then { x with woken := none } else x

theorem useWake_wfi : Wait.wfi.useWake = fun x => { x with woken := none } := by
  funext x
  exact if_pos rfl

theorem useWake_of_ne {w : Wait} (h : w ≠ .wfi) : w.useWake = id := by
  funext x
  exact if_neg h

/-- The wait ends with its event, and only then; the context then completes, and a `WFI` uses the event up. -/
def EndsWhen (s : State) (c : CoreId) (k : Nat) (w : Wait) (ended : Prop) : Prop :=
  (ended → s.retry c k = s.goOn c k w.useWake) ∧ (¬ ended → s.retry c k = s)

theorem retry_eq {w : Wait} (hc : s.core? c = some core) (ha : core.active = true) (hw : (core.ctx k).wait = some w) :
    s.retry c k = s.retryWait c core k w := by
  simp only [State.retry, hc, ha, hw]

theorem fencePending_eq_false_iff (s : State) (c : CoreId) (core : Core) (k sc : Nat) :
    s.fencePending core c k sc = false ↔ ∀ e ∈ core.eager, e.ctx = k → e.cmd = none → s.homeIn core.asid sc c e.dest = false := by
  simp only [State.fencePending, List.any_eq_false, Bool.and_eq_true, beq_iff_eq, Option.isNone_iff_eq_none, not_and, Bool.not_eq_true, and_imp]

theorem hmPhase_eq (h : Nat) : hmPhase h = (h / 2 ^ 64 % 2 == 1) := by
  rw [hmPhase, Nat.testBit_eq_decide_div_mod_eq, beq_eq_decide]

/-- A wait whose retry is a test: the event against the test. -/
theorem endsWhen_of_test {w : Wait} {ended : Prop} {test : Bool} (hc : s.core? c = some core) (ha : core.active = true) (hw : (core.ctx k).wait = some w)
    (hretry : s.retryWait c core k w = if test then s.goOn c k w.useWake else s)
    (htest : test = true ↔ ended) : EndsWhen s c k w ended := by
  rw [EndsWhen, retry_eq hc ha hw, hretry]
  exact ⟨fun h => if_pos (htest.mpr h), fun h => if_neg fun ht => h (htest.mp ht)⟩

/-- What a wait that has ended leaves. -/
theorem EndsWhen.outcome {w : Wait} {ended : Prop} (h : EndsWhen s c k w ended) (hc : s.core? c = some core) :
    (ended → { (s.retry c k).ctxOf c k with woken := (core.ctx k).woken } = (core.ctx k).advance ∧ OnlyCtx c k s (s.retry c k) ∧
      ((s.retry c k).ctxOf c k).woken = if w = .wfi then none else (core.ctx k).woken) ∧ (¬ ended → s.retry c k = s) := by
  refine ⟨fun he => ?_, h.2⟩
  obtain ⟨honly, hx⟩ := modCtx_onlyCtx hc k fun x => (w.useWake x).advance
  rw [h.1 he, State.goOn, hx]
  unfold Wait.useWake
  refine ⟨?_, honly, ?_⟩ <;> split_ifs <;> rfl

-- poison (R20, R123, R331, R336)
/-- Poison met by an access of a context that is not the firmware's: an abort condition, and the page is kept. -/
theorem metPoison_trap_poisonStops (hc : s.core? c = some core) (ha : core.active = true) (hl : (core.ctx k).level ≠ .firmware) (pa : Nat) :
    PoisonStops s c core pa ((s.metPoison c pa).trap c k cPOISON 0) := by
  have hp : (s.metPoison c pa).core? c = some { core with poisonMet := some (pa / 4096 * 4096) } := by
    rw [State.metPoison, core?_modCore_same, hc]
    rfl
  have hd : (core.ctx k).level = .service ∨ (core.ctx k).level = .job := by
    cases h : (core.ctx k).level <;> simp_all
  have hr := recordTrap_onlyTrace (s.metPoison c pa) c k 0 cPOISON
  obtain ⟨w, hw⟩ := hr.core_some hp
  rw [trap_eq_abort hp (hd.imp_right fun h => ⟨h, .inr rfl⟩)]
  have hu := abortCondition_core cPOISON hw ha
  have hothers := (modCore_otherCores s c _).trans (hr.others.trans (abortCondition_others cPOISON hw ha))
  obtain ⟨cs, r, heq⟩ := aborted_eq { core with poisonMet := some (pa / 4096 * 4096), tracectl := w } cPOISON
  refine ⟨_, hu, by rw [heq]; rfl, by rw [heq], by rw [heq], fun n => ?_, by rw [heq], ?_, ?_⟩
  · obtain ⟨l, hx⟩ := aborted_ctx { core with poisonMet := some (pa / 4096 * 4096), tracectl := w } cPOISON n
    rw [hx]
  · refine sameRegisters_of_core hothers fun n => ⟨none, ?_⟩
    rw [ctxOf_of_core? hu, ctxOf_of_core? hc]
    exact aborted_ctx _ cPOISON n
  · refine sameMemory_of_core ?_ hothers ?_
    · rw [(abortCondition_keeps cPOISON hw ha).jobs (by simp), hr.jobs]
      rfl
    · rw [hu, hc, heq]
      rfl

-- wake events (R129, R260)
/-- A change of cores that keeps the wake events that their contexts have seen. -/
theorem modCore_woken {f : Core → Core} (hf : ∀ x n, ((f x).ctx n).woken = (x.ctx n).woken) (e : CoreId) (n : Nat) :
    ((s.modCore e f).ctxOf c n).woken = (s.ctxOf c n).woken := by
  simp only [State.ctxOf, core?_modCore]
  split_ifs with he
  · cases s.core? c <;> simp [hf]
  · rfl

theorem modCtx_woken {f : Ctx → Ctx} (hf : ∀ x, (f x).woken = x.woken) (x : Core) (m n : Nat) : ((x.modCtx m f).ctx n).woken = (x.ctx n).woken := by
  by_cases hn : n = m
  · rw [hn, ctx_modCtx_same, hf]
  · rw [ctx_modCtx_ne _ _ hn]

theorem progress_woken (s : State) (e : CoreId) (n : Nat) : ((s.progress e).ctxOf c n).woken = (s.ctxOf c n).woken :=
  modCore_woken (f := fun k => { k with lastProgress := s.clock }) (fun _ _ => rfl) e n

/-- A wake event is seen by every context of the core that has started. -/
theorem wake_ctxOf_woken (hc : s.core? c = some core) {n : Nat} (hl : (core.ctx n).live = true) : ((s.wake c).ctxOf c n).woken = some s.clock := by
  have hw : (s.wake c).core? c = some { core with ctxs := dmap core.ctxs fun _ x => { x with woken := some s.clock } } := by
    rw [State.wake, core?_modCore_same, hc]
    rfl
  rw [ctxOf_of_core? hw]
  simp only [Core.ctx, dgetD, dget?_dmap] at hl ⊢
  cases hx : dget? core.ctxs n with
  | none => simp [hx, Ctx.reset, Ctx.live] at hl
  | some x => rfl

theorem countLink_cores (s : State) (a b n : Nat) : (s.countLink a b n).cores = s.cores ∧ (s.countLink a b n).clock = s.clock := by
  unfold State.countLink
  split_ifs <;> exact ⟨rfl, rfl⟩

theorem countAnswer_cores (s : State) (m : Msg) (kind : MsgKind) : (s.countAnswer m kind).cores = s.cores ∧ (s.countAnswer m kind).clock = s.clock := by
  unfold State.countAnswer
  split
  · exact ⟨rfl, rfl⟩
  · dsimp only
    split <;> split
    · exact countLink_cores s _ _ _
    · exact ⟨(countLink_cores _ _ _ _).1.trans (countLink_cores s _ _ _).1, (countLink_cores _ _ _ _).2.trans (countLink_cores s _ _ _).2⟩
    · exact ⟨rfl, rfl⟩
    · exact countLink_cores s _ _ _

/-- A post that is delivered is a wake event of its core. -/
theorem mailboxPostArrival_wakes {p mb : Nat} {m : Msg} {dst : CoreId} {v : Word} (hm : s.net[p]? = some m) (hkind : m.kind = .post dst mb v)
    (hfirst : ∀ e ∈ s.net.take p, ¬ (e.src = m.src ∧ ∃ w, e.kind = .post dst mb w)) (hbelongs : s.belongs m.asid (s.forwarded m.asid dst) = true)
    (hc : s.core? (s.forwarded m.asid dst) = some core) (hdead : core.dead = false) (hmb : mb ∉ core.present) {n : Nat} (hl : (core.ctx n).live = true) :
    ((mailboxPostArrival p s).ctxOf (s.forwarded m.asid dst) n).woken = some s.clock := by
  unfold mailboxPostArrival
  simp only [hm, hkind, hc, hbelongs, hdead, Bool.not_true, Bool.false_or, Bool.false_eq_true, if_false, List.contains_iff_mem, hmb]
  split
  · next hearlier =>
    exfalso
    obtain ⟨e, he, hcond⟩ := List.any_eq_true.mp hearlier
    rw [Bool.and_eq_true, beq_iff_eq] at hcond
    obtain ⟨hsrc, hpost⟩ := hcond
    split at hpost
    · next c2 mb2 w hk =>
      rw [Bool.and_eq_true, beq_iff_eq, beq_iff_eq] at hpost
      obtain ⟨rfl, rfl⟩ := hpost
      exact hfirst e he ⟨hsrc, w, hk⟩
    · exact absurd hpost (by simp)
  · obtain ⟨hcores, hclock⟩ := countAnswer_cores s m .eagerAck
    have hbefore : (((s.countAnswer m .eagerAck).dropMsg p).modCore (s.forwarded m.asid dst) fun k =>
        { k with mb := sset k.mb mb v, present := mb :: k.present }).core? (s.forwarded m.asid dst) =
          some { core with mb := sset core.mb mb v, present := mb :: core.present } := by
      rw [core?_modCore_same, State.core?, dropMsg_cores, hcores, ← State.core?, hc]
      rfl
    refine (modCore_woken ?_ _ _).trans ?_
    · exact fun x n => modCtx_woken (fun y => by split_ifs <;> rfl) _ _ _
    · rw [progress_woken, progress_woken, wake_ctxOf_woken hbefore hl, modCore_clock, dropMsg_clock, hclock]

-- the completion of a hamper (R129, R252)
theorem hmadd_eq {rs2 rs1 : R5} (hi : s.issuer? = some i) (ha : LocalAt i (i.ctx.getX rs1) 16 d) (hd : d.space = .tcm) (he : NoEagerOver s i d 16)
    (ht : t = s.recordMem i.c i.k true (i.ctx.getX rs1)) :
    exec (.hmadd rs2 rs1) s = .next ((t.hamperArrive i.core.asid d ((i.ctx.getX rs2).toNat % 2 ^ 32)).finishWith i id) := by
  have htrace : OnlyTrace i.c s t := ht ▸ recordMem_onlyTrace s i.c i.k true _
  have hform : formOk [0, 1] (i.ctx.getX rs1) = true := by
    have := ha.formOk
    unfold formOk at this ⊢
    rw [ha.form, hd] at this ⊢
    exact this
  have hal : (i.ctx.getX rs1).toNat % 16 = 0 := by
    have h := ha.toNat_eq
    obtain ⟨-, -, -, hoff, -⟩ := ha
    rw [h, hd]
    simpa [Space.form] using hoff
  have hlim : d.off + 16 ≤ i.job.limitOf d.space := by
    obtain ⟨-, -, -, -, hlim⟩ := ha
    exact hlim
  have hok : checkAddr i.job i.c i.ctx.level [0, 1] 16 16 false (i.ctx.getX rs1) = .ok d := by
    simp [checkAddr, hform, hal, ha.locate, hlim]
  have hspill : t.spillPoison i.core.asid d 16 = none := by simp [State.spillPoison, hd]
  simp only [exec, execHmadd]
  rw [feed, issue_eq hi]
  simp only [hok, ← ht, he.settleOwn htrace, reading_of_none hspill]

theorem modHome_clock (s : State) (asid : Nat) (d : Dest) (f : Mem → Mem) : (s.modHome asid d f).clock = s.clock := by
  unfold State.modHome
  split <;> rfl

/-- An arrival that flips the phase of a hamper in the TCM is a wake event of the core. -/
theorem hamperArrive_wakes {asid b n : Nat} (hc : s.core? d.core = some core) (hd : d.space = .tcm)
    (hflip : (s.hamperArrive asid d b).bytesAt asid d 16 / 2 ^ 64 % 2 ≠ s.bytesAt asid d 16 / 2 ^ 64 % 2) (hl : (core.ctx n).live = true) :
    ((s.hamperArrive asid d b).ctxOf d.core n).woken = some s.clock := by
  simp only [State.hamperArrive, State.putHamper] at hflip ⊢
  obtain ⟨m, hm⟩ := modHome_core asid d (fun x => x.put d.off 16 (hmArrive (s.rd asid d 16) b)) hc
  have hhome : s.hasHome asid d := by
    unfold State.hasHome
    rw [hd]
    exact ⟨core, hc⟩
  split
  · next hsame =>
    rw [if_pos hsame, (wr_storesBytes _ hhome).1, bytesAt_eq_rd] at hflip
    rw [hmPhase_eq, hmPhase_eq] at hsame
    simp only [beq_iff_eq] at hsame
    have hbit := hsame
    rw [beq_eq_beq] at hbit
    omega
  · simp only [State.wakeHamper, hd]
    exact (wake_ctxOf_woken (s := s.wr asid d 16 _) hm hl).trans (congrArg some (modHome_clock s asid d _))

theorem hmadd_wakes {rs2 rs1 : R5} (hi : s.issuer? = some i) (ha : LocalAt i (i.ctx.getX rs1) 16 d) (hd : d.space = .tcm) (he : NoEagerOver s i d 16)
    (hexec : exec (.hmadd rs2 rs1) s = .next t) (hflip : t.bytesAt i.core.asid d 16 / 2 ^ 64 % 2 ≠ s.bytesAt i.core.asid d 16 / 2 ^ 64 % 2) {n : Nat}
    (hl : (s.ctxOf i.c n).live = true) : (t.ctxOf i.c n).woken = some s.clock := by
  obtain ⟨-, hc, -, -, -⟩ := issuer_spec hi
  have htrace := recordMem_onlyTrace s i.c i.k true (i.ctx.getX rs1)
  obtain ⟨w, hw⟩ := htrace.core_some hc
  rw [hmadd_eq hi ha hd he rfl] at hexec
  cases hexec
  obtain ⟨hcore, -⟩ := ha
  have hbytes {x y : State} (h : SameMemory x y) : y.bytesAt i.core.asid d 16 = x.bytesAt i.core.asid d 16 := by
    simp only [State.bytesAt, h i.core.asid]
  rw [State.finishWith, hbytes (modCtx_sameMemory _ _ _ _), ← hbytes htrace.sameMemory] at hflip
  rw [ctxOf_of_core? hc] at hl
  have hwakes := hamperArrive_wakes (d := d) (core := { i.core with tracectl := w }) (by rw [hcore]; exact hw) hd hflip hl
  refine (modCore_woken ?_ _ _).trans ?_
  · exact fun x n => modCtx_woken (f := fun y => (id y).advance) (fun _ => rfl) _ _ _
  · rwa [hcore, htrace.clock] at hwakes

/-- The six waits that `retry` ends by a test of their event. -/
theorem endsWhen_waits {w : Wait} {ended : Prop} (hc : s.core? c = some core) (ha : core.active = true) (hw : (core.ctx k).wait = some w)
    (h : (w = .wfi ∧ (ended ↔ (core.ctx k).woken ≠ none)) ∨
      (∃ sc, w = .fence sc ∧ (ended ↔ ∀ e ∈ core.eager, e.ctx = k → e.cmd = none → s.homeIn core.asid sc.toNat c e.dest = false)) ∨
      (∃ slot, w = .sbwait slot ∧ (ended ↔ ∀ e ∈ core.eager, e.ctx = k → e.slot ≠ some slot)) ∨
      (∃ d, w = .cjoin d ∧ s.spillPoison core.asid d 4 = none ∧ (ended ↔ s.bytesAt core.asid d 4 = 0)) ∨
      (∃ d v, w = .waitf d v ∧ s.spillPoison core.asid d 8 = none ∧ (ended ↔ v.toNat ≤ s.bytesAt core.asid d 8)) ∨
      (∃ d ph, w = .hmwait d ph ∧ s.spillPoison core.asid d 16 = none ∧ (ended ↔ (s.bytesAt core.asid d 16 / 2 ^ 64 % 2 == 1) = ph))) :
    EndsWhen s c k w ended := by
  rcases h with ⟨rfl, he⟩ | ⟨sc, rfl, he⟩ | ⟨slot, rfl, he⟩ | ⟨d, rfl, hp, he⟩ | ⟨d, v, rfl, hp, he⟩ | ⟨d, ph, rfl, hp, he⟩
  · refine endsWhen_of_test (test := (core.ctx k).woken.isSome) hc ha hw ?_ ?_
    · simp only [State.retryWait, useWake_wfi]
    · rw [he, Option.isSome_iff_ne_none]
  · refine endsWhen_of_test (test := !s.fencePending core c k sc.toNat) hc ha hw ?_ ?_
    · rw [useWake_of_ne (by simp)]
      cases h : s.fencePending core c k sc.toNat <;> simp [State.retryWait, h]
    · rw [he, Bool.not_eq_true', fencePending_eq_false_iff]
  · refine endsWhen_of_test (test := !core.eager.any fun e => e.ctx == k && e.slot == some slot) hc ha hw ?_ ?_
    · rw [useWake_of_ne (by simp)]
      cases h : core.eager.any fun e => e.ctx == k && e.slot == some slot <;> simp [State.retryWait, h]
    · rw [he, Bool.not_eq_true', List.any_eq_false]
      simp only [Bool.and_eq_true, beq_iff_eq, not_and, ne_eq]
  · refine endsWhen_of_test (test := decide (s.rd core.asid d 4 = 0)) hc ha hw ?_ ?_
    · simp only [useWake_of_ne (w := .cjoin d) (by simp), State.retryWait, reading_of_none hp, decide_eq_true_eq]
    · rw [he, bytesAt_eq_rd, decide_eq_true_eq]
  · refine endsWhen_of_test (test := decide (v.toNat ≤ s.rd core.asid d 8)) hc ha hw ?_ ?_
    · simp only [useWake_of_ne (w := .waitf d v) (by simp), State.retryWait, reading_of_none hp, decide_eq_true_eq]
    · rw [he, bytesAt_eq_rd, decide_eq_true_eq]
  · refine endsWhen_of_test (test := hmPhase (s.rd core.asid d 16) == ph) hc ha hw ?_ ?_
    · simp only [useWake_of_ne (w := .hmwait d ph) (by simp), State.retryWait, reading_of_none hp]
    · rw [he, bytesAt_eq_rd, hmPhase_eq, beq_iff_eq]

/-- A wait that reads memory takes POISON where the bytes lie on a poisoned page. -/
theorem retry_meets_poison {w : Wait} {n pa : Nat} (hc : s.core? c = some core) (ha : core.active = true) (hw : (core.ctx k).wait = some w)
    (h : w = .cjoin d ∧ n = 4 ∨ (∃ v, w = .waitf d v ∧ n = 8) ∨ (∃ ph, w = .hmwait d ph ∧ n = 16) ∨ (∃ rd, w = .rget rd d ∧ n = 32))
    (hp : s.spillPoison core.asid d n = some pa) : s.retry c k = (s.metPoison c pa).trap c k cPOISON 0 := by
  rw [retry_eq hc ha hw]
  rcases h with ⟨rfl, rfl⟩ | ⟨v, rfl, rfl⟩ | ⟨ph, rfl, rfl⟩ | ⟨rd, rfl, rfl⟩ <;> exact reading_of_some hp

/-- Settles O16: each wait ends by a test of its event or meets poison; a post and the completion of a hamper wake their core. -/
theorem waits : Obligations.Waits := by
  refine ⟨fun s i hi => wfi_waits hi, fun s c core k w ended hc ha hw h => (endsWhen_waits hc ha hw h).outcome hc,
    fun s c core k w d n pa hc ha hw hl h hp => ?_, fun s p m dst mb v core hm hkind hfirst hbelongs hc hdead hmb => ?_,
    fun s t i rs2 rs1 d hi haddr hd he hexec hflip n hl => hmadd_wakes hi haddr hd he hexec hflip hl⟩
  · rw [retry_meets_poison hc ha hw h hp]
    exact metPoison_trap_poisonStops hc ha hl pa
  · exact ⟨_, rfl, fun n hl => mailboxPostArrival_wakes hm hkind hfirst hbelongs hc hdead hmb hl⟩

end Sys2Proof.Machine

/-! Records and the helpers that take them (R35, R36, R56, R157 to R161). -/

namespace Sys2Proof.Machine

open Sys2Proof.Laws

variable {s t : State} {c d : CoreId} {k k' o : Core} {h : Nat} {r : TaskRec} {j : Job}

-- which helper, which record (R35, R160)
/-- The helper that takes the next record is the lowest of the pool that is idle. -/
theorem idlePool_head (hh : k.idlePool.head? = some h) :
    1 ≤ h ∧ h ≤ 10 ∧ h ≤ k.pool ∧ (k.ctx h).live = false ∧ ∀ n, 1 ≤ n → n < h → (k.ctx n).live = true := by
  rw [Core.idlePool, Core.idle, List.filter_filter, List.head?_filter] at hh
  obtain ⟨hp, hmem, hfirst⟩ := List.find?_range_eq_some.mp hh
  simp only [Bool.and_eq_true, decide_eq_true_eq, Bool.not_eq_true', ne_eq] at hp
  obtain ⟨hpool, hne, hidle⟩ := hp
  rw [List.mem_range] at hmem
  refine ⟨by omega, by omega, hpool, hidle, fun n hn hlt => ?_⟩
  have := hfirst n hlt
  have hle : n ≤ k.pool := by omega
  have hn0 : n ≠ 0 := by omega
  simpa [hle, hn0] using this

/-- Only an empty list has no least element. -/
theorem leastBy_none {α : Type} {key : α → Nat} : ∀ {l : List α}, leastBy key l = none → l = []
  | [], _ => rfl
  | x :: l, h => by
    rw [leastBy] at h
    cases hl : leastBy key l with
    | none => simp [hl] at h
    | some y =>
      rw [hl] at h
      dsimp only at h
      split_ifs at h

/-- The least element by a key is one of the list, and none has a lesser key. -/
theorem leastBy_spec {α : Type} {key : α → Nat} : ∀ {l : List α} {a : α}, leastBy key l = some a → a ∈ l ∧ ∀ b ∈ l, key a ≤ key b
  | [], a, h => by simp [leastBy] at h
  | b :: l, a, h => by
    rw [leastBy] at h
    cases hl : leastBy key l with
    | none =>
      rw [hl] at h
      cases h
      simp [leastBy_none hl]
    | some x =>
      obtain ⟨hx, hleast⟩ := leastBy_spec hl
      rw [hl] at h
      dsimp only at h
      split_ifs at h with hlt
      · cases h
        exact ⟨List.mem_cons_of_mem _ hx, fun y hy => by rcases List.mem_cons.mp hy with rfl | hy; exacts [hlt.le, hleast y hy]⟩
      · cases h
        exact ⟨List.mem_cons_self, fun y hy => by rcases List.mem_cons.mp hy with rfl | hy; exacts [le_rfl, (Nat.not_lt.mp hlt).trans (hleast y hy)]⟩

/-- The next record is startable, and no startable one has a higher level. -/
theorem nextRecord_spec (hlevel : ∀ t ∈ k.tasks, t.level < 256) (hr : k.nextRecord = some r) :
    r ∈ k.tasks ∧ k.startable r = true ∧ ∀ t ∈ k.tasks, k.startable t = true → t.level ≤ r.level := by
  obtain ⟨hmem, hleast⟩ := leastBy_spec hr
  rw [List.mem_filter] at hmem
  obtain ⟨hin, hstart⟩ := hmem
  refine ⟨hin, hstart, fun t ht hst => ?_⟩
  have hkey := hleast t (List.mem_filter.mpr ⟨ht, hst⟩)
  have := hlevel t ht
  have := hlevel r hin
  omega

theorem spawnWaits_iff : k.spawnWaits = true ↔ ∃ rd pc arg, (k.ctx 0).wait = some (.spawn rd pc arg) := by
  unfold Core.spawnWaits
  split
  · next rd pc arg hw => exact ⟨fun _ => ⟨rd, pc, arg, hw⟩, fun _ => rfl⟩
  · next hne => exact ⟨nofun, fun ⟨rd, pc, arg, hw⟩ => absurd hw (hne rd pc arg)⟩

theorem mayStart_eq_false (h : k.active = false ∨ ∃ rd pc arg, (k.ctx 0).wait = some (.spawn rd pc arg)) : (k.active && !k.spawnWaits) = false := by
  rcases h with ha | hw
  · rw [ha, Bool.false_and]
  · rw [spawnWaits_iff.mpr hw, Bool.not_true, Bool.and_false]

theorem mayStart_eq_true (ha : k.active = true) (hw : ∀ rd pc arg, (k.ctx 0).wait ≠ some (.spawn rd pc arg)) : (k.active && !k.spawnWaits) = true := by
  have hn : k.spawnWaits = false := by
    rw [← Bool.not_eq_true, spawnWaits_iff]
    exact fun ⟨rd, pc, arg, h⟩ => hw rd pc arg h
  rw [ha, hn]
  rfl

-- a helper starts (R56, R131, R158)
theorem startCtx_getX (zero : Ctx) (life : Life) (pc x10 x11 : Word) (r : R5) :
    (startCtx zero life pc x10 x11).getX r = if r = 10 then x10 else if r = 11 then x11 else 0 := by
  rw [startCtx, getX_setX, getX_setX]
  by_cases h10 : r = 10
  · subst h10; rfl
  · by_cases h11 : r = 11
    · subst h11; rfl
    · rw [if_neg h11, if_neg h10, if_neg h10, if_neg h11]
      unfold Ctx.getX
      split_ifs <;> rfl

/-- A core whose contexts are those of a start of helper `h` runs it. -/
theorem helperRuns_of_ctxs {life : Life} {pc x10 x11 : Word} (hc : s.core? c = some k) (ht : t.core? c = some k')
    (hx : k'.ctxs = (k.startHelper h life pc x10 x11).ctxs) : HelperRuns c h life pc x10 x11 s t := by
  have same : t.ctxOf c h = startCtx (s.ctxOf c 0) life pc x10 x11 := by
    rw [ctxOf_of_core? ht, ctxOf_of_core? hc, Core.ctx, hx]
    exact ctx_setCtx_same k h _
  have others (n : Nat) (hn : n ≠ h) : t.ctxOf c n = s.ctxOf c n := by
    rw [ctxOf_of_core? ht, ctxOf_of_core? hc, Core.ctx, hx]
    exact ctx_setCtx_ne k _ hn
  unfold HelperRuns
  rw [same]
  exact ⟨rfl, rfl, startCtx_getX _ _ _ _ _, fun _ => rfl, rfl, rfl, rfl, rfl, rfl, others⟩

-- a record leaves its queue for a helper (R157, R160, R161)
/-- The core from whose queue a record starts. -/
def Core.giveRecord (k : Core) (r : TaskRec) (clock : Nat) : Core :=
  { k with tasks := k.tasks.filter fun t => t.seq ≠ r.seq, taskLive := k.taskLive ++ [r.seq], lastProgress := clock }
/-- The core whose helper takes it. -/
def Core.takeRecord (k : Core) (owner : CoreId) (h : Nat) (r : TaskRec) (clock : Nat) : Core :=
  { k.startHelper h (.task owner r.seq r.join) r.code r.frame r.join with lastProgress := clock }

theorem startRecord_keeps (s : State) (d c : CoreId) (h : Nat) (r : TaskRec) : Keeps [.cores] s (s.startRecord d c h r) :=
  (modCore_keeps s d _).trans ((modCore_keeps _ c _).trans ((modCore_keeps _ d _).trans (modCore_keeps _ c _)))

theorem startRecord_others (s : State) (d c : CoreId) (h : Nat) (r : TaskRec) {x : CoreId} (hc : x ≠ c) (hd : x ≠ d) :
    (s.startRecord d c h r).core? x = s.core? x := by
  simp only [State.startRecord, State.progress, core?_modCore, Ne.symm hc, Ne.symm hd, if_false]

theorem startRecord_own (hc : s.core? c = some k) (h : Nat) (r : TaskRec) :
    (s.startRecord c c h r).core? c = some ((k.giveRecord r s.clock).takeRecord c h r s.clock) := by
  simp only [State.startRecord, State.progress, core?_modCore_same, hc, Option.map_some]
  rfl

theorem startRecord_taker (hne : d ≠ c) (hc : s.core? c = some k) (h : Nat) (r : TaskRec) :
    (s.startRecord d c h r).core? c = some (k.takeRecord d h r s.clock) := by
  simp only [State.startRecord, State.progress, core?_modCore, hne, hc, Option.map_some, if_true, if_false]
  rfl

theorem startRecord_giver (hne : d ≠ c) (hd : s.core? d = some o) (h : Nat) (r : TaskRec) :
    (s.startRecord d c h r).core? d = some (o.giveRecord r s.clock) := by
  simp only [State.startRecord, State.progress, core?_modCore, Ne.symm hne, hd, Option.map_some, if_true, if_false]
  rfl

/-- POOL_POP: the lowest idle helper of the pool takes the next record of its core (R160). -/
theorem poolPop_starts (hc : s.core? c = some k) (ha : k.active = true) (hw : ∀ rd pc arg, (k.ctx 0).wait ≠ some (.spawn rd pc arg))
    (hh : k.idlePool.head? = some h) (hr : k.nextRecord = some r) : Does (.poolPop c) s fun t =>
      HelperRuns c h (.task c r.seq r.join) r.code r.frame r.join s t ∧ Keeps [.cores] s t ∧ OtherCores c s t ∧ ∃ k', t.core? c = some k' ∧
        k'.tasks = k.tasks.filter (fun x => x.seq ≠ r.seq) ∧ k'.taskLive = k.taskLive ++ [r.seq] ∧
        { k' with ctxs := k.ctxs, tasks := k.tasks, taskLive := k.taskLive, lastProgress := k.lastProgress } = k := by
  have hpop : poolPop c s = s.startRecord c c h r := by simp only [poolPop, hc, mayStart_eq_true ha hw, hh, hr]
  have hcore := startRecord_own hc h r
  refine ⟨_, rfl, ?_⟩
  rw [hpop]
  exact ⟨helperRuns_of_ctxs hc hcore rfl, startRecord_keeps s c c h r, fun x hx => startRecord_others s c c h r hx hx, _, hcore, rfl, rfl, rfl⟩

theorem poolPop_idle (hc : s.core? c = some k)
    (h : k.active = false ∨ k.idlePool = [] ∨ k.nextRecord = none ∨ ∃ rd pc arg, (k.ctx 0).wait = some (.spawn rd pc arg)) :
    exec (.poolPop c) s = .next s := by
  refine congrArg Host.Outcome.next ?_
  unfold poolPop
  simp only [hc]
  split
  · next hm hh hr =>
    rcases h with ha | hp | hn | hw
    · rw [mayStart_eq_false (.inl ha)] at hm; cases hm
    · rw [hp] at hh; cases hh
    · rw [hn] at hr; cases hr
    · rw [mayStart_eq_false (.inr hw)] at hm; cases hm
  · rfl

theorem taskSteal_idle (hc : s.core? c = some k)
    (h : k.active = false ∨ k.idlePool = [] ∨ k.nextRecord ≠ none ∨ ∃ rd pc arg, (k.ctx 0).wait = some (.spawn rd pc arg)) :
    exec (.taskSteal c) s = .next s := by
  refine congrArg Host.Outcome.next ?_
  unfold taskSteal
  simp only [hc]
  split
  · next hm hh hr hj =>
    rcases h with ha | hp | hn | hw
    · rw [mayStart_eq_false (.inl ha)] at hm; cases hm
    · rw [hp] at hh; cases hh
    · exact absurd hr hn
    · rw [mayStart_eq_false (.inr hw)] at hm; cases hm
  · rfl

theorem victims_ne {index : Nat} (h : d ∈ j.victims c index) : d ≠ c := by
  simp only [Job.victims, List.mem_append, List.mem_filter, decide_eq_true_eq] at h
  rcases h with ⟨⟨-, hne⟩, -⟩ | ⟨⟨-, hne⟩, -⟩ <;> exact hne

/-- The next record of a core whose pool is busy may be stolen when it is not NOSTEAL and its join counter is none or in the scratchpad (R161). -/
theorem stealable_eq (hr : o.nextRecord = some r) (hns : r.nosteal = false) (hj : r.join = 0 ∨ r.join.toNat / 2 ^ 60 = 1) (hp : o.idlePool = []) :
    o.stealable = some r := by
  have hjoin : (r.join == 0 || addrForm r.join == 1) = true := by
    rcases hj with h | h
    · rw [h]; rfl
    · rw [addrForm, h]; simp
  simp only [Core.stealable, hr, Option.bind_some, hns, hjoin, hp]
  rfl

/-- TASK_STEAL: with none there, the record comes from the next core of the quad (R161). -/
theorem taskSteal_starts {rest : List CoreId} (hc : s.core? c = some k) (ha : k.active = true)
    (hw : ∀ rd pc arg, (k.ctx 0).wait ≠ some (.spawn rd pc arg)) (hh : k.idlePool.head? = some h) (hnone : k.nextRecord = none)
    (hj : s.job? k.asid = some j) (hv : j.victims c k.index = d :: rest) (hd : s.core? d = some o) (hoa : o.active = true) (hst : o.stealable = some r) :
    Does (.taskSteal c) s fun t => HelperRuns c h (.task d r.seq r.join) r.code r.frame r.join s t ∧ Keeps [.cores] s t ∧
      (∀ x, x ≠ c → x ≠ d → t.core? x = s.core? x) ∧ (t.core? c).map Core.tasks = some k.tasks ∧ ∃ o', t.core? d = some o' ∧
        o'.tasks = o.tasks.filter (fun x => x.seq ≠ r.seq) ∧ o'.taskLive = o.taskLive ++ [r.seq] ∧
        { o' with tasks := o.tasks, taskLive := o.taskLive, lastProgress := o.lastProgress } = o := by
  have hne : d ≠ c := victims_ne (by rw [hv]; exact List.mem_cons_self)
  have hsteal : taskSteal c s = s.startRecord d c h r := by
    simp only [taskSteal, hc, mayStart_eq_true ha hw, hh, hnone, hj, hv, List.map_cons, hd, Option.bind_some, hoa, if_true, hst, Option.map_some, firstSome]
  have hcore := startRecord_taker hne hc h r
  refine ⟨_, rfl, ?_⟩
  rw [hsteal]
  exact ⟨helperRuns_of_ctxs hc hcore rfl, startRecord_keeps s d c h r, fun x hx hy => startRecord_others s d c h r hx hy, by rw [hcore]; rfl, _,
    startRecord_giver hne hd h r, rfl, rfl, rfl⟩

-- aging (R36, R159)
theorem insertBy_perm {α : Type} (key : α → Nat) (a : α) : ∀ l : List α, (insertBy key a l).Perm (a :: l)
  | [] => .refl _
  | b :: l => by
    rw [insertBy]
    split_ifs
    · exact .refl _
    · exact ((insertBy_perm key a l).cons b).trans (.swap a b l)

theorem sortBy_perm {α : Type} (key : α → Nat) (l : List α) : (sortBy key l).Perm l := by
  have fold (l acc : List α) : (l.foldl (fun acc a => insertBy key a acc) acc).Perm (l ++ acc) := by
    induction l generalizing acc with
    | nil => exact .refl _
    | cons a l ih => exact (ih _).trans (((insertBy_perm key a acc).append_left l).trans List.perm_middle)
  rw [sortBy]
  simpa using fold l []

/-- A record has waited longer than AGE at a level below its ceiling (R36). -/
def TaskRec.ages (r : TaskRec) (age clock : Nat) : Prop := age ≠ 0 ∧ r.since + age < clock ∧ r.level < r.ceil

/-- `r'` is the record `r` once the records `l` have been looked at. -/
structure AgedBy (l : List TaskRec) (age clock : Nat) (r r' : TaskRec) : Prop where
  seq : r'.seq = r.seq
  code : r'.code = r.code
  ceil : r'.ceil = r.ceil
  up (x : TaskRec) : x ∈ l → x.seq = r.seq → x.ages age clock → r'.level = r.level + 1 ∧ r'.since = clock
  still : (∀ x ∈ l, x.seq = r.seq → ¬ x.ages age clock) → r' = r

/-- What looking at one record does to each of the queue. -/
theorem ageOne_tasks (k : Core) (clock : Nat) (r : TaskRec) : ∃ f, (k.ageOne clock r).tasks = k.tasks.map f ∧ (∀ t, AgedBy [r] k.age clock t (f t)) ∧
    { k.ageOne clock r with tasks := k.tasks, taskNext := k.taskNext } = k := by
  unfold Core.ageOne
  split_ifs with ha
  · refine ⟨_, rfl, fun t => ?_, rfl⟩
    split_ifs with heq
    · exact ⟨rfl, rfl, rfl, fun _ _ _ _ => ⟨rfl, rfl⟩, fun h => absurd ha (h r (List.mem_singleton_self r) heq.symm)⟩
    · exact ⟨rfl, rfl, rfl, fun x hx hxs _ => absurd (List.mem_singleton.mp hx ▸ hxs).symm heq, fun _ => rfl⟩
  · exact ⟨id, (List.map_id _).symm, fun t => ⟨rfl, rfl, rfl, fun x hx _ hxa => absurd (List.mem_singleton.mp hx ▸ hxa) ha, fun _ => rfl⟩, rfl⟩

/-- The steps of one record and of the others compose where each has a sequence number of its own. -/
theorem AgedBy.cons {l : List TaskRec} {age clock : Nat} {r x y z : TaskRec} (hr : ∀ t ∈ l, t.seq ≠ r.seq) (hxy : AgedBy [r] age clock x y) (hyz : AgedBy l age clock y z) :
    AgedBy (r :: l) age clock x z where
  seq := hyz.seq.trans hxy.seq
  code := hyz.code.trans hxy.code
  ceil := hyz.ceil.trans hxy.ceil
  up t ht hts hta := by
    rcases List.mem_cons.mp ht with rfl | ht
    · rw [hyz.still fun u hu hus _ => hr u hu ((hus.trans hxy.seq).trans hts.symm)]
      exact hxy.up t (List.mem_singleton_self t) hts hta
    · have hy : y = x := hxy.still fun u hu hus _ => hr t ht (hts.trans (List.mem_singleton.mp hu ▸ hus).symm)
      subst hy
      exact hyz.up t ht hts hta
  still h := by
    have hy : y = x := hxy.still fun u hu => h u (List.mem_cons.mpr (.inl (List.mem_singleton.mp hu)))
    subst hy
    exact hyz.still fun u hu => h u (List.mem_cons_of_mem r hu)

theorem ageAll_tasks (clock : Nat) : ∀ (l : List TaskRec) (k : Core), (l.map TaskRec.seq).Nodup →
    ∃ f, (l.foldl (fun k r => k.ageOne clock r) k).tasks = k.tasks.map f ∧ (∀ t, AgedBy l k.age clock t (f t)) ∧
      { l.foldl (fun k r => k.ageOne clock r) k with tasks := k.tasks, taskNext := k.taskNext } = k
  | [], k, _ => ⟨id, (List.map_id _).symm, fun t => ⟨rfl, rfl, rfl, nofun, fun _ => rfl⟩, rfl⟩
  | r :: l, k, hl => by
    rw [List.map_cons, List.nodup_cons] at hl
    obtain ⟨f, hf, hfa, hfk⟩ := ageOne_tasks k clock r
    obtain ⟨g, hg, hga, hgk⟩ := ageAll_tasks clock l (k.ageOne clock r) hl.2
    have hage : (k.ageOne clock r).age = k.age := (congrArg Core.age hfk :)
    refine ⟨g ∘ f, ?_, fun t => ?_, ?_⟩
    · rw [List.foldl_cons, hg, hf, List.map_map]
    · exact .cons (fun t ht hts => hl.1 (hts ▸ List.mem_map_of_mem ht)) (hfa t) (hage ▸ hga (f t))
    · rw [List.foldl_cons]
      have := congrArg (fun x : Core => { x with tasks := k.tasks, taskNext := k.taskNext }) hgk
      exact (this.trans hfk :)

/-- RECORD_AGING (R36, R159). -/
theorem recordAging_ages (hc : s.core? c = some k) (ha : k.active = true) (hn : (k.tasks.map TaskRec.seq).Nodup) :
    Does (.recordAging c) s fun t => CoreTo c s t fun x y =>
      { y with tasks := x.tasks, taskNext := x.taskNext } = x ∧ y.tasks.map TaskRec.seq = x.tasks.map TaskRec.seq ∧
      ∀ r ∈ x.tasks, ∃ r' ∈ y.tasks, r'.seq = r.seq ∧ r'.code = r.code ∧ r'.ceil = r.ceil ∧
        (x.age ≠ 0 ∧ r.since + x.age < s.clock ∧ r.level < r.ceil → r'.level = r.level + 1 ∧ r'.since = s.clock) ∧
        (¬ (x.age ≠ 0 ∧ r.since + x.age < s.clock ∧ r.level < r.ceil) → r' = r) := by
  have hperm := sortBy_perm TaskRec.lseq k.tasks
  obtain ⟨f, hf, haged, hk⟩ := ageAll_tasks s.clock (sortBy TaskRec.lseq k.tasks) k ((hperm.map _).nodup_iff.mpr hn)
  refine ⟨_, rfl, k, (sortBy TaskRec.lseq k.tasks).foldl (fun k r => k.ageOne s.clock r) k, hc, ?_, ⟨hk, ?_, fun r hr => ?_⟩,
    modCore_keeps s c _, modCore_otherCores s c _⟩
  · rw [recordAging, core?_modCore_same, hc, Option.map_some, if_pos ha]
  · rw [hf, List.map_map]
    exact List.map_congr_left fun t _ => (haged t).seq
  · refine ⟨f r, by rw [hf]; exact List.mem_map_of_mem hr, (haged r).seq, (haged r).code, (haged r).ceil, (haged r).up r (hperm.mem_iff.mpr hr) rfl, fun hno => ?_⟩
    refine (haged r).still fun x hx hxs hxa => hno ?_
    rwa [List.inj_on_of_nodup_map hn (hperm.mem_iff.mp hx) hr hxs] at hxa

end Sys2Proof.Machine

/-! A vector instruction completes (R11, R56, R193, R194). -/

namespace Sys2Proof.Machine

open Sys2Proof.Laws

variable {s t : State} {c : CoreId} {k : Core} {l : LaneOp}

/-- The late traps that a vector instruction without an enabled NUMERIC flag sets out (R194, R353). -/
def LaneOp.lateTraps (l : LaneOp) (seq : Nat) : List LateTrap :=
  (match l.fault with
    | some a => [{ cause := cBOUNDS, seq := seq, tval := a, ctx := l.ctx, orphan := l.gone }]
    | none => []) ++ if l.poison.isSome then [{ cause := cPOISON, seq := seq, tval := 0, ctx := l.ctx, orphan := l.gone }] else []

/-- The core whose instruction `l` has completed and owes `n` late traps. -/
def Core.laneDone (k : Core) (l : LaneOp) (seq n : Nat) : Core :=
  ((({ k with poisonMet := (l.poison.map fun pa => some (pa / 4096 * 4096)).getD k.poisonMet, lanes := k.lanes.filter fun x => x.seq ≠ seq }).ringOwe seq n).ringDone seq).modCtx
    (if l.gone then 0 else l.ctx) fun x => { x with flags := x.flags ||| l.flags }

theorem laneDone_eq (k : Core) (l : LaneOp) (seq n : Nat) : ∃ cs r, k.laneDone l seq n =
    { k with poisonMet := (l.poison.map fun pa => some (pa / 4096 * 4096)).getD k.poisonMet, lanes := k.lanes.filter fun x => x.seq ≠ seq, ctxs := cs, ring := r } :=
  ⟨_, _, rfl⟩

theorem laneDone_ctx_same (k : Core) (l : LaneOp) (seq n : Nat) : (k.laneDone l seq n).ctx (if l.gone then 0 else l.ctx) =
    { k.ctx (if l.gone then 0 else l.ctx) with flags := (k.ctx (if l.gone then 0 else l.ctx)).flags ||| l.flags } :=
  ctx_modCtx_same _ _ _

theorem laneDone_ctx_ne (k : Core) (l : LaneOp) (seq n : Nat) {m : Nat} (hm : m ≠ if l.gone then 0 else l.ctx) : (k.laneDone l seq n).ctx m = k.ctx m :=
  ctx_modCtx_ne _ _ hm

/-- Late traps set out as messages: nothing but the messages changes. -/
theorem raiseLates_frame (c : CoreId) (asid : Nat) : ∀ (ts : List LateTrap) (s : State),
    Keeps [.net] s (ts.foldl (fun s t => s.raiseLate c asid t) s) ∧ (ts.foldl (fun s t => s.raiseLate c asid t) s).cores = s.cores
  | [], s => ⟨.refl _ s, rfl⟩
  | t :: ts, s =>
    have ih := raiseLates_frame c asid ts (s.raiseLate c asid t)
    ⟨(send_keeps s c 0 asid 0 none (.late t)).trans ih.1, ih.2⟩

theorem lateTraps_net (s : State) (c : CoreId) (asid seq : Nat) (l : LaneOp) :
    ((l.lateTraps seq).foldl (fun s t => s.raiseLate c asid t) s).net = s.net ++
      (match l.fault with
        | none => []
        | some a => [coreMsg c asid s.tickets (.late { cause := 0x04, seq := seq, tval := a, ctx := l.ctx, orphan := l.gone })]) ++
      (if l.poison.isSome then
        [coreMsg c asid (if l.fault.isSome then s.tickets + 1 else s.tickets) (.late { cause := 0x0A, seq := seq, tval := 0, ctx := l.ctx, orphan := l.gone })] else []) := by
  unfold LaneOp.lateTraps
  cases l.fault <;> cases l.poison <;> simp [State.raiseLate, coreMsg, cBOUNDS, cPOISON]

theorem vectorCompletion_eq {seq : Nat} (hc : s.core? c = some k) (hl : k.lanes.find? (fun l => l.seq = seq) = some l) (hn : l.flags &&& l.enabled = 0) :
    ∃ u, vectorCompletion c seq s = (l.lateTraps seq).foldl (fun s t => s.raiseLate c k.asid t) u ∧ Keeps [.cores] s u ∧ OtherCores c s u ∧
      u.core? c = some (k.laneDone l seq (l.lateTraps seq).length) := by
  have hnumeric : numericOf l.flags l.enabled seq l.ctx l.gone = none := if_pos hn
  unfold vectorCompletion
  simp only [hc, hl, hnumeric, Option.toList_none, List.append_nil]
  refine ⟨_, rfl, ?_⟩
  cases hp : l.poison with
  | none =>
    refine ⟨(modCore_keeps s c _).trans (modCore_keeps _ c _), (modCore_otherCores s c _).trans (modCore_otherCores _ c _), ?_⟩
    simp only [State.addFlags, core?_modCore_same, hc, Option.map_some, Core.laneDone, hp, Option.map_none, Option.getD_none, LaneOp.lateTraps] <;> rfl
  | some pa =>
    refine ⟨(modCore_keeps s c _).trans ((modCore_keeps _ c _).trans (modCore_keeps _ c _)),
      (modCore_otherCores s c _).trans ((modCore_otherCores _ c _).trans (modCore_otherCores _ c _)), ?_⟩
    simp only [State.addFlags, State.metPoison, core?_modCore_same, hc, Option.map_some, Core.laneDone, hp, Option.getD_some, LaneOp.lateTraps] <;> rfl

theorem vectorCompletion_none {seq : Nat} (hc : s.core? c = some k) (hl : ∀ l ∈ k.lanes, l.seq ≠ seq) : exec (.vectorCompletion c seq) s = .next s := by
  have hfind : k.lanes.find? (fun l => l.seq = seq) = none := List.find?_eq_none.mpr fun l h => by simpa using hl l h
  refine congrArg Host.Outcome.next ?_
  simp only [vectorCompletion, hc, hfind]

/-- VECTOR_COMPLETION (R11, R56, R193, R194). -/
theorem vectorCompletion_completes {seq : Nat} (hc : s.core? c = some k) (hl : k.lanes.find? (fun l => l.seq = seq) = some l) (hn : l.flags &&& l.enabled = 0) :
    Does (.vectorCompletion c seq) s fun t =>
      (∃ k', t.core? c = some k' ∧ k'.lanes = k.lanes.filter (fun x => x.seq ≠ seq) ∧ k'.q = k.q ∧ k'.tasks = k.tasks) ∧
      (let n := if l.gone then 0 else l.ctx
       t.ctxOf c n = { s.ctxOf c n with flags := (s.ctxOf c n).flags ||| l.flags } ∧ ∀ m, m ≠ n → t.ctxOf c m = s.ctxOf c m) ∧
      (∃ u u', t.net = s.net ++
        (match l.fault with
          | none => []
          | some a => [coreMsg c k.asid u (.late { cause := 0x04, seq := seq, tval := a, ctx := l.ctx, orphan := l.gone })]) ++
        (if l.poison.isSome then [coreMsg c k.asid u' (.late { cause := 0x0A, seq := seq, tval := 0, ctx := l.ctx, orphan := l.gone })] else [])) ∧
      (∀ pa, l.poison = some pa → (t.core? c).map Core.poisonMet = some (some (pa / 4096 * 4096))) ∧
      Keeps [.cores, .net] s t ∧ OtherCores c s t := by
  obtain ⟨u, hu, hk, ho, hcore⟩ := vectorCompletion_eq hc hl hn
  obtain ⟨hkeeps, hcores⟩ := raiseLates_frame c k.asid (l.lateTraps seq) u
  have hnet := lateTraps_net u c k.asid seq l
  refine ⟨_, congrArg Host.Outcome.next hu, ?_⟩
  generalize (l.lateTraps seq).foldl (fun s t => s.raiseLate c k.asid t) u = t at hkeeps hcores hnet ⊢
  have ht : t.core? c = some (k.laneDone l seq (l.lateTraps seq).length) := by
    rw [State.core?, hcores]
    exact hcore
  obtain ⟨cs, r, heq⟩ := laneDone_eq k l seq (l.lateTraps seq).length
  refine ⟨⟨_, ht, ?_, ?_, ?_⟩, ⟨?_, fun m hm => ?_⟩, ⟨u.tickets, if l.fault.isSome then u.tickets + 1 else u.tickets, ?_⟩, fun pa hp => ?_, (hk.mono (by simp)).trans (hkeeps.mono (by simp)), ho.trans (otherCores_of_cores c hcores)⟩
  · rw [heq]
  · rw [heq]
  · rw [heq]
  · rw [ctxOf_of_core? ht, ctxOf_of_core? hc]
    exact laneDone_ctx_same k l seq _
  · rw [ctxOf_of_core? ht, ctxOf_of_core? hc]
    exact laneDone_ctx_ne k l seq _ hm
  · rw [hnet, hk.net (by simp)]
  · rw [ht, heq, hp]
    rfl

end Sys2Proof.Machine

/-! Gangs (R163, R216 to R218), and with them what O39 states. -/

namespace Sys2Proof.Machine

open Sys2Proof.Laws

variable {s t u : State} {i : Issuer} {c : CoreId} {k core : Core} {j : Job} {o : Offer} {tag w f r : Nat}

/-- Memory is as before where every core has its TCM and every job its scratchpads and shares. -/
theorem sameMemory_of_homes (hc : ∀ d, (t.core? d).map Core.tcm = (s.core? d).map Core.tcm)
    (hj : ∀ a, (t.job? a).map (fun j => (j.qsp, j.dss)) = (s.job? a).map fun j => (j.qsp, j.dss)) : SameMemory s t := by
  intro a d
  have hq := congrArg (Option.map fun p : Dict Mem × Dict Mem => dgetD p.1 (coreQuad d.core) Mem.empty) (hj a)
  have hd := congrArg (Option.map fun p : Dict Mem × Dict Mem => dgetD p.2 (coreDie d.core) Mem.empty) (hj a)
  simp only [Option.map_map, Function.comp_def] at hq hd
  have hhome : t.home a d = s.home a d := by
    unfold State.home
    cases d.space with
    | tcm => simp only [hc]
    | qsp => simp only [hq]
    | dss => simp only [hd]
  unfold State.byteAt
  rw [hhome]

-- the release (R218)
theorem gangRelease_eq (hc : s.core? c = some k) (hw : (k.ctx 0).wait = some (.gang tag w f true (some r))) :
    gangRelease c s = if r ≤ s.clock then s.modCore c fun k => ({ k with gang := some (tag, w, f), gangPushed := 0, gangs := k.gangs + 1 }).modCtx 0 Ctx.advance else s := by
  simp only [gangRelease, hc, Option.bind_some, hw]

theorem gangRelease_waiting (hc : s.core? c = some k) (hw : (k.ctx 0).wait = some (.gang tag w f true none)) : gangRelease c s = s := by
  simp only [gangRelease, hc, Option.bind_some, hw]

/-- GANG_RELEASE after the stagger: the gang is open (R216, R218). -/
theorem gangRelease_opens (hc : s.core? c = some k) (hw : (k.ctx 0).wait = some (.gang tag w f true (some r))) (hr : r ≤ s.clock) :
    CoreTo c s (gangRelease c s) fun x y => y.gang = some (tag, w, f) ∧ y.gangPushed = 0 ∧ y.gangs = x.gangs + 1 ∧
      y.ctx 0 = (x.ctx 0).advance ∧ (∀ n, n ≠ 0 → y.ctx n = x.ctx n) ∧
      { y with ctxs := x.ctxs, gang := x.gang, gangPushed := x.gangPushed, gangs := x.gangs } = x := by
  rw [gangRelease_eq hc hw, if_pos hr]
  exact ⟨k, _, hc, (core?_modCore_same s c _).trans (congrArg _ hc), ⟨rfl, rfl, rfl, ctx_modCtx_same _ 0 _, fun n hn => ctx_modCtx_ne _ _ hn, rfl⟩,
    modCore_keeps s c _, modCore_otherCores s c _⟩

-- the wired barrier (R216)
/-- Each core of the gang's columns has made the offer that matches `o` (R216). -/
def Job.Met (j : Job) (c : CoreId) (o : Offer) : Prop :=
  ∀ n, n < o.width → ∃ p ∈ j.offers, p.core = c - c % 16 + o.first + n ∧ p.tag = o.tag ∧ p.width = o.width ∧ p.first = o.first ∧ p.number = o.number

theorem offerMet_iff (ho : o.core = c) : j.offerMet o = true ↔ j.Met c o := by
  simp only [Job.offerMet, Job.Met, coreCol, ho, List.all_eq_true, List.mem_range, List.any_eq_true, Bool.and_eq_true, beq_iff_eq, and_assoc]

theorem lastOffer_core (h : j.lastOffer c = some o) : o.core = c := by
  have := (List.mem_filter.mp (List.mem_of_getLast? h)).2
  simpa using this

theorem tryWired_eq (hc : s.core? c = some k) (hw : (k.ctx 0).wait = some (.gang tag w f true none)) (hj : s.job? k.asid = some j) (ho : j.lastOffer c = some o) :
    s.tryWired c = if j.offerMet o then s.modCtx c 0 fun x => { x with wait := some (.gang tag w f true (some (s.clock + k.staggerOf c))) } else s := by
  simp only [State.tryWired, hc, hw, hj, Option.bind_some, ho, Option.map_some]

/-- A waiting GANG whose barrier the last offer of its core completes, and one whose barrier it does not. -/
theorem retry_gang (hc : s.core? c = some k) (ha : k.active = true) (hw : (k.ctx 0).wait = some (.gang tag w f true none)) (hj : s.job? k.asid = some j)
    (ho : j.lastOffer c = some o) :
    (j.Met c o → OnlyCtx c 0 s (s.retry c 0) ∧
      (s.retry c 0).ctxOf c 0 = { k.ctx 0 with wait := some (.gang tag w f true (some (s.clock + (c / 16 % 16 + c % 16) * k.stagger))) }) ∧
    (¬ j.Met c o → s.retry c 0 = s) := by
  have hretry : s.retry c 0 = s.tryWired c := retry_eq hc ha hw
  rw [hretry, tryWired_eq hc hw hj ho, ← offerMet_iff (lastOffer_core ho)]
  refine ⟨fun hmet => ?_, fun hmet => if_neg hmet⟩
  rw [if_pos hmet]
  exact modCtx_onlyCtx hc 0 _

-- GANG (R216)
/-- The next offer of core `c` for the gang of `w` columns from `f` on. -/
def Job.nextOffer (j : Job) (c : CoreId) (tag w f : Nat) : Offer :=
  { core := c, tag := tag, width := w, first := f, number := (j.offers.filter fun o => o.core == c && o.width == w && o.first == f).length }
/-- The job once that offer is made. -/
def Job.offering (j : Job) (c : CoreId) (tag w f : Nat) : Job := { j with offers := j.offers ++ [j.nextOffer c tag w f] }
/-- The core whose open gang closes. -/
def Core.gangless (k : Core) : Core := { k with gang := none }
/-- The state in which the issuer's GANG has made its offer and waits. -/
def State.gangOffered (s : State) (i : Issuer) (tag w f : Nat) : State := (s.offerGang i.c tag w f).block i.c i.k (.gang tag w f true none)
/-- The issuing context that waits with its offer made. -/
def Issuer.offered (i : Issuer) (tag w f ticket : Nat) : Ctx := { i.ctx with wait := some (.gang tag w f true none), ticket := ticket }

theorem offerGang_eq (hc : s.core? c = some k) (tag w f : Nat) :
    s.offerGang c tag w f = (s.modCore c Core.gangless).modJob k.asid fun j => j.offering c tag w f := by
  have hclosed : (s.modCore c fun k => { k with gang := none }).core? c = some k.gangless := by
    rw [core?_modCore_same, hc]
    rfl
  simp only [State.offerGang, hclosed]
  rfl

theorem offerGang_core (hc : s.core? c = some k) (tag w f : Nat) : (s.offerGang c tag w f).core? c = some k.gangless := by
  rw [offerGang_eq hc]
  exact (core?_modCore_same s c _).trans (congrArg _ hc)

theorem gangOffered_core (hi : s.issuer? = some i) (tag w f : Nat) :
    (s.gangOffered i tag w f).core? i.c = some (i.core.gangless.setCtx i.k (i.offered tag w f (s.offerGang i.c tag w f).tickets)) := by
  obtain ⟨-, hc, -, hx, -⟩ := issuer_spec hi
  refine (modCtx_core (offerGang_core hc tag w f) i.k _).trans ?_
  exact congrArg (fun x : Ctx => some (i.core.gangless.setCtx i.k { x with wait := some (.gang tag w f true none), ticket := (s.offerGang i.c tag w f).tickets })) hx

theorem gangOffered_job (hi : s.issuer? = some i) (tag w f : Nat) : (s.gangOffered i tag w f).job? i.core.asid = some (i.job.offering i.c tag w f) := by
  obtain ⟨-, hc, hj, -, -⟩ := issuer_spec hi
  rw [State.gangOffered, offerGang_eq hc]
  refine (job?_modJob (s.modCore i.c Core.gangless) i.core.asid i.core.asid _).trans ?_
  rw [if_pos rfl]
  exact congrArg _ hj

theorem gangOffered_clock (hi : s.issuer? = some i) (tag w f : Nat) : (s.gangOffered i tag w f).clock = s.clock := by
  obtain ⟨-, hc, -, -, -⟩ := issuer_spec hi
  rw [State.gangOffered, offerGang_eq hc]
  rfl

theorem gangOffered_keeps (hi : s.issuer? = some i) (tag w f : Nat) : Keeps [.cores, .jobs] s (s.gangOffered i tag w f) := by
  obtain ⟨-, hc, -, -, -⟩ := issuer_spec hi
  rw [State.gangOffered, offerGang_eq hc]
  exact ⟨by simp, by simp, by simp, by simp, by simp, by simp, by simp, by simp⟩

theorem gangOffered_otherCores (hi : s.issuer? = some i) (tag w f : Nat) : OtherCores i.c s (s.gangOffered i tag w f) := by
  obtain ⟨-, hc, -, -, -⟩ := issuer_spec hi
  rw [State.gangOffered, offerGang_eq hc]
  have hblock := modCore_otherCores ((s.modCore i.c Core.gangless).modJob i.core.asid fun j => j.offering i.c tag w f) i.c
  exact (modCore_otherCores s i.c Core.gangless).trans (hblock _)

theorem gangOffered_sameMemory (hi : s.issuer? = some i) (tag w f : Nat) : SameMemory s (s.gangOffered i tag w f) := by
  obtain ⟨-, hc, -, -, -⟩ := issuer_spec hi
  refine sameMemory_of_homes (fun d => ?_) (fun a => ?_)
  · by_cases hd : d = i.c
    · rw [hd, gangOffered_core hi, hc]
      rfl
    · rw [gangOffered_otherCores hi tag w f d hd]
  · rw [State.gangOffered, offerGang_eq hc]
    refine (congrArg _ (job?_modJob (s.modCore i.c Core.gangless) i.core.asid a _)).trans ?_
    split_ifs
    · rw [Option.map_map]
      rfl
    · rfl

theorem lastOffer_offering (j : Job) (c : CoreId) (tag w f : Nat) : (j.offering c tag w f).lastOffer c = some (j.nextOffer c tag w f) := by
  simp [Job.lastOffer, Job.offering, Job.nextOffer]

/-- The column that is `n` from column `f` of a core's row is the core's own. -/
theorem row_add_iff (c f n : Nat) : c - c % 16 + f + n = c ↔ n + f = c % 16 := by omega

/-- The offer completes the barrier when each other core of the columns has made the matching one. -/
theorem met_offering (hall : ∀ o, o < w → o + f ≠ c % 16 → ∃ p ∈ j.offers, p.core = c - c % 16 + f + o ∧ p.tag = tag ∧ p.width = w ∧ p.first = f ∧
    p.number = (j.offers.filter fun q => q.core = c ∧ q.width = w ∧ q.first = f).length) : (j.offering c tag w f).Met c (j.nextOffer c tag w f) := by
  intro n hn
  by_cases hown : n + f = c % 16
  · refine ⟨j.nextOffer c tag w f, List.mem_append_right _ (List.mem_singleton_self _), ?_, rfl, rfl, rfl, rfl⟩
    exact ((row_add_iff c f n).mpr hown).symm
  · obtain ⟨p, hp, hpc, hpt, hpw, hpf, hpn⟩ := hall n hn hown
    refine ⟨p, List.mem_append_left _ hp, hpc, hpt, hpw, hpf, hpn.trans ?_⟩
    simp only [Job.nextOffer, Bool.decide_and, beq_eq_decide, Bool.and_assoc]

theorem not_met_offering (h : ∃ o, o < w ∧ o + f ≠ c % 16 ∧ ∀ p ∈ j.offers, p.core ≠ c - c % 16 + f + o) :
    ¬ (j.offering c tag w f).Met c (j.nextOffer c tag w f) := by
  intro hmet
  obtain ⟨o, hw, hne, hnone⟩ := h
  obtain ⟨p, hp, hpc, -⟩ := hmet o hw
  rcases List.mem_append.mp hp with hold | hnew
  · exact hnone p hold hpc
  · rw [List.mem_singleton.mp hnew] at hpc
    exact hne ((row_add_iff c f o).mp hpc.symm)

theorem gangPending_iff (k : Core) : k.gangedPending = true ↔ ∃ m ∈ k.queue 0, dGanged m.d0 = true := List.any_eq_true

theorem exec_gang {rs1 rs2 : R5} {r : Rect} (hi : s.issuer? = some i) (hr : i.job.rects[i.core.rect]? = some r) : exec (.gang rs1 rs2) s =
    let tag := (i.ctx.getX rs1).toNat % 256
    let w := (i.ctx.getX rs1).toNat / 256 % 8 + 1
    let f := (i.ctx.getX rs2).toNat % 16
    .next (if i.k ≠ 0 then s.trapI i 0x01 (s.ir.setWidth 64)
      else if f < r.col ∨ r.col + i.job.cc < f + w ∨ i.c % 16 < f ∨ f + w ≤ i.c % 16 then s.trapI i 0x04 0
      else if i.core.gangedPending then s.block i.c i.k (.gang tag w f false none)
      else gangRelease i.c ((s.gangOffered i tag w f).tryWired i.c)) := by
  refine (issue_eq hi _).trans ?_
  simp only [hr, Option.map_some, Option.getD_some]
  rfl

/-- A context that has moved on, or waits, with its registers as they were. -/
theorem moved_frame (x : Ctx) (pc : Word) (n ticket : Nat) (w : Option Wait) : CtxFrame [] x { x with pc := pc, instret := n, wait := w, ticket := ticket } :=
  ⟨fun _ _ => rfl, fun _ _ => rfl, fun _ _ => rfl, fun _ => ⟨rfl, rfl⟩, fun _ _ => rfl, fun _ => rfl, fun _ => rfl, rfl, rfl, rfl, rfl, rfl, rfl, rfl⟩

theorem block_onlyWaits (hi : s.issuer? = some i) (w : Wait) : OnlyWaits s i w (.next (s.block i.c i.k w)) := by
  obtain ⟨-, hc, -, hx, -⟩ := issuer_spec hi
  have hcore : (s.block i.c i.k w).core? i.c = some (i.core.setCtx i.k { i.ctx with wait := some w, ticket := s.tickets }) :=
    (modCtx_core (s := s.fresh.2) hc i.k _).trans (congrArg (fun x : Ctx => some (i.core.setCtx i.k { x with wait := some w, ticket := s.tickets })) hx)
  have hkeeps : Keeps [.cores] s (s.block i.c i.k w) := by constructor <;> simp
  obtain ⟨honly, heq⟩ := onlyCtx_of_core hkeeps (modCore_otherCores s.fresh.2 i.c _) hc hcore
  refine ⟨_, rfl, ?_, honly⟩
  rw [WaitsFor, heq]
  exact ⟨rfl, rfl, rfl, moved_frame i.ctx _ _ _ _⟩

/-- The state after the barrier's completion, when its stagger is over and when it is not (R218). -/
theorem gang_completes (hi : s.issuer? = some i) (hk : i.k = 0) (hmet : (i.job.offering i.c tag w f).Met i.c (i.job.nextOffer i.c tag w f)) :
    ((s.gangOffered i tag w f).tryWired i.c).core? i.c =
      some (i.core.gangless.setCtx 0 { i.offered tag w f (s.offerGang i.c tag w f).tickets with
        wait := some (.gang tag w f true (some (s.clock + (i.c / 16 % 16 + i.c % 16) * i.core.stagger))) }) ∧
    Keeps [.cores, .jobs] s ((s.gangOffered i tag w f).tryWired i.c) ∧ OtherCores i.c s ((s.gangOffered i tag w f).tryWired i.c) ∧
    SameMemory s ((s.gangOffered i tag w f).tryWired i.c) ∧ ((s.gangOffered i tag w f).tryWired i.c).clock = s.clock := by
  have hcore := gangOffered_core hi tag w f
  rw [hk] at hcore
  have hctx : (i.core.gangless.setCtx 0 (i.offered tag w f (s.offerGang i.c tag w f).tickets)).ctx 0 = _ := ctx_setCtx_same _ _ _
  have hwired := tryWired_eq hcore (by rw [hctx]; rfl) (gangOffered_job hi tag w f) (lastOffer_offering i.job i.c tag w f)
  rw [if_pos ((offerMet_iff rfl).mpr hmet), gangOffered_clock hi] at hwired
  rw [hwired]
  refine ⟨?_, (gangOffered_keeps hi tag w f).trans ((modCtx_keeps _ _ _ _).mono (by simp)), (gangOffered_otherCores hi tag w f).trans (modCore_otherCores _ _ _),
    fun a d => (modCtx_sameMemory _ _ _ _ a d).trans (gangOffered_sameMemory hi tag w f a d), gangOffered_clock hi tag w f⟩
  rw [modCtx_core hcore, setCtx_setCtx, hctx]
  rfl

/-- GANG whose barrier its own offer completes, without a stagger: the gang is open at once. -/
theorem gang_opens (hi : s.issuer? = some i) (hk : i.k = 0) (hmet : (i.job.offering i.c tag w f).Met i.c (i.job.nextOffer i.c tag w f))
    (hstagger : (i.c / 16 % 16 + i.c % 16) * i.core.stagger = 0) :
    let u := gangRelease i.c ((s.gangOffered i tag w f).tryWired i.c)
    Completed i u ∧ CtxFrame [] i.ctx (u.ctxOf i.c 0) ∧ SameMemory s u ∧
      (∃ k', u.core? i.c = some k' ∧ k'.gang = some (tag, w, f) ∧ k'.gangPushed = 0 ∧ k'.q = i.core.q) ∧ Keeps [.cores, .jobs] s u ∧ OtherCores i.c s u := by
  obtain ⟨hcore, hkeeps, hothers, hmem, hclock⟩ := gang_completes hi hk hmet
  rw [hstagger, Nat.add_zero] at hcore
  have hrel := gangRelease_opens hcore (by rw [ctx_setCtx_same]) hclock.ge
  generalize (s.gangOffered i tag w f).tryWired i.c = v at hcore hkeeps hothers hmem hrel ⊢
  obtain ⟨x, y, hx, hy, ⟨hgang, hpushed, -, hctx, -, hrest⟩, hk', ho'⟩ := hrel
  obtain rfl := Option.some.inj (hcore.symm.trans hx)
  rw [ctx_setCtx_same] at hctx
  have hq : y.q = i.core.q := (congrArg Core.q hrest :)
  have htcm : y.tcm = i.core.tcm := (congrArg Core.tcm hrest :)
  have hsame : SameMemory v (gangRelease i.c v) := sameMemory_of_core (hk'.jobs (by simp)) ho' (by rw [hy, hx, Option.map_some, Option.map_some, htcm]; rfl)
  refine ⟨?_, ?_, fun a d => (hsame a d).trans (hmem a d), ⟨y, hy, hgang, hpushed, hq⟩, hkeeps.trans (hk'.mono (by simp)), hothers.trans ho'⟩
  · rw [Completed, hk, ctxOf_of_core? hy, hctx]
    exact ⟨rfl, rfl, rfl⟩
  · rw [ctxOf_of_core? hy, hctx]
    exact moved_frame i.ctx _ _ _ _

theorem gang_frame_of_core {tk : Nat} {x : Option Wait} (hk : i.k = 0) (ht : t.core? i.c = some (core.setCtx 0 { i.offered tag w f tk with wait := x })) :
    (t.ctxOf i.c i.k).wait = x ∧ (t.ctxOf i.c i.k).pc = i.ctx.pc ∧ (t.ctxOf i.c i.k).instret = i.ctx.instret ∧ CtxFrame [] i.ctx (t.ctxOf i.c i.k) := by
  rw [hk, ctxOf_of_core? ht, ctx_setCtx_same]
  exact ⟨rfl, rfl, rfl, moved_frame i.ctx _ _ _ _⟩

/-- The same with a stagger: it waits for its release. -/
theorem gang_staggered (hi : s.issuer? = some i) (hk : i.k = 0) (hmet : (i.job.offering i.c tag w f).Met i.c (i.job.nextOffer i.c tag w f))
    (hstagger : 0 < (i.c / 16 % 16 + i.c % 16) * i.core.stagger) :
    let u := gangRelease i.c ((s.gangOffered i tag w f).tryWired i.c)
    WaitsFor i (.gang tag w f true (some (s.clock + (i.c / 16 % 16 + i.c % 16) * i.core.stagger))) u ∧ SameMemory s u ∧ Keeps [.cores, .jobs] s u := by
  obtain ⟨hcore, hkeeps, -, hmem, hclock⟩ := gang_completes hi hk hmet
  have hrel := gangRelease_eq hcore (by rw [ctx_setCtx_same])
  have hlate : ¬ s.clock + (i.c / 16 % 16 + i.c % 16) * i.core.stagger ≤ ((s.gangOffered i tag w f).tryWired i.c).clock := by
    rw [hclock]
    exact Nat.not_le.mpr (Nat.lt_add_of_pos_right hstagger)
  rw [if_neg hlate] at hrel
  simp only [hrel]
  exact ⟨gang_frame_of_core hk hcore, hmem, hkeeps⟩

/-- GANG whose barrier misses an offer waits, its own offer made. -/
theorem gang_unmet (hi : s.issuer? = some i) (hk : i.k = 0) (hmet : ¬ (i.job.offering i.c tag w f).Met i.c (i.job.nextOffer i.c tag w f)) :
    let u := gangRelease i.c ((s.gangOffered i tag w f).tryWired i.c)
    WaitsFor i (.gang tag w f true none) u ∧ SameMemory s u ∧ Keeps [.cores, .jobs] s u ∧ (u.core? i.c).map Core.gang = some none ∧
      (u.job? i.core.asid).map Job.offers = some (i.job.offers ++ [i.job.nextOffer i.c tag w f]) := by
  have hcore := gangOffered_core hi tag w f
  rw [hk] at hcore
  have hwait : ((i.core.gangless.setCtx 0 (i.offered tag w f (s.offerGang i.c tag w f).tickets)).ctx 0).wait = some (.gang tag w f true none) := by
    rw [ctx_setCtx_same]
    rfl
  have hwired := tryWired_eq hcore hwait (gangOffered_job hi tag w f) (lastOffer_offering i.job i.c tag w f)
  rw [if_neg (mt (offerMet_iff rfl).mp hmet)] at hwired
  simp only [hwired, gangRelease_waiting hcore hwait]
  exact ⟨gang_frame_of_core (tag := tag) (w := w) (f := f) (x := some _) hk hcore, gangOffered_sameMemory hi tag w f, gangOffered_keeps hi tag w f, by rw [hcore]; rfl, by rw [gangOffered_job hi]; rfl⟩

/-- What GANG does (R163, R216, R218). -/
theorem gang_offers {rs1 rs2 : R5} {r : Rect} (hi : s.issuer? = some i) (hr : i.job.rects[i.core.rect]? = some r) :
    let v := (i.ctx.getX rs1).toNat
    let t := v % 256
    let w := v / 256 % 8 + 1
    let f := (i.ctx.getX rs2).toNat % 16
    let col := i.c % 16
    (i.k ≠ 0 → exec (.gang rs1 rs2) s = .next (s.trapI i 0x01 (s.ir.setWidth 64))) ∧
    (i.k = 0 → f < r.col ∨ r.col + i.job.cc < f + w ∨ col < f ∨ f + w ≤ col → exec (.gang rs1 rs2) s = .next (s.trapI i 0x04 0)) ∧
    (i.k = 0 → r.col ≤ f → f + w ≤ r.col + i.job.cc → f ≤ col → col < f + w →
      ((∃ m ∈ i.core.queue 0, dGanged m.d0 = true) → OnlyWaits s i (.gang t w f false none) (exec (.gang rs1 rs2) s)) ∧
      ((∀ m ∈ i.core.queue 0, dGanged m.d0 = false) →
        (∀ o, o < w → o + f ≠ col → ∃ p ∈ i.job.offers, p.core = i.c - col + f + o ∧ p.tag = t ∧ p.width = w ∧ p.first = f ∧
          p.number = (i.job.offers.filter fun q => q.core = i.c ∧ q.width = w ∧ q.first = f).length) →
        ((i.c / 16 % 16 + col) * i.core.stagger = 0 → Does (.gang rs1 rs2) s fun u => Completed i u ∧ CtxFrame [] i.ctx (u.ctxOf i.c 0) ∧ SameMemory s u ∧
          (∃ k', u.core? i.c = some k' ∧ k'.gang = some (t, w, f) ∧ k'.gangPushed = 0 ∧ k'.q = i.core.q) ∧ Keeps [.cores, .jobs] s u ∧ OtherCores i.c s u) ∧
        (0 < (i.c / 16 % 16 + col) * i.core.stagger → Does (.gang rs1 rs2) s fun u =>
          WaitsFor i (.gang t w f true (some (s.clock + (i.c / 16 % 16 + col) * i.core.stagger))) u ∧ SameMemory s u ∧ Keeps [.cores, .jobs] s u)) ∧
      ((∀ m ∈ i.core.queue 0, dGanged m.d0 = false) → (∃ o, o < w ∧ o + f ≠ col ∧ ∀ p ∈ i.job.offers, p.core ≠ i.c - col + f + o) →
        Does (.gang rs1 rs2) s fun u => WaitsFor i (.gang t w f true none) u ∧ SameMemory s u ∧ Keeps [.cores, .jobs] s u ∧
          (u.core? i.c).map Core.gang = some none ∧ ∃ n, (u.job? i.core.asid).map Job.offers = some (i.job.offers ++ [{ core := i.c, tag := t, width := w, first := f, number := n }]))) := by
  have hexec := exec_gang (rs1 := rs1) (rs2 := rs2) hi hr
  dsimp only at hexec
  refine ⟨fun hk => ?_, fun hk hout => ?_, fun hk hlo hhi hfirst hlast => ?_⟩
  · rw [hexec, if_pos hk]
  · rw [hexec, if_neg (not_not.mpr hk), if_pos hout]
  rw [if_neg (not_not.mpr hk), if_neg (by
    rintro (h | h | h | h)
    exacts [hlo.not_gt h, hhi.not_gt h, hfirst.not_gt h, hlast.not_ge h])] at hexec
  have free (h : ∀ m ∈ i.core.queue 0, dGanged m.d0 = false) : i.core.gangedPending = false := by
    rw [← Bool.not_eq_true, gangPending_iff]
    exact fun ⟨m, hm, hg⟩ => Bool.false_ne_true ((h m hm).symm.trans hg)
  refine ⟨fun hp => ?_, fun hnone hall => ⟨fun hst => ?_, fun hst => ?_⟩, fun hnone hmiss => ?_⟩
  · rw [hexec, if_pos ((gangPending_iff _).mpr hp)]
    exact block_onlyWaits hi _
  · rw [free hnone] at hexec
    exact ⟨_, hexec, gang_opens hi hk (met_offering hall) hst⟩
  · rw [free hnone] at hexec
    exact ⟨_, hexec, gang_staggered hi hk (met_offering hall) hst⟩
  · rw [free hnone] at hexec
    obtain ⟨hw, hm, hkeeps, hg, hoff⟩ := gang_unmet hi hk (not_met_offering hmiss)
    exact ⟨_, hexec, hw, hm, hkeeps, hg, _, hoff⟩

/-- Settles O39: which helper takes which record, aging, the completion of a vector instruction, and gangs. -/
theorem tasksAndLanes : Obligations.TasksAndLanes := by
  unfold Obligations.TasksAndLanes
  refine ⟨fun s c k hc => ⟨fun h hh => idlePool_head hh, fun r hlevel hr => nextRecord_spec hlevel hr, poolPop_idle hc, taskSteal_idle hc,
    fun h r ha hw hh hr => poolPop_starts hc ha hw hh hr,
    fun h j d o r rest ha hw hh hnone hj hv hd hoa hr hns hjoin hp => taskSteal_starts hc ha hw hh hnone hj hv hd hoa (stealable_eq hr hns hjoin hp),
    recordAging_ages hc, fun seq hl => vectorCompletion_none hc hl, fun seq l hl hn => vectorCompletion_completes hc hl hn,
    fun t w f r hw => ⟨fun hlt => ?_, fun hle => ⟨_, rfl, gangRelease_opens hc hw hle⟩⟩,
    fun t w f j o ha hw hj ho => retry_gang hc ha hw hj ?_⟩, fun s i rs1 rs2 r hi hr => gang_offers hi hr⟩
  · exact congrArg Host.Outcome.next ((gangRelease_eq hc hw).trans (if_neg (Nat.not_le.mpr hlt)))
  · rw [← ho, Job.lastOffer]
    simp only [beq_eq_decide]

end Sys2Proof.Machine

/-! The root of the closing barrier: votes, further and urgent aborts, and the outcome (R279 to R282, R331, R332). -/

namespace Sys2Proof.Machine

open Sys2Proof.Laws

variable {s t u : State} {n a : Nat} {j : Job} {v : Vote} {d : Verdict}

-- a job set
theorem job?_setJob_same (s : State) (a : Nat) (j : Job) : (s.setJob a j).job? a = some j := dget?_dset_same _ _ _
theorem setJob_otherJobs (s : State) (a : Nat) (j : Job) : OtherJobs a s (s.setJob a j) := fun _ hb => dget?_dset_ne _ _ hb
theorem setJob_keeps (s : State) (a : Nat) (j : Job) : Keeps [.jobs] s (s.setJob a j) := ⟨by simp, by simp, by simp, by simp, by simp, by simp, by simp, by simp⟩
theorem otherJobs_of_jobs (a : Nat) (h : t.jobs = s.jobs) : OtherJobs a s t := fun b _ => by simp only [State.job?, h]
theorem OtherJobs.trans (h : OtherJobs a s t) (g : OtherJobs a t u) : OtherJobs a s u := fun b hb => (g b hb).trans (h b hb)

/-- A step of the barrier tree: job `a` changes, and messages set out. -/
structure AtTree (a : Nat) (s t : State) : Prop where
  keeps : Keeps [.jobs, .net] s t
  others : OtherJobs a s t
  sent : ∀ m ∈ s.net, m ∈ t.net

theorem AtTree.refl (a : Nat) (s : State) : AtTree a s s := ⟨.refl _ s, fun _ _ => rfl, fun _ h => h⟩
theorem AtTree.trans (h : AtTree a s t) (g : AtTree a t u) : AtTree a s u := ⟨h.keeps.trans g.keeps, h.others.trans g.others, fun m hm => g.sent m (h.sent m hm)⟩
theorem setJob_atTree (s : State) (a : Nat) (j : Job) : AtTree a s (s.setJob a j) :=
  ⟨(setJob_keeps s a j).mono (by simp), setJob_otherJobs s a j, fun _ h => h⟩
theorem AtTree.patch (h : AtTree a s t) (c : CoreId) : t.patch c = s.patch c := by
  simp only [State.patch, State.die, State.module?, h.keeps.modules (by simp)]
theorem AtTree.voteIn (h : AtTree a s t) (j : Job) (i : Nat) : t.voteIn j i = s.voteIn j i := by
  simp only [State.voteIn, h.patch]

/-- A message of the barrier network goes to every core of the job. -/
theorem toCores_spec (a : Nat) (j : Job) (kind : MsgKind) (s : State) :
    AtTree a s (s.toCores a j kind) ∧ (s.toCores a j kind).jobs = s.jobs ∧ ∀ c ∈ j.places, ∃ m ∈ (s.toCores a j kind).net, m.src = c ∧ m.asid = a ∧ m.kind = kind := by
  unfold State.toCores
  generalize j.places = l
  induction l generalizing s with
  | nil => exact ⟨.refl a s, rfl, fun _ h => by simp at h⟩
  | cons c l ih =>
    obtain ⟨htree, hjobs, hall⟩ := ih (s.post c a kind)
    have hpost : AtTree a s (s.post c a kind) := ⟨(send_keeps s c 0 a 0 none kind).mono (by simp), fun _ _ => rfl, fun m hm => by rw [post_net]; exact List.mem_append_left _ hm⟩
    refine ⟨hpost.trans htree, hjobs, fun e he => ?_⟩
    rcases List.mem_cons.mp he with rfl | he
    · exact ⟨_, htree.sent _ (by rw [post_net]; exact List.mem_append_right _ (List.mem_singleton_self _)), rfl, rfl, rfl⟩
    · exact hall e he

/-- The watchdog's counters apart, the job is as it was (R337). -/
theorem watchRolling_job (hj : s.job? a = some j) (hv : j.verdict = some d) : ∃ w f, s.watchRolling a = s.setJob a { j with wdCount := w, wdFrom := f } := by
  simp only [State.watchRolling, hj, hv]
  split_ifs
  · exact ⟨j.wdCount, _, rfl⟩
  · exact ⟨_, _, rfl⟩

/-- The decided outcome goes to every core (R281, R282). -/
theorem announce_decides (hj : s.job? a = some j) (d : Verdict) : AtTree a s (s.announce a d) ∧ Decided a j d (s.announce a d) ∧
    ∃ w f, (s.announce a d).job? a = some { j with verdict := some d, wdCount := w, wdFrom := f } := by
  have hset : (s.setJob a { j with verdict := some d }).job? a = some { j with verdict := some d } := job?_setJob_same _ _ _
  obtain ⟨w, f, hw⟩ := watchRolling_job (d := d) hset rfl
  simp only [State.announce, hj, hw]
  generalize hu : (s.setJob a { j with verdict := some d }).setJob a { j with verdict := some d, wdCount := w, wdFrom := f } = u
  have htree : AtTree a s u := hu ▸ (setJob_atTree s a _).trans (setJob_atTree _ a _)
  have hjob : u.job? a = some { j with verdict := some d, wdCount := w, wdFrom := f } := by rw [← hu]; exact job?_setJob_same _ _ _
  obtain ⟨hcores, hjobs, hall⟩ := toCores_spec a j (.outcome d) u
  have hsame : (u.toCores a j (.outcome d)).job? a = some { j with verdict := some d, wdCount := w, wdFrom := f } := by rw [State.job?, hjobs]; exact hjob
  exact ⟨htree.trans hcores, ⟨⟨_, hsame, rfl⟩, hall⟩, w, f, hsame⟩

/-- The first abort vote of an attempt broadcasts the doom notice (R332). -/
theorem doomJob_dooms (hj : s.job? a = some j) (hv : j.verdict = none) : AtTree a s (s.doomJob a) ∧ (s.doomJob a).job? a = some { j with doomed := true } ∧
    (j.doomed = false → ∀ c, c ∈ j.places → ∃ m ∈ (s.doomJob a).net, m.src = c ∧ m.asid = a ∧ m.kind = .doom) := by
  have hundecided : (j.doomed || j.verdict.isSome) = j.doomed := by rw [hv, Option.isSome_none, Bool.or_false]
  simp only [State.doomJob, hj, hundecided]
  cases hdoom : j.doomed with
  | true =>
    refine ⟨.refl a s, ?_, nofun⟩
    rw [if_pos rfl, hj, show { j with doomed := true } = j by rw [← hdoom]]
  | false =>
    obtain ⟨hcores, hjobs, hall⟩ := toCores_spec a j .doom (s.setJob a { j with doomed := true })
    rw [if_neg Bool.false_ne_true]
    refine ⟨(setJob_atTree s a _).trans hcores, ?_, fun _ => hall⟩
    rw [State.job?, hjobs]
    exact job?_setJob_same _ _ _

theorem tryOutcome_eq (hj : s.job? a = some j) (hv : j.verdict = none) :
    s.tryOutcome a = if (List.range j.n).all (s.voteIn j) then s.announce a j.outcomeOf else s := by
  simp only [State.tryOutcome, hj, hv, Option.isNone_none, Bool.true_and]

/-- Whatever the votes are, only the outcome and the watchdog's counters of the job change. -/
theorem tryOutcome_job (hj : s.job? a = some j) (hv : j.verdict = none) :
    AtTree a s (s.tryOutcome a) ∧ ∃ o w f, (s.tryOutcome a).job? a = some { j with verdict := o, wdCount := w, wdFrom := f } := by
  rw [tryOutcome_eq hj hv]
  split_ifs
  · obtain ⟨htree, -, w, f, hjob⟩ := announce_decides hj j.outcomeOf
    exact ⟨htree, some _, w, f, hjob⟩
  · exact ⟨.refl a s, j.verdict, j.wdCount, j.wdFrom, hj⟩

theorem tryOutcome_decides (hj : s.job? a = some j) (hv : j.verdict = none) (hall : ∀ i, i < j.n → s.voteIn j i = true) :
    AtTree a s (s.tryOutcome a) ∧ Decided a j j.outcomeOf (s.tryOutcome a) := by
  rw [tryOutcome_eq hj hv, if_pos (List.all_eq_true.mpr fun i hi => hall i (List.mem_range.mp hi))]
  exact ⟨(announce_decides hj _).1, (announce_decides hj _).2.1⟩

theorem tryOutcome_open (hj : s.job? a = some j) (hv : j.verdict = none) (hopen : ∃ i, i < j.n ∧ s.voteIn j i = false) : s.tryOutcome a = s := by
  obtain ⟨i, hi, hno⟩ := hopen
  rw [tryOutcome_eq hj hv, if_neg]
  rw [List.all_eq_true]
  exact fun h => Bool.false_ne_true (hno.symm.trans (h i (List.mem_range.mpr hi)))

-- the outcome of N votes (R281)
theorem abortOf_none (hp : j.proxies = []) (hno : ∀ u ∈ j.votes, u.abort = false) (i : Nat) : j.abortOf i = none := by
  have hproxy : j.proxyOf i = none := by rw [Job.proxyOf, hp]; rfl
  unfold Job.abortOf
  split
  · next u hu => rw [hno u (List.mem_of_find?_eq_some hu), hproxy]; rfl
  · rw [hproxy]; rfl

theorem firstSome_none {α : Type} : ∀ {l : List (Option α)}, (∀ x ∈ l, x = none) → firstSome l = none
  | [], _ => rfl
  | some a :: _, h => absurd (h _ List.mem_cons_self) (by simp)
  | none :: l, h => firstSome_none (l := l) fun x hx => h x (List.mem_cons_of_mem _ hx)

/-- The first of a range that has a value. -/
theorem firstSome_range {α : Type} {x : α} : ∀ {m i : Nat} {f : Nat → Option α}, i < m → f i = some x → (∀ h, h < i → f h = none) →
    firstSome ((List.range m).map f) = some x
  | m + 1, 0, f, _, hx, _ => by
    rw [List.range_succ_eq_map, List.map_cons, hx]
    rfl
  | m + 1, i + 1, f, hi, hx, hbefore => by
    rw [List.range_succ_eq_map, List.map_cons, hbefore 0 (Nat.succ_pos i), List.map_map]
    exact firstSome_range (Nat.lt_of_succ_lt_succ hi) hx fun h hh => hbefore (h + 1) (Nat.succ_lt_succ hh)

theorem outcomeOf_aborted {i cause : Nat} (hi : i < j.n) (hc : j.abortOf i = some cause) (hbefore : ∀ h, h < i → j.abortOf h = none) :
    j.outcomeOf = { commit := false, cause := cause, index := i, origin := 0, val := 0 } := by
  have hfirst := firstSome_range (f := fun i => (j.abortOf i).map fun c => (i, c)) hi (by rw [hc]; rfl) (fun h hh => by rw [hbefore h hh]; rfl)
  simp only [Job.outcomeOf, hfirst]

/-- Without an abort, the first vote's operation decides: the votes that differ from it, of lowest index, or the combined value. -/
theorem outcomeOf_agreed (hp : j.proxies = []) (hno : ∀ u ∈ j.votes, u.abort = false) (hfirst : j.voteOf 0 = some v) :
    (∀ o, (∀ u ∈ j.votes, u.op = o) → j.outcomeOf = { commit := true, cause := 0, index := 0, origin := 0, val := combineAll o (j.votes.map Vote.val) }) ∧
    (∀ u ∈ j.votes, u.op ≠ v.op → (∀ x ∈ j.votes, x.op ≠ v.op → u.index ≤ x.index) →
      j.outcomeOf = { commit := false, cause := 0x01, index := u.index, origin := 0, val := 0 }) := by
  have hnone : firstSome ((List.range j.n).map fun i => (j.abortOf i).map fun c => (i, c)) = none := by
    refine firstSome_none fun x hx => ?_
    obtain ⟨i, -, rfl⟩ := List.mem_map.mp hx
    rw [abortOf_none hp hno]
    rfl
  have hv : v ∈ j.votes := List.mem_of_find?_eq_some hfirst
  simp only [Job.outcomeOf, hnone, hfirst, Option.map_some, Option.getD_some]
  refine ⟨fun o hop => ?_, fun u hu hne hleast => ?_⟩
  · have hempty : j.votes.filter (fun x => x.op ≠ v.op) = [] := List.filter_eq_nil_iff.mpr fun x hx => by simp [hop x hx, hop v hv]
    rw [hempty, hop v hv]
    rfl
  · have hmem : u ∈ j.votes.filter (fun x => x.op ≠ v.op) := List.mem_filter.mpr ⟨hu, by simpa using hne⟩
    cases hl : leastBy Vote.index (j.votes.filter fun x => x.op ≠ v.op) with
    | none => rw [leastBy_none hl] at hmem; simp at hmem
    | some x =>
      obtain ⟨hx, hxle⟩ := leastBy_spec hl
      obtain ⟨hxv, hxne⟩ := List.mem_filter.mp hx
      have hindex : x.index = u.index := Nat.le_antisymm (hxle u hmem) (hleast x hxv (by simpa using hxne))
      simp only [hindex]
      rfl

theorem voteOf_isSome (hp : j.proxies = []) {i : Nat} (h : s.voteIn j i = true) : (j.voteOf i).isSome = true := by
  simpa [State.voteIn, Job.proxyOf, hp] using h

-- messages at the root (R279 to R281, R331)
theorem dropMsg_dropped (n : Nat) (s : State) : Dropped n s (s.dropMsg n) := ⟨rfl, ⟨fun _ => rfl, fun _ => rfl, fun _ => rfl, fun _ => rfl, by simp, fun _ => ⟨rfl, rfl⟩, fun _ => ⟨rfl, rfl⟩, fun _ => rfl⟩⟩

theorem AtTree.frame (h : AtTree a (s.dropMsg n) t) : Keeps [.jobs, .net] s t ∧ OtherJobs a s t :=
  ⟨((dropMsg_dropped n s).2.mono (by simp)).trans h.keeps, fun b hb => h.others b hb⟩

/-- A vote that the root takes, before the outcome is tried. -/
def Job.voted (j : Job) (v : Vote) : Job := { j with votes := j.votes ++ [v] }

theorem barrierMessage_dropped {ssn : Nat} (hb : BarrierAt s n a (.vote v ssn) j) (hv : j.verdict ≠ none) : barrierMessage n s = s.dropMsg n := by
  obtain ⟨m, hm, hkind, rfl, hj⟩ := hb
  have hsome : j.verdict.isSome = true := Option.isSome_iff_ne_none.mpr hv
  simp only [barrierMessage, hm, hkind, hj, hsome, if_true]

theorem barrierMessage_vote {ssn : Nat} (hb : BarrierAt s n a (.vote v ssn) j) (hv : j.verdict = none) :
    let u := (s.dropMsg n).setJob a (j.voted (takenVote s j v ssn))
    barrierMessage n s = (if (takenVote s j v ssn).abort then u.doomJob a else u).tryOutcome a := by
  obtain ⟨m, hm, hkind, rfl, hj⟩ := hb
  have hnone : j.verdict.isSome = false := by rw [hv]; rfl
  simp only [barrierMessage, hm, hkind, hj, hnone, Bool.false_eq_true, if_false]
  rfl

/-- The state in which a taken vote has joined, and the doom notice set out for an abort: the outcome is tried next. -/
theorem vote_joins {w : Vote} (hv : j.verdict = none) : ∃ u, (if w.abort then ((s.dropMsg n).setJob a (j.voted w)).doomJob a else (s.dropMsg n).setJob a (j.voted w)) = u ∧
    AtTree a (s.dropMsg n) u ∧ ∃ b, u.job? a = some { j.voted w with doomed := b } ∧
      (w.abort = true → b = true ∧ (j.doomed = false → ∀ c, c ∈ j.places → ∃ m ∈ u.net, m.src = c ∧ m.asid = a ∧ m.kind = .doom)) := by
  have hset : ((s.dropMsg n).setJob a (j.voted w)).job? a = some (j.voted w) := job?_setJob_same _ _ _
  have htree := setJob_atTree (s.dropMsg n) a (j.voted w)
  refine ⟨_, rfl, ?_⟩
  split_ifs with hw
  · obtain ⟨hdoom, hjob, hmsgs⟩ := doomJob_dooms hset hv
    exact ⟨htree.trans hdoom, true, hjob, fun _ => ⟨rfl, hmsgs⟩⟩
  · exact ⟨htree, j.doomed, hset, fun h => absurd h hw⟩

theorem barrierMessage_joins {ssn : Nat} (hb : BarrierAt s n a (.vote v ssn) j) (hv : j.verdict = none) (hw : (takenVote s j v ssn).abort = false)
    (hopen : ∃ i, i < j.n ∧ s.voteIn (j.voted (takenVote s j v ssn)) i = false) : Does (.barrierMessage n) s fun t =>
      t.job? a = some (j.voted (takenVote s j v ssn)) ∧ OtherJobs a s t ∧ t.net = s.net.eraseIdx n ∧ Keeps [.jobs, .net] s t := by
  have hset : ((s.dropMsg n).setJob a (j.voted (takenVote s j v ssn))).job? a = some (j.voted (takenVote s j v ssn)) := job?_setJob_same _ _ _
  have htree := setJob_atTree (s.dropMsg n) a (j.voted (takenVote s j v ssn))
  have heq := barrierMessage_vote hb hv
  dsimp only at heq
  rw [hw, if_neg Bool.false_ne_true, tryOutcome_open hset hv (hopen.imp fun i hi => ⟨hi.1, (htree.voteIn _ i).trans hi.2⟩)] at heq
  refine ⟨_, congrArg Host.Outcome.next heq, hset, htree.frame.2, rfl, htree.frame.1⟩

theorem barrierMessage_aborts {ssn : Nat} (hb : BarrierAt s n a (.vote v ssn) j) (hv : j.verdict = none) (hw : (takenVote s j v ssn).abort = true) :
    Does (.barrierMessage n) s fun t => (∃ y, t.job? a = some y ∧ y.votes = j.votes ++ [takenVote s j v ssn] ∧ y.doomed = true) ∧ OtherJobs a s t ∧
      Keeps [.jobs, .net] s t ∧ (j.doomed = false → ∀ c, c ∈ j.places → ∃ m ∈ t.net, m.src = c ∧ m.asid = a ∧ m.kind = .doom) := by
  obtain ⟨u, hu, htree, b, hjob, hdoom⟩ := vote_joins (s := s) (n := n) (a := a) (w := takenVote s j v ssn) hv
  obtain ⟨hb1, hmsgs⟩ := hdoom hw
  obtain ⟨hout, o, w, f, hjob'⟩ := tryOutcome_job hjob hv
  have heq := barrierMessage_vote hb hv
  dsimp only at heq
  rw [hu] at heq
  refine ⟨_, congrArg Host.Outcome.next heq, ⟨_, hjob', rfl, hb1⟩, (htree.trans hout).frame.2, (htree.trans hout).frame.1, fun hd c hc => ?_⟩
  obtain ⟨m, hm, hrest⟩ := hmsgs hd c hc
  exact ⟨m, hout.sent m hm, hrest⟩

/-- The last vote decides. -/
theorem barrierMessage_decides {ssn : Nat} {o : Verdict} (hb : BarrierAt s n a (.vote v ssn) j) (hv : j.verdict = none)
    (hall : ∀ i, i < j.n → s.voteIn (j.voted (takenVote s j v ssn)) i = true) (ho : (j.voted (takenVote s j v ssn)).outcomeOf = o) :
    Does (.barrierMessage n) s fun t => Decided a j o t ∧ Keeps [.jobs, .net] s t ∧ OtherJobs a s t := by
  obtain ⟨u, hu, htree, b, hjob, -⟩ := vote_joins (s := s) (n := n) (a := a) (w := takenVote s j v ssn) hv
  have hin (i : Nat) (hi : i < j.n) : u.voteIn { j.voted (takenVote s j v ssn) with doomed := b } i = true := (htree.voteIn _ i).trans (hall i hi)
  obtain ⟨hout, hdec⟩ := tryOutcome_decides hjob hv hin
  have heq := barrierMessage_vote hb hv
  dsimp only at heq
  rw [hu] at heq
  subst ho
  exact ⟨_, congrArg Host.Outcome.next heq, hdec, (htree.trans hout).frame⟩

/-- A further abort message (R331). -/
theorem furtherAbort_joins (hb : BarrierAt s n a (.further v) j) (hv : j.verdict = none) (hh : j.held = false) : Does (.furtherAbortMessage n) s fun t =>
    (∃ y, t.job? a = some y ∧ y.proxies = j.proxies ++ [v] ∧ y.votes = j.votes ∧ y.doomed = true) ∧ OtherJobs a s t ∧ Keeps [.jobs, .net] s t := by
  obtain ⟨m, hm, hkind, rfl, hj⟩ := hb
  have hopen : (j.verdict.isSome || j.held) = false := by rw [hv, hh]; rfl
  have hset : ((s.dropMsg n).setJob m.asid { j with proxies := j.proxies ++ [v] }).job? m.asid = _ := job?_setJob_same _ _ _
  obtain ⟨hdoom, hjob, -⟩ := doomJob_dooms hset hv
  obtain ⟨hout, o, w, f, hjob'⟩ := tryOutcome_job hjob hv
  have heq : furtherAbortMessage n s = (((s.dropMsg n).setJob m.asid { j with proxies := j.proxies ++ [v] }).doomJob m.asid).tryOutcome m.asid := by
    simp only [furtherAbortMessage, hm, hkind, hj, hopen, Bool.false_eq_true, if_false]
  have hframe := (((setJob_atTree (s.dropMsg n) m.asid { j with proxies := j.proxies ++ [v] }).trans hdoom).trans hout).frame
  exact ⟨_, congrArg Host.Outcome.next heq, ⟨_, hjob', rfl, rfl, rfl⟩, hframe.2, hframe.1⟩

theorem furtherAbort_dropped (hb : BarrierAt s n a (.further v) j) (hv : j.verdict ≠ none ∨ j.held = true) : furtherAbortMessage n s = s.dropMsg n := by
  obtain ⟨m, hm, hkind, rfl, hj⟩ := hb
  have hended : (j.verdict.isSome || j.held) = true := by rw [Bool.or_eq_true, Option.isSome_iff_ne_none]; exact hv
  simp only [furtherAbortMessage, hm, hkind, hj, hended, if_true]

/-- SSABORT and the aborts of CANCEL and pre-emption (R281). -/
theorem urgentAbort_decides {cause index origin : Nat} (hb : BarrierAt s n a (.urgent cause index origin) j) (hv : j.verdict = none) (hh : j.held = false) :
    Does (.urgentAbort n) s fun t => Decided a j { commit := false, cause := cause, index := index, origin := origin, val := 0 } t ∧ Keeps [.jobs, .net] s t ∧ OtherJobs a s t := by
  obtain ⟨m, hm, hkind, rfl, hj⟩ := hb
  have hopen : (j.verdict.isSome || j.held) = false := by rw [hv, hh]; rfl
  have heq : urgentAbort n s = (s.dropMsg n).announce m.asid { commit := false, cause := cause, index := index, origin := origin, val := 0 } := by
    simp only [urgentAbort, hm, hkind, hj, hopen, Bool.false_eq_true, if_false]
  obtain ⟨htree, hdec, -⟩ := announce_decides (s := s.dropMsg n) hj { commit := false, cause := cause, index := index, origin := origin, val := 0 }
  exact ⟨_, congrArg Host.Outcome.next heq, hdec, htree.frame⟩

theorem urgentAbort_dropped {cause index origin : Nat} (hb : BarrierAt s n a (.urgent cause index origin) j) (hv : j.verdict ≠ none ∨ j.held = true) :
    urgentAbort n s = s.dropMsg n := by
  obtain ⟨m, hm, hkind, rfl, hj⟩ := hb
  have hended : (j.verdict.isSome || j.held) = true := by rw [Bool.or_eq_true, Option.isSome_iff_ne_none]; exact hv
  simp only [urgentAbort, hm, hkind, hj, hended, if_true]

end Sys2Proof.Machine

/-! Doom notices and outcomes at a core (R282, R283, R332). -/

namespace Sys2Proof.Machine

open Sys2Proof.Laws

variable {s t : State} {n : Nat} {c : CoreId} {k : Core} {x : Msg} {v : Verdict}

theorem Keeps.step {u : State} {w w' : List Part} (h : Keeps w s t) (g : Keeps w' t u) (hw : w' ⊆ w) : Keeps w s u := h.trans (g.mono hw)
theorem SameMemory.trans {u : State} (h : SameMemory s t) (g : SameMemory t u) : SameMemory s u := fun a d => (g a d).trans (h a d)
theorem SameRegisters.trans {u : State} (h : SameRegisters s t) (g : SameRegisters t u) : SameRegisters s u := fun c k => by
  obtain ⟨hx, hf, hp, hv, hfcsr⟩ := h c k
  obtain ⟨gx, gf, gp, gv, gfcsr⟩ := g c k
  exact ⟨fun r => (gx r).trans (hx r), fun r => (gf r).trans (hf r), fun r => (gp r).trans (hp r), gv.trans hv, gfcsr.trans hfcsr⟩
theorem sameRegisters_of_ctxs (h : ∀ d, (t.core? d).map Core.ctxs = (s.core? d).map Core.ctxs) : SameRegisters s t := fun d m => by
  have hx : t.ctxOf d m = s.ctxOf d m := by
    have heq := congrArg (Option.map fun l => dgetD l m Ctx.reset) (h d)
    simp only [Option.map_map] at heq
    exact congrArg (Option.getD · Ctx.reset) heq
  rw [hx]
  exact ⟨fun _ => rfl, fun _ => rfl, fun _ => rfl, rfl, rfl⟩

theorem dropClaims_keeps (s : State) (c : CoreId) : Keeps [.modules] s (s.dropClaims c) := modQuad_keeps _ _ _
theorem stopCore_keeps (s : State) (c : CoreId) : Keeps [.cores, .modules] s (s.stopCore c) :=
  ((Keeps.refl _ s).step (modCore_keeps s c fun k => { k.endWaits with stopped := true }) (by simp)).step (dropClaims_keeps _ c) (by simp)

/-- A core that stops after a change that leaves its contexts and its TCM. -/
theorem stopCore_spec (hc : s.core? c = some k) (f : Core → Core) (hx : (f k).ctxs = k.ctxs) (htcm : (f k).tcm = k.tcm) :
    ((s.modCore c f).stopCore c).core? c = some { (f k).endWaits with stopped := true } ∧ OtherCores c s ((s.modCore c f).stopCore c) ∧
    Keeps [.cores, .modules] s ((s.modCore c f).stopCore c) ∧ SameRegisters s ((s.modCore c f).stopCore c) ∧ SameMemory s ((s.modCore c f).stopCore c) := by
  have hcore : ((s.modCore c f).stopCore c).core? c = some { (f k).endWaits with stopped := true } := by
    change ((s.modCore c f).modCore c _).core? c = _
    rw [core?_modCore_same, core?_modCore_same, hc]
    rfl
  have hothers : OtherCores c s ((s.modCore c f).stopCore c) := (modCore_otherCores s c f).trans ((modCore_otherCores _ c _).trans (otherCores_of_cores c rfl))
  have hkeeps : Keeps [.cores, .modules] s ((s.modCore c f).stopCore c) :=
    ((Keeps.refl _ s).step (modCore_keeps s c f) (by simp)).step (stopCore_keeps _ c) (by simp)
  obtain ⟨cs, r, heq⟩ := endWaits_eq (f k)
  refine ⟨hcore, hothers, hkeeps, sameRegisters_of_core hothers fun m => ?_, sameMemory_of_core (hkeeps.jobs (by simp)) hothers ?_⟩
  · obtain ⟨l, hl⟩ := endWaits_ctx (f k) m
    refine ⟨none, l, ?_⟩
    rw [ctxOf_of_core? hcore, ctxOf_of_core? hc]
    refine Eq.trans (b := (f k).endWaits.ctx m) rfl ?_
    rw [hl, Core.ctx, hx]
    rfl
  · rw [hcore, hc, heq]
    exact congrArg some htcm

/-- The core with no context waiting. -/
def Core.unwaited (k : Core) : Core := { k with ctxs := dmap k.ctxs fun _ x => x.unwait }

theorem unwaited_lc (k : Core) (i : Nat) : (k.unwaited.ctx i).lc = (k.ctx i).lc := by
  simp only [Core.unwaited, Core.ctx, dgetD, dget?_dmap]
  cases dget? k.ctxs i <;> rfl

theorem abandonPush_lc {i q l : Nat} {m : Cmd} {w : Word} {b : Wait} (hb : b = .ringPush q m (some (l, w)) ∨ b = .push q m (some (l, w))) :
    ((k.abandonPush i b).ctx i).lc = ((k.ctx i).setLc l w).lc := by
  rw [← ctx_modCtx_same k i fun x => x.setLc l w]
  rcases hb with rfl | rfl <;> rfl

/-- A push that waits alone on a core gives its loop counter back (R151). -/
theorem endWaits_push {i q l : Nat} {z : Ctx} {m : Cmd} {w : Word} (hx : k.ctxs = [(i, z)])
    (hw : z.wait = some (.ringPush q m (some (l, w))) ∨ z.wait = some (.push q m (some (l, w)))) :
    sget (k.endWaits.ctx i).lc l = w ∧ ∀ e, e ≠ l → sget (k.endWaits.ctx i).lc e = sget z.lc e := by
  obtain ⟨b, hzb, hb⟩ : ∃ b, z.wait = some b ∧ (b = .ringPush q m (some (l, w)) ∨ b = .push q m (some (l, w))) := by
    rcases hw with hw | hw
    exacts [⟨_, hw, .inl rfl⟩, ⟨_, hw, .inr rfl⟩]
  have hctx : k.ctx i = z := by rw [Core.ctx, hx, dgetD, dget?]; simp
  have hends : k.endWaits = (k.abandonPush i b).unwaited := by
    simp only [Core.endWaits, hx, List.foldl_cons, List.foldl_nil, hzb]
    rfl
  rw [hends, unwaited_lc, abandonPush_lc hb, hctx]
  exact ⟨sget_sset_same _ _ _, fun e he => sget_sset_ne _ _ he⟩

/-- DOOM_NOTICE at a core that has not voted (R151, R332). -/
theorem doomNotice_stops (hm : s.net[n]? = some x) (hc : s.core? x.src = some k) (hkind : x.kind = .doom) (hdead : k.dead = false) (hasid : k.asid = x.asid)
    (hopen : k.open_ = true) : Does (.doomNotice n) s fun t => Keeps [.cores, .modules, .net] s t ∧ OtherCores x.src s t ∧
      SameRegisters s t ∧ SameMemory s t ∧ (∃ y, t.core? x.src = some y ∧ y.phase = .voted ∧ y.stopped = true ∧ y.abort = k.abort ∧ (∀ i, (y.ctx i).wait = none) ∧
        ∀ i z q m n v, k.ctxs = [(i, z)] → z.wait = some (.ringPush q m (some (n, v))) ∨ z.wait = some (.push q m (some (n, v))) →
          sget (y.ctx i).lc n = v ∧ ∀ l, l ≠ n → sget (y.ctx i).lc l = sget z.lc l) ∧
      ∃ u, t.net = s.net.eraseIdx n ++ [coreMsg x.src k.asid u (.vote { index := k.index, abort := false, cause := 0, op := 0, val := 0 } k.ssn)] := by
  have hc' : (s.dropMsg n).core? x.src = some k := hc
  obtain ⟨hcore, hothers, hkeeps, hregs, hmem⟩ := stopCore_spec hc' (fun k => { k with phase := .voted }) rfl rfl
  have hcond : (k.dead || decide (k.asid ≠ x.asid)) = false := by rw [hdead, hasid]; simp
  have heq : doomNotice n s = (((s.dropMsg n).modCore x.src fun k => { k with phase := .voted }).stopCore x.src).post x.src k.asid
      (.vote { index := k.index, abort := false, cause := 0, op := 0, val := 0 } k.ssn) := by
    simp only [doomNotice, hm, hkind, hc', hcond, hopen, Bool.false_eq_true, if_false, if_true]
    rw [hasid]
  obtain ⟨cs, r, hends⟩ := endWaits_eq { k with phase := .voted }
  have hdrop : Keeps [.net] s (s.dropMsg n) := (dropMsg_dropped n s).2
  refine ⟨_, congrArg Host.Outcome.next heq, ?_, hothers, hregs, hmem, ⟨_, hcore, ?_, rfl, ?_, fun i => ?_, fun i z q m l w hx hw => ?_⟩, ⟨s.tickets, ?_⟩⟩
  · exact (((Keeps.refl _ s).step hdrop (by simp)).step hkeeps (by simp)).step (send_keeps _ x.src 0 k.asid 0 none _) (by simp)
  · rw [hends]
  · rw [hends]
  · obtain ⟨l, hl⟩ := endWaits_ctx { k with phase := .voted } i
    exact (congrArg Ctx.wait hl :)
  · exact endWaits_push (k := { k with phase := .voted }) hx hw
  · rw [post_net, hkeeps.net (by simp)]
    rfl

/-- OUTCOME_ARRIVAL (R282, R283). -/
theorem outcomeArrival_starts (hm : s.net[n]? = some x) (hc : s.core? x.src = some k) (hkind : x.kind = .outcome v) : Does (.outcomeArrival n) s fun t =>
    t.net = s.net.eraseIdx n ∧ OtherCores x.src s t ∧ SameRegisters s t ∧ SameMemory s t ∧ Keeps [.cores, .modules, .net] s t ∧ ∃ y, t.core? x.src = some y ∧
      (v.commit = true → y = { k with phase := .applying, outcome := true, result := v.val } ∧ t.modules = s.modules) ∧
      (v.commit = false → y.phase = .rolling ∧ y.outcome = false ∧ y.stopped = true ∧ ∀ i, (y.ctx i).wait = none) := by
  have hc' : (s.dropMsg n).core? x.src = some k := hc
  have hdrop : Keeps [.net] s (s.dropMsg n) := (dropMsg_dropped n s).2
  cases hv : v.commit with
  | true =>
    have heq : outcomeArrival n s = (s.dropMsg n).modCore x.src fun k => { k with phase := .applying, outcome := true, result := v.val } := by
      simp only [outcomeArrival, hm, hkind, hv, if_true]
    have hcore : ((s.dropMsg n).modCore x.src fun k => { k with phase := .applying, outcome := true, result := v.val }).core? x.src =
        some { k with phase := .applying, outcome := true, result := v.val } := by rw [core?_modCore_same, hc']; rfl
    have hothers := modCore_otherCores (s.dropMsg n) x.src fun k => { k with phase := .applying, outcome := true, result := v.val }
    refine ⟨_, congrArg Host.Outcome.next heq, rfl, hothers, ?_, ?_, ((Keeps.refl _ s).step hdrop (by simp)).step (modCore_keeps _ _ _) (by simp), _, hcore, fun _ => ⟨rfl, rfl⟩, nofun⟩
    · refine sameRegisters_of_core hothers fun m => ⟨(k.ctx m).wait, (k.ctx m).lc, ?_⟩
      rw [ctxOf_of_core? hcore, ctxOf_of_core? hc]
      rfl
    · exact sameMemory_of_core rfl hothers (by rw [hcore, hc]; rfl)
  | false =>
    obtain ⟨hcore, hothers, hkeeps, hregs, hmem⟩ := stopCore_spec hc' (fun k => { k with phase := .rolling, outcome := false }) rfl rfl
    have heq : outcomeArrival n s = ((s.dropMsg n).modCore x.src fun k => { k with phase := .rolling, outcome := false }).stopCore x.src := by
      simp only [outcomeArrival, hm, hkind, hv, Bool.false_eq_true, if_false]
    obtain ⟨cs, r, hends⟩ := endWaits_eq { k with phase := .rolling, outcome := false }
    refine ⟨_, congrArg Host.Outcome.next heq, hkeeps.net (by simp), hothers, hregs, hmem, ((Keeps.refl _ s).step hdrop (by simp)).step hkeeps (by simp), _, hcore, nofun, fun _ => ⟨?_, ?_, rfl, fun i => ?_⟩⟩
    · rw [hends]
    · rw [hends]
    · obtain ⟨l, hl⟩ := endWaits_ctx { k with phase := .rolling, outcome := false } i
      exact (congrArg Ctx.wait hl :)

end Sys2Proof.Machine

/-! Rolling back (R33, R285, R334) and patching a fenced position (R349, R350, R352). -/

namespace Sys2Proof.Machine

open Sys2Proof.Laws

variable {s t : State} {c : CoreId} {k : Core} {j : Job} {m : Nat}

-- modules and dies
theorem module?_modModule (s : State) (m e : Nat) (f : Module → Module) : (s.modModule m f).module? e = if e = m then (s.module? e).map f else s.module? e := by
  unfold State.module? State.modModule
  rw [dget?_dmod]
  by_cases h : e = m
  · simp [h]
  · simp [h]

theorem module?_modModule_same (s : State) (m : Nat) (f : Module → Module) : (s.modModule m f).module? m = (s.module? m).map f := by
  rw [module?_modModule, if_pos rfl]

theorem modModule_keeps (s : State) (m : Nat) (f : Module → Module) : Keeps [.modules] s (s.modModule m f) := ⟨by simp, by simp, by simp, by simp, by simp, by simp, by simp, by simp⟩
theorem modDie_keeps (s : State) (d : DieId) (f : Die → Die) : Keeps [.modules] s (s.modDie d f) := modModule_keeps s _ _

theorem dieModule_coreDie (c : CoreId) : dieModule (coreDie c) = coreModule c := Nat.div_div_eq_div_mul c 256 4

theorem die_modDie (s : State) (d e : DieId) (f : Die → Die) :
    (s.modDie d f).die e = if (s.module? (dieModule d)).isSome ∧ dieModule e = dieModule d ∧ e % 4 = d % 4 then f (s.die e) else s.die e := by
  unfold State.die State.modDie
  rw [module?_modModule]
  by_cases hm : dieModule e = dieModule d
  · rw [if_pos hm, hm]
    cases s.module? (dieModule d) with
    | none => simp
    | some x =>
      by_cases hd : e % 4 = d % 4
      · rw [hd]
        simp [Module.modDie, Module.die, dgetD_dset]
      · simp [Module.modDie, Module.die, dgetD_dset, hd, Ne.symm hd]
  · rw [if_neg hm, if_neg fun h => hm h.2.1]

/-- A change of a die that leaves what `g` reads of it. -/
theorem die_modDie_of {α : Type} (g : Die → α) (s : State) (d e : DieId) {f : Die → Die} (hf : ∀ x, g (f x) = g x) : g ((s.modDie d f).die e) = g (s.die e) := by
  rw [die_modDie]
  split_ifs
  · exact hf _
  · rfl

/-- A change of a module that leaves its dies. -/
theorem die_modModule (s : State) (m : Nat) (e : DieId) {f : Module → Module} (hf : ∀ x, (f x).dies = x.dies) : (s.modModule m f).die e = s.die e := by
  unfold State.die
  rw [module?_modModule]
  split_ifs
  · rw [Option.map_map]
    congr 1
    refine congrArg (Option.map · _) (funext fun x => ?_)
    simp only [Function.comp_apply, Module.die, hf]
  · rfl

theorem die_event (s : State) (m : Nat) (w a : Word) (e : DieId) : (s.event m w a).die e = s.die e := die_modModule s m e fun x => by split_ifs <;> rfl
theorem die_count (s : State) (m i n : Nat) (e : DieId) : (s.count m i n).die e = s.die e := die_modModule s m e fun x => by split_ifs <;> rfl

theorem patch_of_die (h : (t.die (coreDie c)).patches = (s.die (coreDie c)).patches) : t.patch c = s.patch c := by rw [State.patch, State.patch, h]

theorem patch_of_modules (h : t.modules = s.modules) (c : CoreId) : t.patch c = s.patch c := by simp only [State.patch, State.die, State.module?, h]

theorem patch_setPatch_same (h : (s.module? (coreModule c)).isSome = true) (p : Patch) : (s.setPatch c p).patch c = p := by
  rw [State.patch, State.setPatch, die_modDie, if_pos ⟨by rw [dieModule_coreDie]; exact h, rfl, rfl⟩]
  exact dgetD_dset_same _ _ _ _

-- fencing for good, and the spare (R349, R350, R352)
theorem fenceForGood_patch (h : (s.module? (coreModule c)).isSome = true) : (s.fenceForGood c).patch c = { s.patch c with perm := true } := by
  unfold State.fenceForGood
  split_ifs with hp
  · rw [← hp]
  · have hlast (u : State) : (u.modDie (coreDie c) fun d => { d with lastPos := c % 256 }).patch c = u.patch c := patch_of_die (die_modDie_of Die.patches u _ _ fun _ => rfl)
    rw [patch_of_die (congrArg Die.patches (die_event _ _ _ _ _)), hlast, patch_setPatch_same h]

/-- The position's core runs on the spare of its quad from now on (R23, R349). -/
def State.takeSpare (s : State) (c : CoreId) (r : Role) : State :=
  let u := (s.passRole (coreDie c) (quadIn c) r).modDie (coreDie c) fun y => { y with roles := dset y.roles (quadIn c) .patched, lastPos := c % 256 }
  let u := ((u.setPatch c { s.patch c with fenced := false, slot := 4 }).freshPos c).notePatch c
  ((u.modCore c fun k => { k with dead := false }).event (dieModule (coreDie c)) (eventWord 2 (coreDie c) (coreRow c) (coreCol c) 0) 0).count (dieModule (coreDie c)) 4 1

theorem patchPosition_gone {r : Role} (hr : dgetD (s.die (coreDie c)).roles (quadIn c) .patched = r) (h : r = .patched ∨ r = .failed ∨ s.spareWanted c = true) :
    s.patchPosition c = s.fenceForGood c := by
  simp only [State.patchPosition, hr]
  rcases h with rfl | rfl | h
  · rfl
  · rfl
  · cases r <;> simp [h]

theorem patchPosition_spare {r : Role} (hr : dgetD (s.die (coreDie c)).roles (quadIn c) .patched = r) (hp : r ≠ .patched) (hf : r ≠ .failed)
    (hw : s.spareWanted c = false) : s.patchPosition c = s.takeSpare c r := by
  simp only [State.patchPosition, hr]
  cases r with
  | patched => exact absurd rfl hp
  | failed => exact absurd rfl hf
  | steward => simp only [hw, Bool.false_eq_true, if_false]; rfl
  | service => simp only [hw, Bool.false_eq_true, if_false]; rfl
  | gateway n => simp only [hw, Bool.false_eq_true, if_false]; rfl
  | standby => simp only [hw, Bool.false_eq_true, if_false]; rfl

theorem passRole_keeps (s : State) (d : DieId) (q : Nat) (r : Role) : Keeps [.modules] s (s.passRole d q r) := by
  unfold State.passRole
  split_ifs
  · exact .refl _ s
  · split
    · exact modDie_keeps s _ _
    · exact modModule_keeps s _ _

theorem passRole_isSome (s : State) (d : DieId) (q : Nat) (r : Role) (m : Nat) : ((s.passRole d q r).module? m).isSome = (s.module? m).isSome := by
  have modded (u : State) (e : Nat) (f : Module → Module) : ((u.modModule e f).module? m).isSome = (u.module? m).isSome := by
    rw [module?_modModule]
    split_ifs
    · exact Option.isSome_map
    · rfl
  unfold State.passRole
  split_ifs
  · rfl
  · split
    · exact modded _ _ _
    · exact modded _ _ _

/-- The last change of a patch of the position stands. -/
theorem takeSpare_patch {r : Role} (h : (s.module? (coreModule c)).isSome = true) : (s.takeSpare c r).patch c = { s.patch c with fenced := false, slot := 4 } := by
  unfold State.takeSpare
  have hsome (p : Patch) : ((((s.passRole (coreDie c) (quadIn c) r).modDie (coreDie c) fun y => { y with roles := dset y.roles (quadIn c) .patched, lastPos := c % 256 }).setPatch c p).patch c) = p := by
    refine patch_setPatch_same ?_ p
    refine Eq.trans ?_ ((passRole_isSome s (coreDie c) (quadIn c) r (coreModule c)).trans h)
    rw [State.modDie, module?_modModule]
    split_ifs
    · exact Option.isSome_map
    · rfl
  refine (patch_of_die (congrArg Die.patches ((die_count _ _ _ _ _).trans (die_event _ _ _ _ _)))).trans ?_
  refine (patch_of_modules (s := State.setPatch _ c _) ?_ c).trans (hsome _)
  rw [modCore_modules, State.notePatch]
  split <;> rfl

theorem takeSpare_core {r : Role} (hc : s.core? c = some k) : (s.takeSpare c r).core? c = some { k with dead := false } := by
  have hpass : (s.passRole (coreDie c) (quadIn c) r).core? c = some k := by
    rw [State.core?, (passRole_keeps s _ _ r).cores (by simp)]
    exact hc
  have noted (u : State) : (u.notePatch c).cores = u.cores := by
    unfold State.notePatch
    split <;> rfl
  unfold State.takeSpare
  refine Eq.trans (b := State.core? (State.modCore _ c fun k => { k with dead := false }) c) rfl ?_
  rw [core?_modCore_same, State.core?, noted]
  exact congrArg (Option.map _) hpass

theorem quad_offsets (c x : Nat) : (x = c - (c / 16 % 16 % 2 * 2 + c % 16 % 2) / 2 * 16 - (c / 16 % 16 % 2 * 2 + c % 16 % 2) % 2 + 0 ∨
    x = c - (c / 16 % 16 % 2 * 2 + c % 16 % 2) / 2 * 16 - (c / 16 % 16 % 2 * 2 + c % 16 % 2) % 2 + 1 ∨
    x = c - (c / 16 % 16 % 2 * 2 + c % 16 % 2) / 2 * 16 - (c / 16 % 16 % 2 * 2 + c % 16 % 2) % 2 + 16 ∨
    x = c - (c / 16 % 16 % 2 * 2 + c % 16 % 2) / 2 * 16 - (c / 16 % 16 % 2 * 2 + c % 16 % 2) % 2 + 17) ↔
    x / 256 * 64 + x / 16 % 16 / 2 * 8 + x % 16 / 2 = c / 256 * 64 + c / 16 % 16 / 2 * 8 + c % 16 / 2 := by omega

/-- The positions of a quad, by their numbers in it (R98). -/
theorem mem_quad_iff (c x : CoreId) : x ∈ [0, 1, 16, 17].map (fun o => c - coreSlot c / 2 * 16 - coreSlot c % 2 + o) ↔ coreQuad x = coreQuad c := by
  simp only [List.map_cons, List.map_nil, List.mem_cons, List.not_mem_nil, or_false]
  exact quad_offsets c x

theorem spareWanted_iff (s : State) (c : CoreId) : s.spareWanted c = true ↔ ∃ x, Earlier s c x := by
  simp only [State.spareWanted, List.any_eq_true, mem_quad_iff, Earlier, Bool.and_eq_true, bne_iff_ne, ne_eq, Bool.not_eq_true', decide_eq_true_eq, and_assoc]

-- rolling back (R334)
/-- What a test of the cores at a list of places says. -/
theorem allPlaces_iff {l : List CoreId} {p : Core → Bool} : (l.all fun d => ((s.core? d).map p).getD true) = true ↔ ∀ d ∈ l, ∀ x, s.core? d = some x → p x = true := by
  rw [List.all_eq_true]
  refine forall₂_congr fun d _ => ?_
  cases s.core? d <;> simp

/-- Every core of the job has the outcome and rolls back, or has rolled back. -/
def State.AllRoll (s : State) (j : Job) : Prop := ∀ d ∈ j.places, ∀ x, s.core? d = some x → x.phase = .rolling ∨ x.phase = .rolled

theorem allRoll_iff : (j.places.all fun d => ((s.core? d).map fun x => x.phase == .rolling || x.phase == .rolled).getD true) = true ↔ s.AllRoll j := by
  rw [allPlaces_iff]
  simp only [Bool.or_eq_true, beq_iff_eq, State.AllRoll]

/-- The job whose attempt is undone at core index `i`: homes unwound, the mangle's slots empty, page fetches finished (R315, R334). -/
def Job.unwound (j : Job) (c : CoreId) (i : Nat) : Job :=
  { j with qsp := dmod j.qsp (coreQuad c) Mem.rollback, dss := dmod j.dss (coreDie c) Mem.rollback, rounds := []
           staged := j.staged.map fun e => if e.index = i then { e with data := some e.source, reader := none } else e }

/-- The state without the messages of job `a`. -/
def State.quieted (s : State) (a : Nat) : State := { s with net := s.net.filter fun m => m.asid != a }

/-- The state in which the attempt of core `c` is undone, before its position is patched. -/
def State.unwound (s : State) (c : CoreId) (k : Core) : State :=
  ((s.quieted k.asid).unwindHomes c k.asid).modJob k.asid fun j =>
    { j with rounds := [], staged := j.staged.map fun e => if e.index = k.index then { e with data := some e.source, reader := none } else e }

theorem unwound_core (hc : s.core? c = some k) : (s.unwound c k).core? c = some { k with tcm := k.tcm.rollback } := by
  refine (core?_modCore_same (s.quieted k.asid) c fun k => { k with tcm := k.tcm.rollback }).trans ?_
  exact congrArg (Option.map _) hc

theorem unwound_core_isSome (s : State) (c d : CoreId) (k : Core) : ((s.unwound c k).core? d).isSome = (s.core? d).isSome := by
  refine (congrArg Option.isSome (core?_modCore (s.quieted k.asid) c d fun k => { k with tcm := k.tcm.rollback })).trans ?_
  split_ifs
  · exact Option.isSome_map
  · rfl

theorem unwound_otherCores (s : State) (c : CoreId) (k : Core) : OtherCores c s (s.unwound c k) :=
  modCore_otherCores (s.quieted k.asid) c _

theorem unwound_job (hj : s.job? k.asid = some j) : (s.unwound c k).job? k.asid = some (j.unwound c k.index) := by
  have hfirst : ((s.quieted k.asid).unwindHomes c k.asid).job? k.asid =
      some { j with qsp := dmod j.qsp (coreQuad c) Mem.rollback, dss := dmod j.dss (coreDie c) Mem.rollback } := by
    refine (job?_modJob (State.modCore _ c _) k.asid k.asid _).trans ?_
    rw [if_pos rfl]
    exact congrArg (Option.map _) hj
  rw [State.unwound, job?_modJob, if_pos rfl, hfirst]
  rfl

theorem unwound_otherJobs (s : State) (c : CoreId) (k : Core) : OtherJobs k.asid s (s.unwound c k) :=
  have hnet : OtherJobs k.asid s (s.quieted k.asid) := fun _ _ => rfl
  have hhomes : OtherJobs k.asid (s.quieted k.asid) ((s.quieted k.asid).unwindHomes c k.asid) :=
    modJob_otherJobs (State.modCore _ c _) k.asid _
  (hnet.trans hhomes).trans (modJob_otherJobs _ _ _)

theorem unwound_keeps (s : State) (c : CoreId) (k : Core) : Keeps [.cores, .jobs, .net] s (s.unwound c k) :=
  ⟨by simp, by simp, fun _ => rfl, fun _ => rfl, by simp, fun _ => ⟨rfl, rfl⟩, fun _ => ⟨rfl, rfl⟩, fun _ => rfl⟩

theorem unwound_net (s : State) (c : CoreId) (k : Core) : (s.unwound c k).net = s.net.filter fun m => m.asid ≠ k.asid := by
  refine List.filter_congr fun m _ => ?_
  rw [bne, beq_eq_decide, decide_not]

/-- What rolling back leaves of a core. -/
def Core.rolledBack (k : Core) : Core := { k.restart k.snapshot.ssentry .job with phase := .rolled }

/-- A core that has started anew is clean (R33). -/
theorem restart_clean (k : Core) (pc : Word) (l : Level) : Clean (k.restart pc l) := by
  refine ⟨rfl, rfl, rfl, rfl, rfl, rfl, fun n e he => ?_, rfl, rfl, rfl, rfl, rfl, rfl, rfl, rfl, rfl, rfl, rfl⟩
  simp only [Core.restart, dget?_dmap, Option.map_eq_some_iff] at he
  obtain ⟨e', -, rfl⟩ := he
  rfl

theorem rolledBack_clean (k : Core) : Clean k.rolledBack := restart_clean k k.snapshot.ssentry .job

theorem rollback_waits (hc : s.core? c = some k) (hj : s.job? k.asid = some j) (h : k.phase ≠ .rolling ∨ ¬ s.AllRoll j) : exec (.rollback c) s = .next s := by
  refine congrArg Host.Outcome.next ?_
  unfold rollback
  simp only [hc, hj]
  refine if_pos ?_
  rw [← allRoll_iff] at h
  simp only [Bool.or_eq_true, bne_iff_ne, Bool.not_eq_true', ← Bool.not_eq_true]
  exact .inl h

theorem rollback_eq (hc : s.core? c = some k) (hj : s.job? k.asid = some j) (hp : k.phase = .rolling) (hall : s.AllRoll j)
    (hd : k.dead = false ∨ (s.patch c).fenced = true) :
    rollback c s = (if (s.patch c).fenced then (s.unwound c k).patchPosition c else s.unwound c k).modCore c Core.rolledBack := by
  have hfenced : (s.unwound c k).patch c = s.patch c := patch_of_modules ((unwound_keeps s c k).modules (by simp)) c
  have hcond : (k.phase != .rolling || !(j.places.all fun d => ((s.core? d).map fun x => x.phase == .rolling || x.phase == .rolled).getD true) ||
      (k.dead && !(s.patch c).fenced)) = false := by
    rw [allRoll_iff.mpr hall, hp]
    rcases hd with h | h <;> rw [h] <;> simp
  unfold rollback
  simp only [hc, hj, hcond, Bool.false_eq_true, if_false]
  rw [← hfenced]
  rfl

/-- A core that is neither dead nor fenced rolls back (R33, R285, R334). -/
theorem rollback_restores (hc : s.core? c = some k) (hj : s.job? k.asid = some j) (hp : k.phase = .rolling) (hall : s.AllRoll j) (hd : k.dead = false)
    (hf : (s.patch c).fenced = false) : Does (.rollback c) s fun t => (Keeps [.cores, .jobs, .net] s t ∧ OtherCores c s t ∧ OtherJobs k.asid s t ∧
      t.net = s.net.filter (fun m => m.asid ≠ k.asid) ∧ ∃ y, t.core? c = some y ∧ y.phase = .rolled ∧ Clean y ∧ y.tcm.cur = k.tcm.base ∧
        y.ctxs = [(0, k.snapshot.ctx k.snapshot.ssentry .job)] ∧ y.ssn = k.snapshot.ssn ∧ y.ssentry = k.snapshot.ssentry ∧ y.mb = k.mb) ∧
      ∃ y, t.job? k.asid = some y ∧ y.rounds = [] ∧ y.staged = j.staged.map fun e => if e.index = k.index then { e with data := some e.source, reader := none } else e := by
  have heq := rollback_eq hc hj hp hall (.inl hd)
  rw [hf, if_neg Bool.false_ne_true] at heq
  have hcore : ((s.unwound c k).modCore c Core.rolledBack).core? c = some (Core.rolledBack { k with tcm := k.tcm.rollback }) := by
    rw [core?_modCore_same, unwound_core hc]
    rfl
  refine ⟨_, congrArg Host.Outcome.next heq, ⟨(unwound_keeps s c k).step (modCore_keeps _ c _) (by simp), (unwound_otherCores s c k).trans (modCore_otherCores _ c _),
    unwound_otherJobs s c k, unwound_net s c k, _, hcore, rfl, rolledBack_clean _, rfl, rfl, rfl, rfl, rfl⟩, _, unwound_job hj, rfl, rfl⟩

theorem die_eq_of {d : Module} {die : Die} (hm : s.module? (coreModule c) = some d) (hdie : dget? d.dies (coreDie c % 4) = some die) : s.die (coreDie c) = die := by
  rw [State.die, dieModule_coreDie, hm]
  simp only [Option.map_some, Option.getD_some, Module.die, dgetD, hdie]

theorem earlier_unwound (s : State) (c x : CoreId) (k : Core) : Earlier (s.unwound c k) c x ↔ Earlier s c x := by
  have hk := unwound_keeps s c k
  have hpatch (e : CoreId) : (s.unwound c k).patch e = s.patch e := patch_of_modules (hk.modules (by simp)) e
  have hpos (e : CoreId) : (s.unwound c k).pos e = s.pos e := by rw [State.pos, hk.positions (by simp)]; rfl
  simp only [Earlier, hpatch, hpos, unwound_core_isSome]

/-- A fenced position is patched onto the spare of its quad, or PERM is set (R349, R350, R352). -/
theorem rollback_patches {d : Module} {die : Die} {r : Role} (hc : s.core? c = some k) (hj : s.job? k.asid = some j) (hp : k.phase = .rolling) (hall : s.AllRoll j)
    (hf : (s.patch c).fenced = true) (hm : s.module? (coreModule c) = some d) (hdie : dget? d.dies (coreDie c % 4) = some die)
    (hr : dget? die.roles (quadIn c) = some r) :
    (r = .patched ∨ r = .failed ∨ (∃ x, Earlier s c x) → Does (.rollback c) s fun t => t.patch c = { s.patch c with perm := true }) ∧
    (r ≠ .patched → r ≠ .failed → (∀ x, ¬ Earlier s c x) → Does (.rollback c) s fun t => t.patch c = { s.patch c with fenced := false, slot := 4 } ∧
      ∃ y, t.core? c = some y ∧ y.phase = .rolled ∧ y.dead = false) := by
  have heq := rollback_eq hc hj hp hall (.inr hf)
  rw [if_pos hf] at heq
  have hmodules := (unwound_keeps s c k).modules (by simp)
  have hm' : (s.unwound c k).module? (coreModule c) = some d := by rw [State.module?, hmodules]; exact hm
  have hsome : ((s.unwound c k).module? (coreModule c)).isSome = true := by rw [hm']; rfl
  have hrole : dgetD ((s.unwound c k).die (coreDie c)).roles (quadIn c) .patched = r := by rw [die_eq_of hm' hdie, dgetD, hr]; rfl
  have hpatch : (s.unwound c k).patch c = s.patch c := patch_of_modules hmodules c
  have hwanted : (s.unwound c k).spareWanted c = true ↔ ∃ x, Earlier s c x := by simp only [spareWanted_iff, earlier_unwound]
  have hafter (u : State) : (u.modCore c Core.rolledBack).patch c = u.patch c := patch_of_modules rfl c
  refine ⟨fun h => ?_, fun hrp hrf hno => ?_⟩
  · rw [← hwanted] at h
    exact ⟨_, congrArg Host.Outcome.next heq, (hafter _).trans (by rw [patchPosition_gone hrole h, fenceForGood_patch hsome, hpatch])⟩
  · have hfree : (s.unwound c k).spareWanted c = false := by
      rw [← Bool.not_eq_true, hwanted]
      exact fun ⟨x, hx⟩ => hno x hx
    have hspare := patchPosition_spare hrole hrp hrf hfree
    have hcore : (((s.unwound c k).patchPosition c).modCore c Core.rolledBack).core? c = some (Core.rolledBack { k with tcm := k.tcm.rollback, dead := false }) := by
      rw [hspare, core?_modCore_same, takeSpare_core (unwound_core hc)]
      rfl
    exact ⟨_, congrArg Host.Outcome.next heq, (hafter _).trans (by rw [hspare, takeSpare_patch hsome, hpatch]), _, hcore, rfl, rfl⟩

end Sys2Proof.Machine

/-! Committing: deferred effects, the entry state of the next superstep, and write-outs (R109, R125, R284, R285). -/

namespace Sys2Proof.Machine

open Sys2Proof.Laws

variable {s t u : State} {c : CoreId} {k : Core} {j : Job} {d : Dest} {w : WriteOut}

-- homes
/-- Memory is as before where the present contents of every home are. -/
theorem sameMemory_of_curs (hc : ∀ d, (t.core? d).map (fun k => k.tcm.cur) = (s.core? d).map fun k => k.tcm.cur)
    (hq : ∀ a q, (t.job? a).map (fun j => (dgetD j.qsp q Mem.empty).cur) = (s.job? a).map fun j => (dgetD j.qsp q Mem.empty).cur)
    (hd : ∀ a q, (t.job? a).map (fun j => (dgetD j.dss q Mem.empty).cur) = (s.job? a).map fun j => (dgetD j.dss q Mem.empty).cur) : SameMemory s t := by
  have cur (o : Option Mem) : (o.getD Mem.empty).cur = (o.map Mem.cur).getD Mem.empty.cur := by cases o <;> rfl
  intro a d
  have hhome : (t.home a d).cur = (s.home a d).cur := by
    unfold State.home
    cases d.space with
    | tcm => simp only [cur, Option.map_map]; exact congrArg (Option.getD · _) (hc d.core)
    | qsp => simp only [cur, Option.map_map]; exact congrArg (Option.getD · _) (hq a _)
    | dss => simp only [cur, Option.map_map]; exact congrArg (Option.getD · _) (hd a _)
  unfold State.byteAt
  rw [hhome]

/-- A write at a home, in its present contents and in those that a rollback restores (R284). -/
theorem wrBoth_storesBytes {asid n : Nat} (v : Nat) (h : s.hasHome asid d) : StoresBytes s (s.wrBoth asid d n v) asid d n v := by
  have hcurs : SameMemory (s.wr asid d n v) (s.wrBoth asid d n v) := fun a e => by
    unfold State.byteAt
    rw [State.wr, State.wrBoth, home_modHome h, home_modHome h]
    split_ifs <;> rfl
  exact (wr_storesBytes v h).congr (fun _ _ => rfl) hcurs

theorem StoresBytes.then {asid n v : Nat} (h : StoresBytes s t asid d n v) (g : SameMemory t u) : StoresBytes s u asid d n v := h.congr (fun _ _ => rfl) g

/-- A core but for its TCM, and a job but for its scratchpads and shares. -/
def Core.sansTcm (k : Core) : Core := { k with tcm := Mem.empty }
def Job.sansHomes (j : Job) : Job := { j with qsp := [], dss := [] }

/-- Of the cores and jobs only memory differs. -/
structure HomesOnly (s t : State) : Prop where
  cores : ∀ e, (t.core? e).map Core.sansTcm = (s.core? e).map Core.sansTcm
  jobs : ∀ a, (t.job? a).map Job.sansHomes = (s.job? a).map Job.sansHomes

theorem HomesOnly.refl (s : State) : HomesOnly s s := ⟨fun _ => rfl, fun _ => rfl⟩
theorem HomesOnly.trans (h : HomesOnly s t) (g : HomesOnly t u) : HomesOnly s u := ⟨fun e => (g.cores e).trans (h.cores e), fun a => (g.jobs a).trans (h.jobs a)⟩
theorem homesOnly_of_eq (hc : t.cores = s.cores) (hj : t.jobs = s.jobs) : HomesOnly s t :=
  ⟨fun e => by rw [State.core?, hc]; rfl, fun a => by rw [State.job?, hj]; rfl⟩

theorem modCore_homesOnly (s : State) (c : CoreId) (f : Core → Core) (hf : ∀ x, (f x).sansTcm = x.sansTcm) : HomesOnly s (s.modCore c f) where
  cores e := by
    rw [core?_modCore]
    split_ifs
    · rw [Option.map_map]
      exact congrArg (Option.map · _) (funext hf)
    · rfl
  jobs _ := rfl

theorem modJob_homesOnly (s : State) (a : Nat) (f : Job → Job) (hf : ∀ x, (f x).sansHomes = x.sansHomes) : HomesOnly s (s.modJob a f) where
  cores _ := rfl
  jobs e := by
    rw [job?_modJob]
    split_ifs
    · rw [Option.map_map]
      exact congrArg (Option.map · _) (funext hf)
    · rfl

theorem modHome_homesOnly (s : State) (asid : Nat) (d : Dest) (f : Mem → Mem) : HomesOnly s (s.modHome asid d f) := by
  unfold State.modHome
  split
  · exact modCore_homesOnly s _ _ fun _ => rfl
  · exact modJob_homesOnly s _ _ fun _ => rfl
  · exact modJob_homesOnly s _ _ fun _ => rfl

theorem pressHomes_homesOnly (s : State) (c : CoreId) (asid : Nat) : HomesOnly s (s.pressHomes c asid) :=
  have hcore : HomesOnly s (s.modCore c fun k => { k with tcm := k.tcm.commit }) := modCore_homesOnly s c _ fun _ => rfl
  hcore.trans (modJob_homesOnly _ asid (fun j => { j with qsp := dmod j.qsp (coreQuad c) Mem.commit, dss := dmod j.dss (coreDie c) Mem.commit }) fun _ => rfl)

theorem HomesOnly.core (h : HomesOnly s t) (hc : s.core? c = some k) : ∃ m, t.core? c = some { k with tcm := m } := by
  have heq := h.cores c
  rw [hc, Option.map_some, Option.map_eq_some_iff] at heq
  obtain ⟨y, hy, hyk⟩ := heq
  exact ⟨y.tcm, hy.trans (congrArg some (congrArg (fun x : Core => { x with tcm := y.tcm }) hyk :))⟩

theorem HomesOnly.job {a : Nat} (h : HomesOnly s t) (hj : s.job? a = some j) : ∃ q e, t.job? a = some { j with qsp := q, dss := e } := by
  have heq := h.jobs a
  rw [hj, Option.map_some, Option.map_eq_some_iff] at heq
  obtain ⟨y, hy, hyj⟩ := heq
  exact ⟨y.qsp, y.dss, hy.trans (congrArg some (congrArg (fun x : Job => { x with qsp := y.qsp, dss := y.dss }) hyj :))⟩

theorem HomesOnly.sameRegisters (h : HomesOnly s t) : SameRegisters s t :=
  sameRegisters_of_ctxs fun e => by
    have heq := congrArg (Option.map Core.ctxs) (h.cores e)
    rw [Option.map_map, Option.map_map] at heq
    exact heq

-- the contents stand (R285)
theorem dgetD_dmod_cur (l : Dict Mem) (q e : Nat) : (dgetD (dmod l q Mem.commit) e Mem.empty).cur = (dgetD l e Mem.empty).cur := by
  simp only [dgetD, dget?_dmod]
  split_ifs with h
  · rw [h]
    cases dget? l q <;> rfl
  · rfl

theorem pressHomes_sameMemory (s : State) (c : CoreId) (asid : Nat) : SameMemory s (s.pressHomes c asid) := by
  have job (a : Nat) : (s.pressHomes c asid).job? a = if asid = a then (s.job? a).map fun j =>
      { j with qsp := dmod j.qsp (coreQuad c) Mem.commit, dss := dmod j.dss (coreDie c) Mem.commit } else s.job? a := job?_modJob _ asid a _
  refine sameMemory_of_curs (fun e => ?_) (fun a q => ?_) (fun a q => ?_)
  · refine (congrArg (Option.map _) (core?_modCore s c e fun k => { k with tcm := k.tcm.commit })).trans ?_
    split_ifs
    · rw [Option.map_map]
      rfl
    · rfl
  · rw [job]
    split_ifs
    · rw [Option.map_map]
      exact congrArg (Option.map · _) (funext fun j => dgetD_dmod_cur j.qsp _ q)
    · rfl
  · rw [job]
    split_ifs
    · rw [Option.map_map]
      exact congrArg (Option.map · _) (funext fun j => dgetD_dmod_cur j.dss _ q)
    · rfl

-- a deferred effect (R284, R302)
theorem countLink_keeps (s : State) (a b n : Nat) : Keeps [.modules] s (s.countLink a b n) := by
  unfold State.countLink
  split_ifs
  · exact .refl _ s
  · exact (modModule_keeps s _ _).trans (modModule_keeps _ _ _)

theorem sameMemory_of_keeps {l : List Part} (h : Keeps l s t) (hc : Part.cores ∉ l) (hj : Part.jobs ∉ l) : SameMemory s t :=
  sameMemory_of_tcm (h.jobs hj) fun e => by rw [State.core?, h.cores hc]; rfl

theorem applyDeferred_homesOnly (s : State) (c : CoreId) (asid : Nat) (e : Deferred) : HomesOnly s (s.applyDeferred c asid e) := by
  have hlink : HomesOnly s (s.countLink (coreModule c) (coreModule (s.forwarded asid e.dest.core)) e.op.bytes) :=
    homesOnly_of_eq ((countLink_keeps s _ _ _).cores (by simp)) ((countLink_keeps s _ _ _).jobs (by simp))
  unfold State.applyDeferred
  dsimp only
  split_ifs
  · split
    · exact hlink.trans (modHome_homesOnly _ _ _ _)
    · split_ifs
      · exact (hlink.trans (homesOnly_of_eq (t := (State.countLink s _ _ _).draw.2) rfl rfl)).trans (modHome_homesOnly _ _ _ _)
      · exact hlink.trans (modHome_homesOnly _ _ _ _)
  · exact hlink

/-- A change of a module that leaves what `g` reads of it. -/
theorem module?_modModule_of {α : Type} (g : Module → α) (s : State) (m e : Nat) {f : Module → Module} (hf : ∀ x, g (f x) = g x) :
    ((s.modModule m f).module? e).map g = (s.module? e).map g := by
  rw [module?_modModule]
  split_ifs
  · rw [Option.map_map]
    exact congrArg (Option.map · _) (funext hf)
  · rfl

/-- Counting changes nothing but the counters. -/
theorem module?_count_of {α : Type} (g : Module → α) (hg : ∀ x cnt, g { x with cnt := cnt } = g x) (s : State) (m i n e : Nat) :
    ((s.count m i n).module? e).map g = (s.module? e).map g :=
  module?_modModule_of g s m e fun x => by
    split_ifs
    · rfl
    · exact hg x _

theorem spillPoison_countLink (s : State) (a b i asid n : Nat) (d : Dest) : (s.countLink a b i).spillPoison asid d n = s.spillPoison asid d n := by
  have hpoison (pa : Nat) : (s.countLink a b i).poisoned (coreModule d.core) pa = s.poisoned (coreModule d.core) pa := by
    have hcount (u : State) (m j l : Nat) := congrArg (Option.getD · false) (module?_count_of (fun x => pagesMeet x.poison pa 1) (fun _ _ => rfl) u m j l (coreModule d.core))
    unfold State.countLink
    split_ifs
    · rfl
    · exact (hcount _ _ _ _).trans (hcount _ _ _ _)
  simp only [State.spillPoison, hpoison]

theorem hasHome_of (hc : ∃ core, s.core? d.core = some core) {asid : Nat} (hj : ∃ j, s.job? asid = some j) : s.hasHome asid d := by
  unfold State.hasHome
  split
  exacts [hc, hj]

/-- A deferred effect at a home that no forwarding entry moves: the bytes of a write, or what the delta makes of those that stand there. -/
theorem applyDeferred_stores {asid : Nat} {e : Deferred} {x : Core} (hf : s.forwarded asid e.dest.core = e.dest.core) (hx : s.core? e.dest.core = some x)
    (ha : x.asid = asid) (hj : s.job? asid = some j) :
    (∀ n v, e.op = .write n v → StoresBytes s (s.applyDeferred c asid e) asid e.dest n v) ∧
    (∀ o v, e.op = .delta o v → s.spillPoison asid e.dest o.width = none →
      StoresBytes s (s.applyDeferred c asid e) asid e.dest o.width (o.apply (s.bytesAt asid e.dest o.width) v)) := by
  have hlink := countLink_keeps s (coreModule c) (coreModule e.dest.core) e.op.bytes
  have hsame : SameMemory s (s.countLink (coreModule c) (coreModule e.dest.core) e.op.bytes) := sameMemory_of_keeps hlink (by simp) (by simp)
  have hcore : (s.countLink (coreModule c) (coreModule e.dest.core) e.op.bytes).core? e.dest.core = some x := by
    rw [State.core?, hlink.cores (by simp)]
    exact hx
  have hjob : (s.countLink (coreModule c) (coreModule e.dest.core) e.op.bytes).job? asid = some j := by
    rw [State.job?, hlink.jobs (by simp)]
    exact hj
  have hhome := hasHome_of ⟨x, hcore⟩ ⟨j, hjob⟩
  have hpoison := spillPoison_countLink s (coreModule c) (coreModule e.dest.core) e.op.bytes asid
  have hmember : (x.asid == asid) = true := beq_iff_eq.mpr ha
  unfold State.applyDeferred
  simp only [hf, hcore, hmember, Option.map_some, Option.getD_some, if_true]
  refine ⟨fun n v hop => ?_, fun o v hop hclean => ?_⟩
  · rw [hop] at hhome hsame ⊢
    exact (wrBoth_storesBytes v hhome).congr hsame fun _ _ => rfl
  · rw [hop] at hhome hsame hpoison ⊢
    simp only [hpoison, hclean, Option.isSome_none, Bool.false_eq_true, if_false]
    have hold : s.bytesAt asid e.dest o.width = (s.countLink (coreModule c) (coreModule e.dest.core) (DeferredOp.delta o v).bytes).rd asid e.dest o.width := by
      rw [← bytesAt_eq_rd]
      simp only [State.bytesAt, hsame asid _]
    rw [hold]
    exact (wrBoth_storesBytes _ hhome).congr hsame fun _ _ => rfl

end Sys2Proof.Machine

/-! COMMIT_APPLY: what a core's commit leaves, its write-outs, and what the last core's commit does to the job (R109, R125, R285, R306). -/

namespace Sys2Proof.Machine

open Sys2Proof.Laws

variable {s t u : State} {c : CoreId} {k : Core} {j : Job} {w : WriteOut} {l : List Part} {m : Nat}

theorem foldl_keeps {α : Type} {f : State → α → State} (hf : ∀ u a, Keeps l u (f u a)) : ∀ (as : List α) (s : State), Keeps l s (as.foldl f s)
  | [], s => .refl _ s
  | a :: as, s => (hf s a).trans (foldl_keeps hf as (f s a))

-- physical memory (R111)
theorem wrPa_keeps (s : State) (m pa n v : Nat) : Keeps [.modules, .cxl, .host] s (s.wrPa m pa n v) := by
  unfold State.wrPa
  split
  · exact (modModule_keeps s _ _).mono (by simp)
  · exact (modModule_keeps s _ _).mono (by simp)
  · split
    · exact (modModule_keeps s _ _).mono (by simp)
    · exact .refl _ s
  · exact ⟨by simp, by simp, by simp, by simp, by simp, by simp, by simp, by simp⟩
  · exact ⟨by simp, by simp, by simp, by simp, by simp, by simp, by simp, by simp⟩
  · exact .refl _ s

theorem modLeaf_keeps (s : State) (m : Nat) (e : TlbEntry) (f : Nat → Nat) : Keeps [.modules, .cxl, .host] s (s.modLeaf m e f) := by
  unfold State.modLeaf
  split_ifs
  · exact foldl_keeps (fun u _ => wrPa_keeps u _ _ _ _) _ s
  · exact wrPa_keeps s _ _ _ _

theorem setDirty_keeps (s : State) (m asid root va : Nat) : Keeps [.modules, .cxl, .host] s (s.setDirty m asid root va) := by
  unfold State.setDirty
  split
  · exact modLeaf_keeps s m _ _
  · exact .refl _ s

theorem count_keeps (s : State) (m i n : Nat) : Keeps [.modules] s (s.count m i n) := modModule_keeps s _ _

theorem countAtoms_keeps (s : State) (m pa n : Nat) (write : Bool) : Keeps [.modules] s (s.countAtoms m pa n write) := by
  unfold State.countAtoms
  dsimp only
  generalize (if write then 7 else 6) = i
  split
  · exact count_keeps s _ _ _
  · split
    · split_ifs
      · exact (countLink_keeps s _ _ _).trans (count_keeps _ _ _ _)
      · exact (countLink_keeps s _ _ _).trans (count_keeps _ _ _ _)
    · exact .refl _ s
  · exact count_keeps s _ _ _
  · exact .refl _ s

-- write-outs (R109, R125, R285)
theorem writeOut_keeps (s : State) (c : CoreId) (asid root : Nat) (w : WriteOut) : Keeps [.modules, .cxl, .host, .net] s (s.writeOut c asid root w) := by
  have hbefore : Keeps [.modules, .cxl, .host, .net] s ((s.setDirty (coreModule c) asid root w.va).countAtoms (coreModule c) w.pa w.n true) :=
    ((Keeps.refl _ s).step (setDirty_keeps s _ _ _ _) (by simp)).step (countAtoms_keeps _ _ _ _ _) (by simp)
  unfold State.writeOut
  dsimp only
  split_ifs
  · exact hbefore.step (wrPa_keeps _ _ _ _ _) (by simp)
  · exact hbefore.step (send_keeps _ _ _ _ _ _ _) (by simp)

/-- The write-outs of a core wait for a bank that another core holds. -/
def State.outBusy (s : State) (c : CoreId) (root : Nat) (ws : List WriteOut) : Bool :=
  ws.any fun w => (tierOf w.pa == .hbm && s.bankBusyOver (coreModule c) w.pa w.n (some c)) || s.tablesBusy (coreModule c) root w.va (some c)
/-- A page that one `CPFILL` has covered loses its poison. -/
def State.unpoison (s : State) (c : CoreId) (ws : List WriteOut) : State :=
  (ws.filterMap fun w => w.fill.map fun u => (w.pa / 4096, u)).dedup.foldl (fun s x =>
    if tierOf (x.1 * 4096) == .hbm && coversPage ws (x.1 * 4096) x.2 then s.modModule (coreModule c) fun d => { d with poison := d.poison.filter (· ≠ x.1) } else s) s
/-- The core without write-outs. -/
def Core.sansWrites (k : Core) : Core := { k with writeOuts := [] }

theorem writeOuts_eq (hc : s.core? c = some k) : s.writeOuts c =
    if s.outBusy c (((s.job? k.asid).map Job.root).getD 0) k.writeOuts then s
    else ((k.writeOuts.foldl (fun u w => u.writeOut c k.asid (((s.job? k.asid).map Job.root).getD 0) w) s).unpoison c k.writeOuts).modCore c Core.sansWrites := by
  simp only [State.writeOuts, hc]
  rfl

theorem unpoison_keeps (s : State) (c : CoreId) (ws : List WriteOut) : Keeps [.modules] s (s.unpoison c ws) :=
  foldl_keeps (fun u x => by
    split_ifs
    · exact modModule_keeps u _ _
    · exact .refl _ u) _ s

/-- Between two states only write-outs of cores, and tiers, journals and the like, differ: memory and registers are the same. -/
structure TierWrites (s t : State) : Prop where
  cores : ∀ e, (t.core? e).map Core.sansWrites = (s.core? e).map Core.sansWrites
  homes : ∀ a, (t.job? a).map (fun j => (j.qsp, j.dss)) = (s.job? a).map fun j => (j.qsp, j.dss)

theorem TierWrites.refl (s : State) : TierWrites s s := ⟨fun _ => rfl, fun _ => rfl⟩
theorem TierWrites.trans (h : TierWrites s t) (g : TierWrites t u) : TierWrites s u := ⟨fun e => (g.cores e).trans (h.cores e), fun a => (g.homes a).trans (h.homes a)⟩
theorem tierWrites_of_eq (hc : t.cores = s.cores) (hj : t.jobs = s.jobs) : TierWrites s t :=
  ⟨fun e => by rw [State.core?, hc]; rfl, fun a => by rw [State.job?, hj]; rfl⟩
theorem tierWrites_of_keeps (h : Keeps l s t) (hc : Part.cores ∉ l) (hj : Part.jobs ∉ l) : TierWrites s t := tierWrites_of_eq (h.cores hc) (h.jobs hj)

theorem foldl_tierWrites {α : Type} {f : State → α → State} (hf : ∀ u a, TierWrites u (f u a)) : ∀ (as : List α) (s : State), TierWrites s (as.foldl f s)
  | [], s => .refl s
  | a :: as, s => (hf s a).trans (foldl_tierWrites hf as (f s a))

theorem modJob_tierWrites (s : State) (a : Nat) (f : Job → Job) (hf : ∀ x, ((f x).qsp, (f x).dss) = (x.qsp, x.dss)) : TierWrites s (s.modJob a f) where
  cores _ := rfl
  homes e := by
    rw [job?_modJob]
    split_ifs
    · rw [Option.map_map]
      exact congrArg (Option.map · _) (funext hf)
    · rfl

theorem TierWrites.core (h : TierWrites s t) (hc : s.core? c = some k) : ∃ ws, t.core? c = some { k with writeOuts := ws } := by
  have heq := h.cores c
  rw [hc, Option.map_some, Option.map_eq_some_iff] at heq
  obtain ⟨y, hy, hyk⟩ := heq
  exact ⟨y.writeOuts, hy.trans (congrArg some (congrArg (fun x : Core => { x with writeOuts := y.writeOuts }) hyk :))⟩

theorem TierWrites.sameRegisters (h : TierWrites s t) : SameRegisters s t :=
  sameRegisters_of_ctxs fun e => by
    have heq := congrArg (Option.map Core.ctxs) (h.cores e)
    rw [Option.map_map, Option.map_map] at heq
    exact heq

theorem TierWrites.sameMemory (h : TierWrites s t) : SameMemory s t := by
  refine sameMemory_of_homes (fun e => ?_) h.homes
  have heq := congrArg (Option.map Core.tcm) (h.cores e)
  rw [Option.map_map, Option.map_map] at heq
  exact heq

theorem writeOuts_tierWrites (s : State) (c : CoreId) : TierWrites s (s.writeOuts c) := by
  cases hc : s.core? c with
  | none =>
    have hnone : s.writeOuts c = s := by simp only [State.writeOuts, hc]
    rw [hnone]
    exact .refl s
  | some k =>
    rw [writeOuts_eq hc]
    split_ifs
    · exact .refl s
    · refine ((foldl_tierWrites (fun u w => tierWrites_of_keeps (writeOut_keeps u _ _ _ w) (by simp) (by simp)) k.writeOuts s).trans
        (tierWrites_of_keeps (unpoison_keeps _ c k.writeOuts) (by simp) (by simp))).trans ⟨fun e => ?_, fun _ => rfl⟩
      rw [core?_modCore]
      split_ifs
      · rw [Option.map_map]
        rfl
      · rfl

-- the journal (R81, R84)
theorem hostPut_keeps (s : State) (a n v : Nat) : Keeps [.host] s (s.hostPut a n v) :=
  ⟨fun _ => rfl, fun _ => rfl, fun _ => rfl, fun _ => rfl, fun _ => rfl, by simp, fun _ => ⟨rfl, rfl⟩, fun _ => rfl⟩

theorem mirrorAt_keeps (s : State) (m off : Nat) (e : Entry) : Keeps [.host] s (s.mirrorAt m off e) := by
  unfold State.mirrorAt
  split
  · split_ifs
    · exact hostPut_keeps s _ _ _
    · exact .refl _ s
  · exact .refl _ s

theorem modEntry_keeps (s : State) (m jsn : Nat) (f : Entry → Entry) : Keeps [.modules, .host] s (s.modEntry m jsn f) := by
  have mirrored (g : Module → Module) (off : Nat) (e : Entry) : Keeps [.modules, .host] s ((s.modModule m g).mirrorAt m off e) :=
    ((Keeps.refl _ s).step (modModule_keeps s m g) (by simp)).step (mirrorAt_keeps _ m off e) (by simp)
  unfold State.modEntry
  split
  · exact .refl _ s
  · split
    · split_ifs
      · exact mirrored _ _ _
      · split
        · exact mirrored _ _ _
        · exact .refl _ s
    · exact mirrored _ _ _
    · exact .refl _ s

theorem journalCommit_keeps (s : State) (asid : Nat) : Keeps [.modules, .host] s (s.journalCommit asid) := by
  unfold State.journalCommit
  split
  · exact .refl _ s
  · dsimp only
    split_ifs
    · exact modEntry_keeps s _ _ _
    · exact .refl _ s

-- the last core's commit (R101, R277, R348, R357)
theorem probationDown_keeps (s : State) (c : CoreId) : Keeps [.positions] s (s.probationDown c) := by
  unfold State.probationDown
  split_ifs
  · exact .refl _ s
  · exact modPos_keeps s c _

/-- The die whose forwarding entries of the job have aged by a commit (R101). -/
def Die.aged (d : Die) (asid : Nat) : Die :=
  { d with forwards := (d.forwards.map fun f => if f.asid = asid then { f with commits := f.commits + 1 } else f).filter fun f => f.asid ≠ asid || decide (f.commits < 2) }
/-- The state in which they all have, and the commit is counted. -/
def State.forwardsAged (s : State) (asid home : Nat) : State :=
  State.count { s with modules := dmap s.modules fun _ m => { m with dies := dmap m.dies fun _ d => d.aged asid } } home 1 1

/-- The job after a commit of superstep `ssn` that is not its last (R277, R337). -/
def Job.committed (j : Job) (ssn : Nat) : Job := { j with wdCount := 0, endCause := if ssn = lastSsn then some cWATCHDOG else j.endCause }

theorem committedJob_eq {a : Nat} (hj : s.job? a = some j) : s.committedJob a =
    if j.places.all ((s.forwardsAged a j.home).endWord a j) then
      (j.places.foldl State.probationDown (s.forwardsAged a j.home)).setJob a { j with finalCommit := true, endCause := none, stage := .retiring }
    else
      ((j.places.foldl State.writeOuts (s.forwardsAged a j.home)).modJob a fun x =>
        x.committed ((s.forwardsAged a j.home).ssnOf j)).journalCommit a := by
  simp only [State.committedJob, hj]
  rfl

theorem committedJob_tierWrites (s : State) (a : Nat) : TierWrites s (s.committedJob a) := by
  cases hj : s.job? a with
  | none =>
    have hnone : s.committedJob a = s := by simp only [State.committedJob, hj]
    rw [hnone]
    exact .refl s
  | some j =>
    have haged : TierWrites s (s.forwardsAged a j.home) := tierWrites_of_eq rfl rfl
    rw [committedJob_eq hj]
    split_ifs
    · have hdown := foldl_keeps (l := [.positions]) (fun u c => probationDown_keeps u c) j.places (s.forwardsAged a j.home)
      refine (haged.trans (tierWrites_of_keeps hdown (by simp) (by simp))).trans ⟨fun _ => rfl, fun b => ?_⟩
      by_cases hb : b = a
      · have hold : (j.places.foldl State.probationDown (s.forwardsAged a j.home)).job? a = some j := by
          rw [State.job?, hdown.jobs (by simp)]
          exact hj
        rw [hb, job?_setJob_same, hold]
        rfl
      · rw [setJob_otherJobs _ a _ b hb]
    · have hjob := modJob_tierWrites (j.places.foldl State.writeOuts (s.forwardsAged a j.home)) a (fun x => x.committed ((s.forwardsAged a j.home).ssnOf j)) fun _ => rfl
      exact ((haged.trans (foldl_tierWrites writeOuts_tierWrites j.places _)).trans hjob).trans (tierWrites_of_keeps (journalCommit_keeps _ a) (by simp) (by simp))

end Sys2Proof.Machine

/-! COMMIT_APPLY (R284, R285). -/

namespace Sys2Proof.Machine

open Sys2Proof.Laws

variable {s t u : State} {c : CoreId} {k : Core} {j : Job} {w : WriteOut} {m : Nat}

/-- It is the core's turn: every core of the job of lower index has applied (R284). -/
def State.Turn (s : State) (k : Core) (j : Job) : Prop := ∀ d ∈ j.places, ∀ x, s.core? d = some x → k.index ≤ x.index ∨ x.phase = .applied

theorem turn_iff : (j.places.all fun d => ((s.core? d).map fun x => decide (k.index ≤ x.index) || x.phase == .applied).getD true) = true ↔ s.Turn k j := by
  rw [allPlaces_iff]
  simp only [Bool.or_eq_true, beq_iff_eq, decide_eq_true_eq, State.Turn]

theorem allApplied_iff : s.allApplied j = true ↔ ∀ e ∈ j.places, ∀ x, s.core? e = some x → x.phase = .applied := by
  unfold State.allApplied
  rw [allPlaces_iff]
  simp only [beq_iff_eq]

/-- A core that has applied its deferred effects takes the entry state of the next superstep. -/
def Core.applied (k : Core) (v : Word) : Core := { k with phase := .applied, deferred := [], snapshot := k.entryState v }
/-- The state in which the deferred effects of core `c` have been performed and stand. -/
def State.deferredDone (s : State) (c : CoreId) (k : Core) : State :=
  ((k.deferred.foldl (fun u e => u.applyDeferred c k.asid e) s).pressHomes c k.asid).modCore c fun x => x.applied k.result

/-- The core has applied, every core of its running job has, and write-outs of it have waited for a bank. -/
def State.outsDue (s : State) (k : Core) (j : Job) : Bool := k.phase == .applied && !k.writeOuts.isEmpty && s.allApplied j && j.stage == .running

theorem commitApply_eq (hc : s.core? c = some k) (hj : s.job? k.asid = some j) : commitApply c s =
    if s.outsDue k j then (s.writeOuts c).journalCommit k.asid
    else if k.phase != .applying || !(j.places.all fun d => ((s.core? d).map fun x => decide (k.index ≤ x.index) || x.phase == .applied).getD true) then s
    else if (s.deferredDone c k).allApplied j then (s.deferredDone c k).committedJob k.asid else s.deferredDone c k := by
  unfold commitApply
  simp only [hc, hj]
  rfl

theorem commitApply_idle (hc : s.core? c = some k) (hj : s.job? k.asid = some j) (hout : s.outsDue k j = false) (h : k.phase ≠ .applying ∨ ¬ s.Turn k j) :
    exec (.commitApply c) s = .next s := by
  refine congrArg Host.Outcome.next ?_
  rw [commitApply_eq hc hj, if_neg (by rw [hout]; exact Bool.false_ne_true), if_pos]
  rw [← turn_iff] at h
  simpa only [Bool.or_eq_true, bne_iff_ne, Bool.not_eq_true', ← Bool.not_eq_true] using h

theorem outsDue_eq_false (h : k.writeOuts = [] ∨ k.phase ≠ .applied) : s.outsDue k j = false := by
  unfold State.outsDue
  rcases h with h | h
  · simp [h]
  · simp [h]

/-- Write-outs that meet a bank of another core wait (R125). -/
theorem commitApply_busy (hc : s.core? c = some k) (hj : s.job? k.asid = some j) (hp : k.phase = .applied)
    (hw : ∃ w ∈ k.writeOuts, tierOf w.pa = .hbm ∧ s.bankBusyOver (coreModule c) w.pa w.n (some c) = true) (hplace : c ∈ j.places) :
    exec (.commitApply c) s = .next s := by
  have hnot : k.phase ≠ .applying := by rw [hp]; exact nofun
  cases hout : s.outsDue k j with
  | false => exact commitApply_idle hc hj hout (.inl hnot)
  | true =>
    obtain ⟨w, hmem, htier, hbank⟩ := hw
    have hbusy : s.outBusy c (((s.job? k.asid).map Job.root).getD 0) k.writeOuts = true :=
      List.any_eq_true.mpr ⟨w, hmem, by rw [htier, hbank]; rfl⟩
    have hstay : s.writeOuts c = s := by rw [writeOuts_eq hc, if_pos hbusy]
    have hleft : (j.places.all fun d => ((s.core? d).map fun x => x.phase == .applied && x.writeOuts.isEmpty).getD true) = false := by
      rw [← Bool.not_eq_true, allPlaces_iff]
      intro hall
      have hempty := hall c hplace k hc
      rw [Bool.and_eq_true, List.isEmpty_iff] at hempty
      rw [hempty.2] at hmem
      exact absurd hmem (by simp)
    refine congrArg Host.Outcome.next ?_
    rw [commitApply_eq hc hj, if_pos hout, hstay]
    simp only [State.journalCommit, hj, hleft, Bool.and_false, Bool.false_and, Bool.false_eq_true, if_false]

-- the deferred effects of a core (R284)
theorem foldl_homesOnly {α : Type} {f : State → α → State} (hf : ∀ u a, HomesOnly u (f u a)) : ∀ (as : List α) (s : State), HomesOnly s (as.foldl f s)
  | [], s => .refl s
  | a :: as, s => (hf s a).trans (foldl_homesOnly hf as (f s a))

/-- The state before the core takes its entry state. -/
theorem deferred_homesOnly (s : State) (c : CoreId) (k : Core) :
    HomesOnly s ((k.deferred.foldl (fun u e => u.applyDeferred c k.asid e) s).pressHomes c k.asid) :=
  (foldl_homesOnly (fun u e => applyDeferred_homesOnly u c k.asid e) k.deferred s).trans (pressHomes_homesOnly _ c _)

theorem deferredDone_core (hc : s.core? c = some k) : ∃ m, (s.deferredDone c k).core? c = some (Core.applied { k with tcm := m } k.result) := by
  obtain ⟨m, hm⟩ := (deferred_homesOnly s c k).core hc
  refine ⟨m, ?_⟩
  rw [State.deferredDone, core?_modCore_same, hm]
  rfl

theorem applied_sameRegisters (s : State) (c : CoreId) (v : Word) : SameRegisters s (s.modCore c fun x => x.applied v) :=
  sameRegisters_of_ctxs fun e => by
    rw [core?_modCore]
    split_ifs
    · rw [Option.map_map]
      rfl
    · rfl

theorem applied_sameMemory (s : State) (c : CoreId) (v : Word) : SameMemory s (s.modCore c fun x => x.applied v) :=
  sameMemory_of_tcm rfl fun e => by
    rw [core?_modCore]
    split_ifs
    · rw [Option.map_map]
      rfl
    · rfl

theorem deferredDone_sameMemory (s : State) (c : CoreId) (k : Core) : SameMemory (k.deferred.foldl (fun u e => u.applyDeferred c k.asid e) s) (s.deferredDone c k) :=
  (pressHomes_sameMemory _ c _).trans (applied_sameMemory _ c _)

theorem entryState_pc (k : Core) (v : Word) : (k.entryState v).pc = (k.ctx 0).pc + 4 ∧ (k.entryState v).ssn = k.ssn + 1 := by
  unfold Core.entryState
  dsimp only
  split
  · exact ⟨by rw [setX_pc], rfl⟩
  · exact ⟨rfl, rfl⟩

/-- A core whose turn it is applies: COMMIT_APPLY with phase applying (R284, R285). -/
theorem commitApply_applies (hc : s.core? c = some k) (hj : s.job? k.asid = some j) (hp : k.phase = .applying) (hturn : s.Turn k j) :
    Does (.commitApply c) s fun t => (∃ y, t.core? c = some y ∧ y.phase = .applied ∧ y.deferred = [] ∧ y.snapshot = k.entryState k.result ∧
        y.snapshot.pc = (k.ctx 0).pc + 4 ∧ y.snapshot.ssn = k.ssn + 1) ∧ SameRegisters s t ∧
      (k.deferred = [] → SameMemory s t) ∧
      ∀ e e', k.deferred = [e] → s.forwarded k.asid e.dest.core = e.dest.core → s.core? e.dest.core = some e' → e'.asid = k.asid →
        (∀ n v, e.op = .write n v → StoresBytes s t k.asid e.dest n v) ∧
        (∀ o v, e.op = .delta o v → s.spillPoison k.asid e.dest o.width = none → StoresBytes s t k.asid e.dest o.width (o.apply (s.bytesAt k.asid e.dest o.width) v)) := by
  have hout : ¬ s.outsDue k j = true := by rw [outsDue_eq_false (.inr (by rw [hp]; exact nofun))]; exact Bool.false_ne_true
  have heq := commitApply_eq hc hj
  rw [if_neg hout, if_neg (by rw [turn_iff.mpr hturn, hp]; simp)] at heq
  have hafter : TierWrites (s.deferredDone c k) (commitApply c s) := by
    rw [heq]
    split_ifs
    · exact committedJob_tierWrites _ _
    · exact .refl _
  obtain ⟨m, hm⟩ := deferredDone_core hc
  obtain ⟨ws, hws⟩ := hafter.core hm
  have hregs : SameRegisters s (s.deferredDone c k) := (deferred_homesOnly s c k).sameRegisters.trans (applied_sameRegisters _ c _)
  have hmem := (deferredDone_sameMemory s c k).trans hafter.sameMemory
  obtain ⟨hpc, hssn⟩ := entryState_pc k k.result
  refine ⟨_, rfl, ⟨_, hws, rfl, rfl, rfl, hpc, hssn⟩, hregs.trans hafter.sameRegisters, fun hnone => ?_, fun e e' hone hf he ha => ?_⟩
  · rw [hnone] at hmem
    exact hmem
  · rw [hone] at hmem
    obtain ⟨hwrite, hdelta⟩ := applyDeferred_stores (c := c) hf he ha hj
    exact ⟨fun n v hop => (hwrite n v hop).then hmem, fun o v hop hclean => (hdelta o v hop hclean).then hmem⟩

-- one write-out into tier 0 (R285)
theorem wrPa_hbm {pa n v : Nat} (h : tierOf pa = .hbm) : s.wrPa m pa n v = s.modModule m fun d => { d with hbm := writeMem d.hbm pa n v } := by
  simp only [State.wrPa, h]

/-- A step that leaves each module's tier 0, and whether it is there. -/
def KeepsHbm (m : Nat) (s t : State) : Prop := (t.module? m).map Module.hbm = (s.module? m).map Module.hbm

theorem unpoison_keepsHbm (m : Nat) (c : CoreId) (ws : List WriteOut) (s : State) : KeepsHbm m s (s.unpoison c ws) := by
  unfold State.unpoison
  generalize (ws.filterMap fun w => w.fill.map fun u => (w.pa / 4096, u)).dedup = l
  induction l generalizing s with
  | nil => rfl
  | cons x l ih =>
    refine (ih _).trans ?_
    dsimp only
    split_ifs
    · exact module?_modModule_of Module.hbm s _ m fun _ => rfl
    · rfl

/-- A change of an entry changes a slot or a place of the held table of its module, and the mirror. -/
theorem modEntry_forms (s : State) (m jsn : Nat) (f : Entry → Entry) : s.modEntry m jsn f = s ∨
    ∃ g off e, s.modEntry m jsn f = (s.modModule m g).mirrorAt m off e ∧ ∀ d, ∃ sl held, g d = { d with slots := sl, heldTab := held } := by
  unfold State.modEntry
  split
  · exact .inl rfl
  · split
    · split_ifs
      · exact .inr ⟨_, _, _, rfl, fun d => ⟨_, d.heldTab, rfl⟩⟩
      · split
        · exact .inr ⟨_, _, _, rfl, fun d => ⟨d.slots, _, rfl⟩⟩
        · exact .inl rfl
    · exact .inr ⟨_, _, _, rfl, fun d => ⟨d.slots, _, rfl⟩⟩
    · exact .inl rfl

/-- What reads neither slots nor the held table is the same after a change of an entry. -/
theorem module?_modEntry_of {α : Type} (p : Module → α) (hp : ∀ d sl held, p { d with slots := sl, heldTab := held } = p d) (s : State) (m e jsn : Nat) (f : Entry → Entry) :
    ((s.modEntry e jsn f).module? m).map p = (s.module? m).map p := by
  rcases modEntry_forms s e jsn f with h | ⟨g, off, y, h, hg⟩
  · rw [h]
  · rw [h, State.module?, (mirrorAt_keeps _ e off y).modules (by simp)]
    refine module?_modModule_of p s e m fun d => ?_
    obtain ⟨sl, held, heq⟩ := hg d
    rw [heq, hp]

theorem modEntry_keepsHbm (s : State) (m e jsn : Nat) (f : Entry → Entry) : KeepsHbm m s (s.modEntry e jsn f) :=
  module?_modEntry_of Module.hbm (fun _ _ _ => rfl) s m e jsn f

theorem journalCommit_keepsHbm (s : State) (m a : Nat) : KeepsHbm m s (s.journalCommit a) := by
  unfold State.journalCommit
  split
  · rfl
  · dsimp only
    split_ifs
    · exact modEntry_keepsHbm s m _ _ _
    · rfl

theorem modModule_isSome (s : State) (m e : Nat) (f : Module → Module) : ((s.modModule e f).module? m).isSome = (s.module? m).isSome := by
  rw [module?_modModule]
  split_ifs
  · exact Option.isSome_map
  · rfl

theorem wrPa_isSome (s : State) (m e pa n v : Nat) : ((s.wrPa e pa n v).module? m).isSome = (s.module? m).isSome := by
  unfold State.wrPa
  split
  · exact modModule_isSome s m e _
  · exact modModule_isSome s m e _
  · split
    · exact modModule_isSome s m _ _
    · rfl
  · rfl
  · rfl
  · rfl

theorem foldl_isSome {α : Type} {f : State → α → State} {m : Nat} (hf : ∀ u a, ((f u a).module? m).isSome = (u.module? m).isSome) :
    ∀ (as : List α) (s : State), ((as.foldl f s).module? m).isSome = (s.module? m).isSome
  | [], _ => rfl
  | a :: as, s => (foldl_isSome hf as (f s a)).trans (hf s a)

theorem setDirty_isSome (s : State) (m e asid root va : Nat) : ((s.setDirty e asid root va).module? m).isSome = (s.module? m).isSome := by
  unfold State.setDirty State.modLeaf
  split
  · split_ifs
    · exact foldl_isSome (fun u _ => wrPa_isSome u m _ _ _ _) _ s
    · exact wrPa_isSome s m _ _ _ _
  · rfl

/-- A write-out to tier 0 stands there (R285). -/
theorem writeOut_hbm {asid root : Nat} (h : tierOf w.pa = .hbm) (hm : (s.module? (coreModule c)).isSome = true) :
    ∃ d, (s.writeOut c asid root w).module? (coreModule c) = some d ∧ readMem d.hbm w.pa w.n = w.val % 2 ^ (8 * w.n) := by
  have hcount : (s.setDirty (coreModule c) asid root w.va).countAtoms (coreModule c) w.pa w.n true =
      (s.setDirty (coreModule c) asid root w.va).count (coreModule c) 7 ((w.n + 31) / 32) := by
    simp only [State.countAtoms, h, if_true]
  have hout : s.writeOut c asid root w = ((s.setDirty (coreModule c) asid root w.va).count (coreModule c) 7 ((w.n + 31) / 32)).wrPa (coreModule c) w.pa w.n w.val := by
    simp only [State.writeOut, hcount, h]
    rfl
  have hsome : (((s.setDirty (coreModule c) asid root w.va).count (coreModule c) 7 ((w.n + 31) / 32)).module? (coreModule c)).isSome = true :=
    (modModule_isSome _ _ _ _).trans ((setDirty_isSome s _ _ _ _ _).trans hm)
  obtain ⟨d, hd⟩ := Option.isSome_iff_exists.mp hsome
  refine ⟨{ d with hbm := writeMem d.hbm w.pa w.n w.val }, ?_, readMem_writeMem_same _ _ _ _⟩
  rw [hout, wrPa_hbm h, module?_modModule_same, hd]
  rfl

/-- The write-out of a core goes to its tier once no bank holds it up (R109, R125, R285). -/
theorem commitApply_writes {d : Module} (hc : s.core? c = some k) (hj : s.job? k.asid = some j) (hp : k.phase = .applied) (hw : k.writeOuts = [w])
    (htier : tierOf w.pa = .hbm) (hbank : s.bankBusyOver (coreModule c) w.pa w.n (some c) = false) (htable : s.tablesBusy (coreModule c) j.root w.va (some c) = false)
    (hm : s.module? (coreModule c) = some d) (hall : ∀ e ∈ j.places, ∀ x, s.core? e = some x → x.phase = .applied) (hstage : j.stage = .running) :
    Does (.commitApply c) s fun t => t.core? c = some { k with writeOuts := [] } ∧
      OtherCores c s t ∧ ∃ d', t.module? (coreModule c) = some d' ∧ readMem d'.hbm w.pa w.n = w.val % 2 ^ (8 * w.n) := by
  have hroot : ((s.job? k.asid).map Job.root).getD 0 = j.root := by rw [hj]; rfl
  have hout : s.outsDue k j = true := by
    rw [State.outsDue, hp, hw, allApplied_iff.mpr hall, hstage]
    rfl
  have hfree : ¬ s.outBusy c j.root [w] = true := by
    simp [State.outBusy, hbank, htable]
  have heq : s.writeOuts c = ((s.writeOut c k.asid j.root w).unpoison c [w]).modCore c Core.sansWrites := by
    rw [writeOuts_eq hc, hroot, hw, if_neg hfree]
    rfl
  have hkeeps : Keeps [.modules, .cxl, .host, .net] s ((s.writeOut c k.asid j.root w).unpoison c [w]) :=
    (writeOut_keeps s c k.asid j.root w).step (unpoison_keeps _ c [w]) (by simp)
  have hjournal := journalCommit_keeps (s.writeOuts c) k.asid
  have hcore : (s.writeOuts c).core? c = some { k with writeOuts := [] } := by
    rw [heq, core?_modCore_same, State.core?, hkeeps.cores (by simp), ← State.core?, hc]
    rfl
  have hothers : OtherCores c s (s.writeOuts c) := by
    rw [heq]
    exact (otherCores_of_cores c (hkeeps.cores (by simp))).trans (modCore_otherCores _ c _)
  obtain ⟨d', hd', hread⟩ := writeOut_hbm (asid := k.asid) (root := j.root) htier (by rw [hm]; rfl)
  have hkept : KeepsHbm (coreModule c) (s.writeOut c k.asid j.root w) ((s.writeOuts c).journalCommit k.asid) := by
    refine (journalCommit_keepsHbm (s.writeOuts c) (coreModule c) k.asid).trans ?_
    rw [heq]
    exact unpoison_keepsHbm _ c [w] _
  unfold KeepsHbm at hkept
  rw [hd', Option.map_some, Option.map_eq_some_iff] at hkept
  obtain ⟨e, he, hbm⟩ := hkept
  refine ⟨(s.writeOuts c).journalCommit k.asid, ?_, ?_, hothers.trans (otherCores_of_cores c (hjournal.cores (by simp))), e, he, by rw [hbm]; exact hread⟩
  · refine congrArg Host.Outcome.next ?_
    rw [commitApply_eq hc hj, if_pos hout]
  · rw [State.core?, hjournal.cores (by simp)]
    exact hcore

end Sys2Proof.Machine

/-! The end of a job (R82, R85, R116, R358): what it gives up, and its LAUNCH entry. -/

namespace Sys2Proof.Machine

open Sys2Proof.Laws

variable {s t u : State} {c : CoreId} {k : Core} {j : Job} {m a jsn : Nat} {e : Entry} {d : Module}

-- slots, held table and queues of a module
/-- The journal and the queues of a module. -/
def Module.books (d : Module) : Dict Entry × Dict Entry × Dict Queue := (d.slots, d.heldTab, d.queues)
/-- Module `m` has the same journal and queues. -/
def SameBooks (m : Nat) (s t : State) : Prop := (t.module? m).map Module.books = (s.module? m).map Module.books

theorem SameBooks.refl (m : Nat) (s : State) : SameBooks m s s := rfl
theorem SameBooks.trans (h : SameBooks m s t) (g : SameBooks m t u) : SameBooks m s u := Eq.trans g h
theorem sameBooks_of_modules (m : Nat) (h : t.modules = s.modules) : SameBooks m s t := by rw [SameBooks, State.module?, h]; rfl
theorem modModule_sameBooks (s : State) (m e : Nat) (f : Module → Module) (hf : ∀ x, (f x).books = x.books) : SameBooks m s (s.modModule e f) :=
  module?_modModule_of Module.books s e m hf
theorem modDie_sameBooks (s : State) (m : Nat) (e : DieId) (f : Die → Die) : SameBooks m s (s.modDie e f) := modModule_sameBooks s m _ _ fun _ => rfl
theorem modQuad_sameBooks (s : State) (m : Nat) (q : QuadId) (f : Quad → Quad) : SameBooks m s (s.modQuad q f) := modModule_sameBooks s m _ _ fun _ => rfl
theorem count_sameBooks (s : State) (m e i n : Nat) : SameBooks m s (s.count e i n) := module?_count_of Module.books (fun _ _ => rfl) s e i n m
theorem dmap_sameBooks (s : State) (m : Nat) (f : Nat → Module → Module) (hf : ∀ n x, (f n x).books = x.books) : SameBooks m s { s with modules := dmap s.modules f } := by
  rw [SameBooks, State.module?, dget?_dmap, Option.map_map]
  exact congrArg (Option.map · _) (funext (hf m))

theorem foldl_sameBooks {α : Type} {f : State → α → State} (hf : ∀ v x, SameBooks m v (f v x)) : ∀ (xs : List α) (s : State), SameBooks m s (xs.foldl f s)
  | [], s => .refl m s
  | x :: xs, s => (hf s x).trans (foldl_sameBooks hf xs (f s x))

theorem wrPa_sameBooks (s : State) (m e pa n v : Nat) : SameBooks m s (s.wrPa e pa n v) := by
  unfold State.wrPa
  split
  · exact modModule_sameBooks s m e _ fun _ => rfl
  · exact modModule_sameBooks s m e _ fun _ => rfl
  · split
    · exact modModule_sameBooks s m _ _ fun _ => rfl
    · exact .refl m s
  · exact .refl m s
  · exact .refl m s
  · exact .refl m s

theorem countLink_sameBooks (s : State) (m a b n : Nat) : SameBooks m s (s.countLink a b n) := by
  unfold State.countLink
  split_ifs
  · exact .refl m s
  · exact (count_sameBooks s m _ _ _).trans (count_sameBooks _ m _ _ _)

theorem countAtoms_sameBooks (s : State) (m e pa n : Nat) (write : Bool) : SameBooks m s (s.countAtoms e pa n write) := by
  unfold State.countAtoms
  dsimp only
  generalize (if write then 7 else 6) = i
  split
  · exact count_sameBooks s m _ _ _
  · split
    · split_ifs
      · exact (countLink_sameBooks s m _ _ _).trans (count_sameBooks _ m _ _ _)
      · exact (countLink_sameBooks s m _ _ _).trans (count_sameBooks _ m _ _ _)
    · exact .refl m s
  · exact count_sameBooks s m _ _ _
  · exact .refl m s

-- the pager writes the frames back (R116, R358)
theorem copyPa_frame (m e src dst : Nat) : ∀ (n : Nat) (s : State), SameBooks m s (s.copyPa e src dst n) ∧ Keeps [.modules, .cxl, .host] s (s.copyPa e src dst n)
  | 0, s => ⟨.refl m s, .refl _ s⟩
  | n + 1, s =>
    have ih := copyPa_frame m e src dst n s
    ⟨ih.1.trans (wrPa_sameBooks _ m e _ _ _), ih.2.trans (wrPa_keeps _ e _ _ _)⟩

theorem movePage_frame (s : State) (m e src dst n : Nat) : SameBooks m s (s.movePage e src dst n) ∧ Keeps [.modules, .cxl, .host] s (s.movePage e src dst n) := by
  obtain ⟨hbooks, hkeeps⟩ := copyPa_frame m e src dst n s
  exact ⟨(hbooks.trans (countAtoms_sameBooks _ m e _ _ _)).trans (countAtoms_sameBooks _ m e _ _ _),
    (hkeeps.step (countAtoms_keeps _ e _ _ _) (by simp)).step (countAtoms_keeps _ e _ _ _) (by simp)⟩

/-- Module `m'` without the translations of a page of module `m`. -/
def Module.pageDropped (d : Module) (m' m asid pa n : Nat) : Module :=
  { d with dies := dmap d.dies fun _ x => { x with tlb := x.tlb.filter fun e => !e.ofFrame m' m asid pa n } }
/-- The translations of a page are dropped, and the eviction is counted. -/
def State.pageDropped (s : State) (m asid pa n : Nat) : State :=
  State.count { s with
    positions := dmap s.positions fun c q => { q with tlb := q.tlb.filter fun e => !e.ofFrame (coreModule c) m asid pa n }
    modules := dmap s.modules fun m' d => d.pageDropped m' m asid pa n } m 12 1

theorem pageDropped_frame (s : State) (m e asid pa n : Nat) : SameBooks m s (s.pageDropped e asid pa n) ∧ Keeps [.modules, .positions] s (s.pageDropped e asid pa n) := by
  refine ⟨?_, ⟨fun _ => rfl, fun _ => rfl, by simp, by simp, fun _ => rfl, fun _ => ⟨rfl, rfl⟩, fun _ => ⟨rfl, rfl⟩, fun _ => rfl⟩⟩
  have hdrop := dmap_sameBooks s m (fun m' d => d.pageDropped m' e asid pa n) fun _ _ => rfl
  exact hdrop.trans ((sameBooks_of_modules m rfl).trans (count_sameBooks _ m e 12 1))

/-- Every part but the cores, jobs and messages may change, and no journal or queue does. -/
structure BackWrites (m : Nat) (s t : State) : Prop where
  books : SameBooks m s t
  keeps : Keeps [.modules, .positions, .cxl, .host] s t

theorem BackWrites.refl (m : Nat) (s : State) : BackWrites m s s := ⟨.refl m s, .refl _ s⟩
theorem BackWrites.trans (h : BackWrites m s t) (g : BackWrites m t u) : BackWrites m s u := ⟨h.books.trans g.books, h.keeps.trans g.keeps⟩
theorem foldl_backWrites {α : Type} {f : State → α → State} (hf : ∀ v x, BackWrites m v (f v x)) : ∀ (xs : List α) (s : State), BackWrites m s (xs.foldl f s)
  | [], s => .refl m s
  | x :: xs, s => (hf s x).trans (foldl_backWrites hf xs (f s x))
theorem wrPa_backWrites (s : State) (m e pa n v : Nat) : BackWrites m s (s.wrPa e pa n v) := ⟨wrPa_sameBooks s m e pa n v, (wrPa_keeps s e pa n v).mono (by simp)⟩

theorem evict_backWrites (s : State) (m e asid : Nat) (p : Pool) (f : Nat) : BackWrites m s (s.evict e asid p f) := by
  unfold State.evict
  dsimp only
  split_ifs
  · exact .refl m s
  · refine BackWrites.trans ?_ ⟨(pageDropped_frame _ m e asid _ _).1, (pageDropped_frame _ m e asid _ _).2.mono (by simp)⟩
    refine BackWrites.trans ⟨(movePage_frame s m e _ _ _).1, (movePage_frame s m e _ _ _).2.mono (by simp)⟩ (foldl_backWrites (fun v i => ?_) _ _)
    exact (wrPa_backWrites v m e _ _ _).trans ((wrPa_backWrites _ m e _ _ _).trans (wrPa_backWrites _ m e _ _ _))
  · refine BackWrites.trans ?_ ⟨(pageDropped_frame _ m e asid _ _).1, (pageDropped_frame _ m e asid _ _).2.mono (by simp)⟩
    refine foldl_backWrites (fun v i => ?_) _ _
    exact (wrPa_backWrites v m e _ _ _).trans ((wrPa_backWrites _ m e _ _ _).trans (wrPa_backWrites _ m e _ _ _))

theorem evictPool_backWrites (s : State) (m e asid root : Nat) : BackWrites m s (s.evictPool e asid root) := by
  unfold State.evictPool
  split
  · exact .refl m s
  · exact foldl_backWrites (fun v f => by
      split_ifs
      · exact .refl m v
      · exact evict_backWrites v m e asid _ f) _ s

end Sys2Proof.Machine

/-! The end of a job (R82, R85, R358), continued: its LAUNCH entry, and its pending requests. -/

namespace Sys2Proof.Machine

open Sys2Proof.Laws

variable {s t u : State} {c : CoreId} {k : Core} {j : Job} {m a jsn : Nat} {e : Entry} {d : Module}

-- what the job holds is given up (R341, R358)
/-- Module `d` with bank `b` free of its holder. -/
def Module.bankFreed (d : Module) (b : Nat) : Module := { d with banks := dmod d.banks b fun x => { x with holder := none } }
/-- Module `d` without the translations of address space `asid`. -/
def Module.asidDropped (d : Module) (asid : Nat) : Module := { d with dies := dmap d.dies fun _ x => { x with tlb := x.tlb.filter fun e => e.asid != asid } }
/-- Module `d` without the forwardings and the staged page of address space `asid`. -/
def Module.asidLeft (d : Module) (asid : Nat) : Module :=
  { d with dies := dmap d.dies fun _ x => { x with forwards := x.forwards.filter fun f => f.asid != asid }, hand := derase d.hand asid }

theorem releaseBank_frame (s : State) (m : Nat) (c : CoreId) : SameBooks m s (s.releaseBank c) ∧ Keeps [.cores, .modules] s (s.releaseBank c) := by
  unfold State.releaseBank
  split
  · exact ⟨.refl m s, .refl _ s⟩
  · next b _ =>
    have hbank : SameBooks m s (s.modModule (coreModule c) fun d => d.bankFreed b) := modModule_sameBooks s m _ _ fun _ => rfl
    have hkeeps : Keeps [.modules] s (s.modModule (coreModule c) fun d => d.bankFreed b) := modModule_keeps s _ _
    exact ⟨hbank.trans (sameBooks_of_modules m rfl), (hkeeps.mono (by simp)).step (modCore_keeps _ c _) (by simp)⟩

theorem dropTlbAsid_frame (s : State) (m asid : Nat) : SameBooks m s (s.dropTlbAsid asid) ∧ Keeps [.modules, .positions] s (s.dropTlbAsid asid) := by
  have hdrop := dmap_sameBooks s m (fun _ d => d.asidDropped asid) fun _ _ => rfl
  exact ⟨hdrop.trans (sameBooks_of_modules m rfl), ⟨fun _ => rfl, fun _ => rfl, by simp, by simp, fun _ => rfl, fun _ => ⟨rfl, rfl⟩, fun _ => ⟨rfl, rfl⟩, fun _ => rfl⟩⟩

/-- Nothing is left of the job but the job itself: no core, no message; no journal has changed. -/
structure Vacated (m a : Nat) (s t : State) : Prop where
  books : SameBooks m s t
  jobs : t.jobs = s.jobs
  cores : ∀ x ∈ t.cores, x.2.asid ≠ a
  net : ∀ x ∈ t.net, x.asid ≠ a

theorem vacate_vacated (s : State) (m a : Nat) (j : Job) : Vacated m a s (s.vacate a j) := by
  have hpool := foldl_backWrites (m := m) (fun v e => evictPool_backWrites v m e a j.root) j.modules s
  generalize hv : j.modules.foldl (fun s m => s.evictPool m a j.root) s = v at hpool
  have hbanks : SameBooks m v (j.places.foldl (fun s c => (s.releaseBank c).dropClaims c) v) ∧
      Keeps [.cores, .modules] v (j.places.foldl (fun s c => (s.releaseBank c).dropClaims c) v) :=
    ⟨foldl_sameBooks (fun w c => (releaseBank_frame w m c).1.trans (modQuad_sameBooks _ m _ _)) j.places v,
      foldl_keeps (fun w c => (releaseBank_frame w m c).2.step (dropClaims_keeps _ c) (by simp)) j.places v⟩
  generalize hw : j.places.foldl (fun s c => (s.releaseBank c).dropClaims c) v = w at hbanks
  obtain ⟨htlb, htkeeps⟩ := dropTlbAsid_frame w m a
  unfold State.vacate
  simp only [hv, hw]
  have hleft := dmap_sameBooks (w.dropTlbAsid a) m (fun _ d => d.asidLeft a) fun _ _ => rfl
  refine ⟨(hpool.books.trans (hbanks.1.trans htlb)).trans (hleft.trans (sameBooks_of_modules m rfl)), ?_, fun x hx => ?_, fun x hx => ?_⟩
  · exact (htkeeps.jobs (by simp)).trans ((hbanks.2.jobs (by simp)).trans (hpool.keeps.jobs (by simp)))
  · simpa using (List.mem_filter.mp hx).2
  · simpa using (List.mem_filter.mp hx).2

theorem releaseJob_spec (hj : s.job? a = some j) (m : Nat) : (s.releaseJob a).job? a = none ∧ OtherJobs a s (s.releaseJob a) ∧ SameBooks m s (s.releaseJob a) ∧
    (∀ x ∈ (s.releaseJob a).cores, x.2.asid ≠ a) ∧ ∀ x ∈ (s.releaseJob a).net, x.asid ≠ a := by
  obtain ⟨hbooks, hjobs, hcores, hnet⟩ := vacate_vacated s m a j
  simp only [State.releaseJob, hj]
  refine ⟨dget?_derase_same _ a, fun b hb => ?_, hbooks.trans (sameBooks_of_modules m rfl), hcores, hnet⟩
  exact (dget?_derase_ne _ hb).trans (by rw [hjobs]; rfl)

-- an entry in its slot (R81, R83)
/-- The entry of a JSN stands in its slot of module `m`. -/
def InSlot (s : State) (m jsn : Nat) (e : Entry) : Prop := ∃ d, s.module? m = some d ∧ dget? d.slots (jsn % 65536) = some e ∧ e.jsn = jsn

theorem InSlot.of_books (h : InSlot s m jsn e) (hb : SameBooks m s t) : InSlot t m jsn e := by
  obtain ⟨d, hd, hslot, hjsn⟩ := h
  rw [SameBooks, hd, Option.map_some, Option.map_eq_some_iff] at hb
  obtain ⟨d', hd', hbooks⟩ := hb
  exact ⟨d', hd', (congrArg (fun b => dget? b (jsn % 65536)) (congrArg Prod.fst hbooks)).trans hslot, hjsn⟩

theorem InSlot.entry (h : InSlot s m jsn e) : s.entry? m jsn = some e := by
  obtain ⟨d, hd, hslot, hjsn⟩ := h
  simp only [State.entry?, hd, Option.bind_some, Module.entry?, hslot, if_pos hjsn]

theorem mirrorAt_module (s : State) (m e off : Nat) (x : Entry) : (s.mirrorAt e off x).module? m = s.module? m := by
  rw [State.module?, (mirrorAt_keeps s e off x).modules (by simp)]
  rfl

/-- An entry changed in its slot. -/
theorem InSlot.modEntry (h : InSlot s m jsn e) (f : Entry → Entry) : ∃ d, s.module? m = some d ∧
    (s.modEntry m jsn f).module? m = some { d with slots := dset d.slots (jsn % 65536) (f e) } := by
  obtain ⟨d, hd, hslot, hjsn⟩ := h
  refine ⟨d, hd, ?_⟩
  simp only [State.modEntry, hd, hslot, if_pos hjsn, mirrorAt_module, module?_modModule_same, Option.map_some]

theorem InSlot.modEntry_same (h : InSlot s m jsn e) {f : Entry → Entry} (hf : (f e).jsn = e.jsn) : InSlot (s.modEntry m jsn f) m jsn (f e) := by
  obtain ⟨d, -, hd⟩ := h.modEntry f
  obtain ⟨_, _, _, hjsn⟩ := h
  exact ⟨_, hd, dget?_dset_same _ _ _, hf.trans hjsn⟩

/-- The change of another entry leaves it: that one stands in another slot, or in the held table. -/
theorem InSlot.modEntry_ne {r : Nat} (h : InSlot s m jsn e) (hr : r ≠ jsn) (f : Entry → Entry) : InSlot (s.modEntry m r f) m jsn e := by
  obtain ⟨d, hd, hslot, hjsn⟩ := h
  have held (g : Module → Module) (hg : ∀ x, (g x).slots = x.slots) (off : Nat) (y : Entry) : InSlot ((s.modModule m g).mirrorAt m off y) m jsn e :=
    ⟨g d, by rw [mirrorAt_module, module?_modModule_same, hd]; rfl, by rw [hg]; exact hslot, hjsn⟩
  unfold State.modEntry
  simp only [hd]
  split
  · next x _ hx =>
    split_ifs with hxr
    · refine ⟨_, by rw [mirrorAt_module, module?_modModule_same, hd]; rfl, ?_, hjsn⟩
      have hne : jsn % 65536 ≠ r % 65536 := fun heq => hr (by rw [← hxr, ← hjsn, Option.some.inj (hslot.symm.trans (heq ▸ hx))])
      exact (dget?_dset_ne _ _ hne).trans hslot
    · split
      · exact held _ (by intro _; rfl) _ _
      · exact ⟨d, hd, hslot, hjsn⟩
  · exact held _ (by intro _; rfl) _ _
  · exact ⟨d, hd, hslot, hjsn⟩

-- a command's end (R78, R82)
theorem finishCmd_keeps (s : State) (m jsn state cause : Nat) : Keeps [.modules, .host] s (s.finishCmd m jsn state cause) := by
  unfold State.finishCmd
  split
  · exact .refl _ s
  · next e _ =>
    by_cases hf : e.final = true
    · rw [if_pos hf]
      exact .refl _ s
    · rw [if_neg hf]
      exact (modEntry_keeps s m jsn _).step (modModule_keeps _ m _) (by simp)

/-- The entry of a command that ends takes the state, and its second completion is due. -/
theorem InSlot.finishCmd (h : InSlot s m jsn e) (hf : e.final = false) (state cause : Nat) :
    InSlot (s.finishCmd m jsn state cause) m jsn { e with state := state, cause := cause } ∧
    ∃ d, (s.finishCmd m jsn state cause).module? m = some d ∧
      ({ status := state + 12, cause := if state = jFAULTED then cause else 0, jsn := jsn, qseq := e.qseq } : Completion) ∈ (d.queue e.queue).pending := by
  obtain ⟨d, -, hd⟩ := h.modEntry fun e => { e with state := state, cause := cause }
  have hjsn : e.jsn = jsn := by
    obtain ⟨_, _, _, hjsn⟩ := h
    exact hjsn
  have heq : s.finishCmd m jsn state cause = (s.modEntry m jsn fun e => { e with state := state, cause := cause }).complete m e.queue
      { status := state + 12, cause := if state = jFAULTED then cause else 0, jsn := jsn, qseq := e.qseq } := by
    simp only [State.finishCmd, h.entry, hf, Bool.false_eq_true, if_false]
  have hmod : (s.finishCmd m jsn state cause).module? m = some (({ d with slots := dset d.slots (jsn % 65536) { e with state := state, cause := cause } } : Module).modQueue e.queue fun x =>
      { x with pending := x.pending ++ [{ status := state + 12, cause := if state = jFAULTED then cause else 0, jsn := jsn, qseq := e.qseq }] }) := by
    rw [heq]
    exact (module?_modModule_same _ m _).trans (by rw [hd]; rfl)
  refine ⟨⟨_, hmod, dget?_dset_same _ _ _, hjsn⟩, _, hmod, ?_⟩
  have hqueue (y : Module) (q : Nat) (g : Queue → Queue) : (y.modQueue q g).queue q = g (y.queue q) := dgetD_dset_same _ _ _ _
  rw [hqueue]
  exact List.mem_append_right _ (List.mem_singleton_self _)

theorem InSlot.finishCmd_ne {r : Nat} (h : InSlot s m jsn e) (hr : r ≠ jsn) (state cause : Nat) : InSlot (s.finishCmd m r state cause) m jsn e := by
  unfold State.finishCmd
  split
  · exact h
  · next x _ =>
    by_cases hf : x.final = true
    · rw [if_pos hf]
      exact h
    · rw [if_neg hf]
      obtain ⟨d, hd, hslot, hjsn⟩ := h.modEntry_ne hr fun e => { e with state := state, cause := cause }
      exact ⟨_, (module?_modModule_same _ m _).trans (congrArg _ hd), hslot, hjsn⟩

-- the end (R82, R85)
/-- The pending requests of a job that ends are carried out, or find no live job. -/
def State.answerPending (s : State) (j : Job) (by_ : Option Nat) : State :=
  j.pending.foldl (fun s r => if some r.jsn = by_ then s.finishCmd j.home r.jsn jCOMPLETED 0 else s.finishCmd j.home r.jsn jFAULTED cNOTLIVE) s

theorem endJob_eq (hj : s.job? a = some j) (state cause : Nat) (by_ : Option Nat) :
    s.endJob a state cause by_ = ((s.releaseJob a).finishCmd j.home j.jsn state cause).answerPending j by_ := by
  simp only [State.endJob, hj]
  rfl

theorem answerPending_keeps (s : State) (j : Job) (by_ : Option Nat) : Keeps [.modules, .host] s (s.answerPending j by_) :=
  foldl_keeps (fun v r => by
    split_ifs
    · exact finishCmd_keeps v _ _ _ _
    · exact finishCmd_keeps v _ _ _ _) j.pending s

theorem answerPending_inSlot {by_ : Option Nat} (hp : ∀ r ∈ j.pending, r.jsn ≠ jsn) (h : InSlot s j.home jsn e) : InSlot (s.answerPending j by_) j.home jsn e := by
  unfold State.answerPending
  revert hp
  generalize j.pending = l
  induction l generalizing s with
  | nil => exact fun _ => h
  | cons r l ih =>
    intro hp
    refine ih ?_ fun x hx => hp x (List.mem_cons_of_mem _ hx)
    dsimp only
    split_ifs
    · exact h.finishCmd_ne (hp r List.mem_cons_self) _ _
    · exact h.finishCmd_ne (hp r List.mem_cons_self) _ _

/-- A job that ends is gone, whatever its entry is. -/
theorem endJob_gone (hj : s.job? a = some j) (state cause : Nat) (by_ : Option Nat) : (s.endJob a state cause by_).job? a = none := by
  obtain ⟨hgone, -⟩ := releaseJob_spec hj 0
  rw [endJob_eq hj, State.job?, (answerPending_keeps _ j by_).jobs (by simp), (finishCmd_keeps _ _ _ _ _).jobs (by simp)]
  exact hgone

/-- The end of a job: it is gone with its cores and messages, and its LAUNCH entry takes the state. -/
theorem endJob_ends (hj : s.job? a = some j) (hin : InSlot s j.home j.jsn e) (hf : e.final = false) (hp : ∀ r ∈ j.pending, r.jsn ≠ j.jsn) (state cause : Nat)
    (by_ : Option Nat) : (s.endJob a state cause by_).job? a = none ∧ OtherJobs a s (s.endJob a state cause by_) ∧
      (∀ x ∈ (s.endJob a state cause by_).cores, x.2.asid ≠ a) ∧ (∀ x ∈ (s.endJob a state cause by_).net, x.asid ≠ a) ∧
      InSlot (s.endJob a state cause by_) j.home j.jsn { e with state := state, cause := cause } := by
  obtain ⟨-, hothers, hbooks, hcores, hnet⟩ := releaseJob_spec hj j.home
  obtain ⟨hslot, -⟩ := (hin.of_books hbooks).finishCmd hf state cause
  have hfinish := finishCmd_keeps (s.releaseJob a) j.home j.jsn state cause
  have hanswer := answerPending_keeps ((s.releaseJob a).finishCmd j.home j.jsn state cause) j by_
  refine ⟨endJob_gone hj state cause by_, ?_, ?_, ?_, ?_⟩
  · rw [endJob_eq hj]
    exact hothers.trans ((otherJobs_of_jobs a (hfinish.jobs (by simp))).trans (otherJobs_of_jobs a (hanswer.jobs (by simp))))
  · rw [endJob_eq hj, hanswer.cores (by simp), hfinish.cores (by simp)]
    exact hcores
  · rw [endJob_eq hj, hanswer.net (by simp), hfinish.net (by simp)]
    exact hnet
  · rw [endJob_eq hj]
    exact answerPending_inSlot hp hslot

/-- Without pending requests its completion is due. -/
theorem endJob_completes (hj : s.job? a = some j) (hin : InSlot s j.home j.jsn e) (hf : e.final = false) (hp : j.pending = []) (state cause : Nat) (by_ : Option Nat) :
    ∃ d, (s.endJob a state cause by_).module? j.home = some d ∧
      ({ status := state + 12, cause := if state = jFAULTED then cause else 0, jsn := j.jsn, qseq := e.qseq } : Completion) ∈ (d.queue e.queue).pending := by
  obtain ⟨-, -, hbooks, -, -⟩ := releaseJob_spec hj j.home
  have hnone (v : State) : v.answerPending j by_ = v := by rw [State.answerPending, hp]; rfl
  rw [endJob_eq hj, hnone]
  exact ((hin.of_books hbooks).finishCmd hf state cause).2

end Sys2Proof.Machine

/-! The boundary of a job (R85, R99, R283, R336, R348). -/

namespace Sys2Proof.Machine

open Sys2Proof.Laws

variable {s t u : State} {c : CoreId} {k : Core} {j : Job} {v : Verdict} {m a jsn : Nat} {e : Entry}

-- readmission and probation (R99, R348)
/-- A core as if no fence had stopped it. -/
def Core.revived (k : Core) : Core := { k with dead := false }

/-- No job, message, journal or queue changes, and of a core only that it is stopped. -/
structure Readmits (m : Nat) (s t : State) : Prop where
  books : SameBooks m s t
  keeps : Keeps [.cores, .modules, .positions] s t
  cores : ∀ d, (t.core? d).map Core.revived = (s.core? d).map Core.revived

theorem Readmits.refl (m : Nat) (s : State) : Readmits m s s := ⟨.refl m s, .refl _ s, fun _ => rfl⟩
theorem Readmits.trans (h : Readmits m s t) (g : Readmits m t u) : Readmits m s u := ⟨h.books.trans g.books, h.keeps.trans g.keeps, fun d => (g.cores d).trans (h.cores d)⟩
theorem foldl_readmits {α : Type} {f : State → α → State} (hf : ∀ u x, Readmits m u (f u x)) : ∀ (xs : List α) (s : State), Readmits m s (xs.foldl f s)
  | [], s => .refl m s
  | x :: xs, s => (hf s x).trans (foldl_readmits hf xs (f s x))

theorem readmits_of_positions (m : Nat) (h : Keeps [.positions] s t) : Readmits m s t :=
  ⟨sameBooks_of_modules m (h.modules (by simp)), h.mono (by simp), fun d => by rw [State.core?, h.cores (by simp)]; rfl⟩
theorem modDie_readmits (s : State) (m : Nat) (d : DieId) (f : Die → Die) : Readmits m s (s.modDie d f) :=
  ⟨modDie_sameBooks s m d f, (modDie_keeps s d f).mono (by simp), fun _ => rfl⟩
theorem modCore_readmits (s : State) (m : Nat) (c : CoreId) : Readmits m s (s.modCore c fun k => { k with dead := false }) := by
  refine ⟨sameBooks_of_modules m rfl, (modCore_keeps s c _).mono (by simp), fun d => ?_⟩
  rw [core?_modCore]
  split_ifs
  · rw [Option.map_map]
    rfl
  · rfl
theorem freshPos_keeps (s : State) (c : CoreId) : Keeps [.positions] s (s.freshPos c) :=
  ⟨fun _ => rfl, fun _ => rfl, fun _ => rfl, by simp, fun _ => rfl, fun _ => ⟨rfl, rfl⟩, fun _ => ⟨rfl, rfl⟩, fun _ => rfl⟩
theorem forgetAppeal_keeps (s : State) (c : CoreId) : Keeps [.positions] s (s.forgetAppeal c) :=
  foldl_keeps (fun v i => by
    split
    · exact modPos_keeps v _ _
    · exact .refl _ v) _ s

theorem readmit_readmits (s : State) (m : Nat) (c : CoreId) : Readmits m s (s.readmit c) := by
  have hrole : Readmits m s (if (s.patch c).slot = 4 then (s.modDie (coreDie c) fun d => { d with roles := dset d.roles (quadIn c) .standby }).freshPos c else s) := by
    split_ifs
    · exact (modDie_readmits s m _ _).trans (readmits_of_positions m (freshPos_keeps _ c))
    · exact .refl m s
  unfold State.readmit
  dsimp only
  by_cases h : ((s.pos c).readmit && s.quadQuiet (coreQuad c)) = true
  · rw [if_pos h]
    exact (((hrole.trans (modDie_readmits _ m _ _)).trans ((modDie_readmits _ m _ _).trans (modCore_readmits _ m c))).trans
      (readmits_of_positions m (modPos_keeps _ c _))).trans (readmits_of_positions m (forgetAppeal_keeps _ c))
  · rw [if_neg h]
    exact .refl m s

theorem Readmits.job (h : Readmits m s t) : t.job? a = s.job? a := by
  rw [State.job?, h.keeps.jobs (by simp)]
  rfl

theorem Readmits.core (h : Readmits m s t) (hc : s.core? c = some k) : ∃ b, t.core? c = some { k with dead := b } := by
  have hd := h.cores c
  rw [hc, Option.map_some, Option.map_eq_some_iff] at hd
  obtain ⟨y, hy, heq⟩ := hd
  exact ⟨y.dead, hy.trans (congrArg some (congrArg (fun x : Core => { x with dead := y.dead }) heq))⟩

/-- The state in which probations have been counted down and positions readmitted. -/
def State.readmitted (s : State) (j : Job) (v : Verdict) : State := j.quadMates.foldl State.readmit (if v.commit then j.places.foldl State.probationDown s else s)

theorem readmitted_readmits (s : State) (m : Nat) (j : Job) (v : Verdict) : Readmits m s (s.readmitted j v) := by
  refine Readmits.trans ?_ (foldl_readmits (fun v c => readmit_readmits v m c) _ _)
  split_ifs
  · exact readmits_of_positions m (foldl_keeps (fun v c => probationDown_keeps v c) _ s)
  · exact .refl m s

-- the job and its cores at the boundary (R33, R283, R336)
/-- The job with its aborts counted, whether their run has reached three, and whether it goes on. -/
def Job.counted (j : Job) (v : Verdict) : Job × Bool × Bool :=
  if v.commit then ({ j with aborts := 0, totalAborts := 0, runCount := 0 }, false, false) else j.countAbort v
/-- The held job. -/
def Job.standing (j : Job) (v : Verdict) (clock : Nat) : Job :=
  let j1 := (j.counted v).1
  { j1.clearAttempt with
    lastAttempt := some v, held := true, deadline := none
    staged := if v.commit then j1.staged.filter Staged.claimed else (j1.staged.filter Staged.claimed).map fun e => { e with claimed := false }
    wdFrom := none, wdCount := if v.commit then 0 else j1.ran clock }
/-- A held core. -/
def Core.settled (k : Core) (v : Verdict) (third goes : Bool) : Core :=
  let k := k.countPoison (!v.commit && decide (v.origin < 2)) goes
  let k := if v.commit then k.restart k.snapshot.pc (k.ctx 0).level else k
  { k with phase := .held, repeatCause := if third then some v.cause else none, stagedPoison := if v.commit then [] else k.stagedPoison }
/-- The state in which the job stands at its boundary, before a request takes effect. -/
def State.standing (s : State) (a : Nat) (j : Job) (v : Verdict) : State :=
  j.places.foldl (fun u c => u.modCore c fun k => k.settled v (j.counted v).2.1 (j.counted v).2.2)
    (((s.setJob a (j.standing v s.clock)).count j.home 2 (if v.commit then 0 else 1)).quieted a)

theorem boundary_eq (s : State) (a : Nat) (j : Job) (v : Verdict) : s.boundary a j v =
    match (s.standing a j v).endCauseOf (j.standing v s.clock) v (j.counted v).2.1 with
    | some c => (s.standing a j v).endJob a jFAULTED c none
    | none =>
      match takeRequests v.commit (j.standing v s.clock).paused (j.standing v s.clock).pending with
      | (some jsn, pausing) => (if pausing && !(j.standing v s.clock).paused then (s.standing a j v).pauseNow a (j.standing v s.clock) else s.standing a j v).endJob a jCANCELLED 0 (some jsn)
      | (none, pausing) => if pausing && !(j.standing v s.clock).paused then (s.standing a j v).pauseNow a (j.standing v s.clock) else s.standing a j v := rfl

/-- What counting aborts leaves of a job. -/
theorem counted_keeps (j : Job) (v : Verdict) : (j.counted v).1.pending = j.pending ∧ (j.counted v).1.paused = j.paused ∧ (j.counted v).1.endCause = j.endCause ∧
    (j.counted v).1.home = j.home ∧ (j.counted v).1.jsn = j.jsn ∧ (j.counted v).1.handler = j.handler ∧
    (j.counted v).1.aborts = (if v.commit then 0 else j.aborts + 1) ∧ (v.commit = false → (j.counted v).1.totalAborts ≤ j.totalAborts + 1) := by
  unfold Job.counted
  cases v.commit with
  | true => exact ⟨rfl, rfl, rfl, rfl, rfl, rfl, rfl, nofun⟩
  | false =>
    unfold Job.countAbort
    simp only [Bool.false_eq_true, if_false]
    by_cases h : 2 ≤ v.origin
    · rw [if_pos h]
      exact ⟨rfl, rfl, rfl, rfl, rfl, rfl, rfl, fun _ => Nat.le_succ _⟩
    · rw [if_neg h]
      exact ⟨rfl, rfl, rfl, rfl, rfl, rfl, rfl, fun _ => Nat.le_refl _⟩

theorem foldl_modCore_keeps (f : Core → Core) (l : List CoreId) (s : State) : Keeps [.cores] s (l.foldl (fun u c => u.modCore c f) s) :=
  foldl_keeps (fun u c => modCore_keeps u c f) l s

/-- A change of the cores at a list of places: what holds before and is kept, and what each change makes true. -/
theorem foldl_modCore_core {f : Core → Core} {P Q : Core → Prop} (hf : ∀ x, P x → P (f x) ∧ Q (f x)) : ∀ {l : List CoreId} {s : State} {k : Core}, s.core? c = some k → P k →
    ∃ y, (l.foldl (fun u c => u.modCore c f) s).core? c = some y ∧ P y ∧ (c ∈ l ∨ Q k → Q y)
  | [], _, k, hc, hP => ⟨k, hc, hP, fun h => h.elim (nomatch ·) id⟩
  | d :: l, s, k, hc, hP => by
    by_cases hd : c = d
    · subst hd
      obtain ⟨y, hy, hPy, hQy⟩ := foldl_modCore_core hf (l := l) (s := s.modCore c f) (by rw [core?_modCore_same, hc]; rfl) (hf k hP).1
      exact ⟨y, hy, hPy, fun _ => hQy (.inr (hf k hP).2)⟩
    · obtain ⟨y, hy, hPy, hQy⟩ := foldl_modCore_core hf (l := l) (s := s.modCore d f) (by rw [core?_modCore, if_neg (Ne.symm hd)]; exact hc) hP
      exact ⟨y, hy, hPy, fun h => hQy (h.imp (fun h => (List.mem_cons.mp h).resolve_left hd) id)⟩

theorem standing_jobs (s : State) (a : Nat) (j : Job) (v : Verdict) : (s.standing a j v).jobs = (s.setJob a (j.standing v s.clock)).jobs :=
  (foldl_modCore_keeps _ _ _).jobs (by simp)
theorem standing_job (s : State) (a : Nat) (j : Job) (v : Verdict) : (s.standing a j v).job? a = some (j.standing v s.clock) := by
  rw [State.job?, standing_jobs]
  exact job?_setJob_same s a _
theorem standing_otherJobs (s : State) (a : Nat) (j : Job) (v : Verdict) : OtherJobs a s (s.standing a j v) :=
  (setJob_otherJobs s a _).trans (otherJobs_of_jobs a (standing_jobs s a j v))
theorem standing_net (s : State) (a : Nat) (j : Job) (v : Verdict) : ∀ x ∈ (s.standing a j v).net, x.asid ≠ a := by
  have hnet : (s.standing a j v).net = s.net.filter fun x => x.asid != a := (foldl_modCore_keeps _ _ _).net (by simp)
  rw [hnet]
  exact fun x hx => by simpa using (List.mem_filter.mp hx).2
theorem standing_sameBooks (s : State) (m a : Nat) (j : Job) (v : Verdict) : SameBooks m s (s.standing a j v) :=
  ((count_sameBooks (s.setJob a _) m _ _ _ : SameBooks m s _)).trans (sameBooks_of_modules m ((foldl_modCore_keeps _ _ _).modules (by simp)))

/-- Core `y` has the snapshot of `k`, and the level of its context 0. -/
def Core.SameEntry (k y : Core) : Prop := y.snapshot = k.snapshot ∧ (y.ctx 0).level = (k.ctx 0).level
/-- Core `y` is held; after a commit it has started anew from the snapshot of `k` (R33). -/
def Core.HeldFrom (k y : Core) (v : Verdict) : Prop := y.phase = .held ∧
  (v.commit = true → Clean y ∧ y.ctxs = [(0, k.snapshot.ctx k.snapshot.pc (k.ctx 0).level)] ∧ y.ssn = k.snapshot.ssn)

theorem settled_heldFrom {x : Core} (hx : k.SameEntry x) (v : Verdict) (third goes : Bool) :
    k.SameEntry (x.settled v third goes) ∧ k.HeldFrom (x.settled v third goes) v := by
  obtain ⟨hsnap, hlevel⟩ := hx
  unfold Core.settled
  cases hv : v.commit with
  | false => exact ⟨⟨hsnap, hlevel⟩, rfl, fun h => nomatch hv.symm.trans h⟩
  | true =>
    have hctxs : (x.restart x.snapshot.pc (x.ctx 0).level).ctxs = [(0, k.snapshot.ctx k.snapshot.pc (k.ctx 0).level)] := by
      rw [← hsnap, ← hlevel]
      rfl
    exact ⟨⟨hsnap, hlevel⟩, rfl, fun _ => ⟨restart_clean (x.countPoison _ goes) x.snapshot.pc (x.ctx 0).level, hctxs, congrArg Snapshot.ssn hsnap⟩⟩

/-- A core of the job is held, and after a commit it starts anew from its snapshot. -/
theorem standing_core (hc : s.core? c = some k) (hplace : c ∈ j.places) (a : Nat) (v : Verdict) : ∃ y, (s.standing a j v).core? c = some y ∧ k.HeldFrom y v := by
  obtain ⟨y, hy, -, hheld⟩ := foldl_modCore_core (f := fun k => k.settled v (j.counted v).2.1 (j.counted v).2.2) (P := k.SameEntry) (Q := fun y => k.HeldFrom y v) (l := j.places)
    (s := ((s.setJob a (j.standing v s.clock)).count j.home 2 (if v.commit then 0 else 1)).quieted a) (fun x hx => settled_heldFrom hx v _ _) hc ⟨rfl, rfl⟩
  exact ⟨y, hy, hheld (.inl hplace)⟩

/-- No end is due (R336). -/
theorem endCauseOf_none (he : j.endCause = none) (ht : j.totalAborts < 15) (hh : j.handler ≠ 0) (u : State) (v : Verdict) (clock : Nat) :
    u.endCauseOf (j.standing v clock) v (j.counted v).2.1 = none := by
  obtain ⟨-, -, hend, -, -, hhandler, -, htotal⟩ := counted_keeps j v
  have h1 : (j.standing v clock).endCause = none := hend.trans he
  have h2 : ((j.counted v).2.1 && (j.standing v clock).handler == 0) = false := by
    rw [show (j.standing v clock).handler = j.handler from hhandler, beq_eq_false_iff_ne.mpr hh, Bool.and_false]
  have h3 : (!v.commit && decide (16 ≤ (j.standing v clock).totalAborts) && decide (v.origin < 2)) = false := by
    cases hc : v.commit with
    | true => rfl
    | false =>
      have hle : (j.standing v clock).totalAborts < 16 := Nat.lt_of_le_of_lt (htotal hc) (by omega)
      simp [hle]
  unfold State.endCauseOf
  simp only [h1, h2, h3, Bool.false_eq_true, if_false]

-- the step (R85, R283)
theorem superstepStart_stage (hj : s.job? a = some j) (hs : j.stage ≠ .running) : exec (.superstepStart a) s = .next s := by
  refine congrArg Host.Outcome.next ?_
  unfold superstepStart
  simp only [hj]
  exact if_pos (bne_iff_ne.mpr hs)

theorem superstepStart_verdict (hj : s.job? a = some j) (hs : j.stage = .running) (hv : j.verdict = some v) : superstepStart a s =
    if s.boundaryReached j && !s.requestsDue a j then s.unlessBusy ((s.readmitted j v).boundary a j v) a else s := by
  unfold superstepStart
  simp only [hj, hs, hv]
  rfl

theorem superstepStart_release (hj : s.job? a = some j) (hs : j.stage = .running) (hv : j.verdict = none) : superstepStart a s = s.release a j := by
  unfold superstepStart
  simp only [hj, hs, hv]
  rfl

/-- The boundary has yet to come. -/
theorem superstepStart_early (hj : s.job? a = some j) (hv : j.verdict = some v) (h : s.boundaryReached j = false ∨ s.requestsDue a j = true) :
    exec (.superstepStart a) s = .next s := by
  by_cases hs : j.stage = .running
  · refine congrArg Host.Outcome.next ?_
    rw [superstepStart_verdict hj hs hv]
    refine if_neg ?_
    rcases h with h | h
    · simp [h]
    · simp [h]
  · exact superstepStart_stage hj hs

/-- The job stays held. -/
theorem superstepStart_holds (hj : s.job? a = some j) (hv : j.verdict = none)
    (h : j.held = false ∨ j.paused = true ∨ j.parked ≠ none ∨ s.requestsDue a j = true ∨ s.yields j = true) : exec (.superstepStart a) s = .next s := by
  by_cases hs : j.stage = .running
  · refine congrArg Host.Outcome.next ?_
    rw [superstepStart_release hj hs hv]
    refine if_pos ?_
    simpa only [Bool.or_eq_true, Bool.not_eq_true', or_assoc, Option.isSome_iff_ne_none] using h
  · exact superstepStart_stage hj hs

theorem unlessBusy_job (h : (t.job? a).isSome = true) : s.unlessBusy t a = t := by
  unfold State.unlessBusy
  obtain ⟨y, hy⟩ := Option.isSome_iff_exists.mp h
  simp [hy]
theorem unlessBusy_busy (hj : s.job? a = some j) (hb : s.endBusy j = true) (h : t.job? a = none) : s.unlessBusy t a = s := by
  unfold State.unlessBusy
  simp [hj, hb, h]
theorem unlessBusy_free (hj : s.job? a = some j) (hb : s.endBusy j = false) : s.unlessBusy t a = t := by
  unfold State.unlessBusy
  simp [hj, hb]

theorem superstepStart_boundary (hj : s.job? a = some j) (hs : j.stage = .running) (hv : j.verdict = some v) (hb : s.boundaryReached j = true)
    (hr : s.requestsDue a j = false) : exec (.superstepStart a) s = .next (s.unlessBusy ((s.readmitted j v).boundary a j v) a) := by
  refine congrArg Host.Outcome.next ?_
  rw [superstepStart_verdict hj hs hv, hb, hr]
  rfl

/-- A due end waits for a reserved bank (R125). -/
theorem superstepStart_endBusy {cause : Nat} (hj : s.job? a = some j) (hv : j.verdict = some v) (hb : s.boundaryReached j = true) (hr : s.requestsDue a j = false)
    (he : j.endCause = some cause) (hbusy : s.endBusy j = true) : exec (.superstepStart a) s = .next s := by
  by_cases hs : j.stage = .running
  · rw [superstepStart_boundary hj hs hv hb hr]
    refine congrArg Host.Outcome.next (unlessBusy_busy hj hbusy ?_)
    have hcause : (j.standing v (s.readmitted j v).clock).endCause = some cause := (counted_keeps j v).2.2.1.trans he
    rw [boundary_eq]
    simp only [State.endCauseOf, hcause]
    exact endJob_gone (standing_job _ a j v) _ _ _
  · exact superstepStart_stage hj hs

/-- The state in which the job is held at its boundary (R283). -/
def State.heldAt (s : State) (a : Nat) (j : Job) (v : Verdict) : State := (s.readmitted j v).standing a j v
/-- The held job. -/
def State.heldJob (s : State) (j : Job) (v : Verdict) : Job := j.standing v (s.readmitted j v).clock

theorem heldAt_otherJobs (s : State) (a : Nat) (j : Job) (v : Verdict) : OtherJobs a s (s.heldAt a j v) :=
  OtherJobs.trans (fun _ _ => (readmitted_readmits s 0 j v).job) (standing_otherJobs _ a j v)

/-- Without a due end the requests alone decide what the boundary does. -/
theorem boundary_requests (he : j.endCause = none) (ht : j.totalAborts < 15) (hh : j.handler ≠ 0) : (s.readmitted j v).boundary a j v =
    match takeRequests v.commit j.paused j.pending with
    | (some jsn, pausing) => (if pausing && !j.paused then (s.heldAt a j v).pauseNow a (s.heldJob j v) else s.heldAt a j v).endJob a jCANCELLED 0 (some jsn)
    | (none, pausing) => if pausing && !j.paused then (s.heldAt a j v).pauseNow a (s.heldJob j v) else s.heldAt a j v := by
  obtain ⟨hpending, hpaused, -⟩ := counted_keeps j v
  have h1 : (j.standing v (s.readmitted j v).clock).pending = j.pending := hpending
  have h2 : (j.standing v (s.readmitted j v).clock).paused = j.paused := hpaused
  rw [boundary_eq, endCauseOf_none he ht hh, h1, h2]
  rfl

/-- Without a request the job is held (R33, R283, R336). -/
theorem superstepStart_held (hj : s.job? a = some j) (hs : j.stage = .running) (hv : j.verdict = some v) (hb : s.boundaryReached j = true)
    (hr : s.requestsDue a j = false) (hp : j.pending = []) (he : j.endCause = none) (ht : j.totalAborts < 15) (hh : j.handler ≠ 0) :
    Does (.superstepStart a) s fun t => OtherJobs a s t ∧ (∀ m ∈ t.net, m.asid ≠ a) ∧
      (∃ y, t.job? a = some y ∧ y.held = true ∧ y.verdict = none ∧ y.lastAttempt = some v ∧ y.votes = [] ∧ y.proxies = [] ∧ y.episodes = [] ∧ y.rounds = [] ∧
        y.aborts = if v.commit then 0 else j.aborts + 1) ∧
      ∀ c ∈ j.places, ∀ k, s.core? c = some k → ∃ y, t.core? c = some y ∧ y.phase = .held ∧
        (v.commit = true → Clean y ∧ y.ctxs = [(0, k.snapshot.ctx k.snapshot.pc (k.ctx 0).level)] ∧ y.ssn = k.snapshot.ssn) := by
  have hbound : (s.readmitted j v).boundary a j v = s.heldAt a j v := by
    rw [boundary_requests he ht hh, hp]
    simp only [takeRequests]
    exact if_neg (by cases j.paused <;> decide)
  obtain ⟨-, -, -, -, -, -, haborts, -⟩ := counted_keeps j v
  refine ⟨s.heldAt a j v, ?_, heldAt_otherJobs s a j v, standing_net _ a j v, ⟨_, standing_job _ a j v, rfl, rfl, rfl, rfl, rfl, rfl, rfl, haborts⟩, fun c hplace k hc => ?_⟩
  · have hjob : ((s.heldAt a j v).job? a).isSome = true := congrArg Option.isSome (standing_job _ a j v)
    rw [superstepStart_boundary hj hs hv hb hr, hbound, unlessBusy_job hjob]
  · obtain ⟨b, hcore⟩ := (readmitted_readmits s 0 j v).core hc
    exact standing_core hcore hplace a v

theorem heldAt_inSlot {n : Nat} (h : InSlot s m n e) (a : Nat) (j : Job) (v : Verdict) : InSlot (s.heldAt a j v) m n e :=
  (h.of_books (readmitted_readmits s m j v).books).of_books (standing_sameBooks _ m a j v)

/-- A job that stands at its boundary, or at its release, ends with its entry in the state. -/
theorem endJob_jobEnds {y : Job} {r : Option Nat} (hj : t.job? a = some y) (hhome : y.home = j.home) (hjsn : y.jsn = j.jsn) (hothers : OtherJobs a s t)
    (hin : InSlot t j.home j.jsn e) (hf : e.final = false) (hp : ∀ x ∈ y.pending, x.jsn ≠ j.jsn) (state cause : Nat) :
    JobEnds a j state cause s (t.endJob a state cause r) := by
  rw [← hhome, ← hjsn] at hin
  obtain ⟨hgone, hjobs, hcores, hnet, hslot⟩ := endJob_ends hj hin hf (by rw [hjsn]; exact hp) state cause r
  refine ⟨hgone, hothers.trans hjobs, hcores, hnet, ?_⟩
  rw [← hhome, ← hjsn, hslot.entry]
  rfl

/-- A CANCEL takes effect at the boundary (R85). -/
theorem superstepStart_cancels {r : Nat} (hj : s.job? a = some j) (hs : j.stage = .running) (hv : j.verdict = some v) (hb : s.boundaryReached j = true)
    (hr : s.requestsDue a j = false) (he : j.endCause = none) (ht : j.totalAborts < 15) (hh : j.handler ≠ 0) (hbusy : s.endBusy j = false)
    (hin : InSlot s j.home j.jsn e) (hf : e.final = false) (hp : j.pending = [{ jsn := r, cancel := true }]) (hne : r ≠ j.jsn) :
    Does (.superstepStart a) s (JobEnds a j 6 0 s) := by
  have hbound : (s.readmitted j v).boundary a j v = (s.heldAt a j v).endJob a jCANCELLED 0 (some r) := by
    rw [boundary_requests he ht hh, hp]
    simp only [takeRequests, if_true]
    rw [if_neg (by cases j.paused <;> decide)]
  obtain ⟨hpending, -, -, hhome, hjsn, -⟩ := counted_keeps j v
  refine ⟨_, superstepStart_boundary hj hs hv hb hr, ?_⟩
  rw [unlessBusy_free hj hbusy, hbound]
  refine endJob_jobEnds (standing_job _ a j v) hhome hjsn (heldAt_otherJobs s a j v) (heldAt_inSlot hin a j v) hf (fun x hx => ?_) _ _
  have hx' : x ∈ j.pending := hpending ▸ hx
  rw [hp, List.mem_singleton] at hx'
  rw [hx']
  exact hne

theorem pauseNow_job {y : Job} {r : Request} (hj : t.job? a = some y) (hp : y.pending = [r]) (hr : r.cancel = false) :
    (t.pauseNow a y).job? a = some { y with paused := true, pending := [] } := by
  have hspan : y.pending.span (fun r => !r.cancel) = ([r], []) := by rw [hp]; simp [List.span, List.span.loop, hr]
  unfold State.pauseNow
  simp only [hspan]
  rw [job?_modJob, if_pos rfl, State.job?, (modEntry_keeps _ _ _ _).jobs (by simp), List.foldl_cons, List.foldl_nil, (finishCmd_keeps _ _ _ _ _).jobs (by simp)]
  exact congrArg (Option.map _) hj

/-- A PAUSE-AT-BOUNDARY takes effect at a commit (R85). -/
theorem superstepStart_pauses {r : Nat} (hj : s.job? a = some j) (hs : j.stage = .running) (hv : j.verdict = some v) (hb : s.boundaryReached j = true)
    (hr : s.requestsDue a j = false) (he : j.endCause = none) (ht : j.totalAborts < 15) (hh : j.handler ≠ 0)
    (hp : j.pending = [{ jsn := r, cancel := false }]) (hpaused : j.paused = false) :
    Does (.superstepStart a) s fun t => ∃ y, t.job? a = some y ∧ y.held = true ∧ y.paused = v.commit ∧ y.pending = if v.commit then [] else j.pending := by
  have hbound : (s.readmitted j v).boundary a j v = if v.commit then (s.heldAt a j v).pauseNow a (s.heldJob j v) else s.heldAt a j v := by
    rw [boundary_requests he ht hh, hp, hpaused]
    cases v.commit <;> rfl
  obtain ⟨hpending, hkept, -⟩ := counted_keeps j v
  have hjob := standing_job (s.readmitted j v) a j v
  have hthen : ∃ y, ((s.readmitted j v).boundary a j v).job? a = some y ∧ y.held = true ∧ y.paused = v.commit ∧ y.pending = if v.commit then [] else j.pending := by
    rw [hbound]
    cases v.commit with
    | true => exact ⟨_, pauseNow_job hjob (hpending.trans hp) rfl, rfl, rfl, rfl⟩
    | false => exact ⟨_, hjob, rfl, hkept.trans hpaused, hpending⟩
  refine ⟨_, superstepStart_boundary hj hs hv hb hr, ?_⟩
  rw [unlessBusy_job (by obtain ⟨y, hy, -⟩ := hthen; rw [hy]; rfl)]
  exact hthen

/-- A core that has stopped holds the boundary up until it is fenced (R283, R331). -/
theorem superstepStart_unfenced {cause : Nat} (hj : s.job? a = some j) (hv : j.verdict.isSome = true) (hplace : c ∈ j.places) (hc : s.core? c = some k)
    (hp : k.phase = .rolling) (he : j.endCause = some cause) (hcause : cause ≠ 0x0F) (hremove : j.removeAt = false) :
    exec (.superstepStart a) s = .next s := by
  obtain ⟨v, hv⟩ := Option.isSome_iff_exists.mp hv
  refine superstepStart_early hj hv (.inl ?_)
  have hend : (j.endCause == some cWATCHDOG) = false := by
    rw [he]
    exact beq_eq_false_iff_ne.mpr fun h => hcause (Option.some.inj h)
  unfold State.boundaryReached
  refine Bool.and_eq_false_iff.mpr (.inr (List.all_eq_false.mpr ⟨c, hplace, ?_⟩))
  simp only [hc, hp, hend, hremove]
  simp

end Sys2Proof.Machine

/-! A held job is released into RUN (R113, R283, R308, R317, R335). -/

namespace Sys2Proof.Machine

open Sys2Proof.Laws

variable {s t u : State} {c : CoreId} {k : Core} {j : Job} {m a : Nat} {e : Entry}

/-- No other job, no register, no byte of memory and no message has changed. -/
structure Undisturbed (a : Nat) (s t : State) : Prop where
  others : OtherJobs a s t
  registers : SameRegisters s t
  memory : SameMemory s t
  net : t.net = s.net

theorem Undisturbed.trans (h : Undisturbed a s t) (g : Undisturbed a t u) : Undisturbed a s u :=
  ⟨h.others.trans g.others, h.registers.trans g.registers, h.memory.trans g.memory, g.net.trans h.net⟩
theorem undisturbed_of_keeps {l : List Part} (a : Nat) (h : Keeps l s t) (hc : Part.cores ∉ l) (hj : Part.jobs ∉ l) (hn : Part.net ∉ l) : Undisturbed a s t :=
  ⟨otherJobs_of_jobs a (h.jobs hj), sameRegisters_of_ctxs fun d => by rw [State.core?, h.cores hc]; rfl, sameMemory_of_keeps h hc hj, h.net hn⟩
theorem modJob_undisturbed (s : State) (a : Nat) (f : Job → Job) (hf : ∀ x, ((f x).qsp, (f x).dss) = (x.qsp, x.dss)) : Undisturbed a s (s.modJob a f) :=
  have hwrites := modJob_tierWrites s a f hf
  ⟨modJob_otherJobs s a f, hwrites.sameRegisters, hwrites.sameMemory, rfl⟩

-- the homes are pressed (R285)
/-- The present contents of the memories of job `a` become those that a rollback restores. -/
structure Presses (a : Nat) (s t : State) : Prop where
  homes : HomesOnly s t
  frame : Undisturbed a s t
  keeps : Keeps [.cores, .jobs] s t
  clock : t.clock = s.clock
  shares : ∀ b d, (t.job? b).map (fun j => (dgetD j.dss d Mem.empty).cur) = (s.job? b).map fun j => (dgetD j.dss d Mem.empty).cur

theorem Presses.refl (a : Nat) (s : State) : Presses a s s :=
  ⟨.refl s, undisturbed_of_keeps a (.refl [] s) (by simp) (by simp) (by simp), .refl _ s, rfl, fun _ _ => rfl⟩
theorem Presses.trans (h : Presses a s t) (g : Presses a t u) : Presses a s u :=
  ⟨h.homes.trans g.homes, h.frame.trans g.frame, h.keeps.trans g.keeps, g.clock.trans h.clock, fun b d => (g.shares b d).trans (h.shares b d)⟩
theorem foldl_presses {α : Type} {f : State → α → State} (hf : ∀ u x, Presses a u (f u x)) : ∀ (xs : List α) (s : State), Presses a s (xs.foldl f s)
  | [], s => .refl a s
  | x :: xs, s => (hf s x).trans (foldl_presses hf xs (f s x))

theorem pressHomes_presses (s : State) (c : CoreId) (a : Nat) : Presses a s (s.pressHomes c a) where
  homes := pressHomes_homesOnly s c a
  frame := ⟨modJob_otherJobs (State.modCore s c _) a _, (pressHomes_homesOnly s c a).sameRegisters, pressHomes_sameMemory s c a, rfl⟩
  keeps := ((modCore_keeps s c _).mono (by simp)).trans ((modJob_keeps _ a _).mono (by simp))
  clock := rfl
  shares b d := by
    refine (congrArg (Option.map _) (job?_modJob (State.modCore s c _) a b _)).trans ?_
    split_ifs
    · rw [Option.map_map]
      exact congrArg (Option.map · _) (funext fun j => dgetD_dmod_cur j.dss _ d)
    · rfl

-- rounds that a module can carry out (R308, R317)
/-- The mangle of module `m` has failed. -/
def State.mangleOut (s : State) (m : Nat) : Bool := ((s.module? m).map Module.mangleFailed).getD false

theorem mangleOut_iff : s.mangleOut m = true ↔ ∃ d, s.module? m = some d ∧ d.mangleFailed = true := by
  unfold State.mangleOut
  cases s.module? m <;> simp

theorem tileTable_congr {q e : Dict Mem} (h : ∀ d, (dgetD e d Mem.empty).cur = (dgetD j.dss d Mem.empty).cur) (d : DieId) :
    ({ j with qsp := q, dss := e } : Job).tileTable d = j.tileTable d := by
  unfold Job.tileTable
  simp only [h]

theorem noRounds_congr {q e : Dict Mem} (h : ∀ d, (dgetD e d Mem.empty).cur = (dgetD j.dss d Mem.empty).cur) (hout : ∀ m, t.mangleOut m = s.mangleOut m)
    (hgate : ∀ m, t.hasGateway m = s.hasGateway m) : t.noRounds { j with qsp := q, dss := e } = s.noRounds j := by
  unfold State.mangleOut at hout
  unfold State.noRounds
  simp only [tileTable_congr h, hout, hgate]
  rfl

theorem dropTlbAsid_module (s : State) (asid m : Nat) : (s.dropTlbAsid asid).module? m = (s.module? m).map fun d => d.asidDropped asid := by
  exact dget?_dmap s.modules (fun _ d => d.asidDropped asid) m

theorem dropTlbAsid_mangleOut (s : State) (asid m : Nat) : (s.dropTlbAsid asid).mangleOut m = s.mangleOut m := by
  rw [State.mangleOut, dropTlbAsid_module, Option.map_map]
  rfl

theorem dropTlbAsid_hasGateway (s : State) (asid m : Nat) : (s.dropTlbAsid asid).hasGateway m = s.hasGateway m := by
  unfold State.hasGateway
  rw [dropTlbAsid_module, Option.map_map]
  refine congrArg (Option.getD · false) (congrArg (Option.map · _) (funext fun d => ?_))
  simp only [Function.comp_apply, Module.asidDropped, dmap, List.any_map]
  rfl

-- the last writes of the boundary (R113, R269)
theorem finishBoundary_presses (h : j.staged = []) (s : State) (a : Nat) : Presses a (s.dropTlbAsid a) (s.finishBoundary a j) := by
  unfold State.finishBoundary
  rw [h]
  exact foldl_presses (fun v c => pressHomes_presses v c a) j.places _

/-- The job as its boundary leaves it: the same rounds are possible, and its LAUNCH entry stands. -/
theorem finishBoundary_job (hj : s.job? a = some j) (h : j.staged = []) : ∃ q e, (s.finishBoundary a j).job? a = some { j with qsp := q, dss := e } ∧
    (s.finishBoundary a j).noRounds { j with qsp := q, dss := e } = s.noRounds j := by
  have hpress := finishBoundary_presses h s a
  have hold : (s.dropTlbAsid a).job? a = some j := hj
  obtain ⟨q, e, hq⟩ := hpress.homes.job hold
  have hmodules := hpress.keeps.modules (by simp)
  have hmodule (m : Nat) : (s.finishBoundary a j).module? m = (s.dropTlbAsid a).module? m := by rw [State.module?, hmodules]; rfl
  refine ⟨q, e, hq, noRounds_congr (fun d => ?_) (fun m => ?_) fun m => ?_⟩
  · have hshare := hpress.shares a d
    rw [hq, hold] at hshare
    exact Option.some.inj hshare
  · rw [← dropTlbAsid_mangleOut s a m, State.mangleOut, hmodule]
    rfl
  · rw [← dropTlbAsid_hasGateway s a m, State.hasGateway, hmodule]
    rfl

theorem finishBoundary_undisturbed (h : j.staged = []) (s : State) (a : Nat) : Undisturbed a s (s.finishBoundary a j) :=
  (undisturbed_of_keeps a (dropTlbAsid_frame s 0 a).2 (by simp) (by simp) (by simp)).trans (finishBoundary_presses h s a).frame

-- a core enters RUN (R335)
/-- A core that has entered RUN. -/
def Core.started (k : Core) (j : Job) (clock : Nat) : Core :=
  { k with phase := .run, stopped := false, ssStart := clock, lastProgress := clock, sscause := sscauseOf j, poisonMet := none }
/-- A core but for what entering RUN sets, and its trace control. -/
def Core.unstarted (k : Core) : Core :=
  { k with phase := .held, stopped := false, ssStart := 0, lastProgress := 0, sscause := 0, poisonMet := none, tracectl := 0 }
/-- The core runs and names the outcome of the attempt before (R335). -/
def Core.Runs (j : Job) (y : Core) : Prop := y.phase = .run ∧ y.stopped = false ∧ y.sscause = sscauseOf j
/-- Neither a REPEAT entry nor the poison of a staged entry is due at the core. -/
def Core.NoneDue (k : Core) : Prop := k.repeatCause = none ∧ k.stagedPoison = []

/-- Of the cores only what entering RUN sets may have changed. -/
structure Starts (s t : State) : Prop where
  keeps : Keeps [.cores, .positions] s t
  cores : ∀ d, (t.core? d).map Core.unstarted = (s.core? d).map Core.unstarted

theorem Starts.refl (s : State) : Starts s s := ⟨.refl _ s, fun _ => rfl⟩
theorem Starts.trans (h : Starts s t) (g : Starts t u) : Starts s u := ⟨h.keeps.trans g.keeps, fun d => (g.cores d).trans (h.cores d)⟩

theorem Starts.core (h : Starts s t) (hc : s.core? c = some k) : ∃ y, t.core? c = some y ∧ y.unstarted = k.unstarted := by
  have hd := h.cores c
  rw [hc, Option.map_some, Option.map_eq_some_iff] at hd
  exact hd

theorem Starts.of_core {α : Type} (h : Starts s t) (g : Core → α) (hg : ∀ k, g k.unstarted = g k) (d : CoreId) : (t.core? d).map g = (s.core? d).map g := by
  have hfun : g = g ∘ Core.unstarted := funext fun k => (hg k).symm
  rw [hfun, ← Option.map_map, ← Option.map_map, h.cores d]

theorem Starts.undisturbed (h : Starts s t) (a : Nat) : Undisturbed a s t :=
  ⟨otherJobs_of_jobs a (h.keeps.jobs (by simp)), sameRegisters_of_ctxs (h.of_core Core.ctxs fun _ => rfl),
    sameMemory_of_tcm (h.keeps.jobs (by simp)) (h.of_core Core.tcm fun _ => rfl), h.keeps.net (by simp)⟩

theorem OnlyTrace.starts (h : OnlyTrace c s t) : Starts s t := by
  refine ⟨h.keeps.mono (by simp), fun d => ?_⟩
  by_cases hd : d = c
  · obtain ⟨w, hw⟩ := h.core
    rw [hd, hw, Option.map_map]
    rfl
  · rw [h.others d hd]

theorem modCore_starts (s : State) (j : Job) (c : CoreId) (clock : Nat) : Starts s (s.modCore c fun k => k.started j clock) := by
  refine ⟨(modCore_keeps s c _).mono (by simp), fun d => ?_⟩
  rw [core?_modCore]
  split_ifs
  · rw [Option.map_map]
    rfl
  · rfl

/-- A core at which nothing is due starts; the trace records it. -/
theorem startCore_starts (h : ∀ k, s.core? c = some k → k.NoneDue) : Starts s (s.startCore j c) ∧ OtherCores c s (s.startCore j c) ∧
    (∀ k, s.core? c = some k → ∃ y, (s.startCore j c).core? c = some y ∧ y.Runs j) := by
  have hmod := modCore_starts s j c s.clock
  have hothers : OtherCores c s (s.modCore c fun k => k.started j s.clock) := modCore_otherCores s c _
  rcases Option.eq_none_or_eq_some (s.core? c) with hc | ⟨k, hc⟩
  · have heq : s.startCore j c = s.modCore c fun k => k.started j s.clock := by
      have hnone : (s.modCore c fun k => k.started j s.clock).core? c = none := by rw [core?_modCore_same, hc]; rfl
      unfold Core.started at hnone
      unfold State.startCore
      simp only [hnone]
      rfl
    rw [heq]
    exact ⟨hmod, hothers, fun k hk => absurd (hc.symm.trans hk) (by simp)⟩
  · obtain ⟨hrepeat, hstaged⟩ := h k hc
    have hsome : (s.modCore c fun k => k.started j s.clock).core? c = some (k.started j s.clock) := by rw [core?_modCore_same, hc]; rfl
    have heq : s.startCore j c = (s.modCore c fun k => k.started j s.clock).record c 0 6 false (BitVec.ofNat 64 k.ssn) := by
      unfold Core.started at hsome
      unfold State.startCore
      simp only [hsome, hrepeat, hstaged, List.getLast?_nil]
      rfl
    have htrace := record_onlyTrace (s.modCore c fun k => k.started j s.clock) c 0 6 false (BitVec.ofNat 64 k.ssn)
    rw [heq]
    refine ⟨hmod.trans htrace.starts, fun d hd => (htrace.others d hd).trans (hothers d hd), fun _ _ => ?_⟩
    obtain ⟨w, hw⟩ := htrace.core_some hsome
    exact ⟨_, hw, rfl, rfl, rfl⟩

theorem noneDue_of_unstarted {y : Core} (h : y.unstarted = k.unstarted) (hk : k.NoneDue) : y.NoneDue := by
  obtain ⟨hrepeat, hstaged⟩ := hk
  exact ⟨(congrArg Core.repeatCause h).trans hrepeat, (congrArg Core.stagedPoison h).trans hstaged⟩

/-- Every core of a list starts. -/
theorem foldl_startCore : ∀ {l : List CoreId} {s : State}, (∀ c ∈ l, ∀ k, s.core? c = some k → k.NoneDue) →
    Starts s (l.foldl (fun u c => u.startCore j c) s) ∧
      ∀ c k, s.core? c = some k → c ∈ l ∨ k.Runs j → ∃ y, (l.foldl (fun u c => u.startCore j c) s).core? c = some y ∧ y.Runs j
  | [], s, _ => ⟨.refl s, fun _ k hc h => ⟨k, hc, h.elim (nomatch ·) id⟩⟩
  | d :: l, s, hdue => by
    obtain ⟨hstart, hothers, hruns⟩ := startCore_starts (j := j) (hdue d List.mem_cons_self)
    have hdue' : ∀ c ∈ l, ∀ k, (s.startCore j d).core? c = some k → k.NoneDue := fun c hc k hk => by
      have hd := hstart.cores c
      rw [hk, Option.map_some] at hd
      obtain ⟨x, hx, heq⟩ := Option.map_eq_some_iff.mp hd.symm
      exact noneDue_of_unstarted heq.symm (hdue c (List.mem_cons_of_mem _ hc) x hx)
    obtain ⟨hrest, hrunsRest⟩ := foldl_startCore hdue'
    refine ⟨hstart.trans hrest, fun c k hc h => ?_⟩
    by_cases hcd : c = d
    · subst hcd
      obtain ⟨y, hy, hyruns⟩ := hruns k hc
      exact hrunsRest c y hy (.inr hyruns)
    · exact hrunsRest c k ((hothers c hcd).trans hc) (h.imp (fun h => (List.mem_cons.mp h).resolve_left hcd) id)

-- the run starts (R82, R283, R317)
/-- The job that runs. -/
def Job.running (x : Job) (s : State) : Job :=
  { x with
    staged := x.staged.filter fun e => !e.claimed, held := false, wdFrom := some s.clock, removeAt := false, patchedAt := []
    gateways := x.modules.filter s.mangleOut
    tiles := x.rects.foldl (fun t r => dset t r.die (x.tileTable r.die)) [] }
/-- The LAUNCH entry becomes RUNNING with the first superstep. -/
def State.entryRuns (s : State) (j : Job) : State :=
  if ((s.entry? j.home j.jsn).map fun e => e.state == jPLACED).getD false then s.modEntry j.home j.jsn fun e => { e with state := jRUNNING } else s

theorem entryRuns_keeps (s : State) (j : Job) : Keeps [.modules, .host] s (s.entryRuns j) := by
  unfold State.entryRuns
  split_ifs
  · exact modEntry_keeps s _ _ _
  · exact .refl _ s

theorem startRun_eq (s : State) (a : Nat) (j : Job) : s.startRun a j = j.places.foldl (fun u c => u.startCore j c) ((s.modJob a fun x => x.running s).entryRuns j) := rfl

/-- Every core of the job runs. -/
theorem startRun_runs {y : Job} (hj : s.job? a = some y) (hdue : ∀ c ∈ j.places, ∀ k, s.core? c = some k → k.NoneDue) : Undisturbed a s (s.startRun a j) ∧
    (s.startRun a j).job? a = some (y.running s) ∧
    ∀ c ∈ j.places, ∀ k, s.core? c = some k → ∃ y, (s.startRun a j).core? c = some y ∧ y.Runs j ∧ y.ctxs = k.ctxs := by
  have hentry := entryRuns_keeps (s.modJob a fun x => x.running s) j
  have hcore (c : CoreId) : ((s.modJob a fun x => x.running s).entryRuns j).core? c = s.core? c := by rw [State.core?, hentry.cores (by simp)]; rfl
  obtain ⟨hstart, hruns⟩ := foldl_startCore (j := j) (l := j.places) (s := (s.modJob a fun x => x.running s).entryRuns j)
    fun c hc k hk => hdue c hc k ((hcore c).symm.trans hk)
  rw [← startRun_eq] at hstart hruns
  have hrunning : Undisturbed a s (s.modJob a fun x => x.running s) := modJob_undisturbed s a _ fun _ => rfl
  refine ⟨(hrunning.trans (undisturbed_of_keeps a hentry (by simp) (by simp) (by simp))).trans (hstart.undisturbed a), ?_, fun c hc k hk => ?_⟩
  · rw [State.job?, hstart.keeps.jobs (by simp), hentry.jobs (by simp)]
    exact (job?_modJob s a a _).trans (by rw [if_pos rfl, hj]; rfl)
  · have hk' := (hcore c).trans hk
    obtain ⟨y, hy, hyruns⟩ := hruns c k hk' (.inl hc)
    obtain ⟨z, hz, heq⟩ := hstart.core hk'
    obtain rfl : y = z := Option.some.inj (hy.symm.trans hz)
    have hctxs := congrArg Core.ctxs heq
    exact ⟨y, hy, hyruns, hctxs⟩

-- the release (R85, R283, R349)
/-- A held job that neither pauses nor yields nor waits for a request, a patch or a staged page. -/
structure Free (s : State) (a : Nat) (j : Job) : Prop where
  held : j.held = true
  unpaused : j.paused = false
  unparked : j.parked = none
  quiet : s.requestsDue a j = false
  stays : s.yields j = false
  unstaged : j.staged = []
  unfenced : ∀ c ∈ j.places, (s.patch c).fenced = false

theorem foldl_of_fixed {α : Type} {f : State → α → State} : ∀ {l : List α}, (∀ x ∈ l, f s x = s) → l.foldl f s = s
  | [], _ => rfl
  | x :: l, h => by
    rw [List.foldl_cons, h x List.mem_cons_self]
    exact foldl_of_fixed fun y hy => h y (List.mem_cons_of_mem _ hy)

theorem patchJob_unfenced (h : ∀ c ∈ j.places, (s.patch c).fenced = false) : s.patchJob j = s :=
  foldl_of_fixed fun c hc => if_neg (by simp [h c hc])

theorem release_free (h : Free s a j) : s.release a j = s.unlessBusy (s.enterRun a j) a := by
  obtain ⟨hheld, hpaused, hparked, hquiet, hstays, hstaged, hfenced⟩ := h
  have hnone : (j.places.find? fun c => (s.patch c).fenced) = none := List.find?_eq_none.mpr fun c hc => by simp [hfenced c hc]
  unfold State.release
  rw [hheld, hpaused, hparked, hquiet, hstays, hstaged, patchJob_unfenced hfenced]
  dsimp only
  rw [hnone]
  rfl

theorem superstepStart_free (hj : s.job? a = some j) (hs : j.stage = .running) (hv : j.verdict = none) (h : Free s a j) :
    exec (.superstepStart a) s = .next (s.unlessBusy (s.enterRun a j) a) :=
  congrArg Host.Outcome.next ((superstepStart_release hj hs hv).trans (release_free h))

theorem enterRun_eq (hj : s.job? a = some j) (h : j.staged = []) : s.enterRun a j =
    if s.noRounds j then (s.finishBoundary a j).endJob a jFAULTED cLINK none else (s.finishBoundary a j).startRun a j := by
  obtain ⟨q, e, hq, hrounds⟩ := finishBoundary_job hj h
  unfold State.enterRun
  simp only [hq, Option.map_some, Option.getD_some, hrounds]

/-- A job with a module that can carry out no round waits with its end for a reserved bank (R125, R317). -/
theorem superstepStart_linkBusy (hj : s.job? a = some j) (hs : j.stage = .running) (hv : j.verdict = none) (h : Free s a j) (hrounds : s.noRounds j = true)
    (hbusy : s.endBusy j = true) : exec (.superstepStart a) s = .next s := by
  obtain ⟨q, e, hq, -⟩ := finishBoundary_job hj h.unstaged
  rw [superstepStart_free hj hs hv h, enterRun_eq hj h.unstaged, if_pos hrounds]
  exact congrArg Host.Outcome.next (unlessBusy_busy hj hbusy (endJob_gone hq _ _ _))

/-- Such a job ends with LINK (R317). -/
theorem superstepStart_link (hj : s.job? a = some j) (hs : j.stage = .running) (hv : j.verdict = none) (h : Free s a j) (hrounds : s.noRounds j = true)
    (hbusy : s.endBusy j = false) (hp : j.pending = []) (hin : InSlot s j.home j.jsn e) (hf : e.final = false) :
    Does (.superstepStart a) s (JobEnds a j 5 0x0E s) := by
  obtain ⟨q, x, hq, -⟩ := finishBoundary_job hj h.unstaged
  have hpress := finishBoundary_presses h.unstaged s a
  refine ⟨_, superstepStart_free hj hs hv h, ?_⟩
  rw [unlessBusy_free hj hbusy, enterRun_eq hj h.unstaged, if_pos hrounds]
  refine endJob_jobEnds hq rfl rfl (finishBoundary_undisturbed h.unstaged s a).others ?_ hf (by rw [hp]; exact nofun) _ _
  exact (hin.of_books (dropTlbAsid_frame s j.home a).1).of_books (sameBooks_of_modules _ (hpress.keeps.modules (by simp)))

theorem sscauseOf_committed (h : ∀ v, j.lastAttempt = some v → v.commit = true) : sscauseOf j = 0 := by
  unfold sscauseOf
  cases hl : j.lastAttempt with
  | none => rfl
  | some v => exact if_pos (h v hl)

theorem sscauseOf_aborted {v : Verdict} (hl : j.lastAttempt = some v) (hv : v.commit = false) :
    sscauseOf j = BitVec.ofNat 64 (min 255 j.aborts * 2 ^ 48 + v.index * 2 ^ 24 + v.origin * 2 ^ 9 + 2 ^ 8 + v.cause) := by
  unfold sscauseOf
  simp only [hl, hv, Bool.false_eq_true, if_false]

/-- Every core runs, and a module whose mangle has failed goes over to gateway cores (R283, R317, R335). -/
theorem superstepStart_runs (hj : s.job? a = some j) (hs : j.stage = .running) (hv : j.verdict = none) (h : Free s a j) (hrounds : s.noRounds j = false)
    (hdue : ∀ c ∈ j.places, ∀ k, s.core? c = some k → k.repeatCause = none ∧ k.stagedPoison = []) :
    Does (.superstepStart a) s fun t => OtherJobs a s t ∧ SameRegisters s t ∧ SameMemory s t ∧ t.net = s.net ∧
      (∃ y, t.job? a = some y ∧ y.held = false ∧ y.removeAt = false ∧ y.patchedAt = [] ∧ y.wdFrom = some s.clock ∧
        ∀ n, n ∈ y.gateways ↔ n ∈ j.modules ∧ ∃ d, s.module? n = some d ∧ d.mangleFailed = true) ∧
      ∀ c ∈ j.places, ∀ k, s.core? c = some k → ∃ y, t.core? c = some y ∧ y.phase = .run ∧ y.stopped = false ∧ y.ctxs = k.ctxs ∧
        ((∀ v, j.lastAttempt = some v → v.commit = true) → y.sscause = 0) ∧
        ∀ v, j.lastAttempt = some v → v.commit = false →
          y.sscause = BitVec.ofNat 64 (min 255 j.aborts * 2 ^ 48 + v.index * 2 ^ 24 + v.origin * 2 ^ 9 + 2 ^ 8 + v.cause) := by
  obtain ⟨q, x, hq, -⟩ := finishBoundary_job hj h.unstaged
  have hpress := finishBoundary_presses h.unstaged s a
  have hcore {c : CoreId} {k : Core} (hk : s.core? c = some k) : ∃ m, (s.finishBoundary a j).core? c = some { k with tcm := m } := hpress.homes.core hk
  have hdue' : ∀ c ∈ j.places, ∀ k, (s.finishBoundary a j).core? c = some k → k.NoneDue := fun c hc k hk => by
    have hhome := hpress.homes.cores c
    rw [hk, Option.map_some] at hhome
    obtain ⟨z, hz, heq⟩ := Option.map_eq_some_iff.mp hhome.symm
    obtain ⟨hrepeat, hstaged⟩ := hdue c hc z hz
    exact ⟨(congrArg Core.repeatCause heq).symm.trans hrepeat, (congrArg Core.stagedPoison heq).symm.trans hstaged⟩
  obtain ⟨hframe, hjob, hruns⟩ := startRun_runs hq hdue'
  obtain ⟨hothers, hregisters, hmemory, hnet⟩ := (finishBoundary_undisturbed h.unstaged s a).trans hframe
  have hout (n : Nat) : (s.finishBoundary a j).mangleOut n = s.mangleOut n := by
    rw [← dropTlbAsid_mangleOut s a n, State.mangleOut, State.module?, hpress.keeps.modules (by simp)]
    rfl
  refine ⟨(s.finishBoundary a j).startRun a j, ?_, hothers, hregisters, hmemory, hnet, ⟨_, hjob, rfl, rfl, rfl, congrArg some hpress.clock, fun n => ?_⟩, fun c hc k hk => ?_⟩
  · rw [superstepStart_free hj hs hv h, enterRun_eq hj h.unstaged, hrounds, if_neg Bool.false_ne_true, unlessBusy_job (by rw [hjob]; rfl)]
  · exact List.mem_filter.trans (and_congr_right fun _ => by rw [hout, mangleOut_iff])
  · obtain ⟨m, hm⟩ := hcore hk
    obtain ⟨y, hy, ⟨hphase, hstopped, hcause⟩, hctxs⟩ := hruns c hc _ hm
    exact ⟨y, hy, hphase, hstopped, hctxs, fun hl => hcause.trans (sscauseOf_committed hl), fun v hl hc => hcause.trans (sscauseOf_aborted hl hc)⟩

end Sys2Proof.Machine

/-! Retirement (R33, R357, R358). -/

namespace Sys2Proof.Machine

open Sys2Proof.Laws

variable {s t u : State} {c : CoreId} {k : Core} {j : Job} {m a : Nat} {e : Entry}

/-- The states differ in how the cores are listed only: every core is as before. -/
structure SameCores (s t : State) : Prop where
  rest : t = { s with cores := t.cores }
  cores : ∀ d, t.core? d = s.core? d

theorem SameCores.refl (s : State) : SameCores s s := ⟨rfl, fun _ => rfl⟩
theorem SameCores.trans (h : SameCores s t) (g : SameCores t u) : SameCores s u where
  rest := by
    rw [g.rest, h.rest]
  cores d := (g.cores d).trans (h.cores d)
theorem SameCores.module (h : SameCores s t) (m : Nat) : t.module? m = s.module? m := by
  rw [h.rest]
  rfl
theorem SameCores.rdPa (h : SameCores s t) (m pa n : Nat) : t.rdPa m pa n = s.rdPa m pa n := by
  rw [h.rest]
  rfl
theorem SameCores.poisonOver (h : SameCores s t) (m pa n : Nat) : t.poisonOver m pa n = s.poisonOver m pa n := by
  rw [h.rest]
  rfl
theorem SameCores.poisoned (h : SameCores s t) (m pa : Nat) : t.poisoned m pa = s.poisoned m pa := by
  rw [h.rest]
  rfl
theorem SameCores.bankBusy (h : SameCores s t) (m pa : Nat) (c : Option CoreId) : t.bankBusy m pa c = s.bankBusy m pa c := by
  rw [h.rest]
  rfl
theorem SameCores.poolOf (h : SameCores s t) (m root : Nat) : t.poolOf m root = s.poolOf m root := by
  unfold State.poolOf State.poolPoisoned
  rw [h.rdPa, h.poisonOver]
theorem SameCores.frameRec (h : SameCores s t) (m : Nat) (p : Pool) (f : Nat) : t.frameRec m p f = s.frameRec m p f := by
  simp only [State.frameRec, h.rdPa]
theorem SameCores.recPoisoned (h : SameCores s t) (m : Nat) (p : Pool) (f : Nat) : t.recPoisoned m p f = s.recPoisoned m p f := by
  simp only [State.recPoisoned, h.poisonOver]
theorem SameCores.frameFree (h : SameCores s t) (m : Nat) (p : Pool) (f : Nat) : t.frameFree m p f = s.frameFree m p f := by
  simp only [State.frameFree, h.recPoisoned, h.frameRec]
theorem SameCores.frameUnreadable (h : SameCores s t) (m : Nat) (p : Pool) (f : Nat) : t.frameUnreadable m p f = s.frameUnreadable m p f := by
  unfold State.frameUnreadable
  rw [h.recPoisoned, h.frameRec, h.poisonOver]
theorem SameCores.frameBusy (h : SameCores s t) (m : Nat) (p : Pool) (c : Option CoreId) : t.frameBusy m p c = s.frameBusy m p c := by
  funext f
  simp only [State.frameBusy, State.bankBusyOver, h.frameFree, h.frameRec, h.bankBusy]
theorem SameCores.endBusy (h : SameCores s t) (j : Job) : t.endBusy j = s.endBusy j := by
  simp only [State.endBusy, State.poolBusy, h.bankBusy, h.poolOf, h.module, h.frameBusy]
theorem SameCores.lostFrame (h : SameCores s t) (m root : Nat) : t.lostFrame m root = s.lostFrame m root := by
  unfold State.lostFrame
  rw [h.poolOf]
  cases s.poolOf m root with
  | none => exact h.poisonOver m _ _
  | some p =>
    refine congrArg (List.any _) (funext fun f => ?_)
    rw [h.recPoisoned, h.frameFree, h.frameUnreadable, h.frameRec, h.rdPa, h.poisoned]
theorem SameCores.writing (h : SameCores s t) (j : Job) : t.writing j = s.writing j := by
  rw [h.rest]
  rfl
theorem SameCores.jobs (h : SameCores s t) : t.jobs = s.jobs := by
  rw [h.rest]
theorem SameCores.modules (h : SameCores s t) : t.modules = s.modules := by
  rw [h.rest]

/-- A core without write-outs writes nothing. -/
theorem writeOuts_none (h : ∀ k, s.core? c = some k → k.writeOuts = []) : SameCores s (s.writeOuts c) := by
  rcases Option.eq_none_or_eq_some (s.core? c) with hc | ⟨k, hc⟩
  · unfold State.writeOuts
    rw [hc]
    exact .refl s
  · have heq : s.writeOuts c = s.modCore c Core.sansWrites := by
      rw [writeOuts_eq hc, h k hc]
      rfl
    rw [heq]
    refine ⟨rfl, fun d => ?_⟩
    rw [core?_modCore]
    split_ifs with hd
    · subst hd
      rw [hc, Option.map_some, Core.sansWrites, ← h k hc]
    · rfl

theorem foldl_writeOuts_none : ∀ {l : List CoreId} {s : State}, (∀ c ∈ l, ∀ k, s.core? c = some k → k.writeOuts = []) → SameCores s (l.foldl State.writeOuts s)
  | [], s, _ => .refl s
  | c :: l, s, h => by
    have hfirst := writeOuts_none (h c List.mem_cons_self)
    exact hfirst.trans (foldl_writeOuts_none fun d hd k hk => h d (List.mem_cons_of_mem _ hd) k ((hfirst.cores d).symm.trans hk))

theorem retirement_stage (hj : s.job? a = some j) (hs : j.stage ≠ .retiring) : exec (.retirement a) s = .next s := by
  refine congrArg Host.Outcome.next ?_
  unfold retirement
  simp only [hj]
  exact if_pos (bne_iff_ne.mpr hs)

/-- The state in which a job without write-outs that waits for nothing retires: its entry names the superstep, and positions are readmitted. -/
def State.retired (s : State) (j : Job) : State :=
  j.quadMates.foldl State.readmit ((j.places.foldl State.writeOuts s).modEntry j.home j.jsn fun e => { e with ssn := s.ssnOf j })

theorem retirement_ends (hj : s.job? a = some j) (hs : j.stage = .retiring) (hw : ∀ c ∈ j.places, ∀ k, s.core? c = some k → k.writeOuts = []) (hwr : s.writing j = false)
    (he : j.endCause = none) (hbusy : s.endBusy j = false) (hlost : ∀ m ∈ j.modules, s.lostFrame m j.root = false) :
    retirement a s = (s.retired j).endJob a jCOMPLETED 0 none := by
  have hsame := foldl_writeOuts_none hw
  have hno : (j.places.any fun c => (((j.places.foldl State.writeOuts s).core? c).map fun k => !k.writeOuts.isEmpty).getD false) = false :=
    List.any_eq_false.mpr fun c hc => by
      rw [hsame.cores]
      cases hk : s.core? c with
      | none => simp
      | some k => simp [hw c hc k hk]
  have hlost' : (j.modules.any fun m => (j.places.foldl State.writeOuts s).lostFrame m j.root) = false :=
    List.any_eq_false.mpr fun m hm => by
      rw [hsame.lostFrame, hlost m hm]
      exact Bool.false_ne_true
  unfold retirement
  simp only [hj, hs, hno, hlost', he, hsame.writing, hwr, hsame.endBusy, hbusy]
  rfl

/-- A retiring job ends COMPLETED (R357, R358). -/
theorem retirement_completes (hj : s.job? a = some j) (hs : j.stage = .retiring) (hw : ∀ c ∈ j.places, ∀ k, s.core? c = some k → k.writeOuts = []) (hwr : s.writing j = false)
    (he : j.endCause = none) (hp : j.pending = []) (hbusy : s.endBusy j = false) (hlost : ∀ m ∈ j.modules, s.lostFrame m j.root = false)
    (hin : InSlot s j.home j.jsn e) (hf : e.final = false) : Does (.retirement a) s fun t => t.job? a = none ∧ OtherJobs a s t ∧ (∀ x ∈ t.cores, x.2.asid ≠ a) ∧
      (∀ m ∈ t.net, m.asid ≠ a) ∧ t.entry? j.home j.jsn = some { e with ssn := s.ssnOf j, state := 4, cause := 0 } ∧
      ∃ d', t.module? j.home = some d' ∧ ({ status := 16, cause := 0, jsn := j.jsn, qseq := e.qseq } : Completion) ∈ (d'.queue e.queue).pending := by
  have hsame := foldl_writeOuts_none hw
  have hread : Readmits j.home ((j.places.foldl State.writeOuts s).modEntry j.home j.jsn fun e => { e with ssn := s.ssnOf j }) (s.retired j) :=
    foldl_readmits (fun v c => readmit_readmits v j.home c) _ _
  have hjobs : (s.retired j).jobs = s.jobs := (hread.keeps.jobs (by simp)).trans (((modEntry_keeps _ _ _ _).jobs (by simp)).trans hsame.jobs)
  have hjob : (s.retired j).job? a = some j := by
    rw [State.job?, hjobs]
    exact hj
  have hslot : InSlot (s.retired j) j.home j.jsn { e with ssn := s.ssnOf j } :=
    ((hin.of_books (sameBooks_of_modules _ hsame.modules)).modEntry_same (f := fun e => { e with ssn := s.ssnOf j }) rfl).of_books hread.books
  have hfinal : ({ e with ssn := s.ssnOf j } : Entry).final = false := hf
  obtain ⟨hgone, hothers, hcores, hnet, hend⟩ := endJob_ends hjob hslot hfinal (by rw [hp]; exact nofun) jCOMPLETED 0 none
  exact ⟨_, congrArg Host.Outcome.next (retirement_ends hj hs hw hwr he hbusy hlost), hgone, (otherJobs_of_jobs a hjobs).trans hothers, hcores, hnet, hend.entry,
    endJob_completes hjob hslot hfinal hp jCOMPLETED 0 none⟩

end Sys2Proof.Machine

/-! Supersteps: the clauses of votes, commit, rollback, boundary and retirement put together (R279 to R285, R330 to R336). -/

namespace Sys2Proof.Machine

open Sys2Proof.Laws

variable {s t u : State} {c : CoreId} {k : Core} {j : Job} {n a ssn : Nat} {v : Vote} {e : Entry} {d : Module}

/-- The first vote's operation is at hand once all votes are in. -/
theorem voted_first (hp : j.proxies = []) (hn : 0 < j.n) (hall : ∀ i, i < j.n → s.voteIn (j.voted v) i = true) : ∃ v0, (j.voted v).voteOf 0 = some v0 :=
  Option.isSome_iff_exists.mp (voteOf_isSome (j := j.voted v) hp (hall 0 hn))

/-- The votes agree: COMMIT with the combined value (R281). -/
theorem barrierMessage_commits (hb : BarrierAt s n a (.vote v ssn) j) (hv : j.verdict = none) (hn : 0 < j.n)
    (hall : ∀ i, i < j.n → s.voteIn (j.voted (takenVote s j v ssn)) i = true) (hp : j.proxies = [])
    (hagree : ∀ u ∈ (j.voted (takenVote s j v ssn)).votes, u.abort = false ∧ u.op = (takenVote s j v ssn).op) : Does (.barrierMessage n) s fun t =>
      Decided a j { commit := true, cause := 0, index := 0, origin := 0, val := combineAll (takenVote s j v ssn).op ((j.voted (takenVote s j v ssn)).votes.map Vote.val) } t ∧
      Keeps [.jobs, .net] s t ∧ OtherJobs a s t := by
  obtain ⟨v0, hfirst⟩ := voted_first hp hn hall
  have hout := (outcomeOf_agreed (j := j.voted (takenVote s j v ssn)) hp (fun u hu => (hagree u hu).1) hfirst).1 (takenVote s j v ssn).op fun u hu => (hagree u hu).2
  exact barrierMessage_decides hb hv hall hout

/-- Settles O43: each part of the closing barrier and of what follows is a lemma above, on the state it starts from; a boundary and a retirement end a job through the one lemma
on the end of a job. -/
theorem supersteps : Obligations.Supersteps := by
  unfold Obligations.Supersteps
  refine ⟨fun s n a j v ssn hb => ?votes, fun s n a j v hb => ⟨fun h => ⟨_, congrArg Host.Outcome.next (furtherAbort_dropped hb h), dropMsg_dropped n s⟩, furtherAbort_joins hb⟩,
    fun s n a j cause index origin hb => ⟨fun h => ⟨_, congrArg Host.Outcome.next (urgentAbort_dropped hb h), dropMsg_dropped n s⟩, urgentAbort_decides hb⟩,
    fun s n x k hm hc => ⟨fun hkind hdead hasid hopen => doomNotice_stops hm hc hkind hdead hasid hopen, fun v hkind => outcomeArrival_starts hm hc hkind⟩,
    fun s c k j hc hj => ?apply, fun s c k j hc hj => ?rollback, fun s a j hj => ?boundary, fun s a j d e hj => ?retirement⟩
  case votes =>
    refine ⟨fun hv => ⟨_, congrArg Host.Outcome.next (barrierMessage_dropped hb hv), dropMsg_dropped n s⟩, barrierMessage_joins hb, barrierMessage_aborts hb,
      fun hv hn hall hp hagree => barrierMessage_commits hb hv hn hall hp hagree, fun v0 u hv hall hp hno _ hfirst hu hne hleast => ?_,
      fun i cause hv hall hi habort hbefore => ?_⟩
    · have hout := (outcomeOf_agreed (j := j.voted (takenVote s j v ssn)) hp hno hfirst).2 u hu hne hleast
      exact barrierMessage_decides hb hv hall hout
    · have hout := outcomeOf_aborted (j := j.voted (takenVote s j v ssn)) hi habort hbefore
      exact barrierMessage_decides hb hv hall hout
  case apply =>
    refine ⟨fun hp hw => commitApply_idle hc hj (outsDue_eq_false hw) (.inl hp),
      fun hp hturn => commitApply_idle hc hj (outsDue_eq_false (.inr (by rw [hp]; exact nofun))) (.inr hturn),
      fun hp hw hplace => commitApply_busy hc hj hp hw hplace,
      fun w d hp hw htier hbank htable hm hall hstage => commitApply_writes hc hj hp hw htier hbank htable hm hall hstage,
      fun hp hturn => commitApply_applies hc hj hp hturn⟩
  case rollback =>
    refine ⟨rollback_waits hc hj, fun hp hall hd hf => ?_, fun hp hall hd hf => ?_, fun d die r hp hall hf hm hdie hr => rollback_patches hc hj hp hall hf hm hdie hr⟩
    · obtain ⟨t, ht, hcores, -⟩ := rollback_restores hc hj hp hall hd hf
      exact ⟨t, ht, hcores⟩
    · obtain ⟨t, ht, -, hjob⟩ := rollback_restores hc hj hp hall hd hf
      exact ⟨t, ht, hjob⟩
  case boundary =>
    refine ⟨superstepStart_stage hj, superstepStart_holds hj, fun v hv => superstepStart_early hj hv, fun v hs hv hb hr hp he ht hh => superstepStart_held hj hs hv hb hr hp he ht hh,
      fun v cause hv hb hr he hbusy => superstepStart_endBusy hj hv hb hr he hbusy, fun v d e hs hv hb hr he ht hh hbusy hd hslot hjsn hf _ => ⟨fun r hp hne => ?_, fun r hp _ hpaused => ?_⟩,
      fun c k cause hv hplace hc _ hp _ he hcause hremove => superstepStart_unfenced hj hv hplace hc hp he hcause hremove,
      fun hs hv hheld hpaused hparked hr hy hstaged hfenced hrounds => ⟨fun hbusy => ?_, fun d e hbusy hp hd hslot hjsn hf => ?_⟩,
      fun hs hv hheld hpaused hparked hr hy hstaged hrounds hfenced hdue => ?_⟩
    · exact superstepStart_cancels hj hs hv hb hr he ht hh hbusy ⟨d, hd, hslot, hjsn⟩ hf hp hne
    · exact superstepStart_pauses hj hs hv hb hr he ht hh hp hpaused
    · exact superstepStart_linkBusy hj hs hv ⟨hheld, hpaused, hparked, hr, hy, hstaged, hfenced⟩ hrounds hbusy
    · exact superstepStart_link hj hs hv ⟨hheld, hpaused, hparked, hr, hy, hstaged, hfenced⟩ hrounds hbusy hp ⟨d, hd, hslot, hjsn⟩ hf
    · exact superstepStart_runs hj hs hv ⟨hheld, hpaused, hparked, hr, hy, hstaged, hfenced⟩ hrounds hdue
  case retirement =>
    exact ⟨retirement_stage hj, fun hs hw hwr he hp hbusy hlost hd hslot hjsn hf => retirement_completes hj hs hw hwr he hp hbusy hlost ⟨d, hd, hslot, hjsn⟩ hf⟩

end Sys2Proof.Machine

/-! The scalar F instructions and the taper conversions (R44 to R51, R128, R183): what they write and which flags they add. -/

namespace Sys2Proof.Machine

open Sys2Proof.Laws

variable {s : State} {i : Issuer}

-- completing with a result and flags
/-- More parts may be left out of the frame of a context. -/
theorem CtxFrame.mono {w w' : List CtxPart} {a b : Ctx} (h : CtxFrame w a b) (hw : w ⊆ w') : CtxFrame w' a b :=
  ⟨fun r hr => h.x r fun hm => hr (hw hm), fun r hr => h.f r fun hm => hr (hw hm), fun r hr => h.p r fun hm => hr (hw hm), fun hv => h.v fun hm => hv (hw hm),
    fun n hn => h.lc n fun hm => hn (hw hm), fun hf => h.fcsr fun hm => hf (hw hm), fun hf => h.flags fun hm => hf (hw hm), h.enables, h.life, h.level, h.marks,
    h.late, h.entry, h.fwEpc⟩

theorem setF_fcsr (k : Ctx) (fd : R5) (v : Half32) : (k.setF fd v).fcsr = k.fcsr := rfl
theorem setX_fcsr (k : Ctx) (rd : R5) (v : Word) : (k.setX rd v).fcsr = k.fcsr := by unfold Ctx.setX; split_ifs <;> rfl
theorem setX_flags (k : Ctx) (rd : R5) (v : Word) : (k.setX rd v).flags = k.flags := by unfold Ctx.setX; split_ifs <;> rfl

/-- Exceptions that are added to a context change its `fcsr` alone. -/
theorem CtxFrame.orFflags {w : List CtxPart} {a k : Ctx} (h : CtxFrame w a k.advance) (fl : BitVec 8) (hw : .fcsr ∈ w) : CtxFrame w a (k.orFflags fl).advance :=
  ⟨h.x, h.f, h.p, h.v, h.lc, fun hn => absurd hw hn, h.flags, h.enables, h.life, h.level, h.marks, h.late, h.entry, h.fwEpc⟩
/-- Flags that are added to a context change its `qflags` alone. -/
theorem CtxFrame.orQflags {w : List CtxPart} {a k : Ctx} (h : CtxFrame w a k.advance) (fl : Flags) (hw : .flags ∈ w) : CtxFrame w a (k.orQflags fl).advance :=
  ⟨h.x, h.f, h.p, h.v, h.lc, h.fcsr, fun hn => absurd hw hn, h.enables, h.life, h.level, h.marks, h.late, h.entry, h.fwEpc⟩

/-- A pattern for `f[fd]` and exceptions: the instruction completes with both. -/
theorem finish_writesF (h : s.issuer? = some i) (fd : R5) (v : Half32) (fl : BitVec 8) :
    WritesF s i fd v fl (.next (s.finish i ((i.ctx.setF fd v).orFflags fl))) := by
  have hx := finish_ctxOf h ((i.ctx.setF fd v).orFflags fl)
  refine ⟨_, rfl, completed_of_advance hx rfl rfl, ?_, ?_, finish_onlyCtx h _, ?_⟩ <;> rw [hx]
  · exact (getF_setF i.ctx fd fd v).trans (if_pos rfl)
  · rfl
  · exact (setF_frame i.ctx fd v).orFflags fl (by simp)

/-- A value for `x[rd]` and exceptions. -/
theorem finish_writesXFlags (h : s.issuer? = some i) (rd : R5) (v : Word) (fl : BitVec 8) :
    WritesXFlags s i rd v fl (.next (s.finish i ((i.ctx.setX rd v).orFflags fl))) := by
  have hx := finish_ctxOf h ((i.ctx.setX rd v).orFflags fl)
  refine ⟨_, rfl, completed_of_advance hx (setX_pc i.ctx rd v) (setX_instret i.ctx rd v), ?_, ?_, finish_onlyCtx h _, ?_⟩ <;> rw [hx]
  · exact (getX_setX i.ctx rd rd v).trans (if_pos rfl)
  · exact congrArg (· ||| fl) (setX_fcsr i.ctx rd v)
  · exact ((setX_frame i.ctx rd v).mono (by simp)).orFflags fl (by simp)

-- rounding modes
theorem frm_toNat (k : Ctx) : k.frm.toNat = k.fcsr.toNat / 32 := by
  have := k.fcsr.isLt
  unfold Ctx.frm
  rw [BitVec.extractLsb'_toNat, Nat.shiftRight_eq_div_pow]
  omega

/-- The code of the rounding mode: the rm field, or `frm` for rm = 7. -/
theorem roundingCode (k : Ctx) (rm : R3) : (if rm = 7 then k.frm else rm).toNat = if rm = 7 then k.fcsr.toNat / 32 else rm.toNat := by
  rw [apply_ite BitVec.toNat, frm_toNat]

theorem rounding_of_code {k : Ctx} {rm : R3} {m : Rm}
    (h : (if rm = 7 then k.fcsr.toNat / 32 else rm.toNat, m) ∈ [(0, Rm.rne), (1, .rtz), (2, .rdn), (3, .rup), (4, .rmm)]) : k.rounding rm = some m := by
  unfold Ctx.rounding
  rw [roundingCode]
  generalize (if rm = 7 then k.fcsr.toNat / 32 else rm.toNat) = n at h
  simp only [List.mem_cons, Prod.mk.injEq, List.not_mem_nil, or_false] at h
  obtain ⟨rfl, rfl⟩ | ⟨rfl, rfl⟩ | ⟨rfl, rfl⟩ | ⟨rfl, rfl⟩ | ⟨rfl, rfl⟩ := h <;> rfl

theorem rounding_reserved {k : Ctx} {rm : R3} (h : 5 ≤ (if rm = 7 then k.fcsr.toNat / 32 else rm.toNat)) : k.rounding rm = none := by
  unfold Ctx.rounding
  rw [roundingCode]
  generalize (if rm = 7 then k.fcsr.toNat / 32 else rm.toNat) = n at h
  match n, h with
  | n + 5, _ => rfl

/-- A scalar F instruction with a rounding mode completes with its result in the mode, and a reserved mode traps. -/
def RoundsTo (s : State) (i : Issuer) (rm : R3) (out : Rm → FpResult) (r : Result) : Prop :=
  (∀ m, i.ctx.rounding rm = some m → FpWrites s i (out m) r) ∧ (i.ctx.rounding rm = none → r = .next (s.trapI i 0x01 (s.ir.setWidth 64)))

theorem fpRound_roundsTo (h : s.issuer? = some i) (fd : R5) (rm : R3) (f : Ctx → Rm → Half32 × BitVec 8) :
    RoundsTo s i rm (fun m => .f fd (f i.ctx m).1 (f i.ctx m).2) (fpRound s fd rm f) := by
  refine ⟨fun m hm => ?_, fun hm => ?_⟩ <;> unfold fpRound <;> simp only [issue_eq h, hm]
  · exact finish_writesF h fd _ _
  · rfl

theorem fpRoundX_roundsTo (h : s.issuer? = some i) (rd : R5) (rm : R3) (f : Ctx → Rm → Word × BitVec 8) :
    RoundsTo s i rm (fun m => .x rd (f i.ctx m).1 (f i.ctx m).2) (fpRoundX s rd rm f) := by
  refine ⟨fun m hm => ?_, fun hm => ?_⟩ <;> unfold fpRoundX <;> simp only [issue_eq h, hm]
  · exact finish_writesXFlags h rd _ _
  · rfl

-- integers and words
/-- An unsigned 32-bit result is sign-extended (R128). -/
theorem sextW_ofInt (v : Int) : sextW (BitVec.ofInt 32 v) = wrapW v := by
  unfold sextW wrapW BitVec.signExtend
  rw [BitVec.toInt_ofInt]

theorem low32_toInt (v : Word) : (low32 v).toInt = Int.bmod v.toInt (2 ^ 32) := by
  unfold low32
  rw [BitVec.toInt_setWidth, BitVec.toInt_eq_toNat_bmod, Int.bmod_bmod_of_dvd (by decide)]

theorem low32_toNat (v : Word) : (low32 v).toNat = v.toNat % 2 ^ 32 := BitVec.toNat_setWidth 32 v

/-- A conversion to an integer range, with the word that it puts into `x[rd]`. -/
theorem fcvt_roundsTo (h : s.issuer? = some i) (rd a : R5) (rm : R3) (lo hi : Int) (w : Int → Word) :
    RoundsTo s i rm (fun m => .x rd (w (toIntF m lo hi (i.ctx.getF a)).1) (toIntF m lo hi (i.ctx.getF a)).2)
      (fpRoundX s rd rm fun k m => (w (toIntF m lo hi (k.getF a)).1, (toIntF m lo hi (k.getF a)).2)) :=
  fpRoundX_roundsTo h rd rm fun k m => (w (toIntF m lo hi (k.getF a)).1, (toIntF m lo hi (k.getF a)).2)

/-- Every scalar F instruction with a rounding mode is rounded as `fpRounded` says. -/
theorem exec_roundsTo (h : s.issuer? = some i) {ins : Instr} {rm : R3} {out : Rm → FpResult} (hform : fpRounded ins i.ctx = some (rm, out)) :
    RoundsTo s i rm out (exec ins s) := by
  unfold fpRounded at hform
  split at hform
  case h_1 fd a b c rm => cases hform; exact fpRound_roundsTo h fd rm fun k m => fmaF m false false (k.getF a) (k.getF b) (k.getF c)
  case h_2 fd a b c rm => cases hform; exact fpRound_roundsTo h fd rm fun k m => fmaF m false true (k.getF a) (k.getF b) (k.getF c)
  case h_3 fd a b c rm => cases hform; exact fpRound_roundsTo h fd rm fun k m => fmaF m true false (k.getF a) (k.getF b) (k.getF c)
  case h_4 fd a b c rm => cases hform; exact fpRound_roundsTo h fd rm fun k m => fmaF m true true (k.getF a) (k.getF b) (k.getF c)
  case h_5 fd a b rm => cases hform; exact fpRound_roundsTo h fd rm fun k m => addF m (k.getF a) (k.getF b)
  case h_6 fd a b rm => cases hform; exact fpRound_roundsTo h fd rm fun k m => subF m (k.getF a) (k.getF b)
  case h_7 fd a b rm => cases hform; exact fpRound_roundsTo h fd rm fun k m => mulF m (k.getF a) (k.getF b)
  case h_8 fd a b rm => cases hform; exact fpRound_roundsTo h fd rm fun k m => divF m (k.getF a) (k.getF b)
  case h_9 fd a rm => cases hform; exact fpRound_roundsTo h fd rm fun k m => sqrtF m (k.getF a)
  case h_10 rd a rm => cases hform; exact fcvt_roundsTo h rd a rm (-2147483648) 2147483647 fun v => BitVec.ofInt 64 v
  case h_11 rd a rm =>
    cases hform
    simp only [← sextW_ofInt]
    exact fcvt_roundsTo h rd a rm 0 4294967295 fun v => sextW (BitVec.ofInt 32 v)
  case h_12 rd a rm => cases hform; exact fcvt_roundsTo h rd a rm (-9223372036854775808) 9223372036854775807 fun v => BitVec.ofInt 64 v
  case h_13 rd a rm => cases hform; exact fcvt_roundsTo h rd a rm 0 18446744073709551615 fun v => BitVec.ofInt 64 v
  case h_14 fd r rm => cases hform; simp only [← low32_toInt]; exact fpRound_roundsTo h fd rm fun k m => ofIntF m (low32 (k.getX r)).toInt
  case h_15 fd r rm => cases hform; simp only [← low32_toNat]; exact fpRound_roundsTo h fd rm fun k m => ofIntF m ((low32 (k.getX r)).toNat : Int)
  case h_16 fd r rm => cases hform; exact fpRound_roundsTo h fd rm fun k m => ofIntF m (k.getX r).toInt
  case h_17 fd r rm => cases hform; exact fpRound_roundsTo h fd rm fun k m => ofIntF m ((k.getX r).toNat : Int)
  case h_18 => cases hform

/-- The scalar F instructions with a rounding mode (R45, R128). -/
theorem fpRoundedRule : FpRoundedRule := by
  intro s i ins rm out h hform
  obtain ⟨hwrites, htraps⟩ := exec_roundsTo h hform
  exact ⟨fun m hm => hwrites m (rounding_of_code hm), fun hr => htraps (rounding_reserved hr)⟩

-- the instructions that do not round
theorem fpF_writes (h : s.issuer? = some i) (fd : R5) (f : Ctx → Half32 × BitVec 8) :
    FpWrites s i (.f fd (f i.ctx).1 (f i.ctx).2) (fpF s fd f) := by
  unfold fpF
  rw [issue_eq h]
  exact finish_writesF h fd _ _

theorem fpX_writes (h : s.issuer? = some i) (rd : R5) (f : Ctx → Word × BitVec 8) :
    FpWrites s i (.x rd (f i.ctx).1 (f i.ctx).2) (fpX s rd f) := by
  unfold fpX
  rw [issue_eq h]
  exact finish_writesXFlags h rd _ _

/-- A magnitude with a sign, as one pattern. -/
theorem signed_pattern (a : Half32) (sign : Bool) : BitVec.ofNat 32 (a.toNat % 2 ^ 31 + if sign then 2 ^ 31 else 0) = BitVec.cons sign (a.setWidth 31) := by
  apply BitVec.eq_of_toNat_eq
  rw [BitVec.toNat_ofNat, BitVec.toNat_cons', BitVec.toNat_setWidth]
  cases sign <;> simp <;> omega

theorem signBit_getLsbD (n : Nat) : signBit.getLsbD n = decide (n = 31) := by
  unfold signBit
  rw [show (0x80000000 : Half32) = BitVec.twoPow 32 31 by decide, BitVec.getLsbD_twoPow]
  simp [eq_comm]

/-- A pattern is its magnitude with the bit of its own where `f` puts it, if `f` keeps the magnitude. -/
theorem eq_cons_of_bits {a r : Half32} {sign : Bool} (hlow : ∀ n, n < 31 → r.getLsbD n = a.getLsbD n) (hsign : r.getLsbD 31 = sign) :
    r = BitVec.cons sign (a.setWidth 31) := by
  apply BitVec.eq_of_getLsbD_eq
  intro n hn
  rw [BitVec.getLsbD_cons]
  by_cases h : n = 31
  · rw [if_pos h, h, hsign]
  · have hlt : n < 31 := by omega
    rw [if_neg h, hlow n hlt, BitVec.getLsbD_setWidth, decide_eq_true hlt, Bool.true_and]

theorem getLsbD_sign_not (b : Half32) : (~~~b).getLsbD 31 = !b.getLsbD 31 := by simp only [BitVec.getLsbD_not]; rfl

theorem withSign_eq (a b : Half32) : (a &&& ~~~signBit) ||| (b &&& signBit) = BitVec.cons (b.getLsbD 31) (a.setWidth 31) := by
  refine eq_cons_of_bits (fun n hn => ?_) ?_
  · simp only [BitVec.getLsbD_or, BitVec.getLsbD_and, BitVec.getLsbD_not, signBit_getLsbD, show n ≠ 31 by omega, show n < 32 by omega, decide_false, decide_true,
      Bool.not_false, Bool.and_true, Bool.and_false, Bool.or_false]
  · simp only [BitVec.getLsbD_or, BitVec.getLsbD_and, BitVec.getLsbD_not, signBit_getLsbD, decide_true, Bool.not_true, Bool.and_false, Bool.and_true, Bool.false_or]

theorem withSign_xor_eq (a b : Half32) : a ^^^ (b &&& signBit) = BitVec.cons (a.getLsbD 31 != b.getLsbD 31) (a.setWidth 31) := by
  refine eq_cons_of_bits (fun n hn => ?_) ?_
  · simp only [BitVec.getLsbD_xor, BitVec.getLsbD_and, signBit_getLsbD, show n ≠ 31 by omega, decide_false, Bool.and_false, Bool.xor_false]
  · simp only [BitVec.getLsbD_xor, BitVec.getLsbD_and, signBit_getLsbD, decide_true, Bool.and_true]

/-- A comparison, with the operands that order and those that do not. -/
theorem cmpF_eq (quiet : Bool) (f : Int → Bool) (a b : Half32) : cmpF quiet f a b = match Num.cmp (numF a) (numF b) with
    | some c => (truth (f c = true), 0)
    | none => (0, if quiet && !(isSignalling a || isSignalling b) then 0 else ffNV) := by
  unfold cmpF truth snanFlag
  cases Num.cmp (numF a) (numF b) with
  | some c => rfl
  | none => cases quiet <;> cases ha : isSignalling a <;> cases hb : isSignalling b <;> simp [ha, hb]

/-- Every scalar F instruction that does not round has the result of `fpExact`. -/
theorem fpExactRule : FpExactRule := by
  intro s i ins o h hform
  have compare (rd a b : R5) (quiet : Bool) (f : Int → Bool)
      (hform : (match Num.cmp (numF (i.ctx.getF a)) (numF (i.ctx.getF b)) with
        | some c => some (FpResult.x rd (truth (f c = true)) 0)
        | none => some (.x rd 0 (if quiet && !(isSignalling (i.ctx.getF a) || isSignalling (i.ctx.getF b)) then 0 else ffNV))) = some o) :
      FpWrites s i o (fpX s rd fun k => cmpF quiet f (k.getF a) (k.getF b)) := by
    have hw := fpX_writes h rd fun k => cmpF quiet f (k.getF a) (k.getF b)
    rw [cmpF_eq] at hw
    split at hform <;> rename_i hc <;> cases hform <;> rw [hc] at hw <;> exact hw
  unfold fpExact at hform
  split at hform
  case h_1 fd a b =>
    cases hform
    rw [signed_pattern, ← withSign_eq]
    exact fpF_writes h fd fun k => ((k.getF a &&& ~~~signBit) ||| (k.getF b &&& signBit), 0)
  case h_2 fd a b =>
    cases hform
    rw [signed_pattern, ← getLsbD_sign_not, ← withSign_eq]
    exact fpF_writes h fd fun k => ((k.getF a &&& ~~~signBit) ||| (~~~(k.getF b) &&& signBit), 0)
  case h_3 fd a b =>
    cases hform
    rw [signed_pattern, ← withSign_xor_eq]
    exact fpF_writes h fd fun k => (k.getF a ^^^ (k.getF b &&& signBit), 0)
  case h_4 fd a b => cases hform; exact fpF_writes h fd fun k => minMaxF false (k.getF a) (k.getF b)
  case h_5 fd a b => cases hform; exact fpF_writes h fd fun k => minMaxF true (k.getF a) (k.getF b)
  case h_6 rd a b => exact compare rd a b true _ hform
  case h_7 rd a b => exact compare rd a b false _ hform
  case h_8 rd a b => exact compare rd a b false _ hform
  case h_9 rd a => cases hform; exact fpX_writes h rd fun k => (classF (k.getF a), 0)
  case h_10 rd a => cases hform; exact fpX_writes h rd fun k => (sextW (k.getF a), 0)
  case h_11 fd r => cases hform; exact fpF_writes h fd fun k => (low32 (k.getX r), 0)
  case h_12 => cases hform

/-- Settles O49: each instruction computes the result of its form, and completing with it writes that and nothing else. -/
theorem fpResults : Obligations.FpResults := ⟨fpRoundedRule, fpExactRule⟩

-- NaN operands (R45)
theorem numF_of_isNaN {v : Half32} (h : isNaN32 v) : numF v = .nan := by
  unfold isNaN32 at h
  exact if_pos h

theorem isSignalling_iff (v : Half32) : isSignalling v = true ↔ isSNaN32 v := by
  unfold isSignalling isSNaN32
  rw [BitVec.getLsbD, Nat.testBit_eq_decide_div_mod_eq]
  simp only [Bool.and_eq_true, decide_eq_true_eq, Bool.not_eq_true', decide_eq_false_iff_not]
  omega

theorem snanFlag_eq_ffNV {l : List Half32} (h : ∃ v ∈ l, isSNaN32 v) : snanFlag l = ffNV := by
  obtain ⟨v, hv, hs⟩ := h
  unfold snanFlag
  rw [if_pos (List.any_eq_true.mpr ⟨v, hv, (isSignalling_iff v).mpr hs⟩)]

theorem snanFlag_eq_zero {l : List Half32} (h : ∀ v ∈ l, ¬ isSNaN32 v) : snanFlag l = 0 := by
  unfold snanFlag
  rw [if_neg]
  rw [List.any_eq_true]
  exact fun ⟨v, hv, hs⟩ => h v hv ((isSignalling_iff v).mp hs)

theorem add_nan (m : Rm) {x y : Num} (h : x = .nan ∨ y = .nan) : Num.add m x y = (.nan, 0) := by
  rcases h with rfl | rfl
  · rfl
  · cases x <;> rfl

theorem mul_nan {x y : Num} (h : x = .nan ∨ y = .nan) : Num.mul x y = (.nan, 0) := by
  rcases h with rfl | rfl
  · rfl
  · cases x <;> rfl

/-- A NaN factor or addend makes the fused result a NaN. -/
theorem fma_nan (m : Rm) {x y z : Num} (h : (x = .nan ∨ y = .nan) ∨ z = .nan) : (Num.fma m x y z).1 = .nan := by
  unfold Num.fma
  rcases h with h | h
  · simp only [mul_nan h, add_nan m (.inl rfl)]
  · simp only [add_nan m (.inr h)]

/-- The canonical NaN is what a NaN result is rounded to, and rounding adds no flag (R44). -/
theorem roundF_nan (m : Rm) (fl : Flags) (extra : BitVec 8) : roundF m (.nan, fl) extra = (0x7FC00000, toFflags fl ||| extra) := by
  simp [roundF, FloatFmt.round, FloatFmt.nanPat, fp32]

/-- What a result with a NaN operand is: the canonical NaN, with NV for a signalling operand; where `quiet` holds nothing else raises a flag. -/
def NaNResult (quiet : Prop) (l : List Half32) (r : Half32 × BitVec 8) : Prop :=
  r.1 = 0x7FC00000 ∧ ((∃ v ∈ l, isSNaN32 v) → r.2.getLsbD 4 = true) ∧ (quiet → (∀ v ∈ l, ¬ isSNaN32 v) → r.2 = 0)

theorem nanResult_roundF (m : Rm) {r : Num × Flags} (l : List Half32) (hr : r.1 = .nan) : NaNResult (r.2 = 0) l (roundF m r (snanFlag l)) := by
  obtain ⟨x, fl⟩ := r
  obtain rfl : x = .nan := hr
  rw [roundF_nan]
  refine ⟨rfl, fun h => ?_, fun hx h => ?_⟩
  · rw [snanFlag_eq_ffNV h, BitVec.getLsbD_or]
    simp [ffNV]
  · obtain rfl : fl = 0 := hx
    rw [snanFlag_eq_zero h]
    rfl

theorem nanResult_of_eq (m : Rm) {x : Num × Flags} {l : List Half32} (hx : x = (.nan, 0)) : NaNResult True l (roundF m x (snanFlag l)) := by
  obtain ⟨hv, hnv, hz⟩ := nanResult_roundF m (r := x) l (by rw [hx])
  exact ⟨hv, hnv, fun _ => hz (by rw [hx])⟩

theorem neg_nan {x : Num} (h : x = .nan) : x.neg = .nan := by rw [h]; rfl

theorem nanResult_divF (m : Rm) {a b : Half32} (h : numF a = .nan ∨ numF b = .nan) : NaNResult True [a, b] (divF m a b) := by
  have hd : divF m a b = roundF m (.nan, 0) (snanFlag [a, b]) := by
    have hr : roundF m (.nan, 0) (snanFlag [a, b]) = (nanF, snanFlag [a, b]) := by
      rw [roundF_nan]
      exact congrArg (Prod.mk nanF) (BitVec.zero_or)
    unfold divF
    rcases h with h | h
    · simp only [h, hr]
    · simp only [h, hr]
      cases numF a <;> rfl
  rw [hd]
  exact nanResult_of_eq m rfl

/-- An instruction with the result of a NaN operand completes with it. -/
theorem fpRound_nan (h : s.issuer? = some i) (fd : R5) {f : Ctx → Rm → Half32 × BitVec 8} {quiet : Prop} {l : List Half32} (hr : NaNResult quiet l (f i.ctx .rne)) :
    ∃ t, fpRound s fd 0 f = .next t ∧ (t.ctxOf i.c i.k).getF fd = 0x7FC00000 ∧
      ((∃ v ∈ l, isSNaN32 v) → (t.ctxOf i.c i.k).fcsr.getLsbD 4 = true) ∧ (quiet → (∀ v ∈ l, ¬ isSNaN32 v) → (t.ctxOf i.c i.k).fcsr = i.ctx.fcsr) := by
  obtain ⟨hwrites, -⟩ := fpRound_roundsTo h fd 0 f
  obtain ⟨t, ht, -, hf, hfcsr, -⟩ := hwrites .rne rfl
  obtain ⟨hv, hnv, hz⟩ := hr
  refine ⟨t, ht, hf.trans hv, fun hs => ?_, fun hq hs => ?_⟩ <;> rw [hfcsr]
  · rw [BitVec.getLsbD_or, hnv hs, Bool.or_true]
  · rw [hz hq hs]
    exact BitVec.or_zero

/-- Settles O12: the exact operations answer a NaN for a NaN operand, and rounding makes it the canonical one. -/
theorem fpNaN : Obligations.FpNaN := by
  intro s i fd a b c ins ops h hmem hnan
  have two (x y : R5) (hx : ∃ r ∈ [x, y], isNaN32 (i.ctx.getF r)) : numF (i.ctx.getF x) = .nan ∨ numF (i.ctx.getF y) = .nan := by
    simp only [List.mem_cons, List.not_mem_nil, or_false, exists_eq_or_imp, exists_eq_left] at hx
    exact hx.imp numF_of_isNaN numF_of_isNaN
  have list (l : List R5) (t : State) {quiet : Prop} (hq : l.length = 2 → quiet)
      (ht : ((∃ v ∈ l.map i.ctx.getF, isSNaN32 v) → (t.ctxOf i.c i.k).fcsr.getLsbD 4 = true) ∧
        (quiet → (∀ v ∈ l.map i.ctx.getF, ¬ isSNaN32 v) → (t.ctxOf i.c i.k).fcsr = i.ctx.fcsr)) :
      ((∃ r ∈ l, isSNaN32 (i.ctx.getF r)) → (t.ctxOf i.c i.k).fcsr.getLsbD 4 = true) ∧
        (l.length = 2 → (∀ r ∈ l, ¬ isSNaN32 (i.ctx.getF r)) → (t.ctxOf i.c i.k).fcsr = i.ctx.fcsr) := by
    simp only [List.mem_map, exists_exists_and_eq_and, forall_exists_index, and_imp, forall_apply_eq_imp_iff₂] at ht ⊢
    exact ⟨ht.1, fun hl => ht.2 (hq hl)⟩
  simp only [List.mem_cons, Prod.mk.injEq, List.not_mem_nil, or_false] at hmem
  obtain ⟨rfl, rfl⟩ | ⟨rfl, rfl⟩ | ⟨rfl, rfl⟩ | ⟨rfl, rfl⟩ | ⟨rfl, rfl⟩ := hmem
  case inl =>
    obtain ⟨t, ht, hv, hfl⟩ := fpRound_nan h fd (f := fun k m => addF m (k.getF a) (k.getF b)) (nanResult_of_eq .rne (add_nan .rne (two a b hnan)))
    exact ⟨t, ht, hv, list [a, b] t (fun _ => trivial) hfl⟩
  case inr.inl =>
    obtain ⟨t, ht, hv, hfl⟩ := fpRound_nan h fd (f := fun k m => subF m (k.getF a) (k.getF b))
      (nanResult_of_eq .rne (add_nan .rne ((two a b hnan).imp_right neg_nan)))
    exact ⟨t, ht, hv, list [a, b] t (fun _ => trivial) hfl⟩
  case inr.inr.inl =>
    obtain ⟨t, ht, hv, hfl⟩ := fpRound_nan h fd (f := fun k m => mulF m (k.getF a) (k.getF b)) (nanResult_of_eq .rne (mul_nan (two a b hnan)))
    exact ⟨t, ht, hv, list [a, b] t (fun _ => trivial) hfl⟩
  case inr.inr.inr.inl =>
    obtain ⟨t, ht, hv, hfl⟩ := fpRound_nan h fd (f := fun k m => divF m (k.getF a) (k.getF b)) (nanResult_divF .rne (two a b hnan))
    exact ⟨t, ht, hv, list [a, b] t (fun _ => trivial) hfl⟩
  case inr.inr.inr.inr =>
    have three : (numF (i.ctx.getF a) = .nan ∨ numF (i.ctx.getF b) = .nan) ∨ numF (i.ctx.getF c) = .nan := by
      simp only [List.mem_cons, List.not_mem_nil, or_false, exists_eq_or_imp, exists_eq_left] at hnan
      exact (or_assoc.mpr hnan).imp (Or.imp numF_of_isNaN numF_of_isNaN) numF_of_isNaN
    obtain ⟨t, ht, hv, hfl⟩ := fpRound_nan h fd (f := fun k m => fmaF m false false (k.getF a) (k.getF b) (k.getF c))
      (nanResult_roundF .rne [i.ctx.getF a, i.ctx.getF b, i.ctx.getF c] (fma_nan .rne three))
    exact ⟨t, ht, hv, list [a, b, c] t nofun hfl⟩

end Sys2Proof.Machine

/-! The taper conversions (R49 to R51, R56, R183). -/

namespace Sys2Proof.Machine

open Sys2Proof.Laws

variable {s : State} {i : Issuer}

/-- A conversion has completed with its result and its flags, and nothing else has changed. -/
def TaperWrites (s : State) (i : Issuer) (o : FpResult) (fl : BitVec 7) (t : State) : Prop :=
  Completed i t ∧ (t.ctxOf i.c i.k).flags = i.ctx.flags ||| fl ∧ OnlyCtx i.c i.k s t ∧
    match o with
    | .x rd v _ => (t.ctxOf i.c i.k).getX rd = (if rd = 0 then 0 else v) ∧ CtxFrame [.x rd, .flags] i.ctx (t.ctxOf i.c i.k)
    | .f fd v _ => (t.ctxOf i.c i.k).getF fd = v ∧ CtxFrame [.f fd, .flags] i.ctx (t.ctxOf i.c i.k)

theorem finish_taperX (h : s.issuer? = some i) (rd : R5) (v : Word) (fl : Flags) :
    TaperWrites s i (.x rd v 0) fl (s.finish i ((i.ctx.setX rd v).orQflags fl)) := by
  have hx := finish_ctxOf h ((i.ctx.setX rd v).orQflags fl)
  refine ⟨completed_of_advance hx (setX_pc i.ctx rd v) (setX_instret i.ctx rd v), ?_, finish_onlyCtx h _, ?_, ?_⟩ <;> rw [hx]
  · exact congrArg (· ||| fl) (setX_flags i.ctx rd v)
  · exact (getX_setX i.ctx rd rd v).trans (if_pos rfl)
  · exact ((setX_frame i.ctx rd v).mono (by simp)).orQflags fl (by simp)

/-- A write of an f register leaves the exceptions too. -/
theorem setF_onlyF (k : Ctx) (fd : R5) (v : Half32) : CtxFrame [.f fd] k (k.setF fd v).advance :=
  have h := setF_frame k fd v
  ⟨fun r _ => h.x r (by simp), fun r hr => h.f r (by simpa using hr), fun r _ => h.p r (by simp), fun _ => h.v (by simp), fun n _ => h.lc n (by simp), fun _ => rfl,
    fun _ => h.flags (by simp), h.enables, h.life, h.level, h.marks, h.late, h.entry, h.fwEpc⟩

theorem finish_taperF (h : s.issuer? = some i) (fd : R5) (v : Half32) (fl : Flags) :
    TaperWrites s i (.f fd v 0) fl (s.finish i ((i.ctx.setF fd v).orQflags fl)) := by
  have hx := finish_ctxOf h ((i.ctx.setF fd v).orQflags fl)
  refine ⟨completed_of_advance hx rfl rfl, ?_, finish_onlyCtx h _, ?_, ?_⟩ <;> rw [hx]
  · rfl
  · exact (getF_setF i.ctx fd fd v).trans (if_pos rfl)
  · exact ((setF_onlyF i.ctx fd v).mono (by simp)).orQflags fl (by simp)

/-- The signed reading of the low bits is the balanced remainder. -/
theorem signedOf_eq_bmod {w : Nat} (hw : 0 < w) (p : Nat) : signedOf w p = Int.bmod p (2 ^ w) := by
  obtain ⟨v, rfl⟩ : ∃ v, w = v + 1 := ⟨w - 1, by omega⟩
  have h2 : 2 ^ (v + 1) = 2 * 2 ^ v := by rw [pow_succ, Nat.mul_comm]
  unfold signedOf Int.bmod
  rw [Nat.add_sub_cancel, h2]
  generalize 2 ^ v = n
  dsimp only
  split_ifs <;> omega

/-- A taper format reads its own bits only (R48). -/
theorem TaperFmt.decode_mod (f : TaperFmt) (p : Nat) : f.decode (p % 2 ^ f.n) = f.decode p := by
  unfold TaperFmt.decode
  rw [Nat.mod_mod]

theorem toTaper_writes (h : s.issuer? = some i) {f : TaperFmt} (hn : 0 < f.n) (rd fs : R5) :
    ∃ t, toTaper s f rd fs = .next t ∧
      TaperWrites s i (.x rd (BitVec.ofInt 64 (Int.bmod (f.encode (fp32.decode (i.ctx.getF fs).toNat)).1 (2 ^ f.n))) 0)
        (f.encode (fp32.decode (i.ctx.getF fs).toNat)).2 t := by
  unfold toTaper
  rw [issue_eq h, ← signedOf_eq_bmod hn]
  exact ⟨_, rfl, finish_taperX h rd _ _⟩

theorem ofTaper_writes (h : s.issuer? = some i) (f : TaperFmt) (fd rs : R5) :
    ∃ t, ofTaper s f fd rs = .next t ∧
      TaperWrites s i (.f fd (BitVec.ofNat 32 (roundRne fp32 (f.decode ((i.ctx.getX rs).toNat % 2 ^ f.n))).1) 0)
        (roundRne fp32 (f.decode ((i.ctx.getX rs).toNat % 2 ^ f.n))).2 t := by
  unfold ofTaper
  rw [issue_eq h, f.decode_mod]
  exact ⟨_, rfl, finish_taperF h fd _ _⟩

theorem taperConversionsRule : TaperConversionsRule := by
  intro s i ins o fl h hform
  cases ins
  case fcvtQt8S => cases hform; exact toTaper_writes h (by decide) ..
  case fcvtQt16S => cases hform; exact toTaper_writes h (by decide) ..
  case fcvtQt32S => cases hform; exact toTaper_writes h (by decide) ..
  case fcvtSQt8 => cases hform; exact ofTaper_writes h ..
  case fcvtSQt16 => cases hform; exact ofTaper_writes h ..
  case fcvtSQt32 => cases hform; exact ofTaper_writes h ..
  all_goals cases hform

/-- What `TaperExactRule` says of one pattern, as a test. -/
def qt8Exact (p : Nat) : Bool :=
  (p == 0x80 || ((roundRne fp32 (qt8.decode p)).2 == 0 && qt8.encode (fp32.decode (roundRne fp32 (qt8.decode p)).1) == (p, 0))) &&
    (qt8.decode p == .nar) == (p == 0x80)

theorem qt8Exact_all : (List.range 256).all qt8Exact = true := by decide +kernel

theorem taperExactRule : TaperExactRule := by
  intro p hp
  have h := List.all_eq_true.mp qt8Exact_all p (List.mem_range.mpr hp)
  simp only [qt8Exact, Bool.and_eq_true, Bool.or_eq_true, beq_iff_eq] at h
  obtain ⟨hexact, hnar⟩ := h
  exact ⟨hexact.resolve_left, by simpa using Bool.eq_iff_iff.mp hnar⟩

/-- Settles O52: each conversion completes with its pattern and flags, and the QT8 patterns are checked one by one. -/
theorem taperOps : Obligations.TaperOps := ⟨taperConversionsRule, taperExactRule⟩

end Sys2Proof.Machine

/-! SPAWN (R160, R169): which helper starts, and in which state. -/

namespace Sys2Proof.Machine

open Sys2Proof.Laws

variable {s t u : State} {i : Issuer} {c : CoreId} {core : Core} {rd rs1 rs2 : R5} {h : Nat}

-- the idle helpers
theorem idle_getLast? (h1 : 1 ≤ h) (h10 : h ≤ 10) (hidle : (core.ctx h).live = false) (hmax : ∀ n, h < n → n ≤ 10 → (core.ctx n).live = true) :
    core.idle.getLast? = some h := by
  have hrest : ((List.range (10 - h)).map (h + 1 + ·)).filter (fun n => n ≠ 0 && !(core.ctx n).live) = [] := by
    simp only [List.filter_eq_nil_iff, List.mem_map, List.mem_range, forall_exists_index, and_imp]
    rintro n m hm rfl
    simp [hmax (h + 1 + m) (by omega) (by omega)]
  rw [Core.idle, show 11 = h + 1 + (10 - h) by omega, List.range_add, List.filter_append, hrest, List.append_nil, List.range_succ, List.filter_append]
  have hself : [h].filter (fun n => n ≠ 0 && !(core.ctx n).live) = [h] := by
    rw [List.filter_singleton, hidle]
    simp [show h ≠ 0 by omega]
  rw [hself, List.getLast?_concat]

theorem idle_nil (h : ∀ n, 1 ≤ n → n ≤ 10 → (core.ctx n).live = true) : core.idle = [] := by
  unfold Core.idle
  rw [List.filter_eq_nil_iff]
  intro n hn
  rw [List.mem_range] at hn
  by_cases h0 : n = 0
  · simp [h0]
  · simp [h n (by omega) (by omega)]

-- what SPAWN answers (R169)
theorem exec_spawn_helper (hi : s.issuer? = some i) (hk : i.k ≠ 0) : exec (.spawn rd rs1 rs2) s = .next (s.trapI i 0x01 (s.ir.setWidth 64)) := by
  refine (issue_eq hi _).trans ?_
  simp only [if_pos hk]
  rfl

theorem exec_spawn_traps {cause : Nat} (hi : s.issuer? = some i) (hk : i.k = 0) (hc : entryCause i.job (i.ctx.getX rs1) = some cause) :
    exec (.spawn rd rs1 rs2) s = .next (s.trapI i cause (i.ctx.getX rs1)) := by
  refine (issue_eq hi _).trans ?_
  simp only [hk, ne_eq, not_true_eq_false, if_false, hc]

theorem exec_spawn_starts (hi : s.issuer? = some i) (hk : i.k = 0) (hg : GoodTarget i.job (i.ctx.getX rs1)) (hl : i.core.idle.getLast? = some h) :
    exec (.spawn rd rs1 rs2) s = .next (s.spawnOn i.c i.k rd (i.ctx.getX rs1) (i.ctx.getX rs2) h) := by
  refine (issue_eq hi _).trans ?_
  simp only [hk, ne_eq, not_true_eq_false, if_false, entryCause_good hg, hl]

theorem exec_spawn_waits (hi : s.issuer? = some i) (hk : i.k = 0) (hg : GoodTarget i.job (i.ctx.getX rs1)) (hl : i.core.idle = []) :
    exec (.spawn rd rs1 rs2) s = .next (s.block i.c i.k (.spawn rd (i.ctx.getX rs1) (i.ctx.getX rs2))) := by
  refine (issue_eq hi _).trans ?_
  simp only [hk, ne_eq, not_true_eq_false, if_false, entryCause_good hg, hl, List.getLast?_nil]

theorem exec_spawn_startTraps (hi : s.issuer? = some i) (hk : i.k = 0) : StartTraps s i (i.ctx.getX rs1) (exec (.spawn rd rs1 rs2) s) :=
  ⟨fun hf => exec_spawn_traps hi hk (entryCause_form hf), fun hf ha => exec_spawn_traps hi hk (entryCause_align hf ha),
    fun hf ha hc => exec_spawn_traps hi hk (entryCause_bounds hf ha hc)⟩

/-- The core after a SPAWN of its context 0: helper `h` has started, and context 0 has its number. -/
def Core.spawned (k : Core) (rd : R5) (pc arg : Word) (h : Nat) : Core :=
  (k.startHelper h .direct pc arg 0).setCtx 0 ((k.ctx 0).setX rd (BitVec.ofNat 64 h)).advance

theorem spawnOn_core (hc : s.core? c = some core) (hh : h ≠ 0) (rd : R5) (pc arg : Word) :
    (s.spawnOn c 0 rd pc arg h).core? c = some (core.spawned rd pc arg h) := by
  rw [State.spawnOn, core?_modCore_same, hc]
  refine congrArg some (congrArg (fun x => (core.startHelper h .direct pc arg 0).setCtx 0 (Ctx.advance (Ctx.setX x rd (BitVec.ofNat 64 h)))) ?_)
  exact ctx_setCtx_ne core _ (Ne.symm hh)

theorem spawned_zero (k : Core) (rd : R5) (pc arg : Word) (h : Nat) : (k.spawned rd pc arg h).ctx 0 = ((k.ctx 0).setX rd (BitVec.ofNat 64 h)).advance :=
  ctx_setCtx_same _ 0 _
theorem spawned_helper (k : Core) (rd : R5) (pc arg : Word) (hh : h ≠ 0) : (k.spawned rd pc arg h).ctx h = startCtx (k.ctx 0) .direct pc arg 0 :=
  (ctx_setCtx_ne _ _ hh).trans (ctx_setCtx_same k h _)
theorem spawned_other (k : Core) (rd : R5) (pc arg : Word) {n : Nat} (h0 : n ≠ 0) (hn : n ≠ h) : (k.spawned rd pc arg h).ctx n = k.ctx n :=
  (ctx_setCtx_ne _ _ h0).trans (ctx_setCtx_ne k _ hn)

theorem spawnRule : SpawnRule := by
  intro s i rd rs1 rs2 hi
  refine ⟨exec_spawn_helper hi, exec_spawn_startTraps hi, fun h hk hg h1 h10 hidle hmax => ?_, fun hk hg hall => ?_⟩
  · obtain ⟨-, hc, -, hx, -⟩ := issuer_spec hi
    have h0 : h ≠ 0 := by omega
    have hzero : i.core.ctx 0 = i.ctx := hk ▸ hx
    have hcore := spawnOn_core hc h0 rd (i.ctx.getX rs1) (i.ctx.getX rs2)
    rw [exec_spawn_starts hi hk hg (idle_getLast? h1 h10 hidle hmax), hk]
    have hself : (s.spawnOn i.c 0 rd (i.ctx.getX rs1) (i.ctx.getX rs2) h).ctxOf i.c 0 = (i.ctx.setX rd (BitVec.ofNat 64 h)).advance := by
      rw [ctxOf_of_core? hcore, spawned_zero, hzero]
    have hhelper : (s.spawnOn i.c 0 rd (i.ctx.getX rs1) (i.ctx.getX rs2) h).ctxOf i.c h = startCtx i.ctx .direct (i.ctx.getX rs1) (i.ctx.getX rs2) 0 := by
      rw [ctxOf_of_core? hcore, spawned_helper _ _ _ _ h0, hzero]
    obtain ⟨hdone, hrd, hframe⟩ := setRd_completed (hk.symm ▸ hself)
    rw [hk] at hdone hrd hframe
    refine ⟨_, rfl, hdone, hrd, hframe, ?_⟩
    rw [hhelper]
    refine ⟨rfl, rfl, fun r => ?_, fun _ => rfl, rfl, rfl, rfl, rfl, rfl, fun n hn hne => ?_, modCore_keeps s i.c _, modCore_otherCores s i.c _, i.core, _, hc, hcore, rfl⟩
    · rw [startCtx_getX, ite_self]
    · rw [ctxOf_of_core? hcore, ctxOf_of_core? hc, spawned_other _ _ _ _ hn hne]
  · rw [exec_spawn_waits hi hk hg (idle_nil hall)]
    exact block_onlyWaits hi _

end Sys2Proof.Machine

/-! HEXIT (R163, R166, R170): the end of a helper, its join counter, and what it leaves behind. -/

namespace Sys2Proof.Machine

open Sys2Proof.Laws

variable {s t u : State} {i : Issuer} {c : CoreId} {core : Core} {d : Dest}

-- updates that leave memory
theorem modCore_sameMemory (s : State) (c : CoreId) {f : Core → Core} (hf : ∀ x, (f x).tcm = x.tcm) : SameMemory s (s.modCore c f) := by
  refine sameMemory_of_core rfl (modCore_otherCores s c f) ?_
  rw [core?_modCore_same, Option.map_map]
  exact congrArg (Option.map · _) (funext hf)

theorem modJob_sameMemory (s : State) (a : Nat) {f : Job → Job} (hf : ∀ j, ((f j).qsp, (f j).dss) = (j.qsp, j.dss)) : SameMemory s (s.modJob a f) := by
  refine sameMemory_of_homes (fun _ => rfl) fun b => ?_
  rw [job?_modJob]
  split_ifs
  · rw [Option.map_map]
    exact congrArg (Option.map · _) (funext hf)
  · rfl

-- the helper becomes idle (R56, R131, R163, R170)
theorem endHelper_self (core : Core) (k : Nat) : (core.endHelper k).ctx k = Ctx.reset := ctx_setCtx_same _ k _
/-- Context 0 takes over the flags and late traps of a helper that ends. -/
theorem endHelper_zero (core : Core) {k : Nat} (hk : k ≠ 0) : ∃ l, (core.endHelper k).ctx 0 =
    { core.ctx 0 with flags := (core.ctx 0).flags ||| (core.ctx k).flags, fcsr := (core.ctx 0).fcsr ||| ((core.ctx k).fcsr &&& 0x1F), late := l } :=
  ⟨_, (ctx_setCtx_ne _ _ (Ne.symm hk)).trans (ctx_modCtx_same _ 0 _)⟩
theorem endHelper_other (core : Core) {k n : Nat} (h0 : n ≠ 0) (hn : n ≠ k) : (core.endHelper k).ctx n = core.ctx n :=
  (ctx_setCtx_ne _ _ hn).trans (ctx_modCtx_ne _ _ h0)

theorem idleHelper_core (hc : u.core? c = some core) (a k : Nat) :
    (u.idleHelper c a k).core? c = some { core.endHelper k with lastProgress := u.clock } := by
  have hp : ((u.modCore c fun x => x.endHelper k).progress c).core? c = some { core.endHelper k with lastProgress := u.clock } := by
    rw [State.progress, core?_modCore_same, core?_modCore_same, hc]
    rfl
  exact hp

theorem idleHelper_keeps (u : State) (c : CoreId) (a k : Nat) : Keeps [.cores, .jobs, .net] u (u.idleHelper c a k) := by
  constructor <;> simp [State.idleHelper, State.progress]
theorem idleHelper_net (u : State) (c : CoreId) (a k : Nat) : (u.idleHelper c a k).net = u.net.map fun m => m.orphaned c k := rfl
theorem idleHelper_otherJobs (u : State) (c : CoreId) (a k : Nat) : OtherJobs a u (u.idleHelper c a k) := modJob_otherJobs _ a _
theorem progress_sameMemory (u : State) (c : CoreId) : SameMemory u (u.progress c) := modCore_sameMemory u c fun _ => rfl
theorem idleHelper_sameMemory (u : State) (c : CoreId) (a k : Nat) : SameMemory u (u.idleHelper c a k) := by
  have ended : SameMemory u (u.modCore c fun x => x.endHelper k) := modCore_sameMemory u c fun _ => rfl
  have left := (ended.trans (progress_sameMemory _ c)).trans (modJob_sameMemory _ a (f := fun j => j.leaveEpisodes c k) fun _ => rfl)
  exact fun b d => left b d

/-- The contexts after the end of the issuing helper, in a state whose core still has the contexts of the issue. -/
theorem idleHelper_ends (hi : s.issuer? = some i) (hk : i.k ≠ 0) (hc : u.core? i.c = some core) (hx : core.ctxs = i.core.ctxs) :
    HelperEnds s i (u.idleHelper i.c i.core.asid i.k) := by
  obtain ⟨-, hcore, -, hself, -⟩ := issuer_spec hi
  have hctx (n : Nat) : core.ctx n = i.core.ctx n := by simp only [Core.ctx, hx]
  have after (n : Nat) : (u.idleHelper i.c i.core.asid i.k).ctxOf i.c n = (core.endHelper i.k).ctx n := ctxOf_of_core? (idleHelper_core hc i.core.asid i.k) n
  obtain ⟨l, hzero⟩ := endHelper_zero core hk
  unfold HelperEnds
  rw [after, after, endHelper_self, hzero, hctx, hctx, hself, ctxOf_of_core? hcore]
  refine ⟨rfl, fun r => ?_, rfl, rfl, rfl, fun _ => rfl, fun n h0 hn => ?_⟩
  · unfold Ctx.getX
    split_ifs <;> rfl
  · rw [after, endHelper_other core h0 hn, hctx, ctxOf_of_core? hcore]

-- the record of a task has finished (R35)
theorem recordDone_keeps (u : State) (life : Life) : Keeps [.cores] u (u.recordDone life) := by
  unfold State.recordDone
  split
  · exact modCore_keeps u _ _
  · exact Keeps.refl _ u
theorem recordDone_sameMemory (u : State) (life : Life) : SameMemory u (u.recordDone life) := by
  unfold State.recordDone
  split
  · exact modCore_sameMemory u _ fun _ => rfl
  · exact fun _ _ => rfl
theorem recordDone_core (hc : u.core? c = some core) (life : Life) : ∃ l, (u.recordDone life).core? c = some { core with taskLive := l } := by
  unfold State.recordDone
  split
  case h_1 owner seq _ =>
    rw [core?_modCore, hc]
    split_ifs
    · exact ⟨_, rfl⟩
    · exact ⟨core.taskLive, rfl⟩
  case h_2 => exact ⟨core.taskLive, hc⟩

/-- The helper of `i` has ended in a state `u` that its join counter has been counted in. -/
structure Exits (s u : State) (i : Issuer) (t : State) : Prop where
  ends : HelperEnds s i t
  memory : SameMemory u t
  keeps : Keeps [.cores, .jobs, .net] u t
  jobs : OtherJobs i.core.asid u t
  net : t.net = u.net.map fun m => m.orphaned i.c i.k

theorem exits (hi : s.issuer? = some i) (hk : i.k ≠ 0) (hc : u.core? i.c = some core) (hx : core.ctxs = i.core.ctxs) (life : Life) :
    Exits s u i ((u.recordDone life).idleHelper i.c i.core.asid i.k) := by
  obtain ⟨l, hdone⟩ := recordDone_core hc life
  have hkeeps := recordDone_keeps u life
  refine ⟨idleHelper_ends hi hk hdone hx, (recordDone_sameMemory u life).trans (idleHelper_sameMemory _ _ _ _), (hkeeps.mono (by simp)).trans (idleHelper_keeps _ _ _ _), ?_, ?_⟩
  · exact (otherJobs_of_jobs _ (hkeeps.jobs (by simp))).trans (idleHelper_otherJobs _ _ _ _)
  · rw [idleHelper_net, hkeeps.net (by simp)]

-- what HEXIT answers (R170)
theorem exec_hexit_zero (hi : s.issuer? = some i) (hk : i.k = 0) : exec .hexit s = .next (s.trapI i 0x01 (s.ir.setWidth 64)) := by
  refine (issue_eq hi _).trans ?_
  rw [if_pos hk]
  rfl

theorem slotsPending_iff (k : Core) (n : Nat) : k.slotsPending n = true ↔ ∃ e ∈ k.eager, e.ctx = n ∧ e.slot.isSome = true := by
  simp [Core.slotsPending]

theorem exec_hexit_waits (hi : s.issuer? = some i) (hk : i.k ≠ 0) (hp : i.core.slotsPending i.k = true) : exec .hexit s = .next (s.block i.c i.k .hexit) := by
  refine (issue_eq hi _).trans ?_
  rw [if_neg hk, if_pos hp]

theorem exec_hexit (hi : s.issuer? = some i) (hk : i.k ≠ 0) (hp : ∀ e ∈ i.core.eager, e.ctx = i.k → e.slot = none) : exec .hexit s = .next (s.hexit i.c i.k) := by
  have hno : ¬ i.core.slotsPending i.k = true := fun h => by
    obtain ⟨e, he, hctx, hslot⟩ := (slotsPending_iff _ _).mp h
    rw [hp e he hctx] at hslot
    cases hslot
  refine (issue_eq hi _).trans ?_
  rw [if_neg hk, if_neg hno]

/-- The end of the helper once its join counter is counted, or when it has none. -/
theorem hexit_counts (hi : s.issuer? = some i) (hp : s.joinPoison i.core.asid i.c i.ctx.life = none) (hd : s.joinDown i.core.asid i.c i.k i.ctx.life = some u) :
    s.hexit i.c i.k = (u.recordDone i.ctx.life).idleHelper i.c i.core.asid i.k := by
  obtain ⟨-, hc, -, hx, -⟩ := issuer_spec hi
  simp only [State.hexit, hc, hx, hp, hd]

theorem hexit_poison {pa : Nat} (hi : s.issuer? = some i) (hp : s.joinPoison i.core.asid i.c i.ctx.life = some pa) :
    s.hexit i.c i.k = (s.metPoison i.c pa).trap i.c i.k cPOISON 0 := by
  obtain ⟨-, hc, -, hx, -⟩ := issuer_spec hi
  simp only [State.hexit, hc, hx, hp]

theorem hexit_zero (hi : s.issuer? = some i) (hp : s.joinPoison i.core.asid i.c i.ctx.life = none) (hd : s.joinDown i.core.asid i.c i.k i.ctx.life = none) :
    s.hexit i.c i.k = s.trapI i 0x07 0 := by
  obtain ⟨-, hc, -, hx, -⟩ := issuer_spec hi
  simp only [State.hexit, hc, hx, hp, hd]
  rfl

-- the join counter (R166)
theorem joinPoison_none {life : Life} (hl : life = .direct ∨ ∃ o q, life = .task o q 0) (asid : Nat) : s.joinPoison asid c life = none := by
  rcases hl with rfl | ⟨o, q, rfl⟩ <;> rfl
theorem joinDown_none {life : Life} (hl : life = .direct ∨ ∃ o q, life = .task o q 0) (asid k : Nat) : s.joinDown asid c k life = some s := by
  rcases hl with rfl | ⟨o, q, rfl⟩ <;> rfl

theorem joinPoison_at {join : Word} (ha : LocalAt i join 16 d) (hj : join ≠ 0) (o q : Nat) :
    s.joinPoison i.core.asid i.c (.task o q join) = s.spillPoison i.core.asid d 4 := by
  simp only [State.joinPoison, if_neg hj, ha.locate, Option.bind_some]

/-- With no eager write of the helper to it in flight, the counter is read where it stands, and one less is written in the state with the trace entry. -/
theorem joinDown_at {join : Word} (ha : LocalAt i join 16 d) (hj : join ≠ 0) (he : NoEagerOver s i d 4) (ht : t = s.recordMem i.c i.k true join) (o q : Nat) :
    s.joinDown i.core.asid i.c i.k (.task o q join) =
      if s.bytesAt i.core.asid d 4 = 0 then none else some (t.wr i.core.asid d 4 (s.bytesAt i.core.asid d 4 - 1)) := by
  have htrace : OnlyTrace i.c s t := ht ▸ recordMem_onlyTrace s i.c i.k true join
  have hv : t.rd i.core.asid d 4 = s.bytesAt i.core.asid d 4 := by
    rw [bytesAt_eq_rd, State.rd, htrace.home]
    rfl
  simp only [State.joinDown, if_neg hj, ha.locate, ← ht, he.settleOwn htrace, hv]

theorem hexit_joins {o q n : Nat} {join : Word} (hi : s.issuer? = some i) (hk : i.k ≠ 0) (hlife : i.ctx.life = .task o q join) (ha : LocalAt i join 16 d) (hj : join ≠ 0)
    (he : NoEagerOver s i d 4) (hp : s.spillPoison i.core.asid d 4 = none) (hn : s.bytesAt i.core.asid d 4 = n + 1) :
    ∃ t, s.hexit i.c i.k = t ∧ HelperEnds s i t ∧ StoresBytes s t i.core.asid d 4 n ∧ Keeps [.cores, .jobs, .net] (s.recordMem i.c i.k true join) t ∧
      OtherJobs i.core.asid s t ∧ t.net = s.net.map fun m => m.orphaned i.c i.k := by
  obtain ⟨-, hcore, hjob, -⟩ := issuer_spec hi
  have hdc : d.core = i.c := by obtain ⟨h, -⟩ := ha; exact h
  have ht := recordMem_onlyTrace s i.c i.k true join
  have hdown := joinDown_at ha hj he rfl o q
  set s0 := s.recordMem i.c i.k true join
  rw [hn, if_neg (Nat.succ_ne_zero n), Nat.add_sub_cancel, ← hlife] at hdown
  have hpoison := (joinPoison_at (s := s) ha hj o q).trans hp
  rw [← hlife] at hpoison
  obtain ⟨w, hw⟩ := ht.core_some hcore
  have hhome : s0.hasHome i.core.asid d := by
    unfold State.hasHome
    split
    · exact ⟨_, hdc ▸ hw⟩
    · exact ⟨_, by simp only [State.job?, ht.jobs]; exact hjob⟩
  obtain ⟨m, hm⟩ := modHome_core i.core.asid d (fun m => m.put d.off 4 n) (hdc ▸ hw)
  have hu : (s0.wr i.core.asid d 4 n).core? i.c = some { i.core with tracectl := w, tcm := m } := hdc ▸ hm
  have hkeeps := modHome_keeps s0 i.core.asid d fun m => m.put d.off 4 n
  have hx := exits hi hk hu rfl i.ctx.life
  refine ⟨_, hexit_counts hi hpoison hdown, hx.ends, (wr_storesBytes n hhome).congr ht.sameMemory hx.memory, (hkeeps.mono (by simp)).trans hx.keeps, ?_, ?_⟩
  · exact ((otherJobs_of_jobs _ ht.jobs).trans (modHome_otherJobs s0 i.core.asid d _)).trans hx.jobs
  · rw [hx.net]
    exact congrArg (List.map _) ((hkeeps.net (by simp)).trans ht.net)

theorem helperExitRule : HelperExitRule := by
  intro s i hi
  refine ⟨exec_hexit_zero hi, fun hk hp => ?_, fun hk hp hlife => ?_, fun o q join d n hk hp hlife ha hj _ he => ?_⟩
  · rw [exec_hexit_waits hi hk ((slotsPending_iff _ _).mpr hp)]
    exact block_onlyWaits hi _
  · obtain ⟨-, hc, -⟩ := issuer_spec hi
    have hx := exits hi hk hc rfl i.ctx.life
    rw [exec_hexit hi hk hp, hexit_counts hi (joinPoison_none hlife _) (joinDown_none hlife _ _)]
    exact ⟨_, rfl, hx.ends, hx.memory, hx.keeps, hx.jobs, hx.net⟩
  · have hpoison := joinPoison_at (s := s) ha hj o q
    rw [← hlife] at hpoison
    unfold Reads
    cases hspill : s.spillPoison i.core.asid d 4 with
    | some pa =>
      intro e hmem
      obtain rfl := List.mem_singleton.mp hmem
      rw [exec_hexit hi hk hp, hexit_poison hi (hpoison.trans hspill)]
      exact metPoison_trap_meetsPoison hi (OnlyTrace.refl i.c s) pa
    | none =>
      rw [exec_hexit hi hk hp]
      refine ⟨fun hn => ?_, fun hz => ?_⟩
      · obtain ⟨t, ht, hrest⟩ := hexit_joins hi hk hlife ha hj he hspill hn
        exact ⟨t, congrArg _ ht, hrest⟩
      · have hdown := joinDown_at ha hj he rfl o q
        rw [if_pos hz, ← hlife] at hdown
        exact congrArg _ (hexit_zero hi (hpoison.trans hspill) hdown)

/-- Settles O59: SPAWN starts the last of the idle helpers, HEXIT counts its join counter down and ends its helper. -/
theorem helpers : Obligations.Helpers := ⟨spawnRule, helperExitRule⟩

end Sys2Proof.Machine

/-! O41 fails: what it says of a struck ACCXR takes every member of the gang to head its q0 with an ACCXR of 64 rows, and a gang may leave out the core that issues it. -/

namespace Sys2Proof.Machine

/-- A ganged command that a soft error has struck. -/
def struckMember (kind : Word) : Cmd :=
  { uid := 4, ctx := 0, seq := 0, d0 := kind + 2 ^ 28, d1 := 0, d2 := 0, d3 := 0, a1 := 0, a2 := 0, acc := 0, firing := none, patch := 0, pair := 0, before := [], after := []
    stage := .queued, progress := 0, outstanding := 0, cause := 0, tval := 0, flags := 0, enabled := 0, bytes := 0, gone := false, hit := cPARITY, list := [], seen := none }
/-- A core with the gang of column 1 alone, such a command at the head of q0, and 1 in the first element of accumulator 0. -/
def strayCore (kind : Word) : Core := { loadedCore 0 with gang := some (0, 1, 1), q := [(0, [struckMember kind])], ac := [(0, 1)] }
/-- The core of column 0, which its gang leaves out, has an ACCXR; the one member has a QFENCE. -/
def strayGang : State := { State.reset with cores := [(0, strayCore 0x06), (1, strayCore 0x07)], jobs := [(0, loadedJob 0 0)] }

theorem strayGang_joint : strayGang.jointOf 0 (strayCore 0x06) (struckMember 0x06) = some [(1, strayCore 0x07, struckMember 0x07)] := rfl
theorem strayGang_struck : HeadStruck strayGang 0 0 0x06 (strayCore 0x06) (struckMember 0x06) (loadedJob 0 0) := ⟨⟨rfl, rfl, rfl⟩, by decide, fun h => absurd h (by decide)⟩
/-- The QFENCE has no rows, so the ACCXR leaves the member's accumulators. -/
theorem strayGang_keeps : ((accxr 0 strayGang).core? 1).map (fun y => y.getAc 0 0 0) = some 1 := by decide +kernel

/-- Refutes O41: in `StruckCommands`, the clause on ACCXR says that every struck member has 64 rows zeroed, for any core whose joint operation stands. A core whose gang
leaves it out has members whose heads agree among themselves and need not be ACCXR: a struck QFENCE zeroes no row (R217, R232, R237). `GANG` opens no such gang (R216), but
the clause, unlike that of MMA and MMAG, does not ask that the issuing core be a member. -/
theorem not_matrixCommands : ¬ Obligations.MatrixCommands := by
  unfold Obligations.MatrixCommands StruckCommands
  rintro ⟨-, -, -, -, -, -, -, ⟨-, hstruck⟩, -⟩
  obtain ⟨-, -, hcross, -⟩ := hstruck strayGang 0 (strayCore 0x06) (struckMember 0x06) (loadedJob 0 0)
  obtain ⟨t, ht, hall⟩ := hcross _ strayGang_struck strayGang_joint (by decide)
  obtain ⟨y, hy, -, hzero, -⟩ := hall _ List.mem_cons_self (by decide)
  have hkeep := strayGang_keeps
  obtain rfl : accxr 0 strayGang = t := Host.Outcome.next.inj ht
  rw [hy] at hkeep
  have h0 : y.getAc 0 0 0 = 0 := hzero 0 0 (by decide) (by decide)
  have h1 : y.getAc 0 0 0 = 1 := Option.some.inj hkeep
  omega

end Sys2Proof.Machine

/-! The state that reset leaves (R73, R327, R343, R366, R368). -/

namespace Sys2Proof.Machine

/-- The module of the pod after reset is the first one, and it is fresh. -/
theorem reset_module? {m : Nat} {d : Module} (h : State.reset.module? m = some d) : m = 0 ∧ d = Module.reset := by
  unfold State.module? State.reset dget? at h
  split_ifs at h with hlt heq
  · exact ⟨heq, (Option.some.inj h).symm⟩
  · exact absurd h (by simp)

/-- Every die after reset has an empty patch table. -/
theorem reset_die_patches (d : DieId) : (State.reset.die d).patches = [] := by
  unfold State.die
  cases h : State.reset.module? (dieModule d) with
  | none => rfl
  | some x =>
    obtain ⟨-, rfl⟩ := reset_module? h
    have : d % 4 < 4 := Nat.mod_lt _ (by decide)
    show (Module.reset.die (d % 4)).patches = []
    interval_cases d % 4 <;> rfl

theorem reset_patch (c : CoreId) : State.reset.patch c = { fenced := false, perm := false, slot := coreSlot c } := by
  unfold State.patch
  rw [reset_die_patches]
  rfl

/-- Settles O6: the fields of the state at reset, one by one. -/
theorem resetLeaves : Obligations.ResetLeaves := by
  unfold Obligations.ResetLeaves
  refine ⟨rfl, rfl, rfl, fun m d h => ?_, fun c => ?_, fun c => ⟨rfl, rfl, rfl, rfl, rfl⟩, fun c k r q => ?_, fun a d => ?_, rfl, nofun⟩
  · obtain ⟨-, rfl⟩ := reset_module? h
    exact ⟨rfl, rfl, rfl, rfl, rfl, rfl, rfl, rfl, rfl, rfl, rfl, rfl, fun q => ⟨rfl, rfl⟩⟩
  · rw [reset_patch]
    exact ⟨rfl, rfl, rfl⟩
  · have hctx : State.reset.ctxOf c k = Ctx.reset := rfl
    rw [hctx]
    exact ⟨ite_self _, rfl, rfl, rfl, rfl, rfl⟩
  · unfold State.byteAt State.home
    cases d.space <;> rfl

end Sys2Proof.Machine

/-! O37 fails: what it says of PARK leaves out the wait for a reserved bank (R125). -/

namespace Sys2Proof.Machine

/-- A held job of one core after a commit, asked to yield to JSN 1 of module 0. -/
def yieldingJob : Job :=
  { loadedJob 0 0 with held := true, yieldTo := some (0, 1), lastAttempt := some { commit := true, cause := 0, index := 0, origin := 0, val := 0 } }
/-- A module whose bank 63, the one with the pool entry of root table 0, is reserved by core 0. -/
def reservedModule : Module := { Module.reset with banks := [(63, { row := 0, lastUse := 0, holder := some 0, since := 0 })] }
/-- The held job must yield to the waiting one, and its pool entry lies in a bank that is reserved. -/
def parkWaits : State := { State.reset with modules := [(0, reservedModule)], jobs := [(0, yieldingJob), (1, { Job.blank with jsn := 1 })] }

theorem parkWaits_mustPark : parkWaits.mustPark yieldingJob = true := rfl
theorem parkWaits_endBusy : parkWaits.endBusy yieldingJob = true := by decide +kernel

/-- A job whose write-backs meet a reserved bank does not park in this step (R125). -/
theorem park_endBusy {s : State} {asid : Nat} {j : Job} (hj : s.job? asid = some j) (hb : s.endBusy j = true) : exec (.park asid) s = .next s := by
  show Host.Outcome.next (park asid s) = _
  simp [park, hj, hb]

/-- Refutes O37: a job that must park is said to be parked by the step, and PARK waits while a bank that the write-backs of the job's frames may meet is reserved
(R125, R341): the job of `parkWaits` stays as it is, held in RUN. -/
theorem not_placement : ¬ Obligations.Placement := by
  unfold Obligations.Placement
  rintro ⟨-, -, -, hpark, -⟩
  obtain ⟨t, ht, -, -, j', p, hj', hstage, -⟩ := (hpark parkWaits 0 yieldingJob rfl rfl rfl rfl rfl).2 parkWaits_mustPark
  rw [park_endBusy rfl parkWaits_endBusy] at ht
  obtain rfl : parkWaits = t := Host.Outcome.next.inj ht
  obtain rfl : yieldingJob = j' := Option.some.inj hj'
  exact absurd hstage (by decide)

end Sys2Proof.Machine

/-! Every step keeps host memory canonical (R84, R303, R306).

Host memory, and the memories behind the CXL ports, are written by `State.wrPa` and `State.hostPut` alone. Every other operation leaves them: for each operation
`f` of the model one lemma, `f_outer`, says so, and where `f` writes by way of those two, `f_outerWf` says that they stay canonical. The lemmas stand
in the order of the model's own definitions, each from those of the operations it calls. -/

namespace Sys2Proof.Machine

/-- Host memory, and the memories behind the CXL ports. -/
def State.outer (s : State) : Memory × Dict Memory := (s.host, s.cxl)
/-- These memories are in canonical form. -/
def OuterWf (o : Memory × Dict Memory) : Prop := memWf o.1 = true ∧ ∀ e ∈ o.2, memWf e.2 = true

theorem outer_eq (s : State) : s.outer = (s.host, s.cxl) := rfl
theorem hostWf_iff (s : State) : s.hostWf ↔ OuterWf s.outer := Iff.rfl
theorem keepsOuter (s : State) {t : State} (hs : OuterWf s.outer) (h : t.outer = s.outer) : OuterWf t.outer := h ▸ hs

-- repeated operations
theorem foldl_outer {α : Type} {f : State → α → State} (hf : ∀ s a, (f s a).outer = s.outer) (l : List α) (s : State) : (l.foldl f s).outer = s.outer := by
  induction l generalizing s with
  | nil => rfl
  | cons a l ih => exact (ih _).trans (hf s a)
theorem foldl_outerWf {α : Type} {f : State → α → State} (hf : ∀ s a, OuterWf s.outer → OuterWf (f s a).outer) (l : List α) (s : State) :
    OuterWf s.outer → OuterWf (l.foldl f s).outer := by
  induction l generalizing s with
  | nil => exact id
  | cons a l ih => exact fun h => ih _ (hf s a h)

end Sys2Proof.Machine

/-! Host memory is left or stays canonical: registers, the trace, and calls on the state that many steps share. -/

namespace Sys2Proof.Machine

variable (s : State) {t : State}

theorem setCore_outer (c k) : (s.setCore c k).outer = s.outer := rfl
theorem modCore_outer (c f) : (s.modCore c f).outer = s.outer := rfl
theorem modCtx_outer (c n f) : (s.modCtx c n f).outer = s.outer := rfl
theorem setCtx_outer (c n x) : (s.setCtx c n x).outer = s.outer := rfl
theorem setJob_outer (a j) : (s.setJob a j).outer = s.outer := rfl
theorem modJob_outer (a f) : (s.modJob a f).outer = s.outer := rfl
theorem modModule_outer (m f) : (s.modModule m f).outer = s.outer := rfl
theorem modPos_outer (c f) : (s.modPos c f).outer = s.outer := rfl
theorem modDie_outer (d f) : (s.modDie d f).outer = s.outer := rfl
theorem modQuad_outer (q f) : (s.modQuad q f).outer = s.outer := rfl
theorem setPatch_outer (c p) : (s.setPatch c p).outer = s.outer := rfl
theorem fresh_outer : s.fresh.2.outer = s.outer := rfl
theorem draw_outer : s.draw.2.outer = s.outer := rfl
theorem drawBool_outer : s.drawBool.2.outer = s.outer := rfl
theorem block_outer (c k w) : (s.block c k w).outer = s.outer := rfl
theorem modHome_outer (a d f) : (s.modHome a d f).outer = s.outer := by
  unfold State.modHome
  grind [modCore_outer, modJob_outer]
theorem wr_outer (a d n v) : (s.wr a d n v).outer = s.outer := by
  unfold State.wr
  grind [modHome_outer]
theorem wrBoth_outer (a d n v) : (s.wrBoth a d n v).outer = s.outer := by
  unfold State.wrBoth
  grind [modHome_outer]
theorem rdAtom_outer (h a d n) : (s.rdAtom h a d n).2.outer = s.outer := by
  unfold State.rdAtom
  grind [drawBool_outer]
theorem rdAtoms_outer (h a d n k) : (s.rdAtoms h a d n k).2.outer = s.outer := by
  induction k with
  | zero => rfl
  | succ k ih => exact (rdAtom_outer ..).trans ih
theorem rdEngine_outer (seen a d n) : (s.rdEngine seen a d n).2.outer = s.outer := by
  unfold State.rdEngine
  grind [rdAtoms_outer]
theorem each_outer {α β : Type} {f : State → α → β × State} (hf : ∀ s a, (f s a).2.outer = s.outer) (l : List α) :
    (s.each f l).2.outer = s.outer := by
  induction l generalizing s with
  | nil => rfl
  | cons a l ih => exact (ih _).trans (hf s a)
theorem inject_outer (m) : (s.inject m).outer = s.outer := rfl
theorem send_outer (src ctx asid seq cmd kind) : (s.send src ctx asid seq cmd kind).2.outer = s.outer := rfl
theorem post_outer (src asid kind) : (s.post src asid kind).outer = s.outer := rfl
theorem postHub_outer (m asid kind) : (s.postHub m asid kind).outer = s.outer := rfl
theorem dropMsg_outer (n) : (s.dropMsg n).outer = s.outer := rfl
theorem record_outer (c k kind write payload) : (s.record c k kind write payload).outer = s.outer := by
  unfold State.record
  grind [modCore_outer, modPos_outer]
theorem trigger_outer (c) : (s.trigger c).outer = s.outer := by
  unfold State.trigger
  grind [modCore_outer, modPos_outer]
theorem recordBranch_outer (c k target) : (s.recordBranch c k target).outer = s.outer := by
  unfold State.recordBranch
  grind [record_outer]
theorem recordPred_outer (c k v) : (s.recordPred c k v).outer = s.outer := by
  unfold State.recordPred
  grind [record_outer]
theorem recordMem_outer (c k write a) : (s.recordMem c k write a).outer = s.outer := by
  unfold State.recordMem
  grind [record_outer]
theorem recordTrap_outer (c k seq cause) : (s.recordTrap c k seq cause).outer = s.outer := by
  unfold State.recordTrap
  grind [record_outer, trigger_outer]
theorem count_outer (m i n) : (s.count m i n).outer = s.outer := rfl
theorem addFlags_outer (c k gone fl) : (s.addFlags c k gone fl).outer = s.outer := rfl
theorem dropClaims_outer (c) : (s.dropClaims c).outer = s.outer := rfl
theorem stopCore_outer (c) : (s.stopCore c).outer = s.outer := rfl
theorem abortCondition_outer (c cause) : (s.abortCondition c cause).outer = s.outer := by
  unfold State.abortCondition
  grind [modCore_outer, post_outer, stopCore_outer]
theorem metPoison_outer (c pa) : (s.metPoison c pa).outer = s.outer := rfl
theorem enterHandler_outer (c k t handler) : (s.enterHandler c k t handler).outer = s.outer := rfl
theorem takeTrap_outer (c k t) : (s.takeTrap c k t).outer = s.outer := by
  unfold State.takeTrap
  grind [modCtx_outer, recordTrap_outer, abortCondition_outer, enterHandler_outer]
theorem leaveHandler_outer (c k) : (s.leaveHandler c k).outer = s.outer := by
  unfold State.leaveHandler
  grind [modCore_outer, modCtx_outer, modPos_outer]
theorem trap_outer (c k cause tval) : (s.trap c k cause tval).outer = s.outer := by
  unfold State.trap
  grind [takeTrap_outer]
theorem lateTrap_outer (c t) : (s.lateTrap c t).outer = s.outer := by
  unfold State.lateTrap
  grind [modCtx_outer, recordTrap_outer, abortCondition_outer, takeTrap_outer]
theorem raiseLate_outer (c asid t) : (s.raiseLate c asid t).outer = s.outer := rfl
theorem recall_outer (c k) : (s.recall c k).outer = s.outer := rfl
theorem takeLate_outer (c k t) : (s.takeLate c k t).outer = s.outer := by
  unfold State.takeLate
  grind [setCore_outer, modQuad_outer, takeTrap_outer, recall_outer]
theorem issue_outer {f : Issuer → State} (hf : ∀ i, (f i).outer = s.outer) (h : issue s f = .next t) : t.outer = s.outer := by
  unfold issue at h
  grind
theorem finish_outer (i x) : (s.finish i x).outer = s.outer := rfl
theorem trapI_outer (i cause tval) : (s.trapI i cause tval).outer = s.outer := by
  unfold State.trapI
  grind [trap_outer]
theorem trapW_outer (i cause) : (s.trapW i cause).outer = s.outer := by
  unfold State.trapW
  grind [trap_outer]

end Sys2Proof.Machine

/-! Host memory is left or stays canonical: scalar instructions. -/

namespace Sys2Proof.Machine

variable (s : State) {t : State}

theorem setRd_outer (i rd v) : (s.setRd i rd v).outer = s.outer := rfl
theorem opImm_outer (rd rs1 f) (h : opImm s rd rs1 f = .next t) : t.outer = s.outer := by
  unfold opImm at h
  grind [issue_outer, setRd_outer]
theorem opReg_outer (rd rs1 rs2 f) (h : opReg s rd rs1 rs2 f = .next t) : t.outer = s.outer := by
  unfold opReg at h
  grind [issue_outer, setRd_outer]
theorem opRegW_outer (rd rs1 rs2 f) (h : opRegW s rd rs1 rs2 f = .next t) : t.outer = s.outer := by
  unfold opRegW at h
  grind [opReg_outer]
theorem jump_outer (i rd target) : (s.jump i rd target).outer = s.outer := by
  unfold State.jump
  grind [setCtx_outer, recordBranch_outer, trapI_outer]
theorem branch_outer (rs1 rs2 imm f) (h : branch s rs1 rs2 imm f = .next t) : t.outer = s.outer := by
  unfold branch at h
  grind [issue_outer, finish_outer, jump_outer]
theorem toTaper_outer (f rd fs1) (h : toTaper s f rd fs1 = .next t) : t.outer = s.outer := by
  unfold toTaper at h
  grind [issue_outer, finish_outer]
theorem ofTaper_outer (f fd rs1) (h : ofTaper s f fd rs1 = .next t) : t.outer = s.outer := by
  unfold ofTaper at h
  grind [issue_outer, finish_outer]
theorem setPd_outer (i pd v) : (s.setPd i pd v).outer = s.outer := by
  unfold State.setPd
  grind [recordPred_outer, finish_outer]
theorem predOp_outer (pd p1 p2 f) (h : predOp s pd p1 p2 f = .next t) : t.outer = s.outer := by
  unfold predOp at h
  grind [issue_outer, setPd_outer]

end Sys2Proof.Machine

/-! Host memory is left or stays canonical: translation, the pager and memory by physical address (R104 to R125). -/

namespace Sys2Proof.Machine

variable (s : State) {t : State}

theorem dset_memWf {d : Dict Memory} {m : Memory} (h : ∀ e ∈ d, memWf e.2 = true) (k : Nat) (hm : memWf m = true) :
    ∀ e ∈ dset d k m, memWf e.2 = true := fun e he => by
  obtain rfl | he := Sys2Proof.Laws.mem_dset he
  · exact hm
  · exact h e he
theorem mem_of_dget? {α : Type} {d : Dict α} {k : Nat} {a : α} (h : dget? d k = some a) : (k, a) ∈ d := by
  induction d with
  | nil => cases h
  | cons e d ih =>
    obtain ⟨j, b⟩ := e
    grind [dget?]
theorem dgetD_memWf {d : Dict Memory} (h : ∀ e ∈ d, memWf e.2 = true) (k : Nat) : memWf (dgetD d k []) = true := by
  unfold dgetD
  cases hk : dget? d k with
  | none => rfl
  | some m => exact h _ (mem_of_dget? hk)
theorem wrPa_outerWf (m pa n v) (h : OuterWf s.outer) : OuterWf (s.wrPa m pa n v).outer := by
  obtain ⟨hhost, hcxl⟩ := h
  unfold State.wrPa
  split
  · exact ⟨hhost, hcxl⟩
  · exact ⟨hhost, hcxl⟩
  · split <;> exact ⟨hhost, hcxl⟩
  · exact ⟨hhost, dset_memWf hcxl _ (Sys2Proof.Laws.memWf_writeMem n _ v (dgetD_memWf hcxl _))⟩
  · exact ⟨Sys2Proof.Laws.memWf_writeMem n _ v hhost, hcxl⟩
  · exact ⟨hhost, hcxl⟩
theorem countLink_outer (a b n) : (s.countLink a b n).outer = s.outer := by
  unfold State.countLink
  grind [count_outer]
theorem countAtoms_outer (m pa n write) : (s.countAtoms m pa n write).outer = s.outer := by
  unfold State.countAtoms
  grind [count_outer, countLink_outer]
theorem countWalk_outer (m root va) : (s.countWalk m root va).outer = s.outer := rfl
theorem modLeaf_outerWf (m e f) : OuterWf s.outer → OuterWf (s.modLeaf m e f).outer := by
  unfold State.modLeaf
  grind [wrPa_outerWf, foldl_outerWf]
theorem dropTlbAsid_outer (asid) : (s.dropTlbAsid asid).outer = s.outer := rfl
theorem fillTlb_outer (c e) : (s.fillTlb c e).outer = s.outer := rfl
theorem setFrameRec_outerWf (m p f backing leaf) : OuterWf s.outer → OuterWf (s.setFrameRec m p f backing leaf).outer := by
  unfold State.setFrameRec
  grind [wrPa_outerWf]
theorem copyPa_outerWf (m src dst n) (hs : OuterWf s.outer) : OuterWf (s.copyPa m src dst n).outer := by
  induction n with
  | zero => exact hs
  | succ n ih => exact wrPa_outerWf _ _ _ _ _ ih
theorem movePage_outerWf (m src dst n) : OuterWf s.outer → OuterWf (s.movePage m src dst n).outer := by
  unfold State.movePage
  grind [countAtoms_outer, copyPa_outerWf]
theorem clearAccessed_outerWf (m p f) : OuterWf s.outer → OuterWf (s.clearAccessed m p f).outer := by
  unfold State.clearAccessed
  grind [wrPa_outerWf, foldl_outerWf]
theorem evict_outerWf (m asid p f) : OuterWf s.outer → OuterWf (s.evict m asid p f).outer := by
  unfold State.evict
  grind [count_outer, wrPa_outerWf, setFrameRec_outerWf, movePage_outerWf, foldl_outerWf, outer_eq]
theorem evictClock_outerWf (m asid p n) (h : s.evictClock m asid p n = some t) (hs : OuterWf s.outer) : OuterWf t.outer := by
  induction n generalizing s with
  | zero => cases h
  | succ n ih =>
    unfold State.evictClock at h
    grind [modModule_outer, clearAccessed_outerWf, evict_outerWf]
theorem makeFrame_outerWf (m asid p k n) (h : s.makeFrame m asid p k n = some (t, x)) (hs : OuterWf s.outer) : OuterWf t.outer := by
  induction n generalizing s with
  | zero => cases h
  | succ n ih =>
    unfold State.makeFrame at h
    split at h
    · cases h
      exact hs
    · obtain ⟨u, hu, h⟩ := Option.bind_eq_some_iff.mp h
      exact ih u h (evictClock_outerWf s m asid p _ hu hs)
theorem promote_outerWf (m asid root e) (h : s.promote m asid root e = .ok (t, x)) : OuterWf s.outer → OuterWf t.outer := by
  unfold State.promote at h
  grind [count_outer, wrPa_outerWf, setFrameRec_outerWf, movePage_outerWf, makeFrame_outerWf, foldl_outerWf]
theorem touchRow_outer (m pa) : (s.touchRow m pa).outer = s.outer := by
  unfold State.touchRow
  grind [modModule_outer]
theorem countFailedWalk_outer (m root va) : (s.countFailedWalk m root va).outer = s.outer := rfl
theorem countMiss_outer (c asid va) : (s.countMiss c asid va).outer = s.outer := by
  unfold State.countMiss
  grind [countFailedWalk_outer]
theorem walkIn_outerWf (c asid root va write) (h : s.walkIn c asid root va write = .ok (t, x)) : OuterWf s.outer → OuterWf t.outer := by
  unfold State.walkIn at h
  grind [countWalk_outer, modLeaf_outerWf, fillTlb_outer, promote_outerWf]
theorem translate_outerWf (c asid va write) (h : s.translate c asid va write = .ok (t, x)) : OuterWf s.outer → OuterWf t.outer := by
  unfold State.translate at h
  grind [drawBool_outer, walkIn_outerWf]
theorem pageWalk_outerWf (c va write) : OuterWf s.outer → OuterWf (pageWalk c va write s).outer := by
  unfold pageWalk
  grind [metPoison_outer, countWalk_outer, modLeaf_outerWf, fillTlb_outer, countFailedWalk_outer]
theorem pagerPromotion_outerWf (c va) : OuterWf s.outer → OuterWf (pagerPromotion c va s).outer := by
  unfold pagerPromotion
  grind [metPoison_outer, countWalk_outer, fillTlb_outer, promote_outerWf, countFailedWalk_outer]

end Sys2Proof.Machine

/-! Host memory is left or stays canonical: loads, stores and system instructions. -/

namespace Sys2Proof.Machine

variable (s : State) {t : State}

theorem noteCode_outer (asid d n) : (s.noteCode asid d n).outer = s.outer := by
  unfold State.noteCode
  grind [setJob_outer]
theorem wrNow_outer (asid d n v) : (s.wrNow asid d n v).outer = s.outer := by
  unfold State.wrNow
  grind [wr_outer, noteCode_outer]
theorem countAnswer_outer (m kind) : (s.countAnswer m kind).outer = s.outer := by
  unfold State.countAnswer
  grind [countLink_outer]
theorem answer_outer (i m kind) : (s.answer i m kind).outer = s.outer := by
  unfold State.answer
  grind [inject_outer, countAnswer_outer, outer_eq]
theorem eagerAt_outer (i m d n v addr) : (s.eagerAt i m d n v addr).outer = s.outer := by
  unfold State.eagerAt
  grind [wrNow_outer, answer_outer]
theorem flushOwn_outer (c k d n f) : (s.flushOwn c k d n f).outer = s.outer := by
  induction f generalizing s with
  | zero => rfl
  | succ f ih =>
    unfold State.flushOwn
    grind [eagerAt_outer]
theorem settleOwn_outer (c k d n) : (s.settleOwn c k d n).outer = s.outer := by
  unfold State.settleOwn
  grind [flushOwn_outer]
theorem reading_outer (c k asid d n) (h : t.outer = s.outer) : (s.reading c k asid d n t).outer = s.outer := by
  unfold State.reading
  grind [metPoison_outer, trap_outer]
theorem load_outer (rd rs1 imm n signed float) (h : load s rd rs1 imm n signed float = .next t) : t.outer = s.outer := by
  unfold load at h
  grind [block_outer, send_outer, recordMem_outer, issue_outer, finish_outer, trapI_outer, settleOwn_outer, reading_outer]
theorem storeClass_outer (c k asid seq cmd a d n v) : (s.storeClass c k asid seq cmd a d n v).outer = s.outer := by
  unfold State.storeClass
  grind [modCore_outer, wr_outer, send_outer, settleOwn_outer]
theorem store_outer (rs1 imm n value) (h : store s rs1 imm n value = .next t) : t.outer = s.outer := by
  unfold store at h
  grind [recordMem_outer, issue_outer, finish_outer, trapI_outer, storeClass_outer]
theorem finishWith_outer (i f) : (s.finishWith i f).outer = s.outer := rfl
theorem readTrace_outer (c) : (s.readTrace c).2.outer = s.outer := by
  unfold State.readTrace
  grind [modPos_outer, draw_outer]
theorem readCsr_outer (i a) : (s.readCsr i a).2.outer = s.outer := by
  unfold State.readCsr
  grind [readTrace_outer]
theorem svactFaulted_outer (i cause) : (s.svactFaulted i cause).outer = s.outer := by
  unfold State.svactFaulted
  grind [modJob_outer, abortCondition_outer]
theorem svactCleared_outer (i page) : (s.svactCleared i page).outer = s.outer := by
  unfold State.svactCleared
  grind [modModule_outer]
theorem svact_outer (i v) : (s.svact i v).outer = s.outer := by
  unfold State.svact
  grind [abortCondition_outer, svactFaulted_outer, svactCleared_outer]
theorem writeCsr_outer (i a v) : (s.writeCsr i a v).outer = s.outer := by
  unfold State.writeCsr
  grind [modCore_outer, modCtx_outer, modPos_outer]
theorem csrOp_outer (rd csr reads new) (h : csrOp s rd csr reads new = .next t) : t.outer = s.outer := by
  refine issue_outer s (fun i => ?_) h
  have hread : (if reads then s.readCsr i csr.toNat else (0, s)).2.outer = s.outer := by
    split
    · exact readCsr_outer ..
    · rfl
  dsimp only
  generalize (if reads then s.readCsr i csr.toNat else (0, s)) = r at hread
  split
  · exact trapW_outer ..
  · split
    · exact trapW_outer ..
    · split
      · exact trapW_outer ..
      · split
        · exact trapW_outer ..
        · grind [trapI_outer, writeCsr_outer, finishWith_outer, block_outer, svact_outer]
theorem service_outer {f : Issuer → State} (hf : ∀ i, (f i).outer = s.outer) (h : service s f = .next t) : t.outer = s.outer := by
  refine issue_outer s (fun i => ?_) h
  split
  · exact trapW_outer ..
  · exact hf i

end Sys2Proof.Machine

/-! Host memory is left or stays canonical: tasks, lanes, barriers and atomics. -/

namespace Sys2Proof.Machine

variable (s : State) {t : State}

theorem progress_outer (c) : (s.progress c).outer = s.outer := rfl
theorem spawnOn_outer (c k rd pc arg h) : (s.spawnOn c k rd pc arg h).outer = s.outer := rfl
theorem recordDone_outer (life) : (s.recordDone life).outer = s.outer := by
  unfold State.recordDone
  grind [modCore_outer]
theorem idleHelper_outer (c asid k) : (s.idleHelper c asid k).outer = s.outer := rfl
theorem joinDown_outer (asid c k life) (h : s.joinDown asid c k life = some t) : t.outer = s.outer := by
  unfold State.joinDown at h
  grind [wr_outer, recordMem_outer, settleOwn_outer]
theorem hexit_outer (c k) : (s.hexit c k).outer = s.outer := by
  unfold State.hexit
  grind [metPoison_outer, trap_outer, recordDone_outer, idleHelper_outer, joinDown_outer]
theorem startRecord_outer (owner c h r) : (s.startRecord owner c h r).outer = s.outer := rfl
theorem poolPop_outer (c) : (poolPop c s).outer = s.outer := by
  unfold poolPop
  grind [startRecord_outer]
theorem taskSteal_outer (c) : (taskSteal c s).outer = s.outer := by
  unfold taskSteal
  grind [startRecord_outer]
theorem recordAging_outer (c) : (recordAging c s).outer = s.outer := rfl
theorem tryVote_outer (c) : (s.tryVote c).outer = s.outer := by
  unfold State.tryVote
  grind [modCore_outer, post_outer]
theorem completeEpisodes_outer (asid) : (s.completeEpisodes asid).outer = s.outer := by
  unfold State.completeEpisodes
  grind [setJob_outer, outer_eq]
theorem joinEpisode_outer (asid sc ext n a) : (s.joinEpisode asid sc ext n a).outer = s.outer := by
  unfold State.joinEpisode
  grind [modJob_outer, completeEpisodes_outer]
theorem arrive_outer (c k sc op val) (h : s.arrive c k sc op val = some t) : t.outer = s.outer := by
  unfold State.arrive at h
  grind [modCtx_outer, setJob_outer, send_outer, joinEpisode_outer]
theorem collect_outer (c k sc rd) (h : s.collect c k sc rd = some t) : t.outer = s.outer := by
  obtain ⟨core, -, h⟩ := Option.bind_eq_some_iff.mp h
  obtain ⟨m, -, h⟩ := Option.bind_eq_some_iff.mp h
  obtain ⟨e, -, rfl⟩ := Option.map_eq_some_iff.mp h
  grind [modCtx_outer, trap_outer]
theorem collect_getD_outer (c k sc rd) (h : t.outer = s.outer) : ((s.collect c k sc rd).getD t).outer = s.outer := by
  cases hc : s.collect c k sc rd with
  | none => exact h
  | some u => exact collect_outer s c k sc rd hc
theorem barrierRelease_outer (c k) : (barrierRelease c k s).outer = s.outer := by
  unfold barrierRelease
  split
  · exact collect_getD_outer _ _ _ _ _ rfl
  · exact collect_getD_outer _ _ _ _ _ rfl
  · rfl
theorem offerGang_outer (c t w f) : (s.offerGang c t w f).outer = s.outer := by
  unfold State.offerGang
  grind [modCore_outer, modJob_outer]
theorem tryWired_outer (c) : (s.tryWired c).outer = s.outer := by
  unfold State.tryWired
  grind [modCtx_outer]
theorem gangRelease_outer (c) : (gangRelease c s).outer = s.outer := by
  unfold gangRelease
  grind [modCore_outer]
theorem sendEager_outer (c k asid seq slot cmd d n v addr) : (s.sendEager c k asid seq slot cmd d n v addr).outer = s.outer := rfl
theorem rste_outer (rs2 rs1 slot n) (h : rste s rs2 rs1 slot n = .next t) : t.outer = s.outer := by
  unfold rste at h
  grind [setCore_outer, block_outer, recordMem_outer, issue_outer, finish_outer, trapI_outer, sendEager_outer]
theorem rred_outer (rs1 op align n value) (h : rred s rs1 op align n value = .next t) : t.outer = s.outer := by
  unfold rred at h
  grind [modCore_outer, send_outer, recordMem_outer, issue_outer, finish_outer, trapI_outer]
theorem performAtomic_outer (asid d op a b) : (s.performAtomic asid d op a b).2.outer = s.outer := by
  unfold State.performAtomic
  grind [wrNow_outer]
theorem atomic_outer (rd rs1 op a b) (h : atomic s rd rs1 op a b = .next t) : t.outer = s.outer := by
  unfold atomic at h
  grind [block_outer, send_outer, recordMem_outer, issue_outer, finish_outer, trapI_outer, settleOwn_outer, reading_outer, performAtomic_outer]
theorem sendFlag_outer (c k asid d v) : (s.sendFlag c k asid d v).outer = s.outer := rfl

end Sys2Proof.Machine

/-! Host memory is left or stays canonical: messages, and the instructions that feed the engines. -/

namespace Sys2Proof.Machine

variable (s : State) {t : State}

theorem wake_outer (c) : (s.wake c).outer = s.outer := rfl
theorem eagerWriteArrival_outer (i) : (eagerWriteArrival i s).outer = s.outer := by
  unfold eagerWriteArrival
  grind [eagerAt_outer]
theorem eagerAckArrival_outer (i) : (eagerAckArrival i s).outer = s.outer := by
  unfold eagerAckArrival
  grind [modCore_outer, dropMsg_outer, progress_outer]
theorem remoteRequestArrival_outer (i) : (remoteRequestArrival i s).outer = s.outer := by
  unfold remoteRequestArrival
  split
  case h_2 => rfl
  split <;> grind [answer_outer, dropMsg_outer, performAtomic_outer]
theorem responseArrival_outer (i) : (responseArrival i s).outer = s.outer := by
  unfold responseArrival
  grind [modCtx_outer, dropMsg_outer, metPoison_outer, trap_outer, progress_outer]
theorem returned_outer (i) : (returned i s).outer = s.outer := by
  unfold returned
  grind [modCore_outer, dropMsg_outer, trap_outer, lateTrap_outer, progress_outer]
theorem atomicArrival_outer (i) : (atomicArrival i s).outer = s.outer := by
  unfold atomicArrival
  split
  case h_2 => rfl
  split <;> grind [answer_outer, dropMsg_outer, performAtomic_outer]
theorem orderAnswer_outer (asid r home kind) : (OrderReq.answer s asid r home kind).outer = s.outer := rfl
theorem runGroup_outer (asid g) : (s.runGroup asid g).outer = s.outer := by
  unfold State.runGroup
  grind [countLink_outer, performAtomic_outer, orderAnswer_outer, foldl_outer]
theorem joinOrder_outer (asid d r n) : (s.joinOrder asid d r n).outer = s.outer := by
  induction n generalizing s r with
  | zero => rfl
  | succ n ih =>
    unfold State.joinOrder
    grind [orderAnswer_outer, setJob_outer, runGroup_outer, foldl_outer]
theorem orderGroupArrival_outer (i) : (orderGroupArrival i s).outer = s.outer := by
  unfold orderGroupArrival
  grind [dropMsg_outer, countAnswer_outer, answer_outer, joinOrder_outer]
theorem mailboxPostArrival_outer (i) : (mailboxPostArrival i s).outer = s.outer := by
  unfold mailboxPostArrival
  grind [modCore_outer, dropMsg_outer, countAnswer_outer, answer_outer, progress_outer, wake_outer]
theorem lateTrapArrival_outer (i) : (lateTrapArrival i s).outer = s.outer := by
  unfold lateTrapArrival
  grind [dropMsg_outer, lateTrap_outer]
theorem handlerEntry_outer (c k) : (handlerEntry c k s).outer = s.outer := by
  unfold handlerEntry
  grind [enterHandler_outer, takeLate_outer]
theorem takeMail_outer (c k rd mb pk) : (s.takeMail c k rd mb pk).outer = s.outer := by
  unfold State.takeMail
  grind [modCore_outer, recordPred_outer]
theorem mailTimeout_outer (c k rd pk) : (s.mailTimeout c k rd pk).outer = s.outer := by
  unfold State.mailTimeout
  grind [modCtx_outer, recordPred_outer]
theorem ngetTimeout_outer (c k) : (ngetTimeout c k s).outer = s.outer := by
  unfold ngetTimeout
  grind [mailTimeout_outer]
theorem wakeHamper_outer (asid d) : (s.wakeHamper asid d).outer = s.outer := by
  unfold State.wakeHamper
  grind [wake_outer, foldl_outer]
theorem putHamper_outer (asid d h h') : (s.putHamper asid d h h').outer = s.outer := by
  unfold State.putHamper
  grind [wr_outer, wakeHamper_outer]
theorem hamperArrive_outer (asid d b) : (s.hamperArrive asid d b).outer = s.outer := by
  unfold State.hamperArrive
  grind [putHamper_outer]
theorem feed_outer (write rs1 n) {f : State → Issuer → Dest → State} (hf : ∀ s i d, (f s i d).outer = s.outer) (h : feed s write rs1 n f = .next t) :
    t.outer = s.outer := by
  refine issue_outer s (fun i => ?_) h
  dsimp only
  split
  · exact trapI_outer ..
  · have hs : ∀ d, ((s.recordMem i.c i.k write (i.ctx.getX rs1)).settleOwn i.c i.k d n).outer = s.outer := fun d =>
      (settleOwn_outer ..).trans (recordMem_outer ..)
    exact (reading_outer _ _ _ _ _ _ (hf ..)).trans (hs _)
theorem takeSlot_outer (c k asid rd d) : (s.takeSlot c k asid rd d).outer = s.outer := by
  unfold State.takeSlot
  grind [modCtx_outer, wr_outer]
theorem settleIndirect_outer (i d) : (s.settleIndirect i d).outer = s.outer := by
  unfold State.settleIndirect
  grind [recordMem_outer, settleOwn_outer]
theorem pushCmd_outer (c k q m lc) : (s.pushCmd c k q m lc).outer = s.outer := by
  unfold State.pushCmd
  grind [modCore_outer, modCtx_outer, fresh_outer, block_outer]
theorem dispatchCmd_outer (c k q m lc) : (s.dispatchCmd c k q m lc).outer = s.outer := by
  unfold State.dispatchCmd
  grind [setCore_outer, block_outer, pushCmd_outer]
theorem push_outer (q pair rs1 patch scales) (h : push s q pair rs1 patch scales = .next t) : t.outer = s.outer := by
  unfold push at h
  grind [modCtx_outer, recordMem_outer, issue_outer, trapI_outer, trapW_outer, settleOwn_outer, settleIndirect_outer, dispatchCmd_outer]
theorem mxi_outer (code rs1 rs2 n) (h : mxi s code rs1 rs2 n = .next t) : t.outer = s.outer := by
  unfold mxi at h
  grind [issue_outer, trapW_outer, push_outer]
theorem takeStatus_outer (c k rd q) : (s.takeStatus c k rd q).outer = s.outer := rfl

end Sys2Proof.Machine

/-! Host memory is left or stays canonical: vector instructions. -/

namespace Sys2Proof.Machine

variable (s : State) {t : State}

theorem toLanes_outer (i o) : (s.toLanes i o).outer = s.outer := rfl
theorem vecS_outer {needG : Bool} {f : Issuer → Except (Nat × Word) (State × VecOut)} (hf : ∀ i u o, f i = .ok (u, o) → u.outer = s.outer)
    (h : vecS s needG f = .next t) : t.outer = s.outer := by
  refine issue_outer s (fun i => ?_) h
  grind [trapW_outer, trapI_outer, toLanes_outer, block_outer]
theorem vec_outer (f) (h : vec s f = .next t) : t.outer = s.outer := by
  unfold vec at h
  grind [vecS_outer]
theorem vbin_outer (ty vd v1 v2 pg f) (h : vbin s ty vd v1 v2 pg f = .next t) : t.outer = s.outer := by
  unfold vbin at h
  grind [vec_outer]
theorem vun_outer (ty vd v1 pg f) (h : vun s ty vd v1 pg f = .next t) : t.outer = s.outer := by
  unfold vun at h
  grind [vec_outer]
theorem vfused_outer (ty f sub vd v1 v2 v3) (h : vfused s ty f sub vd v1 v2 v3 = .next t) : t.outer = s.outer := vec_outer _ _ h
theorem vscale_outer (ty f vd v1 fn) (h : vscale s ty f vd v1 fn = .next t) : t.outer = s.outer := vec_outer _ _ h
theorem vbits_outer (vd v1 v2 pg f) (h : vbits s vd v1 v2 pg f = .next t) : t.outer = s.outer := by
  unfold vbits at h
  grind [vec_outer]
theorem vshift_outer (ty vd v1 v2 pg f) (h : vshift s ty vd v1 v2 pg f = .next t) : t.outer = s.outer := by
  unfold vshift at h
  grind [issue_outer, trapW_outer, vbin_outer]
theorem vcompare_outer (ty pd v1 v2 pg f) (h : vcompare s ty pd v1 v2 pg f = .next t) : t.outer = s.outer := by
  unfold vcompare at h
  grind [recordPred_outer, vecS_outer]
theorem recordElems_outer (i act write addr n) : (recordElems s i act write addr n).outer = s.outer := by
  unfold recordElems
  grind [recordMem_outer, foldl_outer]
theorem settleElems_outer (i act a off) : (settleElems s i act a off).outer = s.outer := by
  unfold settleElems
  grind [settleOwn_outer, foldl_outer]
theorem vstoreAt_outer (i vs act a off) : (vstoreAt s i vs act a off).outer = s.outer := by
  unfold vstoreAt
  grind [storeClass_outer, foldl_outer]
theorem vloadElems_outer (i vd act a off fault) : (vloadElems s i vd act a off fault).1.outer = s.outer := by
  unfold vloadElems
  grind [draw_outer]
theorem vloadStrided_outer (vd rs1 stride pg) (h : vloadStrided s vd rs1 stride pg = .next t) : t.outer = s.outer := by
  unfold vloadStrided at h
  grind [vecS_outer, recordElems_outer, settleElems_outer, vloadElems_outer]
theorem vstoreStrided_outer (vs rs1 stride pg) (h : vstoreStrided s vs rs1 stride pg = .next t) : t.outer = s.outer := by
  unfold vstoreStrided at h
  grind [vecS_outer, recordElems_outer, vstoreAt_outer]
theorem vredPick_outer (max ty vd v1 pg) (h : vredPick s max ty vd v1 pg = .next t) : t.outer = s.outer := by
  unfold vredPick at h
  grind [vec_outer]
theorem vclaimGrant_outer (q) : (vclaimGrant q s).outer = s.outer := by
  unfold vclaimGrant
  grind [modCtx_outer, modQuad_outer]
theorem vectorCompletion_outer (c seq) : (vectorCompletion c seq s).outer = s.outer := by
  unfold vectorCompletion
  grind [modCore_outer, addFlags_outer, metPoison_outer, raiseLate_outer, foldl_outer]

end Sys2Proof.Machine

/-! Host memory is left or stays canonical: matrix commands. -/

namespace Sys2Proof.Machine

variable (s : State) {t : State}

theorem beginCmd_outer (c q asid m) : (s.beginCmd c q asid m).outer = s.outer := rfl
theorem onHead_outerWf (c q kind) {f : State → Core → Cmd → State} (hf : ∀ s k m, OuterWf s.outer → OuterWf (f s k m).outer) (hs : OuterWf s.outer) :
    OuterWf (s.onHead c q kind f).outer := by
  unfold State.onHead
  grind [progress_outer]
theorem onStarted_outerWf (c q kind) {f : State → Core → Cmd → State} (hf : ∀ s k m, OuterWf s.outer → OuterWf (f s k m).outer)
    (hs : OuterWf s.outer) : OuterWf (s.onStarted c q kind f).outer := by
  refine onHead_outerWf s c q kind (fun s k m hs => ?_) hs
  split
  · exact (beginCmd_outer s c q k.asid m).symm ▸ hs
  · exact hf s k m hs
theorem performHead_outer (c q m cause tval flags bytes) : (s.performHead c q m cause tval flags bytes).outer = s.outer := rfl
theorem rowsAt_outer (seen asid c a n offs) : (s.rowsAt seen asid c a n offs).2.outer = s.outer := by
  unfold State.rowsAt
  grind [rdEngine_outer, each_outer]
theorem faultHead_outer (c m cause tval bytes) : (s.faultHead c m cause tval bytes).outer = s.outer := rfl
theorem jointIllegal_outer (l) : (s.jointIllegal l).outer = s.outer := by
  unfold State.jointIllegal
  grind [faultHead_outer, foldl_outer]
theorem struckA_outer (m0) : (s.struckA m0).2.outer = s.outer := by
  unfold State.struckA
  grind [drawBool_outer]
theorem foldl_snd_outer {α β : Type} {f : β × State → α → β × State} (hf : ∀ r a, (f r a).2.outer = r.2.outer) (l : List α) (r : β × State) :
    (l.foldl f r).2.outer = r.2.outer := by
  induction l generalizing r with
  | nil => rfl
  | cons a l ih => exact (ih _).trans (hf r a)
theorem foldl_fst_outer {α β : Type} {f : State × β → α → State × β} (hf : ∀ r a, (f r a).1.outer = r.1.outer) (l : List α) (r : State × β) :
    (l.foldl f r).1.outer = r.1.outer := by
  induction l generalizing r with
  | nil => rfl
  | cons a l ih => exact (ih _).trans (hf r a)
theorem latchSeen_outer (k m) : (s.latchSeen k m).2.outer = s.outer := by
  unfold State.latchSeen
  split
  · rfl
  · split
    · rfl
    · refine foldl_snd_outer (fun r i => ?_) ..
      dsimp only
      split <;> exact drawBool_outer r.2
theorem beginJoint_outer (l) : (s.beginJoint l).outer = s.outer := by
  unfold State.beginJoint
  grind [progress_outer, beginCmd_outer, foldl_outer]
theorem product_outerWf (c kind upset) (hs : OuterWf s.outer) : OuterWf (product c kind upset s).outer := by
  refine onHead_outerWf s c 0 kind (fun s k m hs => keepsOuter s hs ?_) hs
  dsimp only
  split
  · rfl
  · rfl
  · split
    · exact jointIllegal_outer ..
    · split
      · exact beginJoint_outer ..
      · split
        · rfl
        · have hdraw : (if upset then s.draw.2 else s).outer = s.outer := by
            split
            · exact draw_outer s
            · rfl
          refine (foldl_outer (fun u x => ?_) _ _).trans
            ((rowsAt_outer ..).trans ((latchSeen_outer ..).trans ((struckA_outer ..).trans hdraw)))
          have hrows := fun seen asid c a n offs => rowsAt_outer u seen asid c a n offs
          grind [faultHead_outer, metPoison_outer, progress_outer, setCore_outer]
theorem mma_outerWf (c upset) : OuterWf s.outer → OuterWf (mma c upset s).outer := by
  unfold mma
  grind [product_outerWf]
theorem mmag_outerWf (c upset) : OuterWf s.outer → OuterWf (mmag c upset s).outer := by
  unfold mmag
  grind [product_outerWf]
theorem accld_outerWf (c) : OuterWf s.outer → OuterWf (accld c s).outer := by
  unfold accld
  grind [setCore_outer, metPoison_outer, onStarted_outerWf, rowsAt_outer, faultHead_outer]
theorem struckRow_outer (m rows) : (s.struckRow m rows).2.outer = s.outer := by
  unfold State.struckRow
  grind [draw_outer]
theorem accst_outerWf (c) (hs : OuterWf s.outer) : OuterWf (accst c s).outer := by
  refine onHead_outerWf s c 0 4 (fun s k m hs => ?_) hs
  dsimp only
  split
  · exact hs
  · split
    · exact (performHead_outer ..).symm ▸ hs
    · have hrow : OuterWf (s.struckRow m (tRows m.d2 + 1)).2.outer := (struckRow_outer s m _).symm ▸ hs
      split <;>
      · rw [performHead_outer, foldl_fst_outer fun r x => by exact storeClass_outer ..]
        exact hrow
theorem accz_outerWf (c) : OuterWf s.outer → OuterWf (accz c s).outer := by
  unfold accz
  grind [onHead_outerWf, faultHead_outer]
theorem accxr_outerWf (c) : OuterWf s.outer → OuterWf (accxr c s).outer := by
  unfold accxr
  grind [setCore_outer, progress_outer, onHead_outerWf, faultHead_outer, jointIllegal_outer, foldl_outer]
theorem qfence_outerWf (c q) : OuterWf s.outer → OuterWf (qfence c q s).outer := by
  unfold qfence
  grind [onHead_outerWf, performHead_outer]
theorem signal_outerWf (c q) : OuterWf s.outer → OuterWf (signal c q s).outer := by
  unfold signal
  grind [onHead_outerWf, performHead_outer]
theorem commandCompletion_outer (c q) : (commandCompletion c q s).outer = s.outer := by
  unfold commandCompletion
  grind [modCore_outer, addFlags_outer, raiseLate_outer, progress_outer, hamperArrive_outer, foldl_outer]
theorem statusEntry_outer (c q) : (statusEntry c q s).outer = s.outer := by
  unfold statusEntry
  grind [modCore_outer, progress_outer]

end Sys2Proof.Machine

/-! Host memory is left or stays canonical: copy commands. -/

namespace Sys2Proof.Machine

variable (s : State) {t : State}

theorem reach_outerWf (v a off n write) (h : s.reach v a off n write = .ok (t, x)) : OuterWf s.outer → OuterWf t.outer := by
  unfold State.reach at h
  grind [touchRow_outer, translate_outerWf]
theorem rdMover_outer (v d n) : (s.rdMover v d n).2.outer = s.outer := by
  unfold State.rdMover
  grind [rdEngine_outer]
theorem readAtom_outerWf (v a off) (h : s.readAtom v a off = .ok (t, x)) : OuterWf s.outer → OuterWf t.outer := by
  unfold State.readAtom at h
  grind [countLink_outer, countAtoms_outer, reach_outerWf, rdMover_outer]
theorem writeAtom_outerWf (v a off val) (h : s.writeAtom v a off val = .ok t) : OuterWf s.outer → OuterWf t.outer := by
  unfold State.writeAtom at h
  grind [modCore_outer, wr_outer, reach_outerWf]
theorem readAtoms_outerWf (v a off n) (h : s.readAtoms v a off n = .ok (t, x)) (hs : OuterWf s.outer) : OuterWf t.outer := by
  induction n generalizing t x with
  | zero =>
    cases h
    exact hs
  | succ n ih =>
    unfold State.readAtoms at h
    grind [readAtom_outerWf]
theorem writeAtoms_outerWf (v a off val n) (h : s.writeAtoms v a off val n = .ok t) (hs : OuterWf s.outer) : OuterWf t.outer := by
  induction n generalizing t with
  | zero =>
    cases h
    exact hs
  | succ n ih =>
    unfold State.writeAtoms at h
    grind [writeAtom_outerWf]
theorem within_eq_ok {α : Type} {e : Option EFault} {r : Except EFault α} {x : α} (h : Mover.within e r = .ok x) : r = .ok x := by
  cases e with
  | none => exact h
  | some f => cases h
theorem readRow_outerWf (v a off n) (h : s.readRow v a off n = .ok (t, x)) : OuterWf s.outer → OuterWf t.outer :=
  readAtoms_outerWf s v a off _ (within_eq_ok h)
theorem writeRow_outerWf (v a off n val) (h : s.writeRow v a off n val = .ok t) : OuterWf s.outer → OuterWf t.outer :=
  writeAtoms_outerWf s v a off val _ (within_eq_ok h)
theorem copyRow_outerWf (v a aoff b boff n) (h : s.copyRow v a aoff b boff n = .ok t) : OuterWf s.outer → OuterWf t.outer := by
  unfold State.copyRow at h
  grind [readRow_outerWf, writeRow_outerWf]
theorem runSteps_outerWf {f : State → Nat → Except EFault State} (hf : ∀ s i t, f s i = .ok t → OuterWf s.outer → OuterWf t.outer) (l)
    (hs : OuterWf s.outer) : OuterWf (runSteps f l s).1.outer := by
  induction l generalizing s with
  | nil => exact hs
  | cons i l ih =>
    unfold runSteps
    grind
theorem struck_eq_ok {α : Type} {hit : Nat} {r : Except EFault α} {x : α} (h : EFault.struck hit r = .ok x) : r = .ok x := by
  unfold EFault.struck at h
  split at h
  · exact h
  · cases r <;> cases h
theorem runStruck_outerWf (hit) {f : State → Nat → Except EFault State} (hf : ∀ s i t, f s i = .ok t → OuterWf s.outer → OuterWf t.outer) (l)
    (hs : OuterWf s.outer) : OuterWf (runStruck hit f l s).1.outer := by
  unfold runStruck
  split
  · exact runSteps_outerWf s hf l hs
  · exact runSteps_outerWf _ (fun s i t h => hf s i t (struck_eq_ok h)) l ((draw_outer s).symm ▸ hs)
theorem stopped_outer (v e) : (s.stopped v e).outer = s.outer := by
  unfold State.stopped
  grind [metPoison_outer, countMiss_outer]
theorem moved_outerWf (v q bytes) {r : State × Option EFault} (hr : OuterWf r.1.outer) (hs : OuterWf s.outer) :
    OuterWf (s.moved v q bytes r).outer := by
  unfold State.moved
  grind [performHead_outer, stopped_outer]
theorem mover_outerWf (c q kind) {f : State → Mover → State} (hf : ∀ s v, OuterWf s.outer → OuterWf (f s v).outer) (hs : OuterWf s.outer) :
    OuterWf (mover c q kind f s).outer := by
  refine onHead_outerWf s c q kind (fun s k m hs => ?_) hs
  split
  · exact hs
  · exact hf _ _ hs
theorem reader_outerWf (c q kind) {f : State → Mover → State} (hf : ∀ s v, OuterWf s.outer → OuterWf (f s v).outer) (hs : OuterWf s.outer) :
    OuterWf (reader c q kind f s).outer := by
  refine onStarted_outerWf s c q kind (fun s k m hs => ?_) hs
  split
  · exact hs
  · exact hf _ _ hs
theorem listFrom_outerWf (v i n) (hs : OuterWf s.outer) : OuterWf (s.listFrom v i n).2.outer := by
  induction n generalizing s i with
  | zero => exact hs
  | succ n ih =>
    unfold State.listFrom
    grind [readRow_outerWf]
theorem withList_outerWf (v) : OuterWf s.outer → OuterWf (s.withList v).2.outer := by
  unfold State.withList
  grind [listFrom_outerWf]
theorem boxRow_outerWf (v h i) (hr : State.boxRow v h s i = .ok t) : OuterWf s.outer → OuterWf t.outer :=
  copyRow_outerWf s v _ _ _ _ _ (struck_eq_ok hr)
theorem box_outerWf (v h b) (hb : State.box v h s b = .ok t) (hs : OuterWf s.outer) : OuterWf t.outer := by
  have hrows := runSteps_outerWf s (fun s i t => boxRow_outerWf s v h i) (v.boxRows b) hs
  unfold State.box at hb
  grind [wr_outer]
theorem boxes_outerWf (v h l) (hs : OuterWf s.outer) : OuterWf (State.boxes v h l s).1.outer := by
  induction l generalizing s with
  | nil => exact hs
  | cons b l ih =>
    unfold State.boxes
    split
    · exact ih _ (box_outerWf s v h b ‹_› hs)
    · exact runSteps_outerWf s (fun s i t => boxRow_outerWf s v h i) _ hs
theorem cpbox_outerWf (c) : OuterWf s.outer → OuterWf (cpbox c s).outer := by
  unfold cpbox
  grind [draw_outer, moved_outerWf, reader_outerWf, boxes_outerWf]
theorem fetchArrive_outer (f v) : (Fetch.arrive f s v).outer = s.outer := by
  unfold Fetch.arrive
  grind [hamperArrive_outer]
theorem stage_outer (asid g) : (s.stage asid g).outer = s.outer := rfl
theorem except_map_eq_ok {ε α β : Type} {f : α → β} {r : Except ε α} {b : β} (h : r.map f = .ok b) : ∃ a, r = .ok a ∧ f a = b := by
  cases r with
  | error e => cases h
  | ok a => exact ⟨a, rfl, Except.ok.inj h⟩
theorem fetchNow_outerWf (v f) (h : s.fetchNow v f = .ok (x, t)) (hs : OuterWf s.outer) : OuterWf t.outer := by
  unfold State.fetchNow at h
  split at h
  · dsimp only at h
    split at h
    · split at h
      · cases h
      · obtain ⟨u, hu, hx⟩ := except_map_eq_ok h
        cases hx
        exact (fetchArrive_outer ..).symm ▸ writeRow_outerWf _ _ _ _ _ _ hu ((modJob_outer ..).symm ▸ hs)
    · cases h
      exact hs
  · grind [readRow_outerWf, stage_outer]
theorem fetchNext_outerWf (v f) (h : s.fetchNext v f = .ok t) : OuterWf s.outer → OuterWf t.outer := by
  unfold State.fetchNext at h
  grind [modJob_outer, countMiss_outer, readRow_outerWf, stage_outer]
theorem fetchOne_outerWf (v i) (h : s.fetchOne v i = .ok (x, t)) (hs : OuterWf s.outer) : OuterWf t.outer := by
  unfold State.fetchOne at h
  split at h
  · cases h
  · have h := within_eq_ok h
    split at h
    · obtain ⟨u, hu, hx⟩ := except_map_eq_ok h
      cases hx
      exact fetchNext_outerWf s v _ hu hs
    · exact fetchNow_outerWf s v _ h hs
theorem fetches_outerWf (v h l) (hs : OuterWf s.outer) : OuterWf (State.fetches v h l s).1.outer := by
  induction l generalizing s with
  | nil => exact hs
  | cons i l ih =>
    unfold State.fetches
    split
    · exact hs
    · exact ih _ (fetchOne_outerWf s v i (struck_eq_ok ‹_›) hs)
    · exact fetchOne_outerWf s v i (struck_eq_ok ‹_›) hs
theorem cppfl_outerWf (c) : OuterWf s.outer → OuterWf (cppfl c s).outer := by
  unfold cppfl
  grind [modCore_outer, modJob_outer, draw_outer, moved_outerWf, reader_outerWf, withList_outerWf, fetches_outerWf]
theorem stagingReadComplete_outer (asid i) : (stagingReadComplete asid i s).outer = s.outer := rfl
theorem releaseBank_outer (c) : (s.releaseBank c).outer = s.outer := by
  unfold State.releaseBank
  grind [modCore_outer, modModule_outer]
theorem endStream_outer (c) : (s.endStream c).outer = s.outer := by
  unfold State.endStream
  grind [releaseBank_outer]
theorem holdBank_outer (c pa) : (s.holdBank c pa).outer = s.outer := by
  unfold State.holdBank
  grind [modCore_outer, modModule_outer, releaseBank_outer]
theorem streamRow_outerWf (v i) (h : s.streamRow v i = .ok t) : OuterWf s.outer → OuterWf t.outer := by
  unfold State.streamRow at h
  grind [reach_outerWf, copyRow_outerWf, endStream_outer, holdBank_outer]
theorem keepBank_outer (c) : (s.keepBank c).outer = s.outer := rfl
theorem cpstrm_outerWf (c) : OuterWf s.outer → OuterWf (cpstrm c s).outer := by
  unfold cpstrm
  grind [runStruck_outerWf, moved_outerWf, mover_outerWf, endStream_outer, streamRow_outerWf, keepBank_outer]
theorem cpclose_outerWf (c) : OuterWf s.outer → OuterWf (cpclose c s).outer := by
  unfold cpclose
  grind [performHead_outer, mover_outerWf, releaseBank_outer]
theorem cpfill_outerWf (c) : OuterWf s.outer → OuterWf (cpfill c s).outer := by
  unfold cpfill
  grind [writeRow_outerWf, runStruck_outerWf, moved_outerWf, mover_outerWf]
theorem cpring_outerWf (c) (hs : OuterWf s.outer) : OuterWf (cpring c s).outer := by
  refine reader_outerWf s c 1 0x25 (fun s v hs => ?_) hs
  dsimp only
  split
  · exact moved_outerWf _ _ _ _ ((draw_outer s).symm ▸ hs) hs
  · exact moved_outerWf _ _ _ _ hs hs
  · split
    · split
      · exact hs
      · exact moved_outerWf _ _ _ _ hs hs
    · split
      · exact moved_outerWf _ _ _ _ ((wr_outer ..).symm ▸ hs) hs
      · have hcopy := copyRow_outerWf _ _ _ _ _ _ _ (struck_eq_ok ‹_›) ((wr_outer ..).symm ▸ hs)
        grind [performHead_outer, modCore_outer, wr_outer]
theorem gtrows_outerWf (c) : OuterWf s.outer → OuterWf (gtrows c s).outer := by
  unfold gtrows
  grind [modCore_outer, rdEngine_outer, performHead_outer, struckRow_outer, copyRow_outerWf, runStruck_outerWf, moved_outerWf, reader_outerWf,
    foldl_outer]
theorem sendRow_outer (v i val n) : (s.sendRow v i val n).outer = s.outer := by
  unfold State.sendRow
  grind [sendEager_outer, foldl_outer]
theorem nxput_outerWf (c) (hs : OuterWf s.outer) : OuterWf (nxput c s).outer := by
  refine reader_outerWf s c 3 0x40 (fun s v hs => ?_) hs
  dsimp only
  split
  · split
    · exact moved_outerWf _ _ _ _ hs hs
    · have hrun := runStruck_outerWf s v.m.hit (f := fun s i =>
          Mover.within (v.bounds v.m.a2 (v.off2 i) (lenOf v.m.d3) true)
            ((s.readRow v v.m.a1 (v.off1 i) (lenOf v.m.d3)).map fun r => r.1.sendRow v i r.2 (lenOf v.m.d3 / 32)))
        (fun s i t h hs => by
          obtain ⟨r, hr, rfl⟩ := except_map_eq_ok (within_eq_ok h)
          exact (sendRow_outer ..).symm ▸ readRow_outerWf s _ _ _ _ hr hs) (List.range v.rows1) hs
      grind [modCore_outer, stopped_outer]
  · split
    · exact (performHead_outer ..).symm ▸ hs
    · exact hs
theorem nxred_outerWf (c) : OuterWf s.outer → OuterWf (nxred c s).outer := by
  unfold nxred
  grind [modCore_outer, rdEngine_outer, performHead_outer, moved_outerWf, reader_outerWf]
theorem fireValues_outer (seen c k e patch) : (fireValues s seen c k e patch).2.outer = s.outer := by
  unfold fireValues
  grind [rdEngine_outer]
theorem firing_outer (c) : (firing c s).outer = s.outer := by
  unfold firing
  split
  · rfl
  split
  · rfl
  split
  · split
    · grind [beginCmd_outer, progress_outer]
    · split <;> grind [metPoison_outer, performHead_outer, progress_outer, fireValues_outer, modCore_outer, send_outer]
  · rfl

end Sys2Proof.Machine

/-! Host memory is left or stays canonical: collectives. -/

namespace Sys2Proof.Machine

variable (s : State) {t : State}

theorem firingDone_outer (a cause tval flags) : (s.firingDone a cause tval flags).outer = s.outer := rfl
theorem deliverTo_outer (asid a rs) : (s.deliverTo asid a rs).outer = s.outer := by
  unfold State.deliverTo
  grind [wrNow_outer, progress_outer, hamperArrive_outer, foldl_outer]
theorem deliverOn_outer (asid m r) : (s.deliverOn asid m r).outer = s.outer := by
  unfold State.deliverOn
  grind [count_outer, deliverTo_outer, foldl_outer]
theorem firingsDone_outer (r) : (s.firingsDone r).outer = s.outer := by
  unfold State.firingsDone
  grind [firingDone_outer, foldl_outer]
theorem putRound_outer (asid r) : (s.putRound asid r).outer = s.outer := rfl
theorem joinArrival_outer (asid tile a) : (s.joinArrival asid tile a).outer = s.outer := by
  unfold State.joinArrival
  grind [modCore_outer, putRound_outer]
theorem closeRound_outer (asid r) : (s.closeRound asid r).outer = s.outer := by
  unfold State.closeRound
  grind [modJob_outer, firingsDone_outer, joinArrival_outer, foldl_outer]
theorem delivered_outer (asid m r) : (s.delivered asid m r).outer = s.outer := by
  unfold State.delivered
  grind [putRound_outer, closeRound_outer]
theorem advanceFor_outer (asid tile m n) : (s.advanceFor asid tile m n).outer = s.outer := by
  induction n generalizing s m with
  | zero => rfl
  | succ n ih =>
    unfold State.advanceFor
    grind [countLink_outer, postHub_outer, putRound_outer, delivered_outer, deliverOn_outer, foldl_outer]
theorem advanceRound_outer (asid tile m) : (s.advanceRound asid tile m).outer = s.outer := by
  unfold State.advanceRound
  grind [advanceFor_outer]
theorem mangleVote_outer (asid m) : (s.mangleVote asid m).outer = s.outer := by
  unfold State.mangleVote
  grind [postHub_outer]
theorem arriveRound_outer (asid tile m a) : (s.arriveRound asid tile m a).outer = s.outer := by
  unfold State.arriveRound
  grind [joinArrival_outer, advanceRound_outer, mangleVote_outer]
theorem mangleArrival_outer (n) : (mangleArrival n s).outer = s.outer := by
  unfold mangleArrival
  grind [dropMsg_outer, firingDone_outer, arriveRound_outer]
theorem manglePartialArrival_outer (n) : (manglePartialArrival n s).outer = s.outer := by
  unfold manglePartialArrival
  grind [dropMsg_outer, putRound_outer, advanceRound_outer]
theorem mangleResultArrival_outer (n) : (mangleResultArrival n s).outer = s.outer := by
  unfold mangleResultArrival
  grind [dropMsg_outer, deliverOn_outer, delivered_outer, advanceRound_outer, foldl_outer]
theorem blockQueueHandout_outer (m asid tile) : (blockQueueHandout m asid tile s).outer = s.outer := by
  unfold blockQueueHandout
  grind [putRound_outer, advanceRound_outer]
theorem linkVotes_outer (a b) : (s.linkVotes a b).outer = s.outer := by
  unfold State.linkVotes
  grind [mangleVote_outer, foldl_outer]
theorem mangleFailure_outer (m) : (mangleFailure m s).outer = s.outer := by
  unfold mangleFailure
  grind [modModule_outer, mangleVote_outer, foldl_outer]

end Sys2Proof.Machine

/-! Host memory is left or stays canonical: the journal, its mirror, and the end of a job (R80 to R85, R358). -/

namespace Sys2Proof.Machine

variable (s : State) {t : State}

theorem hostPut_outerWf (a n v) (hs : OuterWf s.outer) : OuterWf (s.hostPut a n v).outer :=
  ⟨Sys2Proof.Laws.memWf_writeMem n a v hs.1, hs.2⟩
theorem mirrorAt_outerWf (m off e) : OuterWf s.outer → OuterWf (s.mirrorAt m off e).outer := by
  unfold State.mirrorAt
  grind [hostPut_outerWf]
theorem modEntry_outerWf (m jsn f) : OuterWf s.outer → OuterWf (s.modEntry m jsn f).outer := by
  unfold State.modEntry
  grind [modModule_outer, mirrorAt_outerWf]
theorem mirrorAll_outerWf (m) : OuterWf s.outer → OuterWf (s.mirrorAll m).outer := by
  unfold State.mirrorAll
  grind [mirrorAt_outerWf, foldl_outerWf]
theorem modQ_outer (m q f) : (s.modQ m q f).outer = s.outer := rfl
theorem complete_outer (m q c) : (s.complete m q c).outer = s.outer := rfl
theorem msixReady_outer (m) : (s.msixReady m).2.outer = s.outer := by
  unfold State.msixReady
  grind [modModule_outer, drawBool_outer]
theorem msix_outerWf (m vec) : OuterWf s.outer → OuterWf (s.msix m vec).outer := by
  unfold State.msix
  grind [modModule_outer, hostPut_outerWf, msixReady_outer]
theorem completionWrite_outerWf (m q) : OuterWf s.outer → OuterWf (completionWrite m q s).outer := by
  unfold completionWrite
  grind [hostPut_outerWf, modQ_outer, msix_outerWf]
theorem finishCmd_outerWf (m jsn state cause) : OuterWf s.outer → OuterWf (s.finishCmd m jsn state cause).outer := by
  unfold State.finishCmd
  grind [modEntry_outerWf, complete_outer]
theorem event_outer (m w a) : (s.event m w a).outer = s.outer := rfl
theorem evictPool_outerWf (m asid root) : OuterWf s.outer → OuterWf (s.evictPool m asid root).outer := by
  unfold State.evictPool
  grind [evict_outerWf, foldl_outerWf]
theorem vacate_outerWf (asid j) : OuterWf s.outer → OuterWf (s.vacate asid j).outer := by
  unfold State.vacate
  grind [dropClaims_outer, dropTlbAsid_outer, releaseBank_outer, evictPool_outerWf, foldl_outerWf, outer_eq]
theorem releaseJob_outerWf (asid) : OuterWf s.outer → OuterWf (s.releaseJob asid).outer := by
  unfold State.releaseJob
  grind [vacate_outerWf, outer_eq]
theorem endJob_outerWf (asid state cause by_) : OuterWf s.outer → OuterWf (s.endJob asid state cause by_).outer := by
  unfold State.endJob
  grind [finishCmd_outerWf, releaseJob_outerWf, foldl_outerWf]
theorem unlessBusy_outerWf (asid) (ht : OuterWf t.outer) (hs : OuterWf s.outer) : OuterWf (s.unlessBusy t asid).outer := by
  unfold State.unlessBusy
  split
  · exact hs
  · exact ht

end Sys2Proof.Machine

/-! Host memory is left or stays canonical: placement and supersteps. -/

namespace Sys2Proof.Machine

variable (s : State) {t : State}

theorem passRole_outer (d q r) : (s.passRole d q r).outer = s.outer := by
  unfold State.passRole
  grind [modDie_outer, event_outer]
theorem freshPos_outer (c) : (s.freshPos c).outer = s.outer := rfl
theorem notePatch_outer (c) : (s.notePatch c).outer = s.outer := by
  unfold State.notePatch
  grind [modJob_outer]
theorem forgetAppeal_outer (c) : (s.forgetAppeal c).outer = s.outer := by
  unfold State.forgetAppeal
  grind [modPos_outer, foldl_outer]
theorem forgetMisses_outer (c) : (s.forgetMisses c).outer = s.outer := by
  unfold State.forgetMisses
  grind [modPos_outer, foldl_outer]
theorem fenceForGood_outer (c) : (s.fenceForGood c).outer = s.outer := by
  unfold State.fenceForGood
  grind [modDie_outer, setPatch_outer, event_outer]
theorem patchPosition_outer (c) : (s.patchPosition c).outer = s.outer := by
  unfold State.patchPosition
  grind [modCore_outer, modDie_outer, setPatch_outer, count_outer, event_outer, passRole_outer, freshPos_outer, notePatch_outer, fenceForGood_outer]
theorem migrate_outerWf (asid j r old new) : OuterWf s.outer → OuterWf (s.migrate asid j r old new).outer := by
  unfold State.migrate
  grind [setCore_outer, setJob_outer, modPos_outer, modDie_outer, dropClaims_outer, dropTlbAsid_outer, releaseBank_outer, evictPool_outerWf,
    foldl_outer, outer_eq]
theorem toCores_outer (asid j kind) : (s.toCores asid j kind).outer = s.outer := by
  unfold State.toCores
  grind [post_outer, foldl_outer]
theorem watchRolling_outer (asid) : (s.watchRolling asid).outer = s.outer := by
  unfold State.watchRolling
  grind [setJob_outer]
theorem announce_outer (asid v) : (s.announce asid v).outer = s.outer := by
  unfold State.announce
  grind [setJob_outer, toCores_outer, watchRolling_outer]
theorem tryOutcome_outer (asid) : (s.tryOutcome asid).outer = s.outer := by
  unfold State.tryOutcome
  grind [announce_outer]
theorem doomJob_outer (asid) : (s.doomJob asid).outer = s.outer := by
  unfold State.doomJob
  grind [setJob_outer, toCores_outer]
theorem nodeAbort_outer (asid index cause) : (s.nodeAbort asid index cause).outer = s.outer := by
  unfold State.nodeAbort
  grind [modJob_outer, tryOutcome_outer, doomJob_outer]
theorem barrierMessage_outer (n) : (barrierMessage n s).outer = s.outer := by
  unfold barrierMessage
  grind [setJob_outer, dropMsg_outer, joinEpisode_outer, tryOutcome_outer, doomJob_outer, nodeAbort_outer]
theorem furtherAbortMessage_outer (n) : (furtherAbortMessage n s).outer = s.outer := by
  unfold furtherAbortMessage
  grind [setJob_outer, dropMsg_outer, tryOutcome_outer, doomJob_outer]
theorem urgentAbort_outer (n) : (urgentAbort n s).outer = s.outer := by
  unfold urgentAbort
  grind [dropMsg_outer, announce_outer]
theorem doomNotice_outer (n) : (doomNotice n s).outer = s.outer := by
  unfold doomNotice
  grind [modCore_outer, post_outer, dropMsg_outer, stopCore_outer]
theorem outcomeArrival_outer (n) : (outcomeArrival n s).outer = s.outer := by
  unfold outcomeArrival
  grind [modCore_outer, dropMsg_outer, stopCore_outer]
theorem applyDeferred_outer (c asid d) : (s.applyDeferred c asid d).outer = s.outer := by
  unfold State.applyDeferred
  grind [draw_outer, wrBoth_outer, countLink_outer]
theorem pressHomes_outer (c asid) : (s.pressHomes c asid).outer = s.outer := rfl
theorem unwindHomes_outer (c asid) : (s.unwindHomes c asid).outer = s.outer := rfl
theorem setDirty_outerWf (m asid root va) : OuterWf s.outer → OuterWf (s.setDirty m asid root va).outer := by
  unfold State.setDirty
  grind [modLeaf_outerWf]
theorem writeOut_outerWf (c asid root w) : OuterWf s.outer → OuterWf (s.writeOut c asid root w).outer := by
  unfold State.writeOut
  grind [post_outer, wrPa_outerWf, countAtoms_outer, setDirty_outerWf]
theorem writeOuts_outerWf (c) : OuterWf s.outer → OuterWf (s.writeOuts c).outer := by
  unfold State.writeOuts
  grind [modCore_outer, modModule_outer, writeOut_outerWf, foldl_outerWf]
theorem journalCommit_outerWf (asid) : OuterWf s.outer → OuterWf (s.journalCommit asid).outer := by
  unfold State.journalCommit
  grind [modEntry_outerWf]
theorem probationDown_outer (c) : (s.probationDown c).outer = s.outer := by
  unfold State.probationDown
  grind [modPos_outer]
theorem committedJob_outerWf (asid) : OuterWf s.outer → OuterWf (s.committedJob asid).outer := by
  unfold State.committedJob
  grind [setJob_outer, modJob_outer, count_outer, writeOuts_outerWf, journalCommit_outerWf, probationDown_outer, foldl_outerWf, outer_eq]
theorem commitApply_outerWf (c) : OuterWf s.outer → OuterWf (commitApply c s).outer := by
  unfold commitApply
  grind [modCore_outer, applyDeferred_outer, pressHomes_outer, writeOuts_outerWf, journalCommit_outerWf, committedJob_outerWf, foldl_outer]
theorem rollback_outer (c) : (rollback c s).outer = s.outer := by
  unfold rollback
  grind [modCore_outer, modJob_outer, patchPosition_outer, unwindHomes_outer, outer_eq]
theorem pauseNow_outerWf (asid j) : OuterWf s.outer → OuterWf (s.pauseNow asid j).outer := by
  unfold State.pauseNow
  grind [modJob_outer, modEntry_outerWf, finishCmd_outerWf, foldl_outerWf]
theorem boundary_outerWf (asid j v) : OuterWf s.outer → OuterWf (s.boundary asid j v).outer := by
  unfold State.boundary
  grind [modCore_outer, setJob_outer, count_outer, endJob_outerWf, pauseNow_outerWf, foldl_outer, outer_eq]
theorem deliverStaged_outer (asid c e) : (s.deliverStaged asid c e).outer = s.outer := by
  unfold State.deliverStaged
  grind [modCore_outer, modHome_outer, hamperArrive_outer]
theorem startCore_outer (j c) : (s.startCore j c).outer = s.outer := by
  unfold State.startCore
  grind [modCore_outer, record_outer, recordTrap_outer, abortCondition_outer, metPoison_outer, enterHandler_outer]
theorem finishBoundary_outer (asid j) : (s.finishBoundary asid j).outer = s.outer := by
  unfold State.finishBoundary
  grind [dropTlbAsid_outer, pressHomes_outer, deliverStaged_outer, foldl_outer]
theorem startRun_outerWf (asid j) : OuterWf s.outer → OuterWf (s.startRun asid j).outer := by
  unfold State.startRun
  grind [modJob_outer, modEntry_outerWf, startCore_outer, foldl_outer]
theorem enterRun_outerWf (asid j) : OuterWf s.outer → OuterWf (s.enterRun asid j).outer := by
  unfold State.enterRun
  grind [endJob_outerWf, finishBoundary_outer, startRun_outerWf]
theorem patchJob_outer (j) : (s.patchJob j).outer = s.outer := by
  unfold State.patchJob
  grind [patchPosition_outer, foldl_outer]
theorem readmit_outer (c) : (s.readmit c).outer = s.outer := by
  unfold State.readmit
  grind [modCore_outer, modPos_outer, modDie_outer, setPatch_outer, freshPos_outer, forgetAppeal_outer]
theorem moveFenced_outerWf (asid c) : OuterWf s.outer → OuterWf (s.moveFenced asid c).outer := by
  unfold State.moveFenced
  grind [migrate_outerWf]
theorem release_outerWf (asid j) : OuterWf s.outer → OuterWf (s.release asid j).outer := by
  unfold State.release
  grind [unlessBusy_outerWf, enterRun_outerWf, patchJob_outer, moveFenced_outerWf]
theorem superstepStart_outerWf (asid) : OuterWf s.outer → OuterWf (superstepStart asid s).outer := by
  unfold superstepStart
  grind [unlessBusy_outerWf, probationDown_outer, boundary_outerWf, readmit_outer, release_outerWf, foldl_outer]
theorem retirement_outerWf (asid) : OuterWf s.outer → OuterWf (retirement asid s).outer := by
  unfold retirement
  grind [modEntry_outerWf, endJob_outerWf, writeOuts_outerWf, readmit_outer, foldl_outerWf]
theorem watchdog_outer (asid) : (watchdog asid s).outer = s.outer := by
  unfold watchdog
  grind [setJob_outer, postHub_outer]
theorem qdead_outer (c) : (qdead c s).outer = s.outer := by
  unfold qdead
  grind [recordTrap_outer, abortCondition_outer]

end Sys2Proof.Machine

/-! Host memory is left or stays canonical: the dispatcher and the commands (R75 to R89). -/

namespace Sys2Proof.Machine

variable (s : State) {t : State}

theorem clearSlot_outerWf (m) (h : s.clearSlot m = some t) (hs : OuterWf s.outer) : OuterWf t.outer := by
  unfold State.clearSlot at h
  split at h
  · cases h
  · split at h
    · cases h
      exact hs
    · split at h
      · cases h
        exact hs
      · obtain ⟨i, -, rfl⟩ := Option.map_eq_some_iff.mp h
        exact mirrorAt_outerWf _ _ _ _ ((modModule_outer ..).symm ▸ hs)
theorem accept_outerWf (m q b digest) : OuterWf s.outer → OuterWf (s.accept m q b digest).outer := by
  unfold State.accept
  grind [modModule_outer, mirrorAt_outerWf, modQ_outer, complete_outer, finishCmd_outerWf, clearSlot_outerWf]
theorem commandFetch_outerWf (m) : OuterWf s.outer → OuterWf (commandFetch m s).outer := by
  unfold commandFetch
  grind [modModule_outer, modQ_outer, complete_outer, accept_outerWf]
theorem takeCmd_outer (m jsn) : (s.takeCmd m jsn).outer = s.outer := rfl
theorem cmdDone_outerWf (m jsn) : OuterWf s.outer → OuterWf (s.cmdDone m jsn).outer := by
  unfold State.cmdDone
  grind [finishCmd_outerWf, takeCmd_outer]
theorem cmdFault_outerWf (m jsn cause) : OuterWf s.outer → OuterWf (s.cmdFault m jsn cause).outer := by
  unfold State.cmdFault
  grind [finishCmd_outerWf, takeCmd_outer]
theorem onCommand_outerWf (m jsn kind) {f : State → Command → State} (hf : ∀ c, OuterWf (f s c).outer) (hs : OuterWf s.outer) :
    OuterWf (onCommand m jsn kind f s).outer := by
  unfold onCommand
  split
  · exact hf _
  · exact hs
theorem launch_outerWf (m jsn) : OuterWf s.outer → OuterWf (launch m jsn s).outer := by
  unfold launch
  grind [setJob_outer, takeCmd_outer, cmdFault_outerWf, onCommand_outerWf]
theorem cancel_outerWf (m jsn) : OuterWf s.outer → OuterWf (cancel m jsn s).outer := by
  unfold cancel
  grind [setJob_outer, postHub_outer, endJob_outerWf, takeCmd_outer, cmdFault_outerWf, onCommand_outerWf]
theorem pauseAtBoundary_outerWf (m jsn) : OuterWf s.outer → OuterWf (pauseAtBoundary m jsn s).outer := by
  unfold pauseAtBoundary
  grind [setJob_outer, takeCmd_outer, cmdDone_outerWf, cmdFault_outerWf, onCommand_outerWf]
theorem resume_outerWf (m jsn) : OuterWf s.outer → OuterWf (resume m jsn s).outer := by
  unfold resume
  grind [setJob_outer, modEntry_outerWf, finishCmd_outerWf, cmdDone_outerWf, cmdFault_outerWf, onCommand_outerWf, foldl_outerWf]
theorem readJournal_outerWf (m jsn) : OuterWf s.outer → OuterWf (readJournal m jsn s).outer := by
  unfold readJournal
  grind [hostPut_outerWf, cmdDone_outerWf, cmdFault_outerWf, onCommand_outerWf, foldl_outerWf]
theorem sync_outerWf (m jsn) : OuterWf s.outer → OuterWf (sync m jsn s).outer := by
  unfold sync
  grind [cmdDone_outerWf, cmdFault_outerWf, onCommand_outerWf]
theorem unpark_outer (asid j k) : (s.unpark asid j k).outer = s.outer := by
  unfold State.unpark
  grind [setCore_outer, setJob_outer, modPos_outer, foldl_outer]
theorem withdraw_outer (w) : (s.withdraw w).outer = s.outer := rfl
theorem placeJob_outer (m jsn) : (placeJob m jsn s).outer = s.outer := by
  unfold placeJob
  split
  · rfl
  · split
    · rfl
    · split
      · rfl
      · dsimp only
        split
        · exact (unpark_outer ..).trans (withdraw_outer ..)
        · refine (foldl_outer (fun s i => ?_) ..).trans ((setJob_outer ..).trans (withdraw_outer ..))
          split
          · exact setCore_outer ..
          · rfl
theorem hubTranslate_outerWf (m asid root va) (h : s.hubTranslate m asid root va = .ok (t, x)) : OuterWf s.outer → OuterWf t.outer := by
  unfold State.hubTranslate at h
  grind [countWalk_outer, modLeaf_outerWf, promote_outerWf]
theorem stageAtom_outerWf (m asid root va v) (h : s.stageAtom m asid root va v = .ok t) : OuterWf s.outer → OuterWf t.outer := by
  unfold State.stageAtom at h
  grind [wrPa_outerWf, countAtoms_outer, setDirty_outerWf, hubTranslate_outerWf]
theorem stageVirt_outerWf (m asid root x n) (hs : OuterWf s.outer) : OuterWf (s.stageVirt m asid root x n).1.outer := by
  induction n with
  | zero => exact hs
  | succ n ih =>
    unfold State.stageVirt
    grind [stageAtom_outerWf, countWalk_outer]
theorem stageSection_outerWf (asid j x) : OuterWf s.outer → OuterWf (s.stageSection asid j x).1.outer := by
  unfold State.stageSection
  grind [modCore_outer, modJob_outer, stageVirt_outerWf, foldl_outer]
theorem stageAll_outerWf (asid j l) (hs : OuterWf s.outer) : OuterWf (s.stageAll asid j l).1.outer := by
  induction l generalizing s with
  | nil => exact hs
  | cons x l ih =>
    unfold State.stageAll
    grind [stageSection_outerWf]
theorem stageJob_outerWf (m jsn asid j) (hs : OuterWf s.outer) : OuterWf (s.stageJob m jsn asid j).outer := by
  have hall := stageAll_outerWf s asid (j.readBodies s.host) (j.readBodies s.host).sections hs
  unfold State.stageJob
  split
  · exact endJob_outerWf _ _ _ _ _ hs
  · dsimp only
    split
    · rename_i heq
      rw [heq] at hall
      split
      · exact hs
      · exact endJob_outerWf _ _ _ _ _ hall
    · rename_i heq
      rw [heq] at hall
      split
      · exact endJob_outerWf _ _ _ _ _ hall
      · exact modEntry_outerWf _ _ _ _ ((modJob_outer ..).symm ▸ hall)
theorem stagingComplete_outerWf (m jsn) : OuterWf s.outer → OuterWf (stagingComplete m jsn s).outer := by
  unfold stagingComplete
  grind [unlessBusy_outerWf, stageJob_outerWf]
theorem runEntry_outerWf (asid c b) : OuterWf s.outer → OuterWf (s.runEntry asid c b).1.outer := by
  unfold State.runEntry
  grind [wr_outer, readRow_outerWf, stopped_outer, fetchArrive_outer]
theorem runEntries_outerWf (asid l) (hs : OuterWf s.outer) : OuterWf (s.runEntries asid l).1.outer := by
  induction l generalizing s with
  | nil => exact hs
  | cons e l ih =>
    unfold State.runEntries
    grind [runEntry_outerWf]
theorem runpflComplete_outerWf (m jsn) : OuterWf s.outer → OuterWf (runpflComplete m jsn s).outer := by
  unfold runpflComplete
  grind [modCore_outer, modJob_outer, modPos_outer, endJob_outerWf, unlessBusy_outerWf, superstepStart_outerWf, runEntries_outerWf, foldl_outer]
theorem firstSome_mem {α : Type} {l : List (Option α)} {a : α} (h : firstSome l = some a) : some a ∈ l := by
  induction l with
  | nil => cases h
  | cons o l ih => cases o <;> grind [firstSome]
theorem roomByMove_outerWf (w) (h : s.roomByMove w = some t) (hs : OuterWf s.outer) : OuterWf t.outer := by
  obtain ⟨e, -, h⟩ := List.mem_flatMap.mp (firstSome_mem h)
  obtain ⟨x, -, h⟩ := List.mem_flatMap.mp h
  split at h
  · obtain ⟨new, -, h⟩ := List.mem_map.mp h
    split at h
    · cases h
      exact migrate_outerWf _ _ _ _ _ _ hs
    · cases h
  · cases h
theorem askYield_outer (w a) : (s.askYield w a).outer = s.outer := rfl
theorem preemptionRequest_outerWf (m jsn) (hs : OuterWf s.outer) : OuterWf (preemptionRequest m jsn s).outer := by
  unfold preemptionRequest
  split
  · exact hs
  · split
    · split
      · exact hs
      · split
        · exact roomByMove_outerWf s _ ‹_› hs
        · exact (foldl_outer (fun s a => askYield_outer s (m, jsn) a) ..).symm ▸ hs
    · exact hs
theorem preemptionDeadline_outer (asid) : (preemptionDeadline asid s).outer = s.outer := by
  unfold preemptionDeadline
  grind [setJob_outer, postHub_outer]
theorem park_outerWf (asid) : OuterWf s.outer → OuterWf (park asid s).outer := by
  unfold park
  grind [modJob_outer, vacate_outerWf]
theorem migrateRectangle_outerWf (asid r die row col) : OuterWf s.outer → OuterWf (migrateRectangle asid r die row col s).outer := by
  unfold migrateRectangle
  grind [migrate_outerWf]

end Sys2Proof.Machine

/-! Host memory is left or stays canonical: fencing and link failure. -/

namespace Sys2Proof.Machine

variable (s : State) {t : State}

theorem cutMessage_outer (c) : (s.cutMessage c).outer = s.outer := by
  unfold State.cutMessage
  grind [drawBool_outer, dropMsg_outer]
theorem returnOrders_outer (asid c) : (s.returnOrders asid c).outer = s.outer := by
  unfold State.returnOrders
  grind [setJob_outer, orderAnswer_outer, foldl_outer]
theorem fence_outer (c) : (s.fence c).outer = s.outer := by
  unfold State.fence
  grind [modCore_outer, modPos_outer, modDie_outer, setPatch_outer, fresh_outer, post_outer, count_outer, event_outer, forgetMisses_outer,
    watchRolling_outer, cutMessage_outer, returnOrders_outer]
theorem tryFence_outer (c suspect) : (s.tryFence c suspect).outer = s.outer := by
  unfold State.tryFence
  grind [fence_outer]
theorem tryAccept_outer (c suspect) : (s.tryAccept c suspect).outer = s.outer := by
  unfold State.tryAccept
  grind [modPos_outer, readmit_outer]
theorem postBeat_outer (c d) : (s.postBeat c d).outer = s.outer := rfl
theorem heartbeatSend_outer (c) : (heartbeatSend c s).outer = s.outer := by
  unfold heartbeatSend
  grind [modPos_outer, postBeat_outer, foldl_outer]
theorem flitCrcFailure_outer (c dir) : (flitCrcFailure c dir s).outer = s.outer := rfl
theorem accuse_outer (c d) : (s.accuse c d).outer = s.outer := by
  unfold State.accuse
  grind [modPos_outer, post_outer, tryFence_outer, foldl_outer]
theorem judgeAppeal_outer (c d i bad) : (s.judgeAppeal c d i bad).outer = s.outer := by
  unfold State.judgeAppeal
  grind [modPos_outer, post_outer, forgetAppeal_outer, fenceForGood_outer, tryAccept_outer, foldl_outer]
theorem checkDir_outer (p c i) : (s.checkDir p c i).outer = s.outer := by
  unfold State.checkDir
  grind [modPos_outer, accuse_outer, judgeAppeal_outer]
theorem countHeaders_outer (p i) : (s.countHeaders p i).1.outer = s.outer := by
  unfold State.countHeaders
  grind [draw_outer]
theorem missCheck_outer (c) : (missCheck c s).outer = s.outer := by
  have hfold := foldl_fst_outer (fun r i => countHeaders_outer r.1 r.2 i) (List.range 4) (s, s.pos c)
  unfold missCheck
  grind [modPos_outer, checkDir_outer, foldl_outer]
theorem heartbeatArrival_outer (n crcOk) : (heartbeatArrival n crcOk s).outer = s.outer := by
  unfold heartbeatArrival
  grind [modPos_outer, dropMsg_outer, missCheck_outer]
theorem accusation_outer (n) : (accusation n s).outer = s.outer := by
  unfold accusation
  grind [modPos_outer, dropMsg_outer, tryFence_outer]
theorem accusationExpiry_outer (c) : (accusationExpiry c s).outer = s.outer := rfl
theorem selfTest_outer (c pass) : (selfTest c pass s).outer = s.outer := by
  unfold selfTest
  grind [modPos_outer, fenceForGood_outer]
theorem acceptance_outer (n) : (acceptance n s).outer = s.outer := by
  unfold acceptance
  grind [modPos_outer, dropMsg_outer, tryAccept_outer]
theorem failSpare_outer (c) : (s.failSpare c).outer = s.outer := by
  unfold State.failSpare
  grind [modDie_outer, passRole_outer]
theorem controlStateError_outer (c) : (controlStateError c s).outer = s.outer := by
  unfold controlStateError
  grind [modCore_outer, watchRolling_outer, failSpare_outer]
theorem strikeHead_outer (c q m cause) : (s.strikeHead c q m cause).outer = s.outer := rfl
theorem parity_outer (c k) : (parity c k s).outer = s.outer := by
  unfold parity
  grind [lateTrap_outer, strikeHead_outer]
theorem linkAt_outer (m) : (s.linkAt m).outer = s.outer := by
  unfold State.linkAt
  grind [lateTrap_outer]
theorem sendAgain_outer (m kind) : (s.sendAgain m kind).outer = s.outer := rfl
theorem failCommand_outer (c) : (s.failCommand c).outer = s.outer := by
  unfold State.failCommand
  grind [draw_outer, linkVotes_outer, strikeHead_outer]
theorem roundLost_outer (asid tile x) : (s.roundLost asid tile x).outer = s.outer := by
  unfold State.roundLost
  grind [linkVotes_outer]
theorem loseMsg_outerWf (m applied) (ht : OuterWf t.outer) : OuterWf (s.loseMsg t m applied).outer := by
  unfold State.loseMsg
  split <;> grind [wrNow_outer, modCore_outer, linkAt_outer, performAtomic_outer, sendAgain_outer, roundLost_outer, wrPa_outerWf, modJob_outer,
    journalCommit_outerWf]
theorem linkFailure_outerWf (n applied) : OuterWf s.outer → OuterWf (linkFailure n applied s).outer := by
  unfold linkFailure
  grind [dropMsg_outer, linkVotes_outer, failCommand_outer, loseMsg_outerWf]

end Sys2Proof.Machine

/-! Host memory is left or stays canonical: floating-point instructions, and leases. -/

namespace Sys2Proof.Machine

variable (s : State) {t : State}

theorem fpRound_outer (fd rm f) (h : fpRound s fd rm f = .next t) : t.outer = s.outer := by
  unfold fpRound at h
  grind [issue_outer, finish_outer, trapW_outer]
theorem fpRoundX_outer (rd rm f) (h : fpRoundX s rd rm f = .next t) : t.outer = s.outer := by
  unfold fpRoundX at h
  grind [issue_outer, finish_outer, trapW_outer]
theorem fpF_outer (fd f) (h : fpF s fd f = .next t) : t.outer = s.outer := by
  unfold fpF at h
  grind [issue_outer, finish_outer]
theorem fpX_outer (rd f) (h : fpX s rd f = .next t) : t.outer = s.outer := by
  unfold fpX at h
  grind [issue_outer, finish_outer]
theorem setLease_outer (m slot l) : (s.setLease m slot l).outer = s.outer := rfl
theorem freeLease_outer (m slot) : (s.freeLease m slot).outer = s.outer := rfl
theorem onLease_outerWf (m jsn op) {f : State → Nat → State} (hf : ∀ b, OuterWf (f s b).outer) (hs : OuterWf s.outer) :
    OuterWf (onLease m jsn op f s).outer := by
  refine onCommand_outerWf s m jsn 5 (fun c => ?_) hs
  split
  · split
    · exact cmdFault_outerWf _ _ _ _ hs
    · exact hf _
  · exact hs
theorem offer_outerWf (m jsn) : OuterWf s.outer → OuterWf (offer m jsn s).outer := by
  unfold offer
  grind [cmdDone_outerWf, cmdFault_outerWf, setLease_outer, onLease_outerWf]
theorem take_outerWf (m jsn) : OuterWf s.outer → OuterWf (take m jsn s).outer := by
  unfold take
  grind [cmdDone_outerWf, cmdFault_outerWf, setLease_outer, onLease_outerWf]
theorem withdrawCommand_outerWf (m jsn) : OuterWf s.outer → OuterWf (withdraw m jsn s).outer := by
  unfold withdraw
  grind [send_outer, takeCmd_outer, cmdDone_outerWf, cmdFault_outerWf, setLease_outer, freeLease_outer, onLease_outerWf, foldl_outer]
theorem releaseCommand_outerWf (m jsn) : OuterWf s.outer → OuterWf (release m jsn s).outer := by
  unfold release
  grind [takeCmd_outer, cmdFault_outerWf, setLease_outer, onLease_outerWf]
theorem revokeWrites_outer (m base len) : (s.revokeWrites m base len).outer = s.outer := by
  unfold State.revokeWrites
  grind [recordTrap_outer, abortCondition_outer, foldl_outer]
theorem evictBacked_outerWf (m base len) : OuterWf s.outer → OuterWf (s.evictBacked m base len).outer := by
  unfold State.evictBacked
  grind [evict_outerWf, foldl_outerWf]
theorem revocation_outerWf (m slot) : OuterWf s.outer → OuterWf (revocation m slot s).outer := by
  unfold revocation
  grind [send_outer, dropMsg_outer, finishCmd_outerWf, setLease_outer, freeLease_outer, revokeWrites_outer, evictBacked_outerWf]
theorem revocationAck_outerWf (n) : OuterWf s.outer → OuterWf (revocationAck n s).outer := by
  unfold revocationAck
  grind [dropMsg_outer, finishCmd_outerWf, setLease_outer, freeLease_outer]
theorem leaseAckTimeout_outer (m slot) : (leaseAckTimeout m slot s).outer = s.outer := by
  unfold leaseAckTimeout
  grind [modModule_outer, foldl_outer]
theorem addExtent_outer (m base len) : (s.addExtent m base len).outer = s.outer := rfl
theorem dcdExtentRelease_outerWf (m base len) : OuterWf s.outer → OuterWf (dcdExtentRelease m base len s).outer := by
  unfold dcdExtentRelease
  grind [modModule_outer, revokeWrites_outer, evictBacked_outerWf, addExtent_outer]
theorem leaseWindowAccess_outerWf (n) : OuterWf s.outer → OuterWf (leaseWindowAccess n s).outer := by
  unfold leaseWindowAccess
  grind [dropMsg_outer, wrPa_outerWf, journalCommit_outerWf]
theorem rowSparingComplete_outer (m row) : (rowSparingComplete m row s).outer = s.outer := rfl
theorem rowClose_outer (m bank) : (rowClose m bank s).outer = s.outer := rfl
theorem bankForcedClose_outer (m bank) : (bankForcedClose m bank s).outer = s.outer := by
  unfold bankForcedClose
  grind [modCore_outer, modModule_outer]
theorem scrubbing_outer (m pa uncorrectable) : (scrubbing m pa uncorrectable s).outer = s.outer := by
  unfold scrubbing
  grind [modModule_outer, count_outer, event_outer, outer_eq]

end Sys2Proof.Machine

/-! Host memory is left or stays canonical: management, registers, the host window and resets (R303 to R306, R360 to R368). -/

namespace Sys2Proof.Machine

variable (s : State) {t : State}

theorem dropJobs_outerWf (m) : OuterWf s.outer → OuterWf (s.dropJobs m).outer := by
  unfold State.dropJobs
  grind [dropClaims_outer, dropTlbAsid_outer, releaseBank_outer, finishCmd_outerWf, foldl_outerWf, outer_eq]
theorem resetModule_outerWf (m cold) : OuterWf s.outer → OuterWf (s.resetModule m cold).outer := by
  unfold State.resetModule
  grind [drawBool_outer, dropJobs_outerWf, outer_eq]
theorem warmReset_outerWf (m) : OuterWf s.outer → OuterWf (warmReset m s).outer := by
  unfold warmReset
  grind [resetModule_outerWf]
theorem coldReset_outerWf (m) : OuterWf s.outer → OuterWf (coldReset m s).outer := by
  unfold coldReset
  grind [resetModule_outerWf]
theorem accerr_outer (m win off size write) : (accerr m win off size write s).outer = s.outer := by
  unfold accerr
  grind [modModule_outer, outer_eq]
theorem qtail_outer (m q v) : (qtail m q v s).outer = s.outer := rfl
theorem qcfgWrite_outer (m q v) : (qcfgWrite m q v s).outer = s.outer := rfl
theorem chead_outer (m q v) : (chead m q v s).outer = s.outer := rfl
theorem jmen_outerWf (m v) : OuterWf s.outer → OuterWf (jmen m v s).outer := by
  unfold jmen
  grind [modModule_outer, mirrorAll_outerWf]
theorem hostord_outer (m v) : (hostord m v s).outer = s.outer := rfl
theorem jmerr_outer (m) : (jmerr m s).outer = s.outer := rfl
theorem counterClear_outer (m) : (counterClear m s).outer = s.outer := rfl
theorem counterFreeze_outer (m freeze) : (counterFreeze m freeze s).outer = s.outer := rfl
theorem putMsix_outerWf (m i v) : OuterWf s.outer → OuterWf (s.putMsix m i v).outer := by
  unfold State.putMsix
  grind [modModule_outer, msix_outerWf]
theorem putCtl_outerWf (m off v) : OuterWf s.outer → OuterWf (s.putCtl m off v).outer := by
  unfold State.putCtl
  grind [modModule_outer, modQ_outer, qtail_outer, qcfgWrite_outer, chead_outer, jmen_outerWf, hostord_outer, putMsix_outerWf]
theorem putMgmt_outerWf (m off v) : OuterWf s.outer → OuterWf (s.putMgmt m off v).outer := by
  unfold State.putMgmt
  grind [modModule_outer, warmReset_outerWf, counterClear_outer, counterFreeze_outer]
theorem registerWrite_outerWf (m win off size v) : OuterWf s.outer → OuterWf (registerWrite m win off size v s).outer := by
  unfold registerWrite
  grind [accerr_outer, putCtl_outerWf, putMgmt_outerWf]
theorem hostStore_outer (m off size v) : (s.hostStore m off size v).outer = s.outer := by
  unfold State.hostStore
  grind [wrBoth_outer]
theorem hostLoad_outer (m off size) : (s.hostLoad m off size).outer = s.outer := rfl
theorem hostRequest_outer (m r) : (s.hostRequest m r).outer = s.outer := rfl
theorem hostWrite_outer (m off size v) : (hostWrite m off size v s).outer = s.outer := by
  unfold hostWrite
  grind [hostStore_outer, hostRequest_outer]
theorem hostRead_outer (m off size) : (hostRead m off size s).outer = s.outer := by
  unfold hostRead
  grind [hostLoad_outer, hostRequest_outer]
theorem serveHost_outer (m q) : (s.serveHost m q).outer = s.outer := by
  unfold State.serveHost
  grind [modModule_outer, hostStore_outer, hostLoad_outer]
theorem serveHosts_outer (m) : (s.serveHosts m).outer = s.outer := by
  unfold State.serveHosts
  grind [draw_outer, serveHost_outer]
theorem svcEnd_outer (m err) : (s.svcEnd m err).outer = s.outer := rfl
theorem serviceOp_outer (m op) {f : State → Module → State} (hf : ∀ d, (f s d).outer = s.outer) : (service_ m op f s).outer = s.outer := by
  unfold service_
  split
  · split
    · exact hf _
    · rfl
  · rfl
theorem codewrite_outer (m) : (codewrite m s).outer = s.outer := by
  unfold codewrite
  grind [modHome_outer, noteCode_outer, svcEnd_outer, serviceOp_outer, foldl_outer]
theorem poisonset_outer (m) : (poisonset m s).outer = s.outer := by
  unfold poisonset
  grind [modModule_outer, svcEnd_outer, serviceOp_outer]
theorem poisonclear_outer (m) : (poisonclear m s).outer = s.outer := by
  unfold poisonclear
  grind [modModule_outer, svcEnd_outer, serviceOp_outer]
theorem fwwrite_outer (m) : (fwwrite m s).outer = s.outer := by
  unfold fwwrite
  grind [modModule_outer, svcEnd_outer, serviceOp_outer]
theorem fwcommit_outer (m) : (fwcommit m s).outer = s.outer := by
  unfold fwcommit
  grind [svcEnd_outer, serviceOp_outer]
theorem eventread_outer (m) : (eventread m s).outer = s.outer := by
  unfold eventread
  grind [modModule_outer, svcEnd_outer, serviceOp_outer]
theorem badop_outer (m op) : (badop m op s).outer = s.outer := by
  unfold badop
  grind [svcEnd_outer, serviceOp_outer]
theorem attestation_outer (m) : (attestation m s).outer = s.outer := rfl
theorem cancelNow_outerWf (asid j) : OuterWf s.outer → OuterWf (s.cancelNow asid j).outer := by
  unfold State.cancelNow
  grind [setJob_outer, postHub_outer, endJob_outerWf]
theorem cancelLaunch_outerWf (m c) : OuterWf s.outer → OuterWf (s.cancelLaunch m c).outer := by
  unfold State.cancelLaunch
  grind [finishCmd_outerWf, takeCmd_outer]
theorem d3hotEntry_outerWf (m) : OuterWf s.outer → OuterWf (d3hotEntry m s).outer := by
  unfold d3hotEntry
  grind [modModule_outer, cancelNow_outerWf, cancelLaunch_outerWf, foldl_outerWf]
theorem powerWindow_outer (m watts) : (powerWindow m watts s).outer = s.outer := rfl
theorem powerLoss_outerWf (m) : OuterWf s.outer → OuterWf (powerLoss m s).outer := by
  unfold powerLoss
  grind [dropJobs_outerWf, outer_eq]
theorem thermalThrottle_outerWf (m temp) : OuterWf s.outer → OuterWf (thermalThrottle m temp s).outer := by
  unfold thermalThrottle
  grind [modModule_outer, powerLoss_outerWf]
theorem thermalShutdown_outerWf (m) : OuterWf s.outer → OuterWf (thermalShutdown m s).outer := by
  unfold thermalShutdown
  grind [powerLoss_outerWf]

end Sys2Proof.Machine

/-! Host memory is left or stays canonical: waits that end, and what `tick` and `settle` do. -/

namespace Sys2Proof.Machine

variable (s : State) {t : State}

theorem goOn_outer (c k f) : (s.goOn c k f).outer = s.outer := rfl
theorem arrive_map_getD_outer {f : State → State} (c k sc op val) (ht : t.outer = s.outer) (hf : ∀ s, (f s).outer = s.outer) :
    (((s.arrive c k sc op val).map f).getD t).outer = s.outer := by
  cases ha : s.arrive c k sc op val with
  | none => exact ht
  | some u => exact (hf u).trans (arrive_outer s _ _ _ _ _ ha)
theorem retryWait_outer (c core k w) : (s.retryWait c core k w).outer = s.outer := by
  unfold State.retryWait
  split
  case h_10 =>
    split
    · rfl
    · exact arrive_map_getD_outer s _ _ _ _ _ rfl fun t => goOn_outer ..
  case h_11 =>
    split
    · rfl
    · exact arrive_map_getD_outer s _ _ _ _ _ rfl fun t => collect_getD_outer _ _ _ _ _ (modCtx_outer ..)
  all_goals grind [spawnOn_outer, hexit_outer, reading_outer, goOn_outer, tryVote_outer, offerGang_outer, tryWired_outer, modCtx_outer, modCore_outer,
    modJob_outer, sendFlag_outer, takeMail_outer, dispatchCmd_outer, progress_outer, takeStatus_outer, takeSlot_outer, fresh_outer]
theorem retry_outer (c k) : (s.retry c k).outer = s.outer := by
  unfold State.retry
  grind [retryWait_outer]
theorem endFirst_outer (l) (h : s.endFirst l = some t) : t.outer = s.outer := by
  induction l with
  | nil => cases h
  | cons w l ih =>
    unfold State.endFirst at h
    grind [retry_outer]
theorem settleFor_outer (n) : (s.settleFor n).outer = s.outer := by
  induction n generalizing s with
  | zero => rfl
  | succ n ih =>
    have hall := foldl_outer (fun s (e : Nat × Job) => completeEpisodes_outer s e.1) s.jobs s
    unfold State.settleFor
    split
    · exact (ih _).trans ((endFirst_outer _ _ ‹_›).trans hall)
    · exact hall
theorem settle_outer : s.settle.outer = s.outer := by
  unfold State.settle
  grind [settleFor_outer]
theorem tick_outer (n) : (s.tick n).outer = s.outer := rfl
theorem after_outerWf (n) {r : Result} (hr : ∀ u, r = .next u → OuterWf u.outer) (h : after n r = .next t) : OuterWf t.outer := by
  cases r with
  | next u =>
    cases h
    exact (settle_outer _).symm ▸ (tick_outer u n).symm ▸ hr u rfl
  | fault f => cases h
  | refused f => cases h
theorem fetch_outer (c j asid off) : (s.fetch c j asid off).2.outer = s.outer := by
  unfold State.fetch
  grind [draw_outer]
theorem begin_outer (c k w) : (s.begin c k w).outer = s.outer := rfl
theorem msgArrival_outerWf (x n) (hs : OuterWf s.outer) : OuterWf (Msg.arrival x n s).outer := by
  unfold Msg.arrival
  cases x.kind <;> grind [eagerWriteArrival_outer, eagerAckArrival_outer, remoteRequestArrival_outer,
    responseArrival_outer, returned_outer, atomicArrival_outer, orderGroupArrival_outer, mailboxPostArrival_outer, lateTrapArrival_outer,
    barrierMessage_outer, furtherAbortMessage_outer,urgentAbort_outer, doomNotice_outer, outcomeArrival_outer,  mangleArrival_outer,
    manglePartialArrival_outer, mangleResultArrival_outer, heartbeatArrival_outer, accusation_outer, acceptance_outer, revocation_outerWf,
    revocationAck_outerWf, leaseWindowAccess_outerWf]
theorem serviceStep_outer (m op) : (serviceStep m op s).outer = s.outer := by
  unfold serviceStep
  split <;> simp only [codewrite_outer, poisonset_outer, poisonclear_outer, fwwrite_outer, fwcommit_outer, eventread_outer, badop_outer]
theorem firstStep_outerWf (l) (hl : ∀ f ∈ l, OuterWf (f s).outer) (h : s.firstStep l = some t) : OuterWf t.outer := by
  induction l with
  | nil => cases h
  | cons f l ih =>
    obtain ⟨hf, hl⟩ := List.forall_mem_cons.mp hl
    unfold State.firstStep at h
    split at h
    · exact ih hl h
    · cases h
      exact hf

end Sys2Proof.Machine

/-! Host memory stays canonical: the steps that may be due. -/

namespace Sys2Proof.Machine

/-- A step of the machine that keeps these memories canonical. -/
def KeepsOuter (f : State → State) : Prop := ∀ s, OuterWf s.outer → OuterWf (f s).outer
theorem keepsOuter_of_eq {f : State → State} (hf : ∀ s, (f s).outer = s.outer) : KeepsOuter f := fun s hs => (hf s).symm ▸ hs
theorem work_keepsOuter (m : Cmd) (c q) : KeepsOuter (m.work c q) := by
  intro s hs
  unfold Cmd.work
  split
  · exact (firing_outer ..).symm ▸ hs
  · generalize dKind m.d0 = kind
    split <;> grind [product_outerWf, mma, mmag, accld_outerWf, accst_outerWf, accz_outerWf, accxr_outerWf, qfence_outerWf, signal_outerWf,
      cpbox_outerWf, cppfl_outerWf, cpstrm_outerWf, cpclose_outerWf, cpfill_outerWf, cpring_outerWf, gtrows_outerWf, nxput_outerWf, nxred_outerWf]
theorem coreSteps_keepOuter (k : Core) (c) : ∀ f ∈ k.steps c, KeepsOuter f := by
  have hcommit : KeepsOuter (commitApply c) := fun s => commitApply_outerWf s c
  simp only [Core.steps, List.forall_mem_append, List.forall_mem_flatMap, List.forall_mem_map, List.forall_mem_cons, work_keepsOuter, hcommit]
  simp [KeepsOuter, handlerEntry_outer, ngetTimeout_outer, barrierRelease_outer, commandCompletion_outer, statusEntry_outer, vectorCompletion_outer,
    poolPop_outer, taskSteal_outer, recordAging_outer, gangRelease_outer, rollback_outer, qdead_outer]
theorem jobSteps_keepOuter (j : Job) (asid) : ∀ f ∈ j.steps asid, KeepsOuter f := by
  simp only [Job.steps, List.forall_mem_append, List.forall_mem_flatMap, List.forall_mem_map, List.forall_mem_cons, List.not_mem_nil, forall_false,
    implies_true, and_true]
  grind [KeepsOuter, stagingReadComplete_outer, blockQueueHandout_outer, superstepStart_outerWf, retirement_outerWf, preemptionDeadline_outer,
    park_outerWf, placeJob_outer, stagingComplete_outerWf, runpflComplete_outerWf, preemptionRequest_outerWf]
theorem commandSteps_keepOuter (x : Command) (m) : ∀ f ∈ x.steps m, KeepsOuter f := by
  unfold Command.steps
  split <;> simp only [List.forall_mem_cons, List.not_mem_nil, false_imp_iff, implies_true, and_true] <;> grind [KeepsOuter, launch_outerWf,
    cancel_outerWf, pauseAtBoundary_outerWf, resume_outerWf, offer_outerWf, withdrawCommand_outerWf, take_outerWf, releaseCommand_outerWf,
    readJournal_outerWf, sync_outerWf]
theorem moduleSteps_keepOuter (d : Module) (m) : ∀ f ∈ d.steps m, KeepsOuter f := by
  unfold Module.steps
  split
  · exact List.forall_mem_singleton.mpr fun s => coldReset_outerWf s m
  · have hfetch : KeepsOuter (commandFetch m) := fun s => commandFetch_outerWf s m
    have hcompletion : ∀ q, KeepsOuter (completionWrite m q) := fun q s => completionWrite_outerWf s m q
    have hrevocation : ∀ l, KeepsOuter (revocation m l) := fun l s => revocation_outerWf s m l
    have hrelease : ∀ b l, KeepsOuter (dcdExtentRelease m b l) := fun b l s => dcdExtentRelease_outerWf s m b l
    have hservice : ∀ op, KeepsOuter (serviceStep m op) := fun op => keepsOuter_of_eq (serviceStep_outer · m op)
    have hhosts : KeepsOuter fun s => s.serveHosts m := keepsOuter_of_eq (serveHosts_outer · m)
    simp only [List.forall_mem_append, List.forall_mem_flatMap, List.forall_mem_map, List.forall_mem_cons, List.not_mem_nil, false_imp_iff]
    refine ⟨⟨⟨⟨⟨⟨⟨⟨⟨⟨?_, ?_⟩, ?_⟩, ?_⟩, ?_⟩, ?_⟩, ?_⟩, ?_⟩, ?_⟩, ?_⟩, ?_⟩
    all_goals grind [KeepsOuter, commandSteps_keepOuter, leaseAckTimeout_outer, bankForcedClose_outer, rowSparingComplete_outer, vclaimGrant_outer,
      attestation_outer]
theorem beatSteps_keepOuter (s : State) (m) : ∀ f ∈ s.beatSteps m, KeepsOuter f := by
  simp only [State.beatSteps, List.forall_mem_append, List.forall_mem_map]
  grind [KeepsOuter, missCheck_outer, heartbeatSend_outer, accusationExpiry_outer]
theorem steps_keepOuter (s : State) : ∀ f ∈ s.steps, KeepsOuter f := by
  simp only [State.steps, List.forall_mem_append, List.forall_mem_flatMap, List.forall_mem_map]
  grind [KeepsOuter, watchdog_outer, msgArrival_outerWf, coreSteps_keepOuter, jobSteps_keepOuter, moduleSteps_keepOuter]
/-- The step that is due. -/
theorem due_outerWf (s : State) {t : State} (h : s.due = some t) (hs : OuterWf s.outer) : OuterWf t.outer := by
  have hfirst := fun l (hl : ∀ f ∈ l, KeepsOuter f) => firstStep_outerWf s l (t := t) fun f hf => hl f hf s hs
  unfold State.due at h
  split at h
  · cases h
    exact hfirst _ (steps_keepOuter s) ‹_›
  · refine hfirst _ (List.forall_mem_flatMap.mpr fun e _ => ?_) h
    split
    · exact beatSteps_keepOuter s e.1
    · simp

end Sys2Proof.Machine

/-! Host memory stays canonical: the instructions and events. -/

namespace Sys2Proof.Machine

theorem execLui_outer (s : State) {t : State} (rd imm) (h : execLui rd imm s = .next t) : t.outer = s.outer := by
  refine issue_outer s (fun i => ?_) h
  grind [setRd_outer]
theorem execAuipc_outer (s : State) {t : State} (rd imm) (h : execAuipc rd imm s = .next t) : t.outer = s.outer := by
  refine issue_outer s (fun i => ?_) h
  grind [setRd_outer]
theorem execJal_outer (s : State) {t : State} (rd imm) (h : execJal rd imm s = .next t) : t.outer = s.outer := by
  refine issue_outer s (fun i => ?_) h
  grind [jump_outer]
theorem execJalr_outer (s : State) {t : State} (rd rs1 imm) (h : execJalr rd rs1 imm s = .next t) : t.outer = s.outer := by
  refine issue_outer s (fun i => ?_) h
  grind [jump_outer]
theorem execFence_outer (s : State) {t : State} (pred succ) (h : execFence pred succ s = .next t) : t.outer = s.outer := by
  refine issue_outer s (fun i => ?_) h
  grind [finish_outer, block_outer]
theorem execFenceTso_outer (s : State) {t : State} (h : execFenceTso s = .next t) : t.outer = s.outer := by
  refine issue_outer s (fun i => ?_) h
  grind [finish_outer, block_outer]
theorem execFenceI_outer (s : State) {t : State} (h : execFenceI s = .next t) : t.outer = s.outer := by
  refine issue_outer s (fun i => ?_) h
  grind [finish_outer, block_outer, modJob_outer]
theorem execEcall_outer (s : State) {t : State} (h : execEcall s = .next t) : t.outer = s.outer := by
  refine issue_outer s (fun i => ?_) h
  grind [trapI_outer]
theorem execEbreak_outer (s : State) {t : State} (h : execEbreak s = .next t) : t.outer = s.outer := by
  refine issue_outer s (fun i => ?_) h
  grind [trapI_outer]
theorem execWfi_outer (s : State) {t : State} (h : execWfi s = .next t) : t.outer = s.outer := by
  refine issue_outer s (fun i => ?_) h
  grind [block_outer, setCtx_outer]
theorem execReservedEncoding_outer (s : State) {t : State} (w) (h : execReservedEncoding w s = .next t) : t.outer = s.outer := by
  refine issue_outer s (fun i => ?_) h
  grind [trapI_outer]
theorem execSpawn_outer (s : State) {t : State} (rd rs1 rs2) (h : execSpawn rd rs1 rs2 s = .next t) : t.outer = s.outer := by
  refine issue_outer s (fun i => ?_) h
  grind [block_outer, trapI_outer, trapW_outer, spawnOn_outer]
theorem execHexit_outer (s : State) {t : State} (h : execHexit s = .next t) : t.outer = s.outer := by
  refine issue_outer s (fun i => ?_) h
  grind [block_outer, trapW_outer, hexit_outer]
theorem execCpush_outer (s : State) {t : State} (rs1) (h : execCpush rs1 s = .next t) : t.outer = s.outer := by
  refine issue_outer s (fun i => ?_) h
  grind [finish_outer, block_outer, trapI_outer, modCore_outer, recordMem_outer, settleOwn_outer, reading_outer]
theorem execCjoin_outer (s : State) {t : State} (rs1) (h : execCjoin rs1 s = .next t) : t.outer = s.outer := by
  refine issue_outer s (fun i => ?_) h
  grind [finish_outer, block_outer, trapI_outer, recordMem_outer, settleOwn_outer, reading_outer]
theorem execYield_outer (s : State) {t : State} (h : execYield s = .next t) : t.outer = s.outer := by
  refine issue_outer s (fun i => ?_) h
  grind [finish_outer, block_outer]
theorem execFollow_outer (s : State) {t : State} (h : execFollow s = .next t) : t.outer = s.outer := by
  refine issue_outer s (fun i => ?_) h
  grind [finish_outer, block_outer, trapW_outer, modCore_outer]
theorem execSolo_outer (s : State) {t : State} (h : execSolo s = .next t) : t.outer = s.outer := by
  refine issue_outer s (fun i => ?_) h
  grind [finish_outer, trapW_outer]
theorem execSsclose_outer (s : State) {t : State} (op rd rs1) (h : execSsclose op rd rs1 s = .next t) : t.outer = s.outer := by
  refine issue_outer s (fun i => ?_) h
  grind [block_outer, trapW_outer, modCore_outer, tryVote_outer]
theorem execSsabort_outer (s : State) {t : State} (h : execSsabort s = .next t) : t.outer = s.outer := by
  refine issue_outer s (fun i => ?_) h
  grind [block_outer, post_outer]
theorem execBarv_outer (s : State) {t : State} (sc op rs1) (h : execBarv sc op rs1 s = .next t) : t.outer = s.outer := by
  refine issue_outer s (fun i => ?_) h
  grind [finishWith_outer, block_outer, trapW_outer, arrive_outer]
theorem execBarw_outer (s : State) {t : State} (sc rd) (h : execBarw sc rd s = .next t) : t.outer = s.outer := by
  refine issue_outer s (fun i => ?_) h
  split
  · exact trapW_outer ..
  · exact collect_getD_outer _ _ _ _ _ (block_outer ..)
theorem execBaraw_outer (s : State) {t : State} (sc op rd rs1) (h : execBaraw sc op rd rs1 s = .next t) : t.outer = s.outer := by
  refine issue_outer s (fun i => ?_) h
  dsimp only
  split
  · exact trapW_outer ..
  · split
    · exact block_outer ..
    · split
      · exact (collect_getD_outer _ _ _ _ _ (block_outer ..)).trans (arrive_outer s _ _ _ _ _ ‹_›)
      · exact block_outer ..
theorem execGang_outer (s : State) {t : State} (rs1 rs2) (h : execGang rs1 rs2 s = .next t) : t.outer = s.outer := by
  refine issue_outer s (fun i => ?_) h
  grind [block_outer, trapI_outer, trapW_outer, gangRelease_outer, offerGang_outer, tryWired_outer]
theorem execVclaim_outer (s : State) {t : State} (rd rs1) (h : execVclaim rd rs1 s = .next t) : t.outer = s.outer := by
  refine issue_outer s (fun i => ?_) h
  grind [setRd_outer, finish_outer, block_outer, trapW_outer, modQuad_outer]
theorem execVyield_outer (s : State) {t : State} (h : execVyield s = .next t) : t.outer = s.outer := by
  refine issue_outer s (fun i => ?_) h
  grind [finish_outer, block_outer]
theorem execLcset_outer (s : State) {t : State} (lc rs1) (h : execLcset lc rs1 s = .next t) : t.outer = s.outer := by
  refine issue_outer s (fun i => ?_) h
  grind [finish_outer]
theorem execLcget_outer (s : State) {t : State} (rd lc) (h : execLcget rd lc s = .next t) : t.outer = s.outer := by
  refine issue_outer s (fun i => ?_) h
  grind [setRd_outer]
theorem execTrapret_outer (s : State) {t : State} (h : execTrapret s = .next t) : t.outer = s.outer := by
  refine issue_outer s (fun i => ?_) h
  grind [trapI_outer, trapW_outer, setCtx_outer, leaveHandler_outer]
theorem execTrig_outer (s : State) {t : State} (rs1) (h : execTrig rs1 s = .next t) : t.outer = s.outer := by
  refine issue_outer s (fun i => ?_) h
  grind [finish_outer, trap_outer, record_outer, trigger_outer]
theorem execSbwait_outer (s : State) {t : State} (slot) (h : execSbwait slot s = .next t) : t.outer = s.outer := by
  refine issue_outer s (fun i => ?_) h
  grind [finish_outer, block_outer]
theorem execRfaao_outer (s : State) {t : State} (rd rs2 rs3 rs1) (h : execRfaao rd rs2 rs3 rs1 s = .next t) : t.outer = s.outer := by
  refine issue_outer s (fun i => ?_) h
  grind [block_outer, trapI_outer, trapW_outer, recordMem_outer, send_outer]
theorem execFenceS_outer (s : State) {t : State} (sc ord) (h : execFenceS sc ord s = .next t) : t.outer = s.outer := by
  refine issue_outer s (fun i => ?_) h
  grind [finish_outer, block_outer]
theorem execFfence_outer (s : State) {t : State} (sc rs2 rs1) (h : execFfence sc rs2 rs1 s = .next t) : t.outer = s.outer := by
  refine issue_outer s (fun i => ?_) h
  grind [finish_outer, block_outer, trapI_outer, recordMem_outer, sendFlag_outer]
theorem execNpost_outer (s : State) {t : State} (mb rs1) (h : execNpost mb rs1 s = .next t) : t.outer = s.outer := by
  refine issue_outer s (fun i => ?_) h
  grind [block_outer, trapI_outer, modCore_outer, post_outer, send_outer]
theorem execNget_outer (s : State) {t : State} (rd mb pk) (h : execNget rd mb pk s = .next t) : t.outer = s.outer := by
  refine issue_outer s (fun i => ?_) h
  grind [block_outer, takeMail_outer, mailTimeout_outer]
theorem execDeq_outer (s : State) {t : State} (rd q) (h : execDeq rd q s = .next t) : t.outer = s.outer := by
  refine issue_outer s (fun i => ?_) h
  grind [block_outer, takeStatus_outer]
theorem execCtready_outer (s : State) {t : State} (rs1 rs2) (h : execCtready rs1 rs2 s = .next t) : t.outer = s.outer := by
  refine issue_outer s (fun i => ?_) h
  grind [trapI_outer, trapW_outer, dispatchCmd_outer]
theorem execPset_outer (s : State) {t : State} (pd rs1) (h : execPset pd rs1 s = .next t) : t.outer = s.outer := by
  refine issue_outer s (fun i => ?_) h
  grind [setPd_outer]
theorem execPcnt_outer (s : State) {t : State} (rd p1) (h : execPcnt rd p1 s = .next t) : t.outer = s.outer := by
  refine issue_outer s (fun i => ?_) h
  grind [setRd_outer]
theorem execLut3_outer (s : State) {t : State} (rd rs1 rs2 table) (h : execLut3 rd rs1 rs2 table s = .next t) : t.outer = s.outer := by
  refine issue_outer s (fun i => ?_) h
  grind [setRd_outer]
theorem execFshl_outer (s : State) {t : State} (rd rs1 rs2 rs3) (h : execFshl rd rs1 rs2 rs3 s = .next t) : t.outer = s.outer := by
  refine issue_outer s (fun i => ?_) h
  grind [setRd_outer]
theorem execFshr_outer (s : State) {t : State} (rd rs1 rs2 rs3) (h : execFshr rd rs1 rs2 rs3 s = .next t) : t.outer = s.outer := by
  refine issue_outer s (fun i => ?_) h
  grind [setRd_outer]
theorem execBaddrq_outer (s : State) {t : State} (vd v1 v2 fn) (h : execBaddrq vd v1 v2 fn s = .next t) : t.outer = s.outer := by
  refine vecS_outer s (fun i u o hu => ?_) h
  grind []
theorem execVldx_outer (s : State) {t : State} (vd rs1 v2 pg) (h : execVldx vd rs1 v2 pg s = .next t) : t.outer = s.outer := by
  refine vecS_outer s (fun i u o hu => ?_) h
  grind [settleElems_outer, vloadElems_outer, recordElems_outer]
theorem execVstx_outer (s : State) {t : State} (vs rs1 v2 pg) (h : execVstx vs rs1 v2 pg s = .next t) : t.outer = s.outer := by
  refine vecS_outer s (fun i u o hu => ?_) h
  grind [recordElems_outer, vstoreAt_outer]
theorem execVpld_outer (s : State) {t : State} (pd rs1) (h : execVpld pd rs1 s = .next t) : t.outer = s.outer := by
  refine vecS_outer s (fun i u o hu => ?_) h
  grind [recordMem_outer, settleOwn_outer, draw_outer, recordPred_outer]
theorem execVpst_outer (s : State) {t : State} (ps rs1) (h : execVpst ps rs1 s = .next t) : t.outer = s.outer := by
  refine vecS_outer s (fun i u o hu => ?_) h
  grind [recordMem_outer, storeClass_outer]
theorem execVmvx_outer (s : State) {t : State} (rd v1 rs2) (h : execVmvx rd v1 rs2 s = .next t) : t.outer = s.outer := by
  refine vecS_outer s (fun i u o hu => ?_) h
  grind []
theorem execHmarm_outer (s : State) {t : State} (rs2 rs1) (h : execHmarm rs2 rs1 s = .next t) : t.outer = s.outer := by
  refine feed_outer s _ _ _ (fun s i d => ?_) h
  grind [finishWith_outer, trapI_outer, putHamper_outer]
theorem execHmadd_outer (s : State) {t : State} (rs2 rs1) (h : execHmadd rs2 rs1 s = .next t) : t.outer = s.outer := by
  refine feed_outer s _ _ _ (fun s i d => ?_) h
  grind [finishWith_outer, hamperArrive_outer]
theorem execHmwait_outer (s : State) {t : State} (rs2 rs1) (h : execHmwait rs2 rs1 s = .next t) : t.outer = s.outer := by
  refine feed_outer s _ _ _ (fun s i d => ?_) h
  grind [finish_outer, block_outer, trapI_outer]
theorem execRget_outer (s : State) {t : State} (rd rs1) (h : execRget rd rs1 s = .next t) : t.outer = s.outer := by
  refine feed_outer s _ _ _ (fun s i d => ?_) h
  grind [block_outer, trapI_outer, takeSlot_outer]
theorem execRput_outer (s : State) {t : State} (rs2 rs1) (h : execRput rs2 rs1 s = .next t) : t.outer = s.outer := by
  refine feed_outer s _ _ _ (fun s i d => ?_) h
  grind [finishWith_outer, trapI_outer, settleOwn_outer, wr_outer]
theorem execWaitf_outer (s : State) {t : State} (rs2 rs1) (h : execWaitf rs2 rs1 s = .next t) : t.outer = s.outer := by
  refine feed_outer s _ _ _ (fun s i d => ?_) h
  grind [finish_outer, block_outer]
theorem execSvactFault_outer (s : State) {t : State} (cause) (h : execSvactFault cause s = .next t) : t.outer = s.outer := by
  refine service_outer s (fun i => ?_) h
  grind [finish_outer, svactFaulted_outer]
theorem execSvactAbort_outer (s : State) {t : State} (cause) (h : execSvactAbort cause s = .next t) : t.outer = s.outer := by
  refine service_outer s (fun i => ?_) h
  grind [finish_outer, abortCondition_outer]
theorem execSvactClear_outer (s : State) {t : State} (page) (h : execSvactClear page s = .next t) : t.outer = s.outer := by
  refine service_outer s (fun i => ?_) h
  grind [finish_outer, block_outer, svactCleared_outer]
theorem execTrread_outer (s : State) {t : State} (rd) (h : execTrread rd s = .next t) : t.outer = s.outer := by
  refine service_outer s (fun i => ?_) h
  grind [finishWith_outer, readTrace_outer]
theorem execVrsq_outer (s : State) {t : State} (ty vd v1 pg) (h : execVrsq ty vd v1 pg s = .next t) : t.outer = s.outer := by
  unfold execVrsq at h
  split at h
  · exact vun_outer s _ _ _ _ _ h
  · exact issue_outer s (fun i => trapW_outer ..) h
theorem next_outerWf {u t : State} (h : (Host.Outcome.next u : Result) = .next t) (hu : OuterWf u.outer) : OuterWf t.outer := by
  cases h
  exact hu
/-- Every row of the table of instructions and events. -/
theorem exec_outerWf (s : State) {t : State} (i : Instr) (h : exec i s = .next t) (hs : OuterWf s.outer) : OuterWf t.outer := by
  cases i <;> unfold exec at h
  case addi | slti | sltiu | xori | ori | andi | slli | srli | srai | addiw | slliw | srliw | sraiw | popc | clz | ctz =>
    exact keepsOuter s hs (opImm_outer s _ _ _ h)
  case add | sub | sll | slt | sltu | xor | srl | sra | or | and | mul | mulh | mulhsu | mulhu | div | divu | rem | remu =>
    exact keepsOuter s hs (opReg_outer s _ _ _ _ h)
  case addw | subw | sllw | srlw | sraw | mulw | divw | divuw | remw | remuw => exact keepsOuter s hs (opRegW_outer s _ _ _ _ h)
  case beq | bne | blt | bge | bltu | bgeu => exact keepsOuter s hs (branch_outer s _ _ _ _ h)
  case fcvtQt8S | fcvtQt16S | fcvtQt32S => exact keepsOuter s hs (toTaper_outer s _ _ _ h)
  case fcvtSQt8 | fcvtSQt16 | fcvtSQt32 => exact keepsOuter s hs (ofTaper_outer s _ _ _ h)
  case pand | por | pxor | pnot | pmov => exact keepsOuter s hs (predOp_outer s _ _ _ _ h)
  case lb | lh | lw | ld | lbu | lhu | lwu | flw => exact keepsOuter s hs (load_outer s _ _ _ _ _ _ h)
  case sb | sh | sw | sd | fsw => exact keepsOuter s hs (store_outer s _ _ _ _ h)
  case csrrw | csrrs | csrrc | csrrwi | csrrsi | csrrci => exact keepsOuter s hs (csrOp_outer s _ _ _ _ h)
  case rsteW | rsteD => exact keepsOuter s hs (rste_outer s _ _ _ _ h)
  case rredAddW | rredAddD | rredMin | rredMax | rredOr | rredFadd => exact keepsOuter s hs (rred_outer s _ _ _ _ _ h)
  case rfaa | rcas | rswp => exact keepsOuter s hs (atomic_outer s _ _ _ _ _ h)
  case enq | enqp => exact keepsOuter s hs (push_outer s _ _ _ _ _ h)
  case mxiBf16Bf16 | mxiBf16Qt16 | mxiQt16Qt16 | mxiQt8Qt8 | mxiI8I8 | mxiI8Tern => exact keepsOuter s hs (mxi_outer s _ _ _ _ h)
  case vadd | vsub | vmul | vmax | vmin => exact keepsOuter s hs (vbin_outer s _ _ _ _ _ _ h)
  case vabs | vneg | vrelu => exact keepsOuter s hs (vun_outer s _ _ _ _ _ h)
  case vfmaF32 | vfmaBf16 | vfmsF32 | vfmsBf16 => exact keepsOuter s hs (vfused_outer s _ _ _ _ _ _ _ h)
  case vsclF32 | vsclBf16 => exact keepsOuter s hs (vscale_outer s _ _ _ _ _ h)
  case vand | vor | vxor => exact keepsOuter s hs (vbits_outer s _ _ _ _ _ h)
  case vshl | vshr | vsra => exact keepsOuter s hs (vshift_outer s _ _ _ _ _ _ h)
  case vsel | vcvt | vredSum | vbcast => exact keepsOuter s hs (vec_outer s _ h)
  case vcmpEq | vcmpLt | vcmpLe => exact keepsOuter s hs (vcompare_outer s _ _ _ _ _ _ h)
  case vld | vlds => exact keepsOuter s hs (vloadStrided_outer s _ _ _ _ h)
  case vst | vsts => exact keepsOuter s hs (vstoreStrided_outer s _ _ _ _ h)
  case vredMax | vredMin => exact keepsOuter s hs (vredPick_outer s _ _ _ _ _ h)
  case fmaddS | fmsubS | fnmsubS | fnmaddS | faddS | fsubS | fmulS | fdivS | fsqrtS | fcvtSW | fcvtSWu | fcvtSL | fcvtSLu =>
    exact keepsOuter s hs (fpRound_outer s _ _ _ h)
  case fsgnjS | fsgnjnS | fsgnjxS | fminS | fmaxS | fmvWX => exact keepsOuter s hs (fpF_outer s _ _ h)
  case feqS | fltS | fleS | fclassS | fmvXW => exact keepsOuter s hs (fpX_outer s _ _ h)
  case fcvtWS | fcvtWuS | fcvtLS | fcvtLuS => exact keepsOuter s hs (fpRoundX_outer s _ _ _ h)
  case lui => exact keepsOuter s hs (execLui_outer s _ _ h)
  case auipc => exact keepsOuter s hs (execAuipc_outer s _ _ h)
  case jal => exact keepsOuter s hs (execJal_outer s _ _ h)
  case jalr => exact keepsOuter s hs (execJalr_outer s _ _ _ h)
  case fence => exact keepsOuter s hs (execFence_outer s _ _ h)
  case fenceTso => exact keepsOuter s hs (execFenceTso_outer s h)
  case fenceI => exact keepsOuter s hs (execFenceI_outer s h)
  case ecall => exact keepsOuter s hs (execEcall_outer s h)
  case ebreak => exact keepsOuter s hs (execEbreak_outer s h)
  case wfi => exact keepsOuter s hs (execWfi_outer s h)
  case reservedEncoding => exact keepsOuter s hs (execReservedEncoding_outer s _ h)
  case spawn => exact keepsOuter s hs (execSpawn_outer s _ _ _ h)
  case hexit => exact keepsOuter s hs (execHexit_outer s h)
  case cpush => exact keepsOuter s hs (execCpush_outer s _ h)
  case cjoin => exact keepsOuter s hs (execCjoin_outer s _ h)
  case yield => exact keepsOuter s hs (execYield_outer s h)
  case follow => exact keepsOuter s hs (execFollow_outer s h)
  case solo => exact keepsOuter s hs (execSolo_outer s h)
  case ssclose => exact keepsOuter s hs (execSsclose_outer s _ _ _ h)
  case ssabort => exact keepsOuter s hs (execSsabort_outer s h)
  case barv => exact keepsOuter s hs (execBarv_outer s _ _ _ h)
  case barw => exact keepsOuter s hs (execBarw_outer s _ _ h)
  case baraw => exact keepsOuter s hs (execBaraw_outer s _ _ _ _ h)
  case gang => exact keepsOuter s hs (execGang_outer s _ _ h)
  case vclaim => exact keepsOuter s hs (execVclaim_outer s _ _ h)
  case vyield => exact keepsOuter s hs (execVyield_outer s h)
  case lcset => exact keepsOuter s hs (execLcset_outer s _ _ h)
  case lcget => exact keepsOuter s hs (execLcget_outer s _ _ h)
  case trapret => exact keepsOuter s hs (execTrapret_outer s h)
  case trig => exact keepsOuter s hs (execTrig_outer s _ h)
  case sbwait => exact keepsOuter s hs (execSbwait_outer s _ h)
  case rfaao => exact keepsOuter s hs (execRfaao_outer s _ _ _ _ h)
  case fenceS => exact keepsOuter s hs (execFenceS_outer s _ _ h)
  case ffence => exact keepsOuter s hs (execFfence_outer s _ _ _ h)
  case npost => exact keepsOuter s hs (execNpost_outer s _ _ h)
  case nget => exact keepsOuter s hs (execNget_outer s _ _ _ h)
  case deq => exact keepsOuter s hs (execDeq_outer s _ _ h)
  case ctready => exact keepsOuter s hs (execCtready_outer s _ _ h)
  case pset => exact keepsOuter s hs (execPset_outer s _ _ h)
  case pcnt => exact keepsOuter s hs (execPcnt_outer s _ _ h)
  case lut3 => exact keepsOuter s hs (execLut3_outer s _ _ _ _ h)
  case fshl => exact keepsOuter s hs (execFshl_outer s _ _ _ _ h)
  case fshr => exact keepsOuter s hs (execFshr_outer s _ _ _ _ h)
  case baddrq => exact keepsOuter s hs (execBaddrq_outer s _ _ _ _ h)
  case vldx => exact keepsOuter s hs (execVldx_outer s _ _ _ _ h)
  case vstx => exact keepsOuter s hs (execVstx_outer s _ _ _ _ h)
  case vpld => exact keepsOuter s hs (execVpld_outer s _ _ h)
  case vpst => exact keepsOuter s hs (execVpst_outer s _ _ h)
  case vmvx => exact keepsOuter s hs (execVmvx_outer s _ _ _ h)
  case hmarm => exact keepsOuter s hs (execHmarm_outer s _ _ h)
  case hmadd => exact keepsOuter s hs (execHmadd_outer s _ _ h)
  case hmwait => exact keepsOuter s hs (execHmwait_outer s _ _ h)
  case rget => exact keepsOuter s hs (execRget_outer s _ _ h)
  case rput => exact keepsOuter s hs (execRput_outer s _ _ h)
  case waitf => exact keepsOuter s hs (execWaitf_outer s _ _ h)
  case svactFault => exact keepsOuter s hs (execSvactFault_outer s _ h)
  case svactAbort => exact keepsOuter s hs (execSvactAbort_outer s _ h)
  case svactClear => exact keepsOuter s hs (execSvactClear_outer s _ h)
  case trread => exact keepsOuter s hs (execTrread_outer s _ h)
  case vrsq => exact keepsOuter s hs (execVrsq_outer s _ _ _ _ h)
  case qtail => exact next_outerWf h (keepsOuter s hs (qtail_outer s _ _ _))
  case qcfgWrite => exact next_outerWf h (keepsOuter s hs (qcfgWrite_outer s _ _ _))
  case jmen => exact next_outerWf h (jmen_outerWf s _ _ hs)
  case hostord => exact next_outerWf h (keepsOuter s hs (hostord_outer s _ _))
  case registerWrite => exact next_outerWf h (registerWrite_outerWf s _ _ _ _ _ hs)
  case accerr => exact next_outerWf h (keepsOuter s hs (accerr_outer s _ _ _ _ _))
  case commandFetch => exact next_outerWf h (commandFetch_outerWf s _ hs)
  case completionWrite => exact next_outerWf h (completionWrite_outerWf s _ _ hs)
  case launch => exact next_outerWf h (launch_outerWf s _ _ hs)
  case cancel => exact next_outerWf h (cancel_outerWf s _ _ hs)
  case pauseAtBoundary => exact next_outerWf h (pauseAtBoundary_outerWf s _ _ hs)
  case resume => exact next_outerWf h (resume_outerWf s _ _ hs)
  case offer => exact next_outerWf h (offer_outerWf s _ _ hs)
  case withdraw => exact next_outerWf h (withdrawCommand_outerWf s _ _ hs)
  case take => exact next_outerWf h (take_outerWf s _ _ hs)
  case release => exact next_outerWf h (releaseCommand_outerWf s _ _ hs)
  case readJournal => exact next_outerWf h (readJournal_outerWf s _ _ hs)
  case sync => exact next_outerWf h (sync_outerWf s _ _ hs)
  case placeJob => exact next_outerWf h (keepsOuter s hs (placeJob_outer s _ _))
  case stagingComplete => exact next_outerWf h (stagingComplete_outerWf s _ _ hs)
  case runpflComplete => exact next_outerWf h (runpflComplete_outerWf s _ _ hs)
  case migrateRectangle => exact next_outerWf h (migrateRectangle_outerWf s _ _ _ _ _ hs)
  case pageWalk => exact next_outerWf h (pageWalk_outerWf s _ _ _ hs)
  case pagerPromotion => exact next_outerWf h (pagerPromotion_outerWf s _ _ hs)
  case revocation => exact next_outerWf h (revocation_outerWf s _ _ hs)
  case revocationAck => exact next_outerWf h (revocationAck_outerWf s _ hs)
  case leaseAckTimeout => exact next_outerWf h (keepsOuter s hs (leaseAckTimeout_outer s _ _))
  case dcdExtentRelease => exact next_outerWf h (dcdExtentRelease_outerWf s _ _ _ hs)
  case rowSparingComplete => exact next_outerWf h (keepsOuter s hs (rowSparingComplete_outer s _ _))
  case rowClose => exact next_outerWf h (keepsOuter s hs (rowClose_outer s _ _))
  case bankForcedClose => exact next_outerWf h (keepsOuter s hs (bankForcedClose_outer s _ _))
  case linkFailure => exact next_outerWf h (linkFailure_outerWf s _ _ hs)
  case poolPop => exact next_outerWf h (keepsOuter s hs (poolPop_outer s _))
  case taskSteal => exact next_outerWf h (keepsOuter s hs (taskSteal_outer s _))
  case recordAging => exact next_outerWf h (keepsOuter s hs (recordAging_outer s _))
  case vclaimGrant => exact next_outerWf h (keepsOuter s hs (vclaimGrant_outer s _))
  case vectorCompletion => exact next_outerWf h (keepsOuter s hs (vectorCompletion_outer s _ _))
  case gangRelease => exact next_outerWf h (keepsOuter s hs (gangRelease_outer s _))
  case barrierRelease => exact next_outerWf h (keepsOuter s hs (barrierRelease_outer s _ _))
  case mma => exact next_outerWf h (mma_outerWf s _ _ hs)
  case mmag => exact next_outerWf h (mmag_outerWf s _ _ hs)
  case accld => exact next_outerWf h (accld_outerWf s _ hs)
  case accst => exact next_outerWf h (accst_outerWf s _ hs)
  case accz => exact next_outerWf h (accz_outerWf s _ hs)
  case accxr => exact next_outerWf h (accxr_outerWf s _ hs)
  case qfence => exact next_outerWf h (qfence_outerWf s _ _ hs)
  case signal => exact next_outerWf h (signal_outerWf s _ _ hs)
  case cpbox => exact next_outerWf h (cpbox_outerWf s _ hs)
  case cppfl => exact next_outerWf h (cppfl_outerWf s _ hs)
  case cpstrm => exact next_outerWf h (cpstrm_outerWf s _ hs)
  case cpclose => exact next_outerWf h (cpclose_outerWf s _ hs)
  case cpfill => exact next_outerWf h (cpfill_outerWf s _ hs)
  case cpring => exact next_outerWf h (cpring_outerWf s _ hs)
  case gtrows => exact next_outerWf h (gtrows_outerWf s _ hs)
  case nxput => exact next_outerWf h (nxput_outerWf s _ hs)
  case nxred => exact next_outerWf h (nxred_outerWf s _ hs)
  case firing => exact next_outerWf h (keepsOuter s hs (firing_outer s _))
  case commandCompletion => exact next_outerWf h (keepsOuter s hs (commandCompletion_outer s _ _))
  case statusEntry => exact next_outerWf h (keepsOuter s hs (statusEntry_outer s _ _))
  case eagerWriteArrival => exact next_outerWf h (keepsOuter s hs (eagerWriteArrival_outer s _))
  case eagerAckArrival => exact next_outerWf h (keepsOuter s hs (eagerAckArrival_outer s _))
  case remoteRequestArrival => exact next_outerWf h (keepsOuter s hs (remoteRequestArrival_outer s _))
  case responseArrival => exact next_outerWf h (keepsOuter s hs (responseArrival_outer s _))
  case returned => exact next_outerWf h (keepsOuter s hs (returned_outer s _))
  case atomicArrival => exact next_outerWf h (keepsOuter s hs (atomicArrival_outer s _))
  case orderGroupArrival => exact next_outerWf h (keepsOuter s hs (orderGroupArrival_outer s _))
  case mailboxPostArrival => exact next_outerWf h (keepsOuter s hs (mailboxPostArrival_outer s _))
  case ngetTimeout => exact next_outerWf h (keepsOuter s hs (ngetTimeout_outer s _ _))
  case lateTrapArrival => exact next_outerWf h (keepsOuter s hs (lateTrapArrival_outer s _))
  case handlerEntry => exact next_outerWf h (keepsOuter s hs (handlerEntry_outer s _ _))
  case hostWrite => exact next_outerWf h (keepsOuter s hs (hostWrite_outer s _ _ _ _))
  case hostRead => exact next_outerWf h (keepsOuter s hs (hostRead_outer s _ _ _))
  case barrierMessage => exact next_outerWf h (keepsOuter s hs (barrierMessage_outer s _))
  case furtherAbortMessage => exact next_outerWf h (keepsOuter s hs (furtherAbortMessage_outer s _))
  case urgentAbort => exact next_outerWf h (keepsOuter s hs (urgentAbort_outer s _))
  case doomNotice => exact next_outerWf h (keepsOuter s hs (doomNotice_outer s _))
  case outcomeArrival => exact next_outerWf h (keepsOuter s hs (outcomeArrival_outer s _))
  case commitApply => exact next_outerWf h (commitApply_outerWf s _ hs)
  case rollback => exact next_outerWf h (keepsOuter s hs (rollback_outer s _))
  case superstepStart => exact next_outerWf h (superstepStart_outerWf s _ hs)
  case retirement => exact next_outerWf h (retirement_outerWf s _ hs)
  case watchdog => exact next_outerWf h (keepsOuter s hs (watchdog_outer s _))
  case qdead => exact next_outerWf h (keepsOuter s hs (qdead_outer s _))
  case preemptionRequest => exact next_outerWf h (preemptionRequest_outerWf s _ _ hs)
  case preemptionDeadline => exact next_outerWf h (keepsOuter s hs (preemptionDeadline_outer s _))
  case park => exact next_outerWf h (park_outerWf s _ hs)
  case heartbeatSend => exact next_outerWf h (keepsOuter s hs (heartbeatSend_outer s _))
  case heartbeatArrival => exact next_outerWf h (keepsOuter s hs (heartbeatArrival_outer s _ _))
  case missCheck => exact next_outerWf h (keepsOuter s hs (missCheck_outer s _))
  case accusation => exact next_outerWf h (keepsOuter s hs (accusation_outer s _))
  case accusationExpiry => exact next_outerWf h (keepsOuter s hs (accusationExpiry_outer s _))
  case selfTest => exact next_outerWf h (keepsOuter s hs (selfTest_outer s _ _))
  case acceptance => exact next_outerWf h (keepsOuter s hs (acceptance_outer s _))
  case controlStateError => exact next_outerWf h (keepsOuter s hs (controlStateError_outer s _))
  case parity => exact next_outerWf h (keepsOuter s hs (parity_outer s _ _))
  case mangleArrival => exact next_outerWf h (keepsOuter s hs (mangleArrival_outer s _))
  case manglePartialArrival => exact next_outerWf h (keepsOuter s hs (manglePartialArrival_outer s _))
  case mangleResultArrival => exact next_outerWf h (keepsOuter s hs (mangleResultArrival_outer s _))
  case blockQueueHandout => exact next_outerWf h (keepsOuter s hs (blockQueueHandout_outer s _ _ _))
  case mangleFailure => exact next_outerWf h (keepsOuter s hs (mangleFailure_outer s _))
  case codewrite => exact next_outerWf h (keepsOuter s hs (codewrite_outer s _))
  case poisonset => exact next_outerWf h (keepsOuter s hs (poisonset_outer s _))
  case poisonclear => exact next_outerWf h (keepsOuter s hs (poisonclear_outer s _))
  case fwwrite => exact next_outerWf h (keepsOuter s hs (fwwrite_outer s _))
  case fwcommit => exact next_outerWf h (keepsOuter s hs (fwcommit_outer s _))
  case eventread => exact next_outerWf h (keepsOuter s hs (eventread_outer s _))
  case counterClear => exact next_outerWf h (keepsOuter s hs (counterClear_outer s _))
  case counterFreeze => exact next_outerWf h (keepsOuter s hs (counterFreeze_outer s _ _))
  case attestation => exact next_outerWf h (keepsOuter s hs (attestation_outer s _))
  case warmReset => exact next_outerWf h (warmReset_outerWf s _ hs)
  case coldReset => exact next_outerWf h (coldReset_outerWf s _ hs)
  case d3hotEntry => exact next_outerWf h (d3hotEntry_outerWf s _ hs)
  case powerWindow => exact next_outerWf h (keepsOuter s hs (powerWindow_outer s _ _))
  case thermalShutdown => exact next_outerWf h (thermalShutdown_outerWf s _ hs)
  case powerLoss => exact next_outerWf h (powerLoss_outerWf s _ hs)
  case stagingReadComplete => exact next_outerWf h (keepsOuter s hs (stagingReadComplete_outer s _ _))
  case thermalThrottle => exact next_outerWf h (thermalThrottle_outerWf s _ _ hs)
  case scrubbing => exact next_outerWf h (keepsOuter s hs (scrubbing_outer s _ _ _))
  case flitCrcFailure => exact next_outerWf h (keepsOuter s hs (flitCrcFailure_outer s _ _))
  case chead => exact next_outerWf h (keepsOuter s hs (chead_outer s _ _ _))
  case badop => exact next_outerWf h (keepsOuter s hs (badop_outer s _ _))
  case jmerr => exact next_outerWf h (keepsOuter s hs (jmerr_outer s _))
  case leaseWindowAccess => exact next_outerWf h (leaseWindowAccess_outerWf s _ hs)

end Sys2Proof.Machine

/-! Host memory stays canonical: a step. -/

namespace Sys2Proof.Machine

theorem issueOn_outerWf (s : State) {t : State} (c) (h : s.issueOn c = .next t) (hs : OuterWf s.outer) : OuterWf t.outer := by
  unfold State.issueOn at h
  split at h
  · exact next_outerWf h hs
  · split at h
    · unfold State.issueFrom at h
      split at h
      · exact next_outerWf h (keepsOuter s hs (takeLate_outer ..))
      · dsimp only at h
        split at h
        · exact exec_outerWf _ _ h (keepsOuter s hs ((begin_outer ..).trans (fetch_outer ..)))
        · exact next_outerWf h (keepsOuter s hs ((trap_outer ..).trans (begin_outer ..)))
    · exact next_outerWf h hs
theorem takeTurn_outerWf (s : State) {t : State} (turn) (h : s.takeTurn turn = .next t) (hs : OuterWf s.outer) : OuterWf t.outer := by
  unfold State.takeTurn at h
  split at h
  · split at h
    · exact next_outerWf h hs
    · exact after_outerWf 0 (fun u hu => exec_outerWf s _ hu hs) h
  · exact after_outerWf 1 (fun u hu => issueOn_outerWf s _ hu hs) h
theorem step_outerWf (s : State) {t : State} (h : step s = .next t) (hs : OuterWf s.outer) : OuterWf t.outer := by
  unfold step at h
  split at h
  · exact takeTurn_outerWf _ _ h hs
  · split at h
    · exact after_outerWf 0 (fun u hu => next_outerWf hu (due_outerWf s ‹_› hs)) h
    · split at h
      · exact after_outerWf 1 (fun u hu => issueOn_outerWf s _ hu hs) h
      · exact after_outerWf 1 (fun u hu => next_outerWf hu hs) h
/-- Settles O47: what a step does is an event or an issue, the step that is due, or the passing of time. -/
theorem hostMemoryCanonical : Obligations.HostMemoryCanonical := by
  unfold Obligations.HostMemoryCanonical
  exact fun s t hs h => (hostWf_iff t).mpr (step_outerWf s h ((hostWf_iff s).mp hs))

end Sys2Proof.Machine

/-! One change of a module: its queues and what stands in its journal and in the mirror (R80 to R84). -/

namespace Sys2Proof.Machine

open Sys2Proof.Laws

variable {s : State} {m q jsn b : Nat} {d : Module} {e : Entry}

theorem modModule_otherModules (s : State) (m : Nat) (f : Module → Module) : OtherModules m s (s.modModule m f) := fun n hn => by
  rw [module?_modModule, if_neg hn]

theorem modModule_moduleTo {P : Module → Module → Prop} {f : Module → Module} (h : s.module? m = some d) (hP : P d (f d)) : ModuleTo m s (s.modModule m f) P :=
  ⟨d, f d, h, by rw [module?_modModule_same, h]; rfl, hP, modModule_keeps s m f, modModule_otherModules s m f⟩

theorem modModule_modModule (s : State) (m : Nat) (f g : Module → Module) : (s.modModule m f).modModule m g = s.modModule m fun d => g (f d) := by
  unfold State.modModule dmod
  cases h : dget? s.modules m with
  | none => simp [h]
  | some d => simp [dget?_dset_same, dset_dset]

theorem queue_modQueue_same (d : Module) (q : Nat) (f : Queue → Queue) : (d.modQueue q f).queue q = f (d.queue q) := dgetD_dset_same _ _ _ _
theorem queue_modQueue_ne (d : Module) {p q : Nat} (f : Queue → Queue) (h : p ≠ q) : (d.modQueue q f).queue p = d.queue p := by
  unfold Module.queue Module.modQueue
  rw [dgetD_dset, if_neg h.symm]

/-- Module `m` goes from `d` to `d'`; no other module and no other part of the pod changes, host memory only by the mirror (R84). -/
structure Books (m : Nat) (d d' : Module) (s t : State) : Prop where
  after : t.module? m = some d'
  others : OtherModules m s t
  keeps : Keeps [.modules, .host] s t
  jmen : d'.jmen = d.jmen
  host : d.jmen = false → t.host = s.host

theorem Books.trans {d' d'' : Module} {t u : State} (h : Books m d d' s t) (g : Books m d' d'' t u) : Books m d d'' s u :=
  ⟨g.after, fun n hn => (g.others n hn).trans (h.others n hn), h.keeps.trans g.keeps, g.jmen.trans h.jmen,
    fun hj => (g.host (h.jmen.trans hj)).trans (h.host hj)⟩

theorem modModule_books {f : Module → Module} (hm : s.module? m = some d) (hf : (f d).jmen = d.jmen) : Books m d (f d) s (s.modModule m f) :=
  ⟨by rw [module?_modModule_same, hm]; rfl, modModule_otherModules s m f, (modModule_keeps s m f).mono (by simp), hf, fun _ => rfl⟩

theorem mirrorAt_books (hm : s.module? m = some d) (off : Nat) (e : Entry) : Books m d d s (s.mirrorAt m off e) := by
  refine ⟨(mirrorAt_module s m m off e).trans hm, fun n _ => mirrorAt_module s n m off e, (mirrorAt_keeps s m off e).mono (by simp), rfl, fun hj => ?_⟩
  simp only [State.mirrorAt, hm, hj]
  rfl

/-- The queue with a completion more that is due. -/
def Queue.due (x : Queue) (c : Completion) : Queue := { x with pending := x.pending ++ [c] }

theorem complete_books (hm : s.module? m = some d) (q : Nat) (c : Completion) : Books m d (d.modQueue q (·.due c)) s (s.complete m q c) :=
  modModule_books (f := fun x => x.modQueue q (·.due c)) hm rfl

end Sys2Proof.Machine

/-! An entry of the journal changes where it stands, in its slot or in the held table (R82, R83), and a command ends (R78). -/

namespace Sys2Proof.Machine

open Sys2Proof.Laws

variable {s : State} {m q jsn b : Nat} {d : Module} {e : Entry}

theorem le_of_mem_rising {α : Type} {lo : Nat} {l : Dict α} (h : risingFrom lo l = true) {x : Nat × α} (hx : x ∈ l) : lo ≤ x.1 := by
  induction l generalizing lo with
  | nil => cases hx
  | cons y l ih =>
    obtain ⟨k, a⟩ := y
    simp only [risingFrom, Bool.and_eq_true, decide_eq_true_eq] at h
    obtain rfl | hx := List.mem_cons.mp hx
    · exact h.1
    · exact (h.1.trans (Nat.le_succ k)).trans (ih h.2 hx)

/-- The entry of JSN `jsn` in a held table with rising places, changed where it stands. -/
theorem find?_dset_held {l : Dict Entry} {lo p n : Nat} {f : Entry → Entry} (hl : risingFrom lo l = true) (hx : l.find? (fun x => x.2.jsn == jsn) = some (p, e))
    (hf : (f e).jsn = e.jsn) : (dset l p (f e)).find? (fun x => x.2.jsn == n) = if n = jsn then some (p, f e) else l.find? fun x => x.2.jsn == n := by
  have hjsn : e.jsn = jsn := by simpa using List.find?_some hx
  induction l generalizing lo with
  | nil => cases hx
  | cons y l ih =>
    obtain ⟨k, a⟩ := y
    simp only [risingFrom, Bool.and_eq_true, decide_eq_true_eq] at hl
    by_cases ha : a.jsn = jsn
    · rw [List.find?_cons_of_pos (by simpa using ha)] at hx
      cases hx
      by_cases hn : n = jsn
      · simp [dset, hf, hjsn, hn]
      · simp [dset, hf, ha, hn, Ne.symm hn]
    · rw [List.find?_cons_of_neg (by simpa using ha)] at hx
      have hlt : k < p := le_of_mem_rising hl.2 (List.mem_of_find?_eq_some hx)
      have hdset : dset ((k, a) :: l) p (f e) = (k, a) :: dset l p (f e) := by
        rw [dset, if_neg (by omega), if_neg (by omega)]
      rw [hdset]
      by_cases hn : a.jsn = n
      · have hne : n ≠ jsn := hn ▸ ha
        simp [hn, hne]
      · rw [List.find?_cons_of_neg (by simpa using hn), List.find?_cons_of_neg (by simpa using hn)]
        exact ih hl.2 hx

/-- The entry of a JSN in the held table. -/
def Module.held? (d : Module) (jsn : Nat) : Option (Nat × Entry) := d.heldTab.find? fun x => x.2.jsn == jsn
/-- Module `d` with an entry in a slot, or in a place of the held table. -/
def Module.putSlot (d : Module) (k : Nat) (e : Entry) : Module := { d with slots := dset d.slots k e }
def Module.putHeld (d : Module) (p : Nat) (e : Entry) : Module := { d with heldTab := dset d.heldTab p e }
/-- Module `d` with the held entry of a JSN changed. -/
def Module.modHeld (d : Module) (jsn : Nat) (f : Entry → Entry) : Module :=
  match d.held? jsn with
  | some (p, x) => d.putHeld p (f x)
  | none => d
/-- Module `d` with the entry of a JSN changed where it stands (R83). -/
def Module.modEntry (d : Module) (jsn : Nat) (f : Entry → Entry) : Module :=
  match dget? d.slots (jsn % 65536) with
  | some e => if e.jsn = jsn then d.putSlot (jsn % 65536) (f e) else d.modHeld jsn f
  | none => d.modHeld jsn f

theorem modHeld_spec (d : Module) (jsn : Nat) (f : Entry → Entry) (hr : risingFrom 0 d.heldTab = true) (hf : ∀ x, (f x).jsn = x.jsn) :
    ∃ l, d.modHeld jsn f = { d with heldTab := l } ∧ risingFrom 0 l = true ∧
      ∀ n, (l.find? fun x => x.2.jsn == n).map Prod.snd = if n = jsn then ((d.held? n).map Prod.snd).map f else (d.held? n).map Prod.snd := by
  unfold Module.modHeld
  cases hx : d.held? jsn with
  | none =>
    refine ⟨d.heldTab, rfl, hr, fun n => ?_⟩
    split_ifs with hn
    · rw [hn, hx]
      exact congrArg (Option.map Prod.snd) hx
    · rfl
  | some y =>
    obtain ⟨p, x⟩ := y
    refine ⟨_, rfl, risingFrom_dset _ _ 0 p p.zero_le hr, fun n => ?_⟩
    rw [find?_dset_held hr hx (hf x)]
    split_ifs with hn
    · rw [hn, hx]
      rfl
    · rfl

theorem entry?_eq (d : Module) (n : Nat) : d.entry? n = match dget? d.slots (n % 65536) with
    | some e => if e.jsn = n then some e else (d.held? n).map Prod.snd
    | none => (d.held? n).map Prod.snd := rfl

theorem entry?_of_slot {n : Nat} (h : dget? d.slots (n % 65536) = some e) (hn : e.jsn = n) : d.entry? n = some e := by
  rw [entry?_eq, h]
  exact if_pos hn
theorem entry?_of_held {n : Nat} (h : ∀ e, dget? d.slots (n % 65536) = some e → e.jsn ≠ n) : d.entry? n = (d.held? n).map Prod.snd := by
  rw [entry?_eq]
  split
  · next e he => exact if_neg (h e he)
  · rfl

theorem modEntry_spec (d : Module) (jsn : Nat) (f : Entry → Entry) (hr : risingFrom 0 d.heldTab = true) (hf : ∀ x, (f x).jsn = x.jsn) :
    ∃ sl l, d.modEntry jsn f = { d with slots := sl, heldTab := l } ∧ risingFrom 0 l = true ∧
      ∀ n, (d.modEntry jsn f).entry? n = if n = jsn then (d.entry? n).map f else d.entry? n := by
  by_cases hslot : ∃ e, dget? d.slots (jsn % 65536) = some e ∧ e.jsn = jsn
  · obtain ⟨e, he, hjsn⟩ := hslot
    have hmod : d.modEntry jsn f = d.putSlot (jsn % 65536) (f e) := by
      simp only [Module.modEntry, he, if_pos hjsn]
    refine ⟨_, d.heldTab, hmod, hr, fun n => ?_⟩
    rw [hmod]
    split_ifs with hn
    · subst hn
      rw [entry?_of_slot he hjsn]
      exact entry?_of_slot (dget?_dset_same _ _ _) ((hf e).trans hjsn)
    · rw [entry?_eq, entry?_eq]
      by_cases hp : n % 65536 = jsn % 65536
      · simp only [Module.putSlot, hp, dget?_dset_same, he, hf, hjsn, if_neg (Ne.symm hn)]
        rfl
      · simp only [Module.putSlot, dget?_dset_ne _ _ hp]
        rfl
  · have hnot : ∀ e, dget? d.slots (jsn % 65536) = some e → e.jsn ≠ jsn := fun e he hj => hslot ⟨e, he, hj⟩
    have hmod : d.modEntry jsn f = d.modHeld jsn f := by
      unfold Module.modEntry
      split
      · next e he => exact if_neg (hnot e he)
      · rfl
    obtain ⟨l, hl, hrise, hheld⟩ := modHeld_spec d jsn f hr hf
    refine ⟨d.slots, l, hmod.trans hl, hrise, fun n => ?_⟩
    rw [hmod, hl]
    split_ifs with hn
    · subst hn
      rw [entry?_of_held hnot]
      exact (entry?_of_held (d := { d with heldTab := l }) hnot).trans ((hheld n).trans (if_pos rfl))
    · have hsame := (hheld n).trans (if_neg hn)
      rw [entry?_eq, entry?_eq]
      simp only [Module.held?] at hsame ⊢
      rw [hsame]

theorem modEntry_books (hm : s.module? m = some d) (jsn : Nat) (f : Entry → Entry) : Books m d (d.modEntry jsn f) s (s.modEntry m jsn f) := by
  have hput : ∀ (g : Module → Module) off (x : Entry), (g d).jmen = d.jmen → Books m d (g d) s ((s.modModule m g).mirrorAt m off x) := fun g off x hg =>
    (modModule_books hm hg).trans (mirrorAt_books (modModule_books hm hg).after off x)
  have hsame : Books m d d s s := ⟨hm, fun _ _ => rfl, .refl _ s, rfl, fun _ => rfl⟩
  unfold State.modEntry Module.modEntry Module.modHeld Module.held?
  rw [hm]
  dsimp only
  cases he : dget? d.slots (jsn % 65536) with
  | none =>
    cases hx : d.heldTab.find? fun x => x.2.jsn == jsn with
    | none => exact hsame
    | some x => exact hput (·.putHeld x.1 (f x.2)) _ _ rfl
  | some e =>
    dsimp only
    split_ifs with hj
    · exact hput (·.putSlot (jsn % 65536) (f e)) _ _ rfl
    · cases hx : d.heldTab.find? fun x => x.2.jsn == jsn with
      | none => exact hsame
      | some x => exact hput (·.putHeld x.1 (f x.2)) _ _ rfl

/-- Module `d` after a command of it has come to a final state: its entry, and its completion that is due (R78, R82). -/
def Module.finished (d : Module) (jsn state cause : Nat) (e : Entry) : Module :=
  (d.modEntry jsn fun x => { x with state := state, cause := cause }).modQueue e.queue
    (·.due { status := state + 12, cause := if state = jFAULTED then cause else 0, jsn := jsn, qseq := e.qseq })

theorem finishCmd_books (hm : s.module? m = some d) (he : d.entry? jsn = some e) (hf : e.final = false) (state cause : Nat) :
    Books m d (d.finished jsn state cause e) s (s.finishCmd m jsn state cause) := by
  have hentry : s.entry? m jsn = some e := by rw [State.entry?, hm]; exact he
  have hmod := modEntry_books hm jsn fun x => { x with state := state, cause := cause }
  unfold State.finishCmd
  rw [hentry]
  simp only [hf, Bool.false_eq_true, if_false]
  exact hmod.trans (complete_books hmod.after e.queue _)

theorem finished_spec (hr : risingFrom 0 d.heldTab = true) (he : d.entry? jsn = some e) (state cause : Nat) :
    ∃ sl l, d.finished jsn state cause e = { d with slots := sl, heldTab := l, queues := (d.finished jsn state cause e).queues } ∧ risingFrom 0 l = true ∧
      (d.finished jsn state cause e).entry? jsn = some { e with state := state, cause := cause } ∧
      (∀ n, n ≠ jsn → (d.finished jsn state cause e).entry? n = d.entry? n) ∧
      (d.finished jsn state cause e).queue e.queue =
        (d.queue e.queue).due { status := state + 12, cause := if state = jFAULTED then cause else 0, jsn := jsn, qseq := e.qseq } ∧
      ∀ q, q ≠ e.queue → (d.finished jsn state cause e).queue q = d.queue q := by
  obtain ⟨sl, l, hmod, hrise, hentry⟩ := modEntry_spec d jsn (fun x => { x with state := state, cause := cause }) hr fun _ => rfl
  refine ⟨sl, l, ?_, hrise, ?_, fun n hn => (hentry n).trans (if_neg hn), ?_, fun q hq => ?_⟩
  · unfold Module.finished
    rw [hmod]
    rfl
  · exact (hentry jsn).trans (by rw [if_pos rfl, he]; rfl)
  · unfold Module.finished
    rw [queue_modQueue_same, hmod]
    rfl
  · unfold Module.finished
    rw [queue_modQueue_ne _ _ hq, hmod]
    rfl

theorem modEntry_of_slot (h : dget? d.slots (jsn % 65536) = some e) (hj : e.jsn = jsn) (f : Entry → Entry) : d.modEntry jsn f = d.putSlot (jsn % 65536) (f e) := by
  simp only [Module.modEntry, h, if_pos hj]

/-- Module `d` without a command that is carried out. -/
def Module.without (d : Module) (jsn : Nat) : Module := { d with commands := d.commands.filter fun c => c.jsn ≠ jsn }

theorem takeCmd_books (hm : s.module? m = some d) (jsn : Nat) : Books m d (d.without jsn) s (s.takeCmd m jsn) := modModule_books (f := (·.without jsn)) hm rfl

theorem cmdFault_books (hm : s.module? m = some d) (he : d.entry? jsn = some e) (hf : e.final = false) (cause : Nat) :
    Books m d ((d.without jsn).finished jsn jFAULTED cause e) s (s.cmdFault m jsn cause) :=
  (takeCmd_books hm jsn).trans (finishCmd_books (takeCmd_books hm jsn).after he hf jFAULTED cause)
theorem cmdDone_books (hm : s.module? m = some d) (he : d.entry? jsn = some e) (hf : e.final = false) :
    Books m d ((d.without jsn).finished jsn jCOMPLETED 0 e) s (s.cmdDone m jsn) :=
  (takeCmd_books hm jsn).trans (finishCmd_books (takeCmd_books hm jsn).after he hf jCOMPLETED 0)

end Sys2Proof.Machine

/-! A command is fetched and accepted (R75 to R81, R83). -/

namespace Sys2Proof.Machine

open Sys2Proof.Laws

variable {s : State} {m q jsn b : Nat} {d : Module} {e : Entry}

-- which queue is served (R79)
theorem nextQueue_serves (h : d.nextQueue = some q) : q < 64 ∧ (d.queue q).fetchable = true ∧
    ∀ p, p < 64 → (∀ p, (d.queue p).prio < 256) → (d.queue p).fetchable = true → (d.queue p).prio ≤ (d.queue q).prio := by
  obtain ⟨hmem, hleast⟩ := leastBy_spec h
  obtain ⟨hlt, hf⟩ := List.mem_filter.mp hmem
  refine ⟨List.mem_range.mp hlt, hf, fun p hp hprio hpf => ?_⟩
  have hle := hleast p (List.mem_filter.mpr ⟨List.mem_range.mpr hp, hpf⟩)
  have hturn := Nat.mod_lt (q + 63 - dgetD d.served (d.queue q).prio 63) (show 0 < 64 by decide)
  have hturn' := Nat.mod_lt (p + 63 - dgetD d.served (d.queue p).prio 63) (show 0 < 64 by decide)
  have hq := hprio q
  have hp' := hprio p
  omega

theorem fetchable_iff (x : Queue) : x.fetchable = true ↔
    x.enabled = true ∧ x.head % 2 ^ x.size ≠ x.tail % 2 ^ x.size ∧ (x.cidx + 1) % 2 ^ x.size ≠ x.chead % 2 ^ x.size := by
  simp [Queue.fetchable, Queue.full, and_assoc]

-- the marks of a LAUNCH (R85, R400)
theorem any_dset {α : Type} (p : α → Bool) {l : Dict α} {k : Nat} {a b : α} (h : dget? l k = some a) (hp : p b = p a) :
    (dset l k b).any (fun x => p x.2) = l.any fun x => p x.2 := by
  induction l with
  | nil => cases h
  | cons y l ih =>
    obtain ⟨j, c⟩ := y
    simp only [dget?] at h
    simp only [dset]
    split_ifs at h ⊢
    · cases h
      simp [hp]
    · simp [ih h]

/-- An entry of module `x` is a LAUNCH of address space `a` that is not final. -/
def Module.launching (x : Module) (a : Nat) : Bool := (x.slots.map Prod.snd ++ x.heldTab.map Prod.snd).any fun e => e.kind == 1 && e.asid == a && !e.final

theorem asidBusy_modModule (s : State) (m a : Nat) {f : Module → Module} (hf : ∀ x, (f x).launching a = x.launching a) :
    (s.modModule m f).asidBusy a = s.asidBusy a := by
  change List.any (dmod s.modules m f) (fun x => x.2.launching a) = List.any s.modules fun x => x.2.launching a
  unfold dmod
  split
  · next d hd => exact any_dset (Module.launching · a) hd (hf d)
  · rfl

theorem asidBusy_iff (s : State) (a : Nat) : s.asidBusy a = true ↔
    ∃ z ∈ s.modules, ∃ e ∈ z.2.slots.map Prod.snd ++ z.2.heldTab.map Prod.snd, e.kind = 1 ∧ e.asid = a ∧ e.final = false := by
  simp only [State.asidBusy, List.any_eq_true, Bool.and_eq_true, beq_iff_eq, Bool.not_eq_true', and_assoc]

theorem cmdKind_eq (b : Nat) : cmdKind b = b % 2 ^ 8 := by
  unfold cmdKind field
  rw [pow_zero, Nat.div_one]

theorem badKind_cause {b cause : Nat} (h : badKind b = some cause) : cause = if b % 2 ^ 8 = 5 then 0x41 else 0x40 := by
  unfold badKind at h
  rw [cmdKind_eq] at h
  dsimp only at h
  split_ifs at h with h1 h2
  · rw [if_neg (by omega)]
    exact (Option.some.inj h).symm
  · rw [if_pos h2.1]
    exact (Option.some.inj h).symm

/-- The queue after its head has moved on. -/
def Queue.taken (x : Queue) : Queue := { x with head := (x.head + 1) % 2 ^ x.size }
/-- The module after the head of queue `q` has moved on (R75, R79). -/
def Module.fetched (d : Module) (q : Nat) : Module :=
  { d.modQueue q Queue.taken with served := dset d.served (d.queue q).prio q }
/-- The command that queue `q` offers. -/
def State.offered (s : State) (x : Queue) : Nat := readMem s.host (x.base + 64 * (x.head % 2 ^ x.size)) 64

theorem commandFetch_waits (hm : s.module? m = some d) (h : d.ready = false ∨ d.nextQueue = none ∨ s.clearSlot m = none) : commandFetch m s = s := by
  unfold commandFetch
  rw [hm]
  dsimp only
  split
  · rfl
  · rw [if_pos]
    obtain h | h | h := h
    · simp [h]
    · simp_all
    · simp [h]

/-- The answer to a sequence number that the queue has had before (R80). -/
def State.repeated (s : State) (m q : Nat) (d : Module) (b : Nat) : State :=
  match d.entryOf q (cmdQseq b) with
  | some e => s.complete m q { status := if e.digest = sm3 (bytesOf b 64) then 1 else 2, cause := 0, jsn := e.jsn, qseq := cmdQseq b }
  | none => s.complete m q { status := 1, cause := 0, jsn := 0, qseq := cmdQseq b }
/-- What COMMAND_FETCH does with the command it has read. -/
def State.answered (s : State) (m q : Nat) (d : Module) (b : Nat) : State :=
  if cmdQseq b = 0 ∨ (d.queue q).qexp < cmdQseq b then s.complete m q { status := 3, cause := 0, jsn := 0, qseq := cmdQseq b }
  else if cmdQseq b = (d.queue q).qexp then s.accept m q b (sm3 (bytesOf b 64))
  else s.repeated m q d b

theorem commandFetch_eq (hm : s.module? m = some d) (hq : d.nextQueue = some q) (hr : d.ready = true) (hc : (s.clearSlot m).isSome = true) :
    commandFetch m s = (s.modModule m fun x => x.fetched q).answered m q d (s.offered (d.queue q)) := by
  have hmod : (s.modQ m q fun x => { x with head := (x.head + 1) % 2 ^ x.size }).modModule m (fun x => { x with served := dset x.served (d.queue q).prio q }) =
      s.modModule m fun x => x.fetched q := by
    rw [State.modQ, modModule_modModule]
    unfold State.modModule dmod
    rw [show dget? s.modules m = some d from hm]
    rfl
  simp only [commandFetch, hm, hq, hr, Option.isNone_eq_false_iff.mpr hc, ← hmod]
  rfl

theorem complete_fetched (s : State) (m q : Nat) (c : Completion) : (s.modModule m fun x => x.fetched q).complete m q c =
    s.modModule m fun x => (x.fetched q).modQueue q fun y => { y with pending := y.pending ++ [c] } :=
  modModule_modModule ..

theorem fetched_queue_same (d : Module) (q : Nat) : (d.fetched q).queue q = (d.queue q).taken :=
  queue_modQueue_same d q Queue.taken
theorem fetched_queue_ne (d : Module) {p q : Nat} (h : p ≠ q) : (d.fetched q).queue p = d.queue p := queue_modQueue_ne d Queue.taken h

/-- A command that is answered and not accepted: its completion is due, and the head of its queue moves on. -/
theorem complete_fetched_moduleTo (hm : s.module? m = some d) (c : Completion) :
    ModuleTo m s ((s.modModule m fun x => x.fetched q).complete m q c) fun _ y =>
      y.queue q = { d.queue q with head := ((d.queue q).head + 1) % 2 ^ (d.queue q).size, pending := (d.queue q).pending ++ [c] } ∧
      (∀ p, p ≠ q → y.queue p = d.queue p) ∧ { y with queues := d.queues, served := d.served } = d := by
  rw [complete_fetched]
  refine modModule_moduleTo hm ⟨?_, fun p hp => ?_, rfl⟩
  · rw [queue_modQueue_same, fetched_queue_same]
    rfl
  · rw [queue_modQueue_ne _ _ hp, fetched_queue_ne _ hp]

-- the slot of the next JSN (R83)
theorem clearSlot_final (hm : s.module? m = some d) (hf : ∀ e, dget? d.slots (d.jhead % 65536) = some e → e.final = true) : s.clearSlot m = some s := by
  simp only [State.clearSlot, hm]
  split
  · rfl
  · next e he => rw [if_pos (hf e he)]

theorem clearSlot_held {e : Entry} (hm : s.module? m = some d) (he : dget? d.slots (d.jhead % 65536) = some e) (hf : e.final = false) :
    s.clearSlot m = (d.heldFor e).map fun h => (s.modModule m fun d => { d with heldTab := dset d.heldTab h e }).mirrorAt m (heldOffset h) e := by
  simp [State.clearSlot, hm, he, hf]

theorem le_lowestFree (lo : Nat) (l : Dict Entry) : lo ≤ lowestFree lo l := by
  induction l generalizing lo with
  | nil => exact le_rfl
  | cons x l ih =>
    obtain ⟨k, e⟩ := x
    unfold lowestFree
    split_ifs
    · exact ih lo
    · exact le_rfl
    · exact (Nat.le_succ lo).trans (ih (lo + 1))
    · exact le_rfl

theorem heldFor_range {e : Entry} {h : Nat} (hh : d.heldFor e = some h) : (if e.kind = 1 then 16384 else 0) ≤ h ∧ h < (if e.kind = 1 then 32768 else 16384) := by
  simp only [Module.heldFor, Option.ite_none_right_eq_some, Option.some.injEq] at hh
  obtain ⟨hlt, rfl⟩ := hh
  have hle := le_lowestFree (if e.kind = 1 then 16384 else 0) d.heldTab
  refine ⟨hle, ?_⟩
  split_ifs at hlt ⊢ <;> omega

-- acceptance (R80, R81)
/-- The entry of a command that module `d` accepts from queue `q`. -/
def Module.newEntry (d : Module) (q b digest : Nat) : Entry :=
  { jsn := d.jhead, qseq := (d.queue q).qexp, queue := q, kind := cmdKind b, cause := 0, state := jACCEPTED, asid := cmdAsid b, ssn := 0, digest := digest }
def Module.newCommand (d : Module) (q b : Nat) (busy : Bool) : Command := { jsn := d.jhead, queue := q, prio := (d.queue q).prio, bytes := b, busy := busy }
/-- The queue after its next command has been accepted with JSN `jsn`. -/
def Queue.accepted (x : Queue) (jsn : Nat) : Queue :=
  { x with qexp := x.qexp + 1, pending := x.pending ++ [{ status := 0, cause := 0, jsn := jsn, qseq := x.qexp }] }
/-- Module `d` after it has accepted a command from queue `q`. -/
def Module.accepted (d : Module) (q b digest : Nat) (busy : Bool) : Module :=
  { d with slots := dset d.slots (d.jhead % 65536) (d.newEntry q b digest), jhead := d.jhead + 1, commands := d.commands ++ [d.newCommand q b busy]
           queues := dset d.queues q ((d.queue q).accepted d.jhead) }

theorem accepted_queue_same (d : Module) (q b g : Nat) (y : Bool) : (d.accepted q b g y).queue q = (d.queue q).accepted d.jhead := dgetD_dset_same _ _ _ _
theorem accepted_queue_ne (d : Module) {p q : Nat} (b g : Nat) (y : Bool) (h : p ≠ q) : (d.accepted q b g y).queue p = d.queue p := by
  unfold Module.queue Module.accepted
  rw [dgetD_dset, if_neg h.symm]

/-- Module `d` with the entry and the command of an acceptance. -/
def Module.entered (d : Module) (e : Entry) (c : Command) : Module :=
  { d with slots := dset d.slots (d.jhead % 65536) e, jhead := d.jhead + 1, commands := d.commands ++ [c] }
/-- The queue that expects its next sequence number. -/
def Queue.expecting (x : Queue) : Queue := { x with qexp := x.qexp + 1 }

theorem accepted_eq (d : Module) (q b g : Nat) (y : Bool) : d.accepted q b g y =
    ((d.entered (d.newEntry q b g) (d.newCommand q b y)).modQueue q Queue.expecting).modQueue q
      (·.due { status := 0, cause := 0, jsn := d.jhead, qseq := (d.queue q).qexp }) := by
  simp only [Module.accepted, Module.entered, Module.modQueue, Module.queue, dgetD_dset_same, dset_dset]
  rfl

/-- The state after an acceptance, before a fault at once. -/
def State.filed (s : State) (m q b digest : Nat) (d : Module) : State :=
  (((s.modModule m (·.entered (d.newEntry q b digest) (d.newCommand q b (cmdKind b == 1 && s.asidBusy (cmdAsid b))))).modQ m q Queue.expecting).mirrorAt m
    (slotOffset d.jhead) (d.newEntry q b digest)).complete m q { status := 0, cause := 0, jsn := d.jhead, qseq := (d.queue q).qexp }

theorem filed_books (hm : s.module? m = some d) (q b digest : Nat) :
    Books m d (d.accepted q b digest (cmdKind b == 1 && s.asidBusy (cmdAsid b))) s (s.filed m q b digest d) := by
  have hentry := modModule_books (f := (·.entered (d.newEntry q b digest) (d.newCommand q b (cmdKind b == 1 && s.asidBusy (cmdAsid b))))) hm rfl
  have hqueue := hentry.trans (modModule_books (f := (·.modQueue q Queue.expecting)) hentry.after rfl)
  have hmirror := hqueue.trans (mirrorAt_books hqueue.after (slotOffset d.jhead) (d.newEntry q b digest))
  rw [accepted_eq]
  exact hmirror.trans (complete_books hmirror.after q _)

theorem accept_good {v : State} (hc : s.clearSlot m = some v) (hm : s.module? m = some d) (q digest : Nat) (hb : badKind b = none) :
    s.accept m q b digest = v.filed m q b digest d := by
  simp only [State.accept, hc, hm, hb]
  rfl
theorem accept_bad {v : State} {cause : Nat} (hc : s.clearSlot m = some v) (hm : s.module? m = some d) (q digest : Nat) (hb : badKind b = some cause) :
    s.accept m q b digest = (v.filed m q b digest d).cmdFault m d.jhead cause := by
  simp only [State.accept, hc, hm, hb]
  rfl

end Sys2Proof.Machine

/-! What a fetch answers (R75 to R81, R83). -/

namespace Sys2Proof.Machine

open Sys2Proof.Laws

variable {s : State} {m q jsn b : Nat} {d : Module} {e : Entry}

-- a fetch that answers (R75, R80)
section fetch

variable (hm : s.module? m = some d) (hq : d.nextQueue = some q) (hr : d.ready = true)

/-- The state after a fetch that is still to be answered. -/
def State.afterFetch (s : State) (m q : Nat) : State := s.modModule m (·.fetched q)

include hm in
theorem afterFetch_books (q : Nat) : Books m d (d.fetched q) s (s.afterFetch m q) := modModule_books (f := (·.fetched q)) hm rfl

include hm hq hr in
theorem fetch_answers (hf : ∀ e, dget? d.slots (d.jhead % 65536) = some e → e.final = true) :
    exec (.commandFetch m) s = .next ((s.afterFetch m q).answered m q d (s.offered (d.queue q))) := by
  refine congrArg Host.Outcome.next (commandFetch_eq hm hq hr ?_)
  rw [clearSlot_final hm hf]
  rfl

/-- The answer to a fetched command: the head of queue `q` moves on, and one completion is due. -/
def Answers (m q : Nat) (d : Module) (c : Completion) (s t : State) : Prop := ModuleTo m s t fun _ y =>
  y.queue q = { d.queue q with head := ((d.queue q).head + 1) % 2 ^ (d.queue q).size, pending := (d.queue q).pending ++ [c] } ∧
    (∀ p, p ≠ q → y.queue p = d.queue p) ∧ { y with queues := d.queues, served := d.served } = d

variable {b : Nat}

include hm in
theorem answered_gap (h : cmdQseq b = 0 ∨ (d.queue q).qexp < cmdQseq b) :
    Answers m q d { status := 3, cause := 0, jsn := 0, qseq := cmdQseq b } s ((s.afterFetch m q).answered m q d b) := by
  unfold State.answered
  rw [if_pos h]
  exact complete_fetched_moduleTo hm _

theorem answered_earlier (h0 : cmdQseq b ≠ 0) (h : cmdQseq b < (d.queue q).qexp) (s : State) : s.answered m q d b = s.repeated m q d b := by
  unfold State.answered
  rw [if_neg (by omega), if_neg (by omega)]

include hm in
theorem answered_held {e : Entry} (h0 : cmdQseq b ≠ 0) (h : cmdQseq b < (d.queue q).qexp) (he : d.entryOf q (cmdQseq b) = some e) :
    Answers m q d { status := if e.digest = sm3 (bytesOf b 64) then 1 else 2, cause := 0, jsn := e.jsn, qseq := cmdQseq b } s
      ((s.afterFetch m q).answered m q d b) := by
  rw [answered_earlier h0 h, State.repeated, he]
  exact complete_fetched_moduleTo hm _

include hm in
theorem answered_forgotten (h0 : cmdQseq b ≠ 0) (h : cmdQseq b < (d.queue q).qexp) (he : d.entryOf q (cmdQseq b) = none) :
    Answers m q d { status := 1, cause := 0, jsn := 0, qseq := cmdQseq b } s ((s.afterFetch m q).answered m q d b) := by
  rw [answered_earlier h0 h, State.repeated, he]
  exact complete_fetched_moduleTo hm _

theorem answered_expected (h0 : cmdQseq b ≠ 0) (h : cmdQseq b = (d.queue q).qexp) (s : State) : s.answered m q d b = s.accept m q b (sm3 (bytesOf b 64)) := by
  unfold State.answered
  rw [if_neg (by omega), if_pos h]

theorem fetched_accepted_queue (d : Module) (q b g : Nat) (y : Bool) : ((d.fetched q).accepted q b g y).queue q = { d.queue q with
    head := ((d.queue q).head + 1) % 2 ^ (d.queue q).size, qexp := (d.queue q).qexp + 1
    pending := (d.queue q).pending ++ [{ status := 0, cause := 0, jsn := d.jhead, qseq := (d.queue q).qexp }] } := by
  rw [accepted_queue_same, fetched_queue_same]
  rfl
theorem fetched_accepted_queue_ne (d : Module) {p q : Nat} (b g : Nat) (y : Bool) (h : p ≠ q) : ((d.fetched q).accepted q b g y).queue p = d.queue p :=
  (accepted_queue_ne _ b g y h).trans (fetched_queue_ne d h)

include hm in
/-- A command that is accepted: its entry stands in the slot of its JSN, and it is to be carried out (R80). -/
theorem answered_accepts (h0 : cmdQseq b ≠ 0) (h : cmdQseq b = (d.queue q).qexp) (hf : ∀ e, dget? d.slots (d.jhead % 65536) = some e → e.final = true)
    (hb : badKind b = none) :
    Books m d ((d.fetched q).accepted q b (sm3 (bytesOf b 64)) (cmdKind b == 1 && s.asidBusy (cmdAsid b))) s ((s.afterFetch m q).answered m q d b) := by
  have hfetch := afterFetch_books hm q
  have hbusy : (s.afterFetch m q).asidBusy (cmdAsid b) = s.asidBusy (cmdAsid b) := asidBusy_modModule s m _ fun _ => rfl
  have hfiled := filed_books hfetch.after q b (sm3 (bytesOf b 64))
  rw [hbusy] at hfiled
  rw [answered_expected h0 h, accept_good (clearSlot_final hfetch.after hf) hfetch.after _ _ hb]
  exact hfetch.trans hfiled

include hm in
/-- A command of a reserved kind: it is accepted and faults in the same step (R77, R81). -/
theorem answered_faults {cause : Nat} (h0 : cmdQseq b ≠ 0) (h : cmdQseq b = (d.queue q).qexp)
    (hf : ∀ e, dget? d.slots (d.jhead % 65536) = some e → e.final = true) (hb : badKind b = some cause) :
    ∃ x e, x = (d.fetched q).accepted q b (sm3 (bytesOf b 64)) (cmdKind b == 1 && s.asidBusy (cmdAsid b)) ∧ e = (d.fetched q).newEntry q b (sm3 (bytesOf b 64)) ∧
      Books m d (((x.without d.jhead).putSlot (d.jhead % 65536) { e with state := jFAULTED, cause := cause }).modQueue q
        (·.due { status := 0x11, cause := cause, jsn := d.jhead, qseq := (d.queue q).qexp })) s ((s.afterFetch m q).answered m q d b) := by
  have hfetch := afterFetch_books hm q
  have hbusy : (s.afterFetch m q).asidBusy (cmdAsid b) = s.asidBusy (cmdAsid b) := asidBusy_modModule s m _ fun _ => rfl
  have hfiled := filed_books hfetch.after q b (sm3 (bytesOf b 64))
  rw [hbusy] at hfiled
  refine ⟨_, _, rfl, rfl, ?_⟩
  generalize hx : (d.fetched q).accepted q b (sm3 (bytesOf b 64)) (cmdKind b == 1 && s.asidBusy (cmdAsid b)) = x at hfiled
  have hslot : dget? x.slots (d.jhead % 65536) = some ((d.fetched q).newEntry q b (sm3 (bytesOf b 64))) := by
    rw [← hx]
    exact dget?_dset_same _ _ _
  have hfault := cmdFault_books hfiled.after (entry?_of_slot hslot rfl) rfl cause
  unfold Module.finished at hfault
  rw [modEntry_of_slot (d := x.without d.jhead) hslot rfl] at hfault
  have hqseq : ((d.fetched q).newEntry q b (sm3 (bytesOf b 64))).qseq = (d.queue q).qexp := by
    show ((d.fetched q).queue q).qexp = _
    rw [fetched_queue_same]
    rfl
  rw [answered_expected h0 h, accept_bad (clearSlot_final hfetch.after hf) hfetch.after _ _ hb, ← hqseq]
  exact hfetch.trans (hfiled.trans hfault)

end fetch

/-- The entry in the new JSN's slot has gone to its place of the held table, and the command is accepted (R83). -/
theorem answered_moves {h : Nat} (hm : s.module? m = some d) (h0 : cmdQseq b ≠ 0) (hn : cmdQseq b = (d.queue q).qexp)
    (he : dget? d.slots (d.jhead % 65536) = some e) (hf : e.final = false) (hh : d.heldFor e = some h) (hb : badKind b = none) :
    ∃ busy, Books m d (((d.fetched q).putHeld h e).accepted q b (sm3 (bytesOf b 64)) busy) s ((s.afterFetch m q).answered m q d b) := by
  have hfetch := afterFetch_books hm q
  have hclear := clearSlot_held hfetch.after he hf
  rw [show (d.fetched q).heldFor e = some h from hh] at hclear
  have hmove := modModule_books (f := (·.putHeld h e)) hfetch.after rfl
  have hmirror := hmove.trans (mirrorAt_books hmove.after (heldOffset h) e)
  rw [answered_expected h0 hn, accept_good hclear hfetch.after _ _ hb]
  exact ⟨_, hfetch.trans (hmirror.trans (filed_books hmirror.after q b (sm3 (bytesOf b 64))))⟩

end Sys2Proof.Machine

/-! A completion goes into its ring; the rules of the queues (R75 to R83). -/

namespace Sys2Proof.Machine

open Sys2Proof.Laws

variable {s : State} {m q jsn b : Nat} {d : Module} {e : Entry}

-- completions (R75, R78)
theorem completionWrite_waits (hm : s.module? m = some d) (h : (d.queue q).pending = [] ∨ (d.queue q).full = true) : completionWrite m q s = s := by
  unfold completionWrite
  rw [hm]
  dsimp only
  split
  · rfl
  · next c rest hp => rw [if_pos (h.resolve_left (by simp [hp]))]

/-- The queue after its oldest completion has been written (R75). -/
def Queue.written (x : Queue) (rest : List Completion) : Queue :=
  { x with pending := rest, cidx := (x.cidx + 1) % 2 ^ x.size, cphase := if (x.cidx + 1) % 2 ^ x.size = 0 then !x.cphase else x.cphase }

/-- Module `m`, which is `y`, changes by no more than its MSI-X enable and pending bits, and nothing else changes but host memory. -/
def MsixOnly (m : Nat) (y : Module) (s t : State) : Prop :=
  (∃ pba on, t.module? m = some { y with pba := pba, msixOn := on }) ∧ OtherModules m s t ∧ Keeps [.modules, .host] s t

theorem MsixOnly.refl {y : Module} (hy : s.module? m = some y) : MsixOnly m y s s := ⟨⟨y.pba, y.msixOn, hy⟩, fun _ _ => rfl, .refl _ s⟩
theorem MsixOnly.modModule {y : Module} {t : State} (h : MsixOnly m y s t) {f : Module → Module}
    (hf : ∀ p o, ∃ p' o', f { y with pba := p, msixOn := o } = { y with pba := p', msixOn := o' }) : MsixOnly m y s (t.modModule m f) := by
  obtain ⟨⟨pba, on, hy⟩, hothers, hkeeps⟩ := h
  obtain ⟨p, o, hpo⟩ := hf pba on
  exact ⟨⟨p, o, by rw [module?_modModule_same, hy, ← hpo]; rfl⟩, fun n hn => (modModule_otherModules t m f n hn).trans (hothers n hn),
    hkeeps.trans ((modModule_keeps t m f).mono (by simp))⟩

theorem msixReady_only {y : Module} (hy : s.module? m = some y) : MsixOnly m y s (s.msixReady m).2 := by
  unfold State.msixReady
  split_ifs
  · exact .refl hy
  · have hdraw : MsixOnly m y s s.drawBool.2 := ⟨⟨y.pba, y.msixOn, hy⟩, fun _ _ => rfl,
      ⟨fun _ => rfl, fun _ => rfl, fun _ => rfl, fun _ => rfl, fun _ => rfl, fun _ => ⟨rfl, rfl⟩, fun _ => ⟨rfl, rfl⟩, fun _ => rfl⟩⟩
    exact hdraw.modModule fun p _ => ⟨p, s.drawBool.1, rfl⟩

theorem msix_only {y : Module} (hy : s.module? m = some y) (vec : Nat) : MsixOnly m y s (s.msix m vec) := by
  have hready := msixReady_only hy
  unfold State.msix
  generalize s.msixReady m = r at hready
  obtain ⟨on, u⟩ := r
  have hpend : MsixOnly m y s (u.modModule m fun d => { d with pba := vec :: d.pba.filter (· ≠ vec) }) := hready.modModule fun p o => ⟨_, o, rfl⟩
  dsimp only at hready ⊢
  split_ifs
  · exact hready
  · split
    · split_ifs
      · exact hpend
      · obtain ⟨hmod, hothers, hkeeps⟩ := hready
        exact ⟨hmod, hothers, hkeeps.trans ((hostPut_keeps u _ 4 _).mono (by simp))⟩
    · exact hpend

/-- A fetch, with the slot of the next JSN free to take. -/
theorem fetchRule (hm : s.module? m = some d) (hq : d.nextQueue = some q) (hr : d.ready = true)
    (hf : ∀ e, dget? d.slots (d.jhead % 65536) = some e → e.final = true) {P : State → Prop}
    (h : P ((s.afterFetch m q).answered m q d (s.offered (d.queue q)))) : Does (.commandFetch m) s P := ⟨_, fetch_answers hm hq hr hf, h⟩

/-- What an acceptance leaves (R80). -/
theorem acceptedRule {busy : Bool} {dg : Nat} {t : State}
    (h : Books m d ((d.fetched q).accepted q b dg busy) s t) (hn : cmdQseq b = (d.queue q).qexp) :
    ∃ y, t.module? m = some y ∧
      y.queue q = { d.queue q with head := ((d.queue q).head + 1) % 2 ^ (d.queue q).size, qexp := cmdQseq b + 1
                                   pending := (d.queue q).pending ++ [{ status := 0, cause := 0, jsn := d.jhead, qseq := cmdQseq b }] } ∧
      (∀ p, p ≠ q → y.queue p = d.queue p) ∧ y.jhead = d.jhead + 1 ∧
      y.commands = d.commands ++ [{ jsn := d.jhead, queue := q, prio := (d.queue q).prio, bytes := b, busy := busy }] ∧
      dget? y.slots (d.jhead % 65536) = some { jsn := d.jhead, qseq := cmdQseq b, queue := q, kind := b % 2 ^ 8, cause := 0, state := 0
                                               asid := b / 2 ^ 32 % 2 ^ 14, ssn := 0, digest := dg } ∧
      (∀ p, p ≠ d.jhead % 65536 → dget? y.slots p = dget? d.slots p) ∧ y.heldTab = d.heldTab ∧ OtherModules m s t ∧ Keeps [.modules, .host] s t ∧
      (d.jmen = false → t.host = s.host) := by
  refine ⟨_, h.after, ?_, fun p hp => fetched_accepted_queue_ne d b dg busy hp, rfl, ?_, ?_, fun p hp => dget?_dset_ne _ _ hp, rfl, h.others, h.keeps, h.host⟩
  · rw [fetched_accepted_queue, hn]
  · show d.commands ++ [(d.fetched q).newCommand q b busy] = _
    rw [Module.newCommand, fetched_queue_same]
    rfl
  · refine (dget?_dset_same _ _ _).trans ?_
    rw [Module.newEntry, fetched_queue_same, cmdKind_eq, hn]
    rfl

/-- What an acceptance that faults at once leaves (R77, R81). -/
theorem faultedRule (hm : s.module? m = some d) {cause : Nat} (h0 : cmdQseq b ≠ 0) (hn : cmdQseq b = (d.queue q).qexp)
    (hf : ∀ e, dget? d.slots (d.jhead % 65536) = some e → e.final = true) (hb : badKind b = some cause) :
    ∃ y, ((s.afterFetch m q).answered m q d b).module? m = some y ∧
      y.queue q = { d.queue q with head := ((d.queue q).head + 1) % 2 ^ (d.queue q).size, qexp := cmdQseq b + 1
                                   pending := (d.queue q).pending ++
          [{ status := 0, cause := 0, jsn := d.jhead, qseq := cmdQseq b }, { status := 0x11, cause := cause, jsn := d.jhead, qseq := cmdQseq b }] } ∧
      (∀ p, p ≠ q → y.queue p = d.queue p) ∧ y.jhead = d.jhead + 1 ∧ y.commands = d.commands.filter (fun c => c.jsn ≠ d.jhead) ∧
      (dget? y.slots (d.jhead % 65536)).map (fun e => (e.state, e.cause)) = some (5, cause) ∧ OtherModules m s ((s.afterFetch m q).answered m q d b) := by
  obtain ⟨x, e, rfl, -, hbooks⟩ := answered_faults hm h0 hn hf hb
  refine ⟨_, hbooks.after, ?_, fun p hp => ?_, rfl, ?_, ?_, hbooks.others⟩
  · rw [queue_modQueue_same]
    refine (congrArg (Queue.due · _) (fetched_accepted_queue d q b (sm3 (bytesOf b 64)) (cmdKind b == 1 && s.asidBusy (cmdAsid b)))).trans ?_
    rw [hn]
    simp [Queue.due]
  · rw [queue_modQueue_ne _ _ hp]
    exact fetched_accepted_queue_ne d b (sm3 (bytesOf b 64)) (cmdKind b == 1 && s.asidBusy (cmdAsid b)) hp
  · show List.filter _ (d.commands ++ [(d.fetched q).newCommand q b _]) = _
    rw [List.filter_append]
    simp [Module.newCommand, Module.fetched, Module.modQueue]
  · exact congrArg (Option.map _) (dget?_dset_same _ _ _)

theorem hostPut_module (s : State) (a n v m : Nat) : (s.hostPut a n v).module? m = s.module? m := rfl

/-- The state in which a completion stands in its ring, before a message of MSI-X. -/
def State.ringed (s : State) (m q : Nat) (x : Queue) (c : Completion) (rest : List Completion) : State :=
  (s.hostPut (x.cbase + 16 * (x.cidx % 2 ^ x.size)) 16 (c.toNat x.cphase)).modModule m (·.modQueue q fun y =>
    { y with pending := rest, cidx := (x.cidx + 1) % 2 ^ x.size, cphase := if (x.cidx + 1) % 2 ^ x.size = 0 then !y.cphase else y.cphase })

theorem ringed_module {c : Completion} {rest : List Completion} (hm : s.module? m = some d) :
    ∃ l, (s.ringed m q (d.queue q) c rest).module? m = some { d with queues := l } ∧ dgetD l q Queue.reset = (d.queue q).written rest ∧
      ∀ p, p ≠ q → dgetD l p Queue.reset = d.queue p := by
  refine ⟨_, ?_, dgetD_dset_same _ _ _ _, fun p hp => dgetD_dset_ne _ _ _ hp⟩
  rw [State.ringed, module?_modModule_same, hostPut_module, hm]
  rfl

theorem ringed_frame (s : State) (m q : Nat) (x : Queue) (c : Completion) (rest : List Completion) :
    OtherModules m s (s.ringed m q x c rest) ∧ Keeps [.modules, .host] s (s.ringed m q x c rest) :=
  ⟨fun n hn => (modModule_otherModules _ m _ n hn).trans (hostPut_module s _ _ _ n),
    ((hostPut_keeps s _ _ _).mono (by simp)).trans ((modModule_keeps _ m _).mono (by simp))⟩

/-- A completion goes into its ring (R75, R78). -/
theorem completionRule {c : Completion} {rest : List Completion} (hm : s.module? m = some d) (hp : (d.queue q).pending = c :: rest)
    (hf : (d.queue q).full = false) : ∃ y, (completionWrite m q s).module? m = some y ∧ y.queue q = (d.queue q).written rest ∧
      (∀ p, p ≠ q → y.queue p = d.queue p) ∧ y.slots = d.slots ∧ y.commands = d.commands ∧ OtherModules m s (completionWrite m q s) ∧
      Keeps [.modules, .host] s (completionWrite m q s) ∧
      ((d.queue q).irq = false → completionWrite m q s = s.ringed m q (d.queue q) c rest) := by
  obtain ⟨l, hmod, hqueue, hother⟩ := ringed_module (q := q) (c := c) (rest := rest) hm
  obtain ⟨hothers, hkeeps⟩ := ringed_frame s m q (d.queue q) c rest
  have heq : completionWrite m q s = if (d.queue q).irq then (s.ringed m q (d.queue q) c rest).msix m (d.queue q).vec else s.ringed m q (d.queue q) c rest := by
    simp only [completionWrite, hm, hp, hf]
    rfl
  rw [heq]
  split_ifs with hirq
  · obtain ⟨⟨pba, on, hmsix⟩, hothers', hkeeps'⟩ := msix_only hmod (d.queue q).vec
    exact ⟨_, hmsix, hqueue, hother, rfl, rfl, fun n hn => (hothers' n hn).trans (hothers n hn), hkeeps.trans hkeeps', fun h => absurd hirq (by simp [h])⟩
  · exact ⟨_, hmod, hqueue, hother, rfl, rfl, hothers, hkeeps, fun _ => rfl⟩

theorem writeMem_writes (a : Memory) (i n v : Nat) : Writes a (writeMem a i n v) i n v :=
  ⟨by rw [readMem_writeMem_same, pow_mul]; rfl, fun k hk => readByte_writeMem_ne n a i v k hk⟩

theorem ringed_host (s : State) (m q : Nat) (x : Queue) (c : Completion) (rest : List Completion) :
    (s.ringed m q x c rest).host = writeMem s.host (x.cbase + 16 * (x.cidx % 2 ^ x.size)) 16 (c.toNat x.cphase) := rfl

/-- Settles O34: the fetch by what it reads and by the slot of the next JSN, and the completion by its ring. -/
theorem queueSteps : Obligations.QueueSteps := by
  unfold Obligations.QueueSteps
  refine ⟨fun s m d hm => ⟨fun h => ?_, fun q hq => ?_, fun q hq hr hf => ?_, fun q e hq he hf => ?_⟩, fun s m q d hm => ⟨fun h => ?_, fun c rest hp hf => ?_⟩⟩
  · exact congrArg Host.Outcome.next (commandFetch_waits hm (h.imp_right .inl))
  · obtain ⟨hlt, hfetch, hprio⟩ := nextQueue_serves hq
    obtain ⟨hen, hhead, hfull⟩ := (fetchable_iff _).mp hfetch
    exact ⟨hlt, hen, hhead, hfull, hprio⟩
  · intro x b n head dg
    refine ⟨fun h => fetchRule hm hq hr hf (answered_gap hm h), fun h0 h e he => fetchRule hm hq hr hf (answered_held hm h0 h he),
      fun h0 h he => fetchRule hm hq hr hf (answered_forgotten hm h0 h he), fun cause h0 h hb => fetchRule hm hq hr hf ?_,
      fun h0 h hb => fetchRule hm hq hr hf ?_⟩
    · obtain ⟨y, hy, hrest⟩ := faultedRule hm h0 h hf hb
      exact ⟨y, hy, badKind_cause hb, hrest⟩
    · obtain ⟨y, hy, hqueue, hother, hjhead, hcmds, hrest⟩ := acceptedRule (answered_accepts hm h0 h hf hb) h
      refine ⟨y, hy, hqueue, hother, hjhead, ⟨_, hcmds, ?_⟩, hrest⟩
      rw [Bool.and_eq_true, beq_iff_eq, cmdKind_eq, asidBusy_iff]
      rfl
  · intro x b
    have hclear := clearSlot_held hm he hf
    refine ⟨fun hh => congrArg Host.Outcome.next (commandFetch_waits hm (.inr (.inr (by rw [hclear, hh]; rfl)))), fun h hh => ?_⟩
    obtain ⟨hlo, hhi⟩ := heldFor_range hh
    refine ⟨hlo, hhi, fun hr h0 hn hb => ?_⟩
    obtain ⟨busy, hbooks⟩ := answered_moves hm h0 hn he hf hh hb
    refine ⟨_, congrArg Host.Outcome.next (commandFetch_eq hm hq hr (by rw [hclear, hh]; rfl)), _, hbooks.after, rfl, ?_, rfl⟩
    exact congrArg (Option.map _) (dget?_dset_same _ _ _)
  · exact congrArg Host.Outcome.next (completionWrite_waits hm (h.imp_right fun h => by rw [Queue.full, h]; exact beq_self_eq_true _))
  · have hfull : (d.queue q).full = false := by simpa [Queue.full] using hf
    obtain ⟨y, hy, hqueue, hother, hslots, hcmds, hothers, hkeeps, hring⟩ := completionRule hm hp hfull
    refine ⟨_, rfl, y, hy, hqueue, hother, hslots, hcmds, hothers, hkeeps, fun hirq => ?_⟩
    rw [hring hirq, ringed_host]
    exact writeMem_writes ..

end Sys2Proof.Machine

/-! How a command ends, and what of its module it may change (R77, R78, R82). -/

namespace Sys2Proof.Machine

open Sys2Proof.Laws

variable {s t : State} {m q jsn n state cause : Nat} {d d' : Module} {e x : Entry} {c : Command}

/-- A module changes by no more than its journal, queues and commands. -/
def JournalOf (d d' : Module) : Prop := ∃ sl l qs cs, d' = { d with slots := sl, heldTab := l, queues := qs, commands := cs }

theorem JournalOf.refl (d : Module) : JournalOf d d := ⟨d.slots, d.heldTab, d.queues, d.commands, rfl⟩
theorem JournalOf.trans {d'' : Module} (h : JournalOf d d') (g : JournalOf d' d'') : JournalOf d d'' := by
  obtain ⟨_, _, _, _, rfl⟩ := h
  obtain ⟨sl, l, qs, cs, rfl⟩ := g
  exact ⟨sl, l, qs, cs, rfl⟩
theorem without_journalOf (d : Module) (jsn : Nat) : JournalOf d (d.without jsn) := ⟨_, _, _, _, rfl⟩
theorem modEntry_journalOf (d : Module) (jsn : Nat) (f : Entry → Entry) : JournalOf d (d.modEntry jsn f) := by
  unfold Module.modEntry Module.modHeld
  split
  · split_ifs
    · exact ⟨_, _, _, _, rfl⟩
    · split
      · exact ⟨_, _, _, _, rfl⟩
      · exact .refl d
  · split
    · exact ⟨_, _, _, _, rfl⟩
    · exact .refl d
theorem finished_journalOf (d : Module) (jsn state cause : Nat) (e : Entry) : JournalOf d (d.finished jsn state cause e) :=
  (modEntry_journalOf d jsn _).trans ⟨_, _, _, _, rfl⟩

theorem journalOnly_of (hm : s.module? m = some d) (ht : t.module? m = some d') (h : JournalOf d d') (hothers : OtherModules m s t) : JournalOnly m s t := by
  obtain ⟨sl, l, qs, cs, rfl⟩ := h
  exact ⟨hothers, d, _, hm, ht, rfl⟩

-- an entry that has come to its end, and its completion (R78, R82)
/-- Entry `jsn`, which was `e`, has taken its final state, and its completion is due. -/
def EntryDone (d : Module) (jsn state cause : Nat) (e : Entry) : Prop := d.entry? jsn = some { e with state := state, cause := cause } ∧
  ({ status := state + 12, cause := if state = 5 then cause else 0, jsn := jsn, qseq := e.qseq } : Completion) ∈ (d.queue e.queue).pending

theorem finished_done (hr : risingFrom 0 d.heldTab = true) (he : d.entry? jsn = some e) (state cause : Nat) :
    EntryDone (d.finished jsn state cause e) jsn state cause e := by
  obtain ⟨_, _, -, -, hentry, -, hqueue, -⟩ := finished_spec hr he state cause
  refine ⟨hentry, ?_⟩
  rw [hqueue]
  exact List.mem_append_right _ (List.mem_singleton_self _)

theorem EntryDone.finished (h : EntryDone d n state cause x) (hr : risingFrom 0 d.heldTab = true) (he : d.entry? jsn = some e) (hn : n ≠ jsn) (st ca : Nat) :
    EntryDone (d.finished jsn st ca e) n state cause x := by
  obtain ⟨hx, hpend⟩ := h
  obtain ⟨_, _, -, -, -, hother, hqueue, hqueues⟩ := finished_spec hr he st ca
  refine ⟨(hother n hn).trans hx, ?_⟩
  by_cases hq : x.queue = e.queue
  · rw [hq, hqueue, ← hq]
    exact List.mem_append_left _ hpend
  · rw [hqueues _ hq]
    exact hpend

theorem finished_rising (hr : risingFrom 0 d.heldTab = true) (he : d.entry? jsn = some e) (state cause : Nat) :
    risingFrom 0 (d.finished jsn state cause e).heldTab = true := by
  obtain ⟨_, l, heq, hl, -⟩ := finished_spec hr he state cause
  rw [heq]
  exact hl

theorem EntryDone.ends (h : EntryDone d' jsn state cause e) (hm : s.module? m = some d) (he : d.entry? jsn = some e) (ht : t.module? m = some d') :
    EntryEnds m jsn state cause s t := ⟨d, e, d', hm, he, ht, h.1, h.2⟩

-- a command that is due (R76, R85)
theorem onCommand_due {kind : Nat} (h : CommandDue s m jsn kind c) (f : State → Command → State) : onCommand m jsn kind f s = f s c := by
  simp only [onCommand, h.1]

/-- The journal of a module with a command that is due. -/
structure Due (s : State) (m jsn : Nat) (d : Module) (e : Entry) : Prop where
  module : s.module? m = some d
  rising : risingFrom 0 d.heldTab = true
  entry : d.entry? jsn = some e
  open_ : e.final = false

theorem CommandDue.due {kind : Nat} (h : CommandDue s m jsn kind c) : ∃ d e, Due s m jsn d e := by
  obtain ⟨-, d, e, hm, hr, he, hf⟩ := h
  exact ⟨d, e, hm, hr, he, hf⟩

theorem Due.books_ends (h : Due s m jsn d e) (hb : Books m d ((d.without jsn).finished jsn state cause e) s t) : CommandEnds m jsn state cause s t := by
  obtain ⟨sl, l, heq, -, hentry, hother, hqueue, hqueues⟩ := finished_spec (d := d.without jsn) h.rising h.entry state cause
  exact ⟨d, e, _, h.module, h.entry, hb.after, hentry, hother, congrArg Module.commands heq, congrArg Queue.pending hqueue, hqueues, hb.others, hb.keeps, hb.host⟩

theorem CommandDue.faults {kind : Nat} (h : CommandDue s m jsn kind c) (cause : Nat) : CommandEnds m jsn 5 cause s (s.cmdFault m jsn cause) := by
  obtain ⟨d, e, h⟩ := CommandDue.due h
  exact h.books_ends (cmdFault_books h.module h.entry h.open_ cause)
theorem CommandDue.done {kind : Nat} (h : CommandDue s m jsn kind c) : CommandEnds m jsn 4 0 s (s.cmdDone m jsn) := by
  obtain ⟨d, e, h⟩ := CommandDue.due h
  exact h.books_ends (cmdDone_books h.module h.entry h.open_)

-- the fields of a command (R76)
theorem noArgs_false_iff (b : Nat) (args : List Nat) : noArgs b args = false ↔ ∃ a ∈ args, cmdArg b a ≠ 0 := by
  simp [noArgs]
theorem cmdReserved_iff (b : Nat) : cmdReserved b = true ↔ field b 8 8 ≠ 0 ∨ field b 16 16 ≠ 0 ∨ field b 46 18 ≠ 0 ∨ field b 112 16 ≠ 0 ∨ field b 384 128 ≠ 0 := by
  simp only [cmdReserved, Bool.or_eq_true, bne_iff_ne, or_assoc]
theorem badFields_iff (b : Nat) (args : List Nat) : BadFields b args ↔ (cmdReserved b || !noArgs b args) = true := by
  rw [Bool.or_eq_true, Bool.not_eq_true', cmdReserved_iff, noArgs_false_iff]
  simp only [BadFields, field, cmdArg, or_assoc]

-- a command whose job waits with it, or takes another form (R85)
/-- The command has been taken, and the job of address space `a` is `j`. -/
def State.taken (s : State) (m jsn a : Nat) (j : Job) : State := (s.takeCmd m jsn).setJob a j

theorem taken_module (h : s.module? m = some d) (jsn a : Nat) (j : Job) : (s.taken m jsn a j).module? m = some (d.without jsn) := (takeCmd_books h jsn).after
theorem taken_job (s : State) (m jsn a : Nat) (j : Job) : (s.taken m jsn a j).job? a = some j := job?_setJob_same _ a j
theorem taken_otherJobs (s : State) (m jsn a : Nat) (j : Job) : OtherJobs a s (s.taken m jsn a j) := setJob_otherJobs (s.takeCmd m jsn) a j
theorem taken_keeps (s : State) (m jsn a : Nat) (j : Job) : Keeps [.modules, .jobs] s (s.taken m jsn a j) :=
  ((modModule_keeps s m _).mono (by simp)).step (setJob_keeps _ a j) (by simp)
theorem taken_journalOnly (h : s.module? m = some d) (jsn a : Nat) (j : Job) : JournalOnly m s (s.taken m jsn a j) :=
  journalOnly_of h (taken_module h jsn a j) (without_journalOf d jsn) (takeCmd_books h jsn).others
theorem taken_entry (h : s.module? m = some d) (jsn a : Nat) (j : Job) (n : Nat) : (s.taken m jsn a j).entry? m n = s.entry? m n := by
  rw [State.entry?, taken_module h, State.entry?, h]
  rfl

theorem liveJob_iff {a : Nat} {j : Job} : s.liveJob m a = some j ↔ LiveJob s m a j := by
  simp [State.liveJob, LiveJob, Option.bind_eq_some_iff]
theorem liveJob_none {a : Nat} (h : ∀ j, ¬ LiveJob s m a j) : s.liveJob m a = none :=
  Option.eq_none_iff_forall_ne_some.mpr fun j hj => h j (liveJob_iff.mp hj)

end Sys2Proof.Machine

/-! LAUNCH (R76, R85, R87, R114) and CANCEL (R77, R82, R85). -/

namespace Sys2Proof.Machine

open Sys2Proof.Laws

variable {s t : State} {m q jsn n state cause : Nat} {d d' : Module} {e x : Entry} {c : Command}

-- LAUNCH (R76, R85, R87, R114)
/-- The job that a LAUNCH with image `j` starts. -/
def Job.launched (j : Job) (m jsn : Nat) (c : Command) : Job := { j with home := m, jsn := jsn, queue := c.queue, prio := c.prio, root := cmdArg c.bytes 2 }

theorem launchBad_iff (b : Nat) : (cmdReserved b || cmdArg b 3 != 0 || cmdArg b 0 % 4096 != 0 || !rootOk (cmdArg b 2)) = true ↔
    BadFields b [3] ∨ cmdArg b 0 % 4096 ≠ 0 ∨ rootOk (cmdArg b 2) = false := by
  rw [badFields_iff]
  simp [noArgs, or_assoc]

section launch

variable (h : CommandDue s m jsn 1 c)
include h

theorem launch_badFields (hb : BadFields c.bytes [3] ∨ cmdArg c.bytes 0 % 4096 ≠ 0 ∨ rootOk (cmdArg c.bytes 2) = false) : launch m jsn s = s.cmdFault m jsn cBADFIELD := by
  rw [launch, onCommand_due h]
  exact if_pos ((launchBad_iff _).mpr hb)

variable (hb : ¬ (BadFields c.bytes [3] ∨ cmdArg c.bytes 0 % 4096 ≠ 0 ∨ rootOk (cmdArg c.bytes 2) = false))
include hb

theorem launch_waits (hheld : s.poolsHeld m (cmdArg c.bytes 2) = true) : launch m jsn s = s := by
  rw [launch, onCommand_due h]
  dsimp only
  rw [if_neg (mt (launchBad_iff _).mp hb), if_pos hheld]

variable (hheld : s.poolsHeld m (cmdArg c.bytes 2) = false)
include hheld

theorem launch_meets (hmeets : s.poolMeets m (cmdArg c.bytes 2) = true) : launch m jsn s = s.cmdFault m jsn cBADFIELD := by
  rw [launch, onCommand_due h]
  dsimp only
  rw [if_neg (mt (launchBad_iff _).mp hb), if_neg (by simp [hheld]), if_pos hmeets]

variable (hmeets : s.poolMeets m (cmdArg c.bytes 2) = false)
include hmeets

theorem launch_badImage {cause : Nat} (hi : readImage s.host s.hostBad (cmdArg c.bytes 0) (cmdArg c.bytes 1) = .error cause) : launch m jsn s = s.cmdFault m jsn cause := by
  rw [launch, onCommand_due h]
  dsimp only
  rw [if_neg (mt (launchBad_iff _).mp hb), if_neg (by simp [hheld]), if_neg (by simp [hmeets]), hi]

theorem launch_image {j : Job} (hi : readImage s.host s.hostBad (cmdArg c.bytes 0) (cmdArg c.bytes 1) = .ok j) : launch m jsn s =
    if (c.busy || (s.job? (cmdAsid c.bytes)).isSome) = true then s.cmdFault m jsn cASIDBUSY
    else if (s.candidates (j.launched m jsn c)).isEmpty = true then s.cmdFault m jsn cNOPLACE
    else s.taken m jsn (cmdAsid c.bytes) (j.launched m jsn c) := by
  rw [launch, onCommand_due h]
  dsimp only
  rw [if_neg (mt (launchBad_iff _).mp hb), if_neg (by simp [hheld]), if_neg (by simp [hmeets]), hi]
  rfl

end launch

-- CANCEL (R77, R85)
/-- Job `j` with a CANCEL pending. -/
def Job.toCancel (j : Job) (jsn now : Nat) : Job := { j with pending := j.pending ++ [{ jsn := jsn, cancel := true }], removeAt := j.removeAt || now == 1 }

theorem cancelBad_iff (b : Nat) : (cmdReserved b || !noArgs b [1, 2, 3] || decide (1 < cmdArg b 0)) = true ↔ BadFields b [1, 2, 3] ∨ 1 < cmdArg b 0 := by
  rw [badFields_iff, Bool.or_eq_true, decide_eq_true_eq]

theorem idle_iff (j : Job) : j.idle = true ↔ j.stage = .waiting ∨ j.stage = .staging ∨ j.stage = .runpfl ∨ j.held = true := by
  simp [Job.idle, or_assoc]

section cancel

variable (h : CommandDue s m jsn 2 c)
include h

theorem cancel_badFields (hb : BadFields c.bytes [1, 2, 3] ∨ 1 < cmdArg c.bytes 0) : cancel m jsn s = s.cmdFault m jsn cBADFIELD := by
  rw [cancel, onCommand_due h]
  exact if_pos ((cancelBad_iff _).mpr hb)

variable (hb : ¬ (BadFields c.bytes [1, 2, 3] ∨ 1 < cmdArg c.bytes 0))
include hb

theorem cancel_notLive (hlive : ∀ j, ¬ LiveJob s m (cmdAsid c.bytes) j) : cancel m jsn s = s.cmdFault m jsn cNOTLIVE := by
  rw [cancel, onCommand_due h]
  dsimp only
  rw [if_neg (mt (cancelBad_iff _).mp hb), liveJob_none hlive]

variable {j : Job} (hj : LiveJob s m (cmdAsid c.bytes) j)
include hj

theorem cancel_live : cancel m jsn s =
    if (j.idle && s.endBusy j) = true then s
    else if j.idle = true then (s.taken m jsn (cmdAsid c.bytes) (j.toCancel jsn (cmdArg c.bytes 0))).endJob (cmdAsid c.bytes) jCANCELLED 0 (some jsn)
    else if cmdArg c.bytes 0 = 1 then (s.taken m jsn (cmdAsid c.bytes) (j.toCancel jsn (cmdArg c.bytes 0))).postHub m (cmdAsid c.bytes) (.urgent 0 0 2)
    else s.taken m jsn (cmdAsid c.bytes) (j.toCancel jsn (cmdArg c.bytes 0)) := by
  rw [cancel, onCommand_due h]
  dsimp only
  rw [if_neg (mt (cancelBad_iff _).mp hb), liveJob_iff.mpr hj]
  rfl

end cancel

/-- A CANCEL of a job that runs: it is pending, and urgent with ARG0 = 1. -/
theorem cancel_pends {j : Job} {a now : Nat} (h : Due s m jsn d e)
    (ht : t = if now = 1 then (s.taken m jsn a (j.toCancel jsn now)).postHub m a (.urgent 0 0 2) else s.taken m jsn a (j.toCancel jsn now)) :
    ∃ j', t.job? a = some j' ∧ j' = { j with pending := j.pending ++ [{ jsn := jsn, cancel := true }], removeAt := j'.removeAt } ∧ (now = 1 → j'.removeAt = true) ∧
      (∀ n, t.entry? m n = s.entry? m n) ∧ OtherJobs a s t ∧ Keeps [.modules, .jobs, .net] s t ∧ JournalOnly m s t ∧
      (now = 0 → t.net = s.net) ∧ (now = 1 → ∃ u, t.net = s.net ++ [{ src := m * 1024, ctx := 11, asid := a, uid := u, seq := 0, cmd := none, kind := .urgent 0 0 2 }]) := by
  have hkeeps : Keeps [.modules, .jobs, .net] s (s.taken m jsn a (j.toCancel jsn now)) := (taken_keeps s m jsn a _).mono (by simp)
  refine ⟨j.toCancel jsn now, ?_, rfl, fun h1 => by simp [Job.toCancel, h1], ?_⟩
  · rw [ht]
    split_ifs <;> exact taken_job s m jsn a _
  · split_ifs at ht with h1
    · rw [ht]
      exact ⟨taken_entry h.module jsn a (j.toCancel jsn now), taken_otherJobs s m jsn a (j.toCancel jsn now), hkeeps.step (send_keeps _ _ _ _ _ _ _) (by simp), taken_journalOnly h.module jsn a (j.toCancel jsn now),
        fun h0 => absurd h0 (by omega), fun _ => ⟨_, rfl⟩⟩
    · rw [ht]
      exact ⟨taken_entry h.module jsn a _, taken_otherJobs s m jsn a _, hkeeps, taken_journalOnly h.module jsn a _, fun _ => rfl, fun h0 => absurd h0 h1⟩

-- the end of an idle job, with the CANCEL that ends it (R82, R85)
theorem entry?_of_books {d d' : Module} (h : d'.books = d.books) (n : Nat) : d'.entry? n = d.entry? n := by
  obtain ⟨hslots, hrest⟩ := Prod.mk.inj h
  obtain ⟨hheld, -⟩ := Prod.mk.inj hrest
  rw [entry?_eq, entry?_eq, Module.held?, Module.held?, hslots, hheld]

theorem heldTab_of_books {d d' : Module} (h : d'.books = d.books) : d'.heldTab = d.heldTab := congrArg (fun b => b.2.1) h

/-- Two commands of a module with journal `d` end, one after the other. -/
theorem finishCmd_two {d : Module} {r : Nat} {x : Entry} (hm : s.module? m = some d) (hr : risingFrom 0 d.heldTab = true) (he : d.entry? jsn = some e)
    (hf : e.final = false) (hx : d.entry? r = some x) (hxf : x.final = false) (hne : r ≠ jsn) (st ca : Nat) :
    ∃ d', Books m d d' s ((s.finishCmd m r st ca).finishCmd m jsn jCOMPLETED 0) ∧ EntryDone d' jsn 4 0 e ∧ EntryDone d' r st ca x := by
  have hfirst := finishCmd_books hm hx hxf st ca
  obtain ⟨-, -, -, -, -, hother, -⟩ := finished_spec hr hx st ca
  have he' : (d.finished r st ca x).entry? jsn = some e := (hother jsn hne.symm).trans he
  have hrise := finished_rising hr hx st ca
  exact ⟨_, hfirst.trans (finishCmd_books hfirst.after he' hf jCOMPLETED 0), finished_done hrise he' _ _,
    (finished_done hr hx st ca).finished hrise he' hne _ _⟩

theorem endJob_cancelled {j : Job} {x : Entry} {a now : Nat} (h : Due s m jsn d e) (hhome : j.home = m) (hp : j.pending = []) (hne : j.jsn ≠ jsn)
    (hx : d.entry? j.jsn = some x) (hxf : x.final = false) {t : State} (ht : t = (s.taken m jsn a (j.toCancel jsn now)).endJob a jCANCELLED 0 (some jsn)) :
    t.job? a = none ∧ EntryEnds m jsn 4 0 s t ∧ EntryEnds m j.jsn 6 0 s t ∧ OtherJobs a s t ∧ (∀ y ∈ t.net, y.asid ≠ a) ∧ ∀ k ∈ t.cores, k.2.asid ≠ a := by
  have hjob := taken_job s m jsn a (j.toCancel jsn now)
  obtain ⟨-, hothers, hbooks, hcores, hnet⟩ := releaseJob_spec hjob m
  have hmod := taken_module h.module jsn a (j.toCancel jsn now)
  have heq : t = (((s.taken m jsn a (j.toCancel jsn now)).releaseJob a).finishCmd m j.jsn jCANCELLED 0).finishCmd m jsn jCOMPLETED 0 := by
    rw [ht, endJob_eq hjob, State.answerPending]
    simp only [Job.toCancel, hp, hhome, List.nil_append, List.foldl_cons, List.foldl_nil, if_true]
  have hgone : t.job? a = none := ht ▸ endJob_gone hjob _ _ _
  rw [SameBooks, hmod, Option.map_some, Option.map_eq_some_iff] at hbooks
  obtain ⟨d₁, hd₁, hsame⟩ := hbooks
  have hentry (n : Nat) : d₁.entry? n = d.entry? n := entry?_of_books hsame n
  obtain ⟨d', hto, hdone, hended⟩ := finishCmd_two hd₁ (heldTab_of_books hsame ▸ h.rising) ((hentry _).trans h.entry) h.open_ ((hentry _).trans hx) hxf hne 6 0
  have hkeeps : Keeps [.modules, .host] ((s.taken m jsn a (j.toCancel jsn now)).releaseJob a) t := heq ▸ hto.keeps
  have hafter : t.module? m = some d' := heq ▸ hto.after
  refine ⟨hgone, hdone.ends h.module h.entry hafter, hended.ends h.module hx hafter, ?_, ?_, ?_⟩
  · exact (taken_otherJobs s m jsn a _).trans (hothers.trans (otherJobs_of_jobs a (hkeeps.jobs (by simp))))
  · rw [hkeeps.net (by simp)]
    exact hnet
  · rw [hkeeps.cores (by simp)]
    exact hcores

end Sys2Proof.Machine

/-! PAUSE, RESUME, READJOURNAL and SYNC (R76, R77, R85), and the rules of the commands. -/

namespace Sys2Proof.Machine

open Sys2Proof.Laws

variable {s t : State} {m q jsn n state cause : Nat} {d d' : Module} {e x : Entry} {c : Command}

-- PAUSE and RESUME (R77, R85)
section pause

variable {j : Job}

theorem pause_badFields (h : CommandDue s m jsn 3 c) (hb : BadFields c.bytes [0, 1, 2, 3]) : pauseAtBoundary m jsn s = s.cmdFault m jsn cBADFIELD := by
  rw [pauseAtBoundary, onCommand_due h]
  exact if_pos ((badFields_iff _ _).mp hb)

theorem pause_notLive (h : CommandDue s m jsn 3 c) (hb : ¬ BadFields c.bytes [0, 1, 2, 3]) (hlive : ∀ j, ¬ LiveJob s m (cmdAsid c.bytes) j) :
    pauseAtBoundary m jsn s = s.cmdFault m jsn cNOTLIVE := by
  rw [pauseAtBoundary, onCommand_due h]
  dsimp only
  rw [if_neg (mt (badFields_iff _ _).mpr hb), liveJob_none hlive]

theorem pause_live (h : CommandDue s m jsn 3 c) (hb : ¬ BadFields c.bytes [0, 1, 2, 3]) (hj : LiveJob s m (cmdAsid c.bytes) j) : pauseAtBoundary m jsn s =
    if (j.paused || j.pending.any fun r => !r.cancel) = true then s.cmdDone m jsn
    else s.taken m jsn (cmdAsid c.bytes) { j with pending := j.pending ++ [{ jsn := jsn, cancel := false }] } := by
  rw [pauseAtBoundary, onCommand_due h]
  dsimp only
  rw [if_neg (mt (badFields_iff _ _).mpr hb), liveJob_iff.mpr hj]
  rfl

theorem resume_badFields (h : CommandDue s m jsn 4 c) (hb : BadFields c.bytes [0, 1, 2, 3]) : resume m jsn s = s.cmdFault m jsn cBADFIELD := by
  rw [resume, onCommand_due h]
  exact if_pos ((badFields_iff _ _).mp hb)

variable (h : CommandDue s m jsn 4 c) (hb : ¬ BadFields c.bytes [0, 1, 2, 3])
include h hb

theorem resume_notLive (hlive : ∀ j, ¬ LiveJob s m (cmdAsid c.bytes) j) : resume m jsn s = s.cmdFault m jsn cNOTLIVE := by
  rw [resume, onCommand_due h]
  dsimp only
  rw [if_neg (mt (badFields_iff _ _).mpr hb), liveJob_none hlive]

variable (hj : LiveJob s m (cmdAsid c.bytes) j)
include hj

theorem resume_badState (hp : j.paused = false) (hr : ∀ r ∈ j.pending, r.cancel = true) : resume m jsn s = s.cmdFault m jsn cBADSTATE := by
  have hnone : j.pending.filter (fun r => !r.cancel) = [] := List.filter_eq_nil_iff.mpr fun r hmem => by simp [hr r hmem]
  rw [resume, onCommand_due h]
  dsimp only
  rw [if_neg (mt (badFields_iff _ _).mpr hb), liveJob_iff.mpr hj]
  simp only [hp, hnone, List.isEmpty_nil, Bool.false_eq_true, if_false, if_true]

theorem resume_paused (hp : j.paused = true) : resume m jsn s =
    ((s.setJob (cmdAsid c.bytes) { j with paused := false }).modEntry j.home j.jsn fun e => { e with state := jCOMMITTED }).cmdDone m jsn := by
  rw [resume, onCommand_due h]
  dsimp only
  rw [if_neg (mt (badFields_iff _ _).mpr hb), liveJob_iff.mpr hj]
  exact if_pos hp

theorem resume_pending {r : Request} (hp : j.paused = false) (hpend : j.pending = [r]) (hr : r.cancel = false) : resume m jsn s =
    ((s.setJob (cmdAsid c.bytes) { j with pending := [] }).finishCmd m r.jsn jCOMPLETED 0).cmdDone m jsn := by
  rw [resume, onCommand_due h]
  dsimp only
  rw [if_neg (mt (badFields_iff _ _).mpr hb), liveJob_iff.mpr hj]
  simp [hp, hpend, hr]

end pause

theorem Books.ofJob {a : Nat} {j : Job} (h : Books m d d' (s.setJob a j) t) : t.job? a = some j ∧ OtherJobs a s t ∧ Keeps [.modules, .jobs, .host] s t :=
  have hjobs := h.keeps.jobs (by simp)
  ⟨by rw [State.job?, hjobs]; exact job?_setJob_same s a j, (setJob_otherJobs s a j).trans (otherJobs_of_jobs a hjobs),
    ((setJob_keeps s a j).mono (by simp)).trans (h.keeps.mono (by simp))⟩

theorem Due.setJob (h : Due s m jsn d e) (a : Nat) (j : Job) : Due (s.setJob a j) m jsn d e := ⟨h.module, h.rising, h.entry, h.open_⟩

/-- A command ends after another entry has changed. -/
theorem modEntry_cmdDone {f : Entry → Entry} (h : Due s m jsn d e) (hn : n ≠ jsn) (hf : ∀ x, (f x).jsn = x.jsn) :
    ∃ d', Books m d d' s ((s.modEntry m n f).cmdDone m jsn) ∧ EntryDone d' jsn 4 0 e ∧ d'.entry? n = (d.entry? n).map f ∧ JournalOf d d' := by
  have hmod := modEntry_books h.module n f
  obtain ⟨sl, l, heq, hrise, hentry⟩ := modEntry_spec d n f h.rising hf
  have he : (d.modEntry n f).entry? jsn = some e := ((hentry jsn).trans (if_neg hn.symm)).trans h.entry
  have hr : risingFrom 0 ((d.modEntry n f).without jsn).heldTab = true := by
    show risingFrom 0 (d.modEntry n f).heldTab = true
    rw [heq]
    exact hrise
  obtain ⟨-, -, -, -, -, hother, -⟩ := finished_spec (d := (d.modEntry n f).without jsn) hr he jCOMPLETED 0
  exact ⟨_, hmod.trans (cmdDone_books hmod.after he h.open_), finished_done hr he _ _, (hother n hn).trans ((hentry n).trans (if_pos rfl)),
    ((modEntry_journalOf d n f).trans (without_journalOf _ jsn)).trans (finished_journalOf _ jsn _ _ e)⟩

/-- A command ends after another one. -/
theorem finishCmd_cmdDone (h : Due s m jsn d e) (hn : n ≠ jsn) (hx : d.entry? n = some x) (hxf : x.final = false) :
    ∃ d', Books m d d' s ((s.finishCmd m n jCOMPLETED 0).cmdDone m jsn) ∧ EntryDone d' jsn 4 0 e ∧ EntryDone d' n 4 0 x ∧ JournalOf d d' := by
  have hfirst := finishCmd_books h.module hx hxf jCOMPLETED 0
  obtain ⟨-, -, -, -, -, hother, -⟩ := finished_spec h.rising hx jCOMPLETED 0
  have he : ((d.finished n jCOMPLETED 0 x).without jsn).entry? jsn = some e := (hother jsn hn.symm).trans h.entry
  have hr : risingFrom 0 ((d.finished n jCOMPLETED 0 x).without jsn).heldTab = true := finished_rising h.rising hx jCOMPLETED 0
  have hdone : EntryDone ((d.finished n jCOMPLETED 0 x).without jsn) n 4 0 x := finished_done h.rising hx jCOMPLETED 0
  exact ⟨_, hfirst.trans (cmdDone_books hfirst.after he h.open_), finished_done hr he _ _, hdone.finished hr he hn _ _,
    ((finished_journalOf d n _ _ x).trans (without_journalOf _ jsn)).trans (finished_journalOf _ jsn _ _ e)⟩

-- READJOURNAL and SYNC (R76, R77)
theorem readJournalBad_iff (b : Nat) : (cmdReserved b || cmdArg b 3 != 0 || cmdArg b 1 == 0 || decide (4096 < cmdArg b 1) || cmdArg b 2 % 64 != 0) = true ↔
    BadFields b [3] ∨ cmdArg b 1 = 0 ∨ 4096 < cmdArg b 1 ∨ cmdArg b 2 % 64 ≠ 0 := by
  rw [badFields_iff]
  simp [noArgs, or_assoc]

theorem readJournal_bad (h : CommandDue s m jsn 6 c)
    (hb : BadFields c.bytes [3] ∨ cmdArg c.bytes 1 = 0 ∨ 4096 < cmdArg c.bytes 1 ∨ cmdArg c.bytes 2 % 64 ≠ 0) : readJournal m jsn s = s.cmdFault m jsn cBADFIELD := by
  rw [readJournal, onCommand_due h]
  exact if_pos ((readJournalBad_iff _).mpr hb)

/-- The journal image of entry `n`, as a number (R81). -/
def State.entryImage (s : State) (m n : Nat) : Nat := ((s.entry? m n).map Entry.toNat).getD 0
/-- `count` numbers of 64 bytes are written to host memory in a row. -/
def State.hostRow (s : State) (dst : Nat) (image : Nat → Nat) (count : Nat) : State :=
  (List.range count).foldl (fun s i => s.hostPut (dst + 64 * i) 64 (image i)) s

theorem hostRow_succ (s : State) (dst : Nat) (image : Nat → Nat) (n : Nat) : s.hostRow dst image (n + 1) = (s.hostRow dst image n).hostPut (dst + 64 * n) 64 (image n) := by
  simp only [State.hostRow, List.range_succ, List.foldl_append, List.foldl_cons, List.foldl_nil]

theorem hostRow_keeps (s : State) (dst : Nat) (image : Nat → Nat) (n : Nat) : Keeps [.host] s (s.hostRow dst image n) := foldl_keeps (fun v _ => hostPut_keeps v _ _ _) _ s

theorem hostRow_module (s : State) (dst : Nat) (image : Nat → Nat) (n k : Nat) : (s.hostRow dst image n).module? k = s.module? k := by
  rw [State.module?, (hostRow_keeps s dst image n).modules (by simp)]
  rfl

theorem hostRow_other (s : State) (dst : Nat) (image : Nat → Nat) {n a : Nat} (ha : a < dst ∨ dst + 64 * n ≤ a) :
    readByte (s.hostRow dst image n).host a = readByte s.host a := by
  induction n with
  | zero => rfl
  | succ n ih =>
    rw [hostRow_succ]
    exact (readByte_writeMem_ne 64 _ _ _ _ (by omega)).trans (ih (by omega))

theorem hostRow_image (s : State) (dst : Nat) (image : Nat → Nat) {n i : Nat} (hi : i < n) :
    readMem (s.hostRow dst image n).host (dst + 64 * i) 64 = image i % 2 ^ 512 := by
  induction n with
  | zero => exact absurd hi (Nat.not_lt_zero i)
  | succ n ih =>
    rw [hostRow_succ]
    obtain hlt | rfl := Nat.lt_succ_iff_lt_or_eq.mp hi
    · exact (readMem_writeMem_ne 64 64 _ _ _ _ (by omega)).trans (ih hlt)
    · exact readMem_writeMem_same 64 _ _ _

theorem readJournal_copies (h : CommandDue s m jsn 6 c) (hb : ¬ (BadFields c.bytes [3] ∨ cmdArg c.bytes 1 = 0 ∨ 4096 < cmdArg c.bytes 1 ∨ cmdArg c.bytes 2 % 64 ≠ 0)) :
    readJournal m jsn s = (s.hostRow (cmdArg c.bytes 2) (fun i => s.entryImage m (cmdArg c.bytes 0 + i)) (cmdArg c.bytes 1)).cmdDone m jsn := by
  rw [readJournal, onCommand_due h]
  dsimp only
  rw [if_neg (mt (readJournalBad_iff _).mp hb)]
  rfl

theorem hostRow_copies {dst first count : Nat} (h : Due s m jsn d e) (hj : d.jmen = false)
    (ht : t = (s.hostRow dst (fun i => s.entryImage m (first + i)) count).cmdDone m jsn) : EntryEnds m jsn 4 0 s t ∧
      (∀ i, i < count → readMem t.host (dst + 64 * i) 64 = s.entryImage m (first + i) % 2 ^ 512) ∧
      (∀ a, a < dst ∨ dst + 64 * count ≤ a → readByte t.host a = readByte s.host a) ∧ Keeps [.modules, .host] s t ∧ JournalOnly m s t := by
  have hrow := hostRow_module s dst (fun i => s.entryImage m (first + i)) count
  have hbooks := cmdDone_books ((hrow m).trans h.module) h.entry h.open_
  have hdone := finished_done (d := d.without jsn) h.rising h.entry 4 0
  rw [← ht] at hbooks
  rw [hbooks.host hj]
  exact ⟨hdone.ends h.module h.entry hbooks.after, fun i hi => hostRow_image s dst _ hi, fun a ha => hostRow_other s dst _ ha,
    ((hostRow_keeps s dst _ count).mono (by simp)).trans hbooks.keeps,
    journalOnly_of h.module hbooks.after ((without_journalOf d jsn).trans (finished_journalOf _ jsn _ _ e)) fun k hk => (hbooks.others k hk).trans (hrow k)⟩

theorem sync_badFields (h : CommandDue s m jsn 7 c) (hb : BadFields c.bytes [0, 1, 2, 3]) : sync m jsn s = s.cmdFault m jsn cBADFIELD := by
  rw [sync, onCommand_due h]
  exact if_pos ((badFields_iff _ _).mp hb)

theorem sync_eq (h : CommandDue s m jsn 7 c) (hb : ¬ BadFields c.bytes [0, 1, 2, 3]) (hm : s.module? m = some d) :
    sync m jsn s = if d.queueFinal c.queue jsn = true then s.cmdDone m jsn else s := by
  rw [sync, onCommand_due h, if_neg (mt (badFields_iff _ _).mpr hb), hm]
  rfl

theorem queueFinal_iff (d : Module) (q jsn : Nat) : d.queueFinal q jsn = true ↔
    ∀ e, e ∈ d.slots.map Prod.snd ++ d.heldTab.map Prod.snd → e.queue = q → e.jsn < jsn → e.final = true := by
  simp only [Module.queueFinal, List.all_eq_true, Bool.or_eq_true, bne_iff_ne, decide_eq_true_eq, or_assoc]
  refine forall₂_congr fun e _ => ?_
  rw [← imp_iff_not_or, ← Nat.not_lt, ← imp_iff_not_or]

/-- An instruction whose step is `f` answers what `f` gives. -/
theorem does_of_eq {i : Instr} {f : State → State} {P : State → Prop} (hi : exec i s = .next (f s)) (hf : f s = t) (h : P t) : Does i s P := ⟨t, hi.trans (congrArg _ hf), h⟩

theorem entry?_of_module (hm : s.module? m = some d) (n : Nat) : s.entry? m n = d.entry? n := by rw [State.entry?, hm]; rfl

/-- Settles O35: each command by the equation of its step, and its end by what the books of its module then hold. -/
theorem commands : Obligations.Commands := by
  unfold Obligations.Commands
  refine ⟨fun s m jsn c h => ?_, fun s m jsn c h => ?_, fun s m jsn c h => ?_, fun s m jsn c h => ?_, fun s m jsn c h => ?_, fun s m jsn c d h hm => ?_⟩
  · -- LAUNCH
    obtain ⟨d, e, hd⟩ := CommandDue.due h
    intro asid arg bad0 bad
    refine ⟨fun hb hheld => congrArg Host.Outcome.next (launch_waits h hb hheld), fun hnow => ⟨fun hb => ?_, fun cause hb hi => ?_, fun j hb hi => ?_⟩⟩
    · by_cases hb0 : bad0
      · exact does_of_eq rfl (launch_badFields h hb0) (CommandDue.faults h _)
      · exact does_of_eq rfl (launch_meets h hb0 (hnow.resolve_left hb0) (hb.resolve_left hb0)) (CommandDue.faults h _)
    all_goals
      obtain ⟨hb0, hmeets⟩ := not_or.mp hb
      replace hmeets := Bool.not_eq_true _ ▸ hmeets
      have hheld := hnow.resolve_left hb0
    · exact does_of_eq rfl (launch_badImage h hb0 hheld hmeets hi) (CommandDue.faults h _)
    · have heq := launch_image h hb0 hheld hmeets hi
      refine ⟨fun hbusy => ?_, fun hjob hbusy hplace => ?_, fun hjob hbusy hplace => ?_⟩
      · exact does_of_eq rfl (heq.trans (if_pos (by rw [Bool.or_eq_true]; exact hbusy.symm))) (CommandDue.faults h _)
      all_goals
        have hfree : ¬ (c.busy || (s.job? (cmdAsid c.bytes)).isSome) = true := by rw [show s.job? (cmdAsid c.bytes) = none from hjob, hbusy]; simp
        rw [if_neg hfree] at heq
      · exact does_of_eq rfl (heq.trans (if_pos (List.isEmpty_iff.mpr hplace))) (CommandDue.faults h _)
      · refine does_of_eq rfl (heq.trans (if_neg (mt List.isEmpty_iff.mp hplace))) ⟨taken_job s m jsn _ _, taken_otherJobs s m jsn _ _, taken_keeps s m jsn _ _,
          taken_journalOnly hd.module jsn _ _, taken_entry hd.module jsn _ _, ?_⟩
        rw [taken_module hd.module, hd.module]
        rfl
  · -- CANCEL
    obtain ⟨d, e, hd⟩ := CommandDue.due h
    intro asid now
    refine ⟨fun hb => does_of_eq rfl (cancel_badFields h hb) (CommandDue.faults h _), fun hb hnow hlive => ?_, fun j hb hnow hlive => ?_⟩
    all_goals have hb' : ¬ (BadFields c.bytes [1, 2, 3] ∨ 1 < now) := not_or.mpr ⟨hb, Nat.not_lt.mpr hnow⟩
    · exact does_of_eq rfl (cancel_notLive h hb' hlive) (CommandDue.faults h _)
    · have heq := cancel_live h hb' hlive
      refine ⟨fun hstage hheld => ?_, fun hidle hp hne hx hbusy => ?_, fun hidle hbusy => ?_⟩
      · have hrun : j.idle = false := by simp [Job.idle, hstage, hheld]
        rw [hrun, Bool.false_and, if_neg Bool.false_ne_true, if_neg Bool.false_ne_true] at heq
        exact ⟨_, rfl, cancel_pends hd heq⟩
      · obtain ⟨x, hx, hxf⟩ := hx
        rw [(idle_iff j).mpr hidle, hbusy, Bool.and_false, if_neg Bool.false_ne_true, if_pos rfl] at heq
        exact ⟨_, rfl, endJob_cancelled hd hlive.2.1 hp hne ((entry?_of_module hd.module _).symm.trans hx) hxf heq⟩
      · rw [(idle_iff j).mpr hidle, hbusy, Bool.and_self, if_pos rfl] at heq
        exact congrArg Host.Outcome.next heq
  · -- PAUSE
    obtain ⟨d, e, hd⟩ := CommandDue.due h
    intro asid
    refine ⟨fun hb => does_of_eq rfl (pause_badFields h hb) (CommandDue.faults h _),
      fun hb hlive => does_of_eq rfl (pause_notLive h hb hlive) (CommandDue.faults h _), fun j hb hlive => ⟨fun hp => ?_, fun hp hr => ?_⟩⟩
    · refine does_of_eq rfl ((pause_live h hb hlive).trans (if_pos ?_)) (CommandDue.done h)
      simpa using hp
    · refine does_of_eq rfl ((pause_live h hb hlive).trans (if_neg ?_)) ⟨taken_job s m jsn _ _, taken_otherJobs s m jsn _ _, taken_keeps s m jsn _ _,
        taken_journalOnly hd.module jsn _ _, taken_entry hd.module jsn _ _⟩
      simpa [hp] using hr
  · -- RESUME
    obtain ⟨d, e, hd⟩ := CommandDue.due h
    intro asid
    refine ⟨fun hb => does_of_eq rfl (resume_badFields h hb) (CommandDue.faults h _),
      fun hb hlive => does_of_eq rfl (resume_notLive h hb hlive) (CommandDue.faults h _), fun j hb hlive => ⟨fun hp hr => ?_, fun hp hne hx => ?_, fun r hp hpend hr hne hx => ?_⟩⟩
    · exact does_of_eq rfl (resume_badState h hb hlive hp hr) (CommandDue.faults h _)
    · obtain ⟨-, rfl, -⟩ := id hlive
      obtain ⟨d', hbooks, hdone, hentry, hof⟩ := modEntry_cmdDone (f := fun x => { x with state := jCOMMITTED }) (hd.setJob asid { j with paused := false }) hne fun _ => rfl
      obtain ⟨hjob, hothers, hkeeps⟩ := hbooks.ofJob
      refine does_of_eq rfl (resume_paused h hb hlive hp) ⟨hjob, hdone.ends hd.module hd.entry hbooks.after, ?_, hothers, hkeeps,
        journalOnly_of hd.module hbooks.after hof hbooks.others⟩
      exact (entry?_of_module hbooks.after _).trans (hentry.trans (congrArg _ (entry?_of_module hd.module _).symm))
    · obtain ⟨x, hx, hxf⟩ := hx
      rw [entry?_of_module hd.module] at hx
      obtain ⟨d', hbooks, hdone, hended, hof⟩ := finishCmd_cmdDone (hd.setJob asid { j with pending := [] }) hne hx hxf
      obtain ⟨hjob, hothers, hkeeps⟩ := hbooks.ofJob
      exact does_of_eq rfl (resume_pending h hb hlive hp hpend hr) ⟨hjob, hdone.ends hd.module hd.entry hbooks.after, hended.ends hd.module hx hbooks.after, hothers, hkeeps,
        journalOnly_of hd.module hbooks.after hof hbooks.others⟩
  · -- READJOURNAL
    obtain ⟨d, e, hd⟩ := CommandDue.due h
    intro arg bad
    refine ⟨fun hb => does_of_eq rfl (readJournal_bad h hb) (CommandDue.faults h _), fun hb hj => ?_⟩
    obtain ⟨d₁, hm, hj⟩ := hj
    obtain rfl : d = d₁ := Option.some.inj (hd.module.symm.trans hm)
    exact ⟨_, rfl, hostRow_copies hd hj (readJournal_copies h hb)⟩
  · -- SYNC
    refine ⟨fun hb => does_of_eq rfl (sync_badFields h hb) (CommandDue.faults h _), fun hb hall => ?_, fun hb hsome => ?_⟩
    · exact does_of_eq rfl ((sync_eq h hb hm).trans (if_pos ((queueFinal_iff _ _ _).mpr hall))) (CommandDue.done h)
    · refine congrArg Host.Outcome.next ((sync_eq h hb hm).trans (if_neg fun hall => ?_))
      obtain ⟨x, hmem, hq, hlt, hf⟩ := hsome
      exact absurd ((queueFinal_iff _ _ _).mp hall x hmem hq hlt) (by simp [hf])

end Sys2Proof.Machine
